-- ==== Sys2Proof/Word.lean ====
section
/-! DEFINITION. The words of the TX256 (00 R7, R8): bytes, 32-bit words and 128-bit blocks, and plain arithmetic on
them. -/

namespace Sys2Proof

/-- A byte of memory. -/
abbrev Byte := BitVec 8

/-- A 32-bit word: a register, an engine register, an address. -/
abbrev Word := BitVec 32

/-- A 128-bit memory block (R9). -/
abbrev Block := BitVec 128

/-- 1 for true, 0 for false (R8: a one-bit field of 1 means true). -/
def bit (b : Bool) : Nat := if b then 1 else 0

/-- Bits `lo + w - 1` down to `lo` of a number. -/
def bitsOf (v lo w : Nat) : Nat := v / 2 ^ lo % 2 ^ w

/-- The signed value of the low `w` bits of `v`. -/
def sgn (w v : Nat) : Int := if v % 2 ^ w < 2 ^ (w - 1) then ((v % 2 ^ w : Nat) : Int) else ((v % 2 ^ w : Nat) : Int) - (2 ^ w : Nat)

/-- A signed value in `w` bits, wrapped. -/
def unsgn (w : Nat) (x : Int) : Nat := (x % ((2 ^ w : Nat) : Int)).toNat

/-- A count that stops at `top` (00: "saturates"). -/
def satAdd (top a b : Nat) : Nat := min top (a + b)

/-- `v` with bit `i` set to `b`. -/
def putBit (v i : Nat) (b : Bool) : Nat :=
  if v.testBit i = b then v else if b then v + 2 ^ i else v - 2 ^ i

end Sys2Proof
end

