-- ==== Sys2Proof/Syntax.lean ====
section
/-! DEFINITION. The commands of the TX256: one constructor of `Instr` per row of the opcode table, with the row's
operands; the requesters and engines that commands name; the operand fields of the Kamotte formats. -/

namespace Sys2Proof

/-- A requester of Table AR-6 and of 11 R439. `hw` is the voted Heartwood; `splitA` and `splitB` are HA and HB in split
mode (10 R422); `trace` and `commit` share the debugger's arbiter input (01 R45). -/
inductive Req where
  | dbg
  | host (p : Fin 3)
  | root
  | se (k : Fin 6)
  | dma
  | hw
  | splitA
  | splitB
  | trace
  | commit
  deriving DecidableEq, Repr

/-- One of the ten Kamotte engines (09 R338). -/
inductive Eng where
  | ha
  | hb
  | hc
  | se (k : Fin 6)
  | root
  deriving DecidableEq, Repr

/-- The fields of a format R word besides OP and FN (Table KM-6). -/
structure ROp where
  d : Fin 16
  a : Fin 16
  b : Fin 16
  aux : BitVec 6
  x : Bool
  deriving DecidableEq, Repr

/-- The fields of a format I or M word besides OP, with its extension word. -/
structure IOp where
  d : Fin 16
  a : Fin 16
  imm : BitVec 17
  ext : Option Word
  deriving DecidableEq, Repr

/-- The fields of a format B word besides OP, with its extension word. -/
structure BOp where
  cond : Fin 16
  off : BitVec 21
  ext : Option Word
  deriving DecidableEq, Repr

/-- The requesters that present trains of bursts (11 R444, 10 R422). -/
def Req.trains (q : Req) : Bool := q == .hw || q == .splitA || q == .splitB

/-- The target range of a burst (11 R442): shared RAM, the bobbin store, the device registers, the diagnostics range. -/
inductive Target where
  | shared
  | bobbin
  | dev
  | diag
  deriving DecidableEq, Repr

/-- A request at the arbiter (11 R441): who asks, how long ago the request arrived (TU), its target range, and its blocks; of a core of the
Heartwood, those of the train (R444). -/
structure ArbReq where
  who : Req
  age : Nat
  target : Target
  blocks : Nat
  deriving DecidableEq, Repr

/-- A message of the Graft program (08 R332): the header's fields besides MTYPE and LEN, and the body. -/
structure GMsg where
  seg : BitVec 8
  dst : BitVec 10
  bcast : Bool
  term : BitVec 6
  sbob : BitVec 8
  origin : BitVec 10
  body : List Byte
  deriving DecidableEq, Repr

/-- What a Sync brings (06 R238, R245): the slot of its frame, whether the frame passes the safety code, and the offset in TU. -/
structure SyncIn where
  slot : BitVec 10
  safe : Bool
  off : Int
  deriving DecidableEq, Repr

/-- Where a delay message arrives (06 R242): the port, and its domainNumber. -/
structure DelayIn where
  port : Fin 6
  dom : BitVec 8
  deriving DecidableEq, Repr

/-- What the current comparator of a phase sees (14 R518, R519): the phase, and the sensed signal in 0.5 mV. -/
structure TripIn where
  phase : Fin 5
  sense : BitVec 16
  deriving DecidableEq, Repr

/-- What the sensor side shows at one grid instant (02, 03). `volts`: the sense voltage in nV that each system's decimator gives for this
instant, before the lead compensation (R80): the signal at the field pins one group delay (Table FE-2) earlier (R56); a system that is not
listed has 0 V. `rails`: the systems with a sense pin beyond the rails, and `broken`: those with an open sense conductor, which a
burn-out current drives to a rail (R89). `lost`: the systems whose source cannot hold its current (R90). Of the slices (R96): `bits`,
the bits that a modulator has given since the last instant, oldest first; `blocks`, those with an uncorrectable decimator state
block; `refs`, the difference of a spare's reference conversion from the reference in 0.001 % of full scale. `envs`: the analog envelope
that a comparator sees, in 1/256 of a DATA step of range 0 (03 R145). -/
structure GridIn where
  volts : List (Fin 64 × Int)
  rails : List (Fin 64)
  broken : List (Fin 64)
  lost : List (Fin 64)
  bits : List (Fin 72 × List Bool)
  blocks : List (Fin 72)
  refs : List (Fin 8 × Int)
  envs : List (Fin 64 × BitVec 24)
  deriving DecidableEq, Repr
/-- The commands, one constructor per row of the opcode table. -/
inductive Instr where
  /-- REGISTER_WRITE (R14): A write to a device register that has no row of its own takes effect field by field under the access codes of Table SC-5. -/
  | registerWrite (q : Req) (off : BitVec 16) (v : Word)
  /-- EVENT_DISPATCH (R361): Between instructions the lowest pending, enabled event is dispatched to EVP + 0x8 while EI is 1 and DSP is 0. -/
  | eventDispatch (e : Eng)
  /-- SIGNAL_DELIVERY (R393): Each Heartwood core takes a signal at the agreed delivery index, setting its PEND bit or carrying out the boundary mark or halt. -/
  | signalDelivery (c : Fin 3)
  /-- CYCLE_BOUNDARY (R254): Network time reaches a whole multiple of the cycle length, starting the cycle's boundary work. -/
  | cycleBoundary (busy : List Nat)
  /-- GRID_INSTANT (R54): A sample-grid instant in network time arrives and the front end applies everything due in the order of Table FE-11. -/
  | gridInstant (g : GridIn)
  /-- WINDOW_CLOSE (R79): Eight grid instants after the last opening condition ended, a head's wheel window closes. -/
  | windowClose (k : Fin 32)
  /-- SETTLING_END (R85): A system's settling delay of SETTLE words runs out and its words stop being blind. -/
  | settlingEnd (i : Fin 64)
  /-- INJECTION_END (R71): A test injection ends after DUR words of the system's rate. -/
  | injectionEnd (i : Fin 64)
  /-- DIAGNOSTIC_COMPLETE (R95): A diagnostic completes, restores routing and writes FE_AUXRES with VALID 1. -/
  | diagnosticComplete (i : Fin 64) (value : Int) (isOpen : Bool)
  /-- EXCITATION_WRITE (R60): A voted FE_EXC write without ARM is checked for routing, carrier spacing and budget and applied at the next grid instant. -/
  | excitationWrite (q : Req) (v : Word)
  /-- EXCITATION_STAGE (R65): A voted FE_EXC write with ARM 1 stages the change for an excitation-switching launch. -/
  | excitationStage (q : Req) (v : Word)
  /-- ROUTE_WRITE (R61): A write to FE_ROUTE0 or FE_ROUTE1 takes effect only while the system is off. -/
  | routeWrite (q : Req) (hi : Bool) (v : Word)
  /-- FE_CTRL_WRITE (R74): A write to FE_CTRL is checked against Table FE-4, the MUXSET span and the budget. -/
  | feCtrlWrite (q : Req) (v : Word)
  /-- RETIREMENT_REQUEST (R97): A voted write to FE_RETIRE requests retirement of a slice. -/
  | retirementRequest (q : Req) (v : Word)
  /-- DIAGNOSTIC_REQUEST (R92): A write to FE_DIAG.KIND requests a diagnostic of the selected system. -/
  | diagnosticRequest (q : Req) (v : Word)
  /-- GAIN_REQUEST (R76): A write of FE_GAIN.FIX with AUTO clear requests that range. -/
  | gainRequest (q : Req) (v : Word)
  /-- TEST_ARM (R71): A write of FE_TEST with ARM 1 arms the system's test injection. -/
  | testArm (q : Req) (v : Word)
  /-- RESULT_READ (R104): A read of FE_RESULT returns the latest word and latches its grid instant into FE_RESTIME. -/
  | resultRead (q : Req)
  /-- COMPARATOR_EDGE (R149): A system comparator changes state and the change is captured in network time. -/
  | comparatorEdge (i : Fin 64) (env : BitVec 24)
  /-- BASELINE_ACQUISITION (R144): After 50 ms a comparator accepts or discards its acquired baseline. -/
  | baselineAcquisition (i : Fin 64) (base : BitVec 16)
  /-- BASELINE_RETRY (R144): Every 1 s an indeterminate comparator tries again to acquire its baseline. -/
  | baselineRetry (i : Fin 64)
  /-- PASSSET (R163): A write to WD_PASSSET sets passage flags of heads for which the writer is primary. -/
  | passset (q : Req) (v : Word)
  /-- PASSCLR (R163): A write to WD_PASSCLR clears passage flags of heads for which the writer is primary. -/
  | passclr (q : Req) (v : Word)
  /-- CLAIM (R152): A voted write to WD_CLAIM searches the head's tally queue and gives a claim result. -/
  | claim (q : Req) (v : Word)
  /-- CLAIM_TIMEOUT (R153): A pending claim not resolved within AGE ms is resolved as NOMATCH. -/
  | claimTimeout (k : Fin 32)
  /-- ORPHAN (R154): A crossing record unclaimed for AGE ms is removed as an orphan and counted. -/
  | orphan (k : Fin 32)
  /-- COMPARATOR_PROOF (R157): At the end of an injection's tail the tally unit judges each injected comparator. -/
  | comparatorProof (k : Fin 32)
  /-- PROOFENG (R611): A voted write to WD_PROOFENG reports the engine verdict of a round. -/
  | proofeng (q : Req) (v : Word)
  /-- PROOF_STALE (R159): A head's proof age passes PROOFMAX and its WD_PSTALE bit is set. -/
  | proofStale (k : Fin 32)
  /-- HCFG_WRITE (R161): A write of WD_HCFG is applied, or held when HEN or POINT changes while the window is open. -/
  | hcfgWrite (q : Req) (k : Fin 32) (v : Word)
  /-- HEN_CHANGE (R161): A held HEN or POINT change takes effect at a closed window, resetting phase and tally queue. -/
  | henChange (k : Fin 32)
  /-- INBOUND_PUSH (R170): An aligned 128-bit write places a head event in the next free slot of a bobbin's inbound ring or is dropped and counted. -/
  | inboundPush (q : Req) (a : BitVec 18) (n : Fin 17) (v : Block)
  /-- ORIGIN_PUSH (R610): A Sapwood engine pushes a head event into the origin ring, or it is dropped with ORIGFULL. -/
  | originPush (k : Fin 6) (v : Block)
  /-- SHADOW_PUSH (R313): A shadow engine pushes a shadow event into the shadow ring, or it is dropped with SHDROP. -/
  | shadowPush (k : Fin 6) (v : Block)
  /-- INBACK (R171): A voted write to BB_INBACK acknowledges slots of a bobbin's inbound rings. -/
  | inback (q : Req) (v : Word)
  /-- ORIGIN_ACK (R610): A voted write of BB_ORIGIDX.RI acknowledges origin-ring slots. -/
  | originAck (q : Req) (v : Word)
  /-- SHADOW_ACK (R313): A voted write of GR_SHIDX.RI acknowledges shadow-ring slots. -/
  | shadowAck (q : Req) (v : Word)
  /-- EVALUATION (R191): The section program evaluates an active bobbin, presenting due classes in the order of Table BB-11 and committing the result. -/
  | evaluation (b : BitVec 8)
  /-- LOCK (R204): A write to BB_LOCK acquires a bobbin lock in ascending order, or waits while another holds it. -/
  | lock (q : Req) (b : BitVec 8)
  /-- LOCK_GRANT (R206): A waiting lock request is granted in arbiter priority order when the lock is released. -/
  | lockGrant (b : BitVec 8)
  /-- UNLOCK (R204): A write to BB_UNLOCK releases a lock held by the writer. -/
  | unlock (q : Req) (b : BitVec 8)
  /-- LOCK_BREAK (R208): A host or DMA holding a lock past LOCKMAX loses every lock and its input is masked. -/
  | lockBreak (dma : Bool) (p : Fin 3)
  /-- PREPARATORY_RESET (R194): An agreed command code 1 is queued for presentation as CMDPREP. -/
  | preparatoryReset
  /-- CONDITIONAL_RESET (R194): An agreed command code 2 is queued for presentation as CMDCOND. -/
  | conditionalReset
  /-- DIRECT_RESET (R194): An agreed command code 3 is queued for presentation as CMDDIRECT. -/
  | directReset
  /-- CANCEL_RESET_PROCEDURE (R194): An agreed command code 4 is queued for presentation as CMDCANCEL. -/
  | cancelResetProcedure
  /-- FINGERPRINT_CLEARANCE (R194): An agreed command code 5 is queued for presentation as CMDFP. -/
  | fingerprintClearance
  /-- OPERATOR_COMMAND (R194): An agreed command code 8 to 11 is queued for presentation as CMDOP0 to CMDOP3. -/
  | operatorCommand
  /-- INVALID_COMMAND (R194): An agreed BB_CMD with an invalid code gets result 7. -/
  | invalidCommand
  /-- CMDPOP (R195): A voted write to BB_CMDPOP removes the oldest queued command. -/
  | cmdpop (q : Req) (v : Word)
  /-- CMDDONE (R195): A voted write to BB_CMDDONE reports a command's final result to BB_CMDRES and the hosts. -/
  | cmddone (q : Req) (v : Word)
  /-- CLEARANCE_MATCH (R223): A voted FP_MATCH write with MODE 0 starts a clearance-mode fingerprint match. -/
  | clearanceMatch (q : Req) (b : BitVec 8)
  /-- LOCALISATION_MATCH (R226): A voted FP_MATCH write with MODE 1 starts a localisation-mode fingerprint match. -/
  | localisationMatch (q : Req) (b : BitVec 8)
  /-- MATCH_COMPLETE (R220): A running match completes and writes FP_RESULT and FP_DETAIL. -/
  | matchComplete
  /-- SYNC_RECEIVED (R245): A valid Sync updates the servo offset and rate and the node's time-quality state. -/
  | syncReceived (src : BitVec 10) (p : Fin 6) (dom : BitVec 8) (o : SyncIn)
  /-- ANNOUNCE_RECEIVED (R240): A valid Announce is taken and a master decides whether to yield or continue. -/
  | announceReceived (src node : BitVec 10) (dom : BitVec 8) (rank : Fin 4) (epoch : BitVec 4) (phase : BitVec 14) (est : BitVec 16)
  /-- PDELAY_REQ (R242): A received Pdelay_Req is answered with a one-step Pdelay_Resp. -/
  | pdelayReq (p : DelayIn)
  /-- PDELAY_RESP (R242): A received Pdelay_Resp adds a link delay measurement to the port's mean. -/
  | pdelayResp (p : DelayIn) (d : BitVec 16)
  /-- HOLDOVER_ENTRY (R251): No valid Sync for HOLDTO cycles puts the node in HOLDOVER on its last rate. -/
  | holdoverEntry
  /-- MASTER_TAKEOVER (R239): A candidate with no valid Announce for (r + 1) × ANNTO cycles becomes master. -/
  | masterTakeover
  /-- NOW_READ (R233): A read of TM_NOWLO returns low time and latches high time, epoch and quality. -/
  | nowRead (q : Req)
  /-- LAUNCH_ARM (R258): A write of TM_LCFG with ARM 1 arms a launch channel or refuses it. -/
  | launchArm (q : Req) (c : Fin 16) (v : Word)
  /-- LAUNCH_DISARM (R259): A write of TM_LCFG with ARM 0 disarms an armed or held channel. -/
  | launchDisarm (q : Req) (c : Fin 16) (v : Word)
  /-- EXCITE (R257): A due EXCITE launch applies the staged FE_EXC changes of its systems. -/
  | excite (c : Fin 16)
  /-- INJECT (R257): A due INJECT launch starts the armed test injections of its systems. -/
  | inject (c : Fin 16)
  /-- GRID (R264): A due GRID launch sets PHASEF to PHASE at a cycle boundary if RUN is 0, else is refused. -/
  | grid (c : Fin 16)
  /-- OUTPUT (R497): A due OUTPUT launch copies staged demand bits into PW_VODEM. -/
  | output (c : Fin 16)
  /-- EVENT (R257): A due EVENT launch delivers the launch event to the named engines. -/
  | event (c : Fin 16)
  /-- LAUNCH_COPY_FAULT (R262): A launch channel's copies disagree, so it does not fire and an external fault is reported. -/
  | launchCopyFault (c : Fin 16)
  /-- COMPARE_ARM (R263): A write of TM_CMPC with ARM 1 arms the requester's compare. -/
  | compareArm (q : Req) (v : Word)
  /-- COMPARE (R263): An armed compare falls due and delivers the compare event. -/
  | compare (q : Req)
  /-- FRAME_RECEIVED (R277): A received frame is checked for validity, accepted once and stored in the receive ring. -/
  | frameReceived (p : Fin 6) (l : List Byte)
  /-- HEVENT_DISPATCH (R305): The DMA pushes each head event of a stored frame into its bobbins' remote rings or drops it. -/
  | heventDispatch
  /-- BUFFER_CLOSE (R280): At 2,000 TU before release the DMA takes the last ready buffer and assembles the slot's frame. -/
  | bufferClose (r : Fin 2) (j : BitVec 10)
  /-- FRAME_RELEASE (R281): At REL(s) the Footside lets the frame start on both ring ports if it fits the window. -/
  | frameRelease (r : Fin 2) (j : BitVec 10) (bad : Bool)
  /-- FOOTSIDE_CUTOFF (R284): A transmission still running at the window's end is cut off. -/
  | footsideCutoff (r : Fin 2)
  /-- TX_READY (R280): A voted CK_TXRDY slot bit marks the NEXT buffer of an own data slot ready. -/
  | txReady (q : Req) (v : Word)
  /-- SUMMARY_READY (R303): A voted CK_TXRDY SUMH or SUMB bit marks a summary-train buffer ready. -/
  | summaryReady (q : Req) (v : Word)
  /-- SCHEDULE_START (R279): A voted write of CK_CTRL.RUN from 0 to 1 checks the schedule and enters LISTEN. -/
  | scheduleStart (q : Req) (v : Word)
  /-- SCHEDULE_STOP (R285): A write of RUN to 0 closes every window at once and frees CV0 to CV5. -/
  | scheduleStop (q : Req) (v : Word)
  /-- RX_RELEASE (R304): A voted write to CK_RXRI releases receive-ring buffers. -/
  | rxRelease (q : Req) (v : Word)
  /-- LINK_UP (R293): A port's link comes up and the port enters TRAIN. -/
  | linkUp (p : Fin 6)
  /-- LINK_DOWN (R293): A port's link is lost and the port enters DOWN. -/
  | linkDown (p : Fin 6)
  /-- LINK_TRAINING (R293): A port in TRAIN sends a link-training frame at most once per ms. -/
  | linkTraining (p : Fin 6)
  /-- RETRAIN (R293): A port in ERROR retrains after 1 s. -/
  | retrain (p : Fin 6)
  /-- LISTEN_TIMEOUT (R294): The listen timer runs out and an eligible node enters COLDSTART, else restarts the timer. -/
  | listenTimeout (r : Fin 2)
  /-- INTEGRATE_TIMEOUT (R297): A node in INTEGRATE with no valid frame for LBASE returns to LISTEN. -/
  | integrateTimeout (r : Fin 2)
  /-- RETURN_TIMEOUT (R299): An own frame fails to return within the ring latency, opening the ring view at the next boundary. -/
  | returnTimeout (r : Fin 2)
  /-- PLACEMENT_WRITE (R310): A voted write of GR_HPLACE sets SHAD after the placement checks, cancelling a pending hand-over. -/
  | placementWrite (q : Req) (k : Fin 32) (v : Word)
  /-- HAND_OVER_ORDER (R312): A voted GR_HPLACE write with HOVER 1 orders a hand-over to the shadow. -/
  | handOverOrder (q : Req) (k : Fin 32) (v : Word)
  /-- FORCED_MOVE (R316): A voted GR_HPLACE write with FORCE 1 requests a forced move of the head's primary. -/
  | forcedMove (q : Req) (k : Fin 32) (v : Word)
  /-- SEQ_WRITE (R315): The primary engine's write of GR_HPLACE records the head's last SEQ. -/
  | seqWrite (e : Fin 6) (k : Fin 32) (v : Word)
  /-- HAND_OVER (R312): A pending hand-over takes effect when its conditions hold, making the shadow primary. -/
  | handOver (k : Fin 32)
  /-- SHPASS_WRITE (R313): A write to GR_SHPASS changes only the shadow passage flags of the writer's heads. -/
  | shpassWrite (q : Req) (v : Word)
  /-- MIGRATE (R322): An agreed GR_CMD code 1 starts migration of a bobbin to a named node. -/
  | migrate
  /-- MIGRATEANY (R319): An agreed GR_CMD code 2 asks the coordinator to choose a migration target. -/
  | migrateAny
  /-- EVACUATE (R330): An agreed GR_CMD code 3 sets EVAC and migrates every active bobbin away. -/
  | evacuate
  /-- RESUME (R330): An agreed GR_CMD code 4 ends evacuation. -/
  | resume
  /-- CANCEL (R328): An agreed GR_CMD code 5 aborts the migration of a bobbin. -/
  | cancel
  /-- INVALID_ORDER (R320): An agreed GR_CMD with an invalid code gets result 7. -/
  | invalidOrder
  /-- ALIVE (R318): An ALIVE message is taken from the coordinator with its TERM. -/
  | alive (r : Fin 2) (m : GMsg)
  /-- OFFER (R321): A target receiving OFFER applies its checks and answers ACCEPT or REFUSE. -/
  | offer (r : Fin 2) (m : GMsg)
  /-- ACCEPT (R322): A source receiving ACCEPT records the target bobbin and C0. -/
  | accept (r : Fin 2) (m : GMsg)
  /-- REFUSE (R319): A REFUSE ends the migration or makes the coordinator try the next eligible node. -/
  | refuse (r : Fin 2) (m : GMsg)
  /-- SNAP (R324): A target takes a snapshot segment of the migrating bobbin. -/
  | snap (r : Fin 2) (m : GMsg)
  /-- DIGEST (R326): A target compares the source's digest with its own for a boundary. -/
  | digest (r : Fin 2) (m : GMsg)
  /-- READY (R322): A source receiving READY sends SWITCH naming C_h. -/
  | ready (r : Fin 2) (m : GMsg)
  /-- SWITCH (R335): A received SWITCH rewrites the endpoint's owner and sets MIG. -/
  | switch (r : Fin 2) (m : GMsg)
  /-- ABORT (R328): A received ABORT returns both bobbins to normal mode and removes the target bobbin. -/
  | abort (r : Fin 2) (m : GMsg)
  /-- REQ (R319): The coordinator receiving REQ chooses an eligible target and sends PLAN. -/
  | req (r : Fin 2) (m : GMsg)
  /-- PLAN (R319): A source receiving PLAN from the obeyed coordinator offers to the named node. -/
  | plan (r : Fin 2) (m : GMsg)
  /-- OWN (R336): A received OWN rewrites the named endpoints' owners during learning. -/
  | own (r : Fin 2) (m : GMsg)
  /-- LOAD (R319): The coordinator records a node's free bobbins and EVAC, MAINT and TQLOW flags. -/
  | load (r : Fin 2) (m : GMsg)
  /-- MIGRATION_COLLECT (R323): At C0 the target adds its bobbin to the point map and activates it shadow-in. -/
  | migrationCollect (x : Fin 8)
  /-- MIGRATION_SNAPSHOT (R324): At C1 the source takes the 528-byte snapshot and starts sending it. -/
  | migrationSnapshot (x : Fin 8)
  /-- INSTALL (R325): At its first evaluation after the last segment the target installs the snapshot. -/
  | install (x : Fin 8)
  /-- OWNERSHIP_SWITCH (R327): At C_h the source deactivates its bobbin and the target takes it into normal mode. -/
  | ownershipSwitch (x : Fin 8)
  /-- MIGRATION_TIMEOUT (R328): A missing reply, digest or READY aborts a migration before SWITCH. -/
  | migrationTimeout (x : Fin 8)
  /-- COORDINATOR_TAKEOVER (R318): The standby with no ALIVE for CTO cycles takes the coordinator role with TERM + 1. -/
  | coordinatorTakeover
  /-- LEARNING_END (R336): After 40 cycles the node activates the bobbins its endpoints name it for. -/
  | learningEnd
  /-- EVACUATION_RETRY (R330): An aborted evacuation migration is requested again after 16 cycles. -/
  | evacuationRetry (b : BitVec 8)
  /-- ENGINE_RETIREMENT (R554): A voted write to AG_ENGRET retires a Sapwood engine and releases its latches. -/
  | engineRetirement (q : Req) (v : Word)
  /-- ADD (R351): D := A + B with NZCV. -/
  | add (e : Eng) (o : ROp)
  /-- ADC (R351): D := A + B + C with NZCV. -/
  | adc (e : Eng) (o : ROp)
  /-- SUB (R351): D := A − B with NZCV. -/
  | sub (e : Eng) (o : ROp)
  /-- SBC (R351): D := A − B − (1 − C) with NZCV. -/
  | sbc (e : Eng) (o : ROp)
  /-- AND (R351): D := A AND B with NZ. -/
  | and_ (e : Eng) (o : ROp)
  /-- OR (R351): D := A OR B with NZ. -/
  | or_ (e : Eng) (o : ROp)
  /-- XOR (R351): D := A XOR B with NZ. -/
  | xor_ (e : Eng) (o : ROp)
  /-- ANDN (R351): D := A AND NOT B with NZ. -/
  | andn (e : Eng) (o : ROp)
  /-- CMP (R351): A − B sets NZCV and discards the result. -/
  | cmp (e : Eng) (o : ROp)
  /-- TST (R351): A AND B sets NZ and discards the result. -/
  | tst (e : Eng) (o : ROp)
  /-- SHL (R352): Shift A left by B[7:0]. -/
  | shl (e : Eng) (o : ROp)
  /-- SHR (R352): Shift A right logically by B[7:0]. -/
  | shr (e : Eng) (o : ROp)
  /-- SAR (R352): Shift A right arithmetically by B[7:0]. -/
  | sar (e : Eng) (o : ROp)
  /-- ROR (R352): Rotate A right by B[7:0] modulo 32. -/
  | ror (e : Eng) (o : ROp)
  /-- SHLI (R352): Shift A left by AUX[4:0]. -/
  | shli (e : Eng) (o : ROp)
  /-- SHRI (R352): Shift A right logically by AUX[4:0]. -/
  | shri (e : Eng) (o : ROp)
  /-- SARI (R352): Shift A right arithmetically by AUX[4:0]. -/
  | sari (e : Eng) (o : ROp)
  /-- RORI (R352): Rotate A right by AUX[4:0]. -/
  | rori (e : Eng) (o : ROp)
  /-- MUL (R351): D := low 32 bits of A × B. -/
  | mul (e : Eng) (o : ROp)
  /-- MULH (R351): D := high 32 bits of signed A × B. -/
  | mulh (e : Eng) (o : ROp)
  /-- MULHU (R351): D := high 32 bits of unsigned A × B. -/
  | mulhu (e : Eng) (o : ROp)
  /-- MULQ (R352): D := rounded signed Q1.31 product, saturating with Q. -/
  | mulq (e : Eng) (o : ROp)
  /-- DIV (R353): Signed quotient truncated toward zero, V on division by zero or overflow. -/
  | div (e : Eng) (o : ROp)
  /-- DIVU (R353): Unsigned quotient, V on division by zero. -/
  | divu (e : Eng) (o : ROp)
  /-- REM (R353): Signed remainder with the sign of the dividend. -/
  | rem (e : Eng) (o : ROp)
  /-- REMU (R353): Unsigned remainder. -/
  | remu (e : Eng) (o : ROp)
  /-- MIN (R351): D := signed smaller of A and B. -/
  | min (e : Eng) (o : ROp)
  /-- MAX (R351): D := signed larger of A and B. -/
  | max (e : Eng) (o : ROp)
  /-- MINU (R351): D := unsigned smaller of A and B. -/
  | minu (e : Eng) (o : ROp)
  /-- MAXU (R351): D := unsigned larger of A and B. -/
  | maxu (e : Eng) (o : ROp)
  /-- SEL (R350): D := A if condition AUX[3:0] holds, else B. -/
  | sel (e : Eng) (o : ROp)
  /-- CLZ (R351): D := number of leading zeros of A. -/
  | clz (e : Eng) (o : ROp)
  /-- SXH (R351): D := A[15:0] sign-extended. -/
  | sxh (e : Eng) (o : ROp)
  /-- SXB (R351): D := A[7:0] sign-extended. -/
  | sxb (e : Eng) (o : ROp)
  /-- ZXH (R351): D := A[15:0] zero-extended. -/
  | zxh (e : Eng) (o : ROp)
  /-- ZXB (R351): D := A[7:0] zero-extended. -/
  | zxb (e : Eng) (o : ROp)
  /-- ADDI (R351): D := A + sign-extended immediate with NZCV. -/
  | addi (e : Eng) (o : IOp)
  /-- ANDI (R351): D := A AND zero-extended immediate. -/
  | andi (e : Eng) (o : IOp)
  /-- ORI (R351): D := A OR zero-extended immediate. -/
  | ori (e : Eng) (o : IOp)
  /-- XORI (R351): D := A XOR zero-extended immediate. -/
  | xori (e : Eng) (o : IOp)
  /-- CMPI (R351): A − immediate sets NZCV. -/
  | cmpi (e : Eng) (o : IOp)
  /-- MOVI (R351): D := sign-extended immediate or extension word. -/
  | movi (e : Eng) (o : IOp)
  /-- TSTI (R351): A AND zero-extended immediate sets NZ. -/
  | tsti (e : Eng) (o : IOp)
  /-- LDW (R354): Load a word; in the Heartwood an agreed read. -/
  | ldw (e : Eng) (o : IOp)
  /-- LDH (R354): Load a half-word sign-extended. -/
  | ldh (e : Eng) (o : IOp)
  /-- LDHU (R354): Load a half-word zero-extended. -/
  | ldhu (e : Eng) (o : IOp)
  /-- LDB (R354): Load a byte sign-extended. -/
  | ldb (e : Eng) (o : IOp)
  /-- LDBU (R354): Load a byte zero-extended. -/
  | ldbu (e : Eng) (o : IOp)
  /-- LDQ (R354): Load a 128-bit block into four registers as one access. -/
  | ldq (e : Eng) (o : IOp)
  /-- LDX (R354): Load at A + scaled B with the size chosen by FN. -/
  | ldx (e : Eng) (o : ROp) (fn : BitVec 7)
  /-- STW (R354): Store a word; in the Heartwood outside the sphere a voted commit-point write. -/
  | stw (e : Eng) (o : IOp)
  /-- STH (R354): Store a half-word by read-modify-write. -/
  | sth (e : Eng) (o : IOp)
  /-- STB (R354): Store a byte by read-modify-write. -/
  | stb (e : Eng) (o : IOp)
  /-- STQ (R354): Store a 128-bit block as one whole-block write. -/
  | stq (e : Eng) (o : IOp)
  /-- STX (R354): Store at A + scaled B with the size chosen by FN. -/
  | stx (e : Eng) (o : ROp) (fn : BitVec 7)
  /-- B (R350): Branch to the target when the condition holds. -/
  | b (e : Eng) (o : BOp)
  /-- BL (R350): Branch and link into W15 when the condition holds. -/
  | bl (e : Eng) (o : BOp)
  /-- BR (R351): Jump to the address in A. -/
  | br (e : Eng) (o : ROp)
  /-- BLR (R351): Jump to the address in A and link into W15. -/
  | blr (e : Eng) (o : ROp)
  /-- NOP (R351): Do nothing for 1 st. -/
  | nop (e : Eng) (o : ROp)
  /-- WAIT (R362): Wait until an enabled event becomes pending, then dispatch or continue. -/
  | wait (e : Eng) (o : ROp)
  /-- TRAP (R363): Dispatch a trap with number AUX to EVP + 0x4. -/
  | trap (e : Eng) (o : ROp)
  /-- BRK (R363): Halt for the debugger, or fault as illegal when the debugger is disabled. -/
  | brk (e : Eng) (o : ROp)
  /-- MFS (R351): Read a special register into D. -/
  | mfs (e : Eng) (o : ROp)
  /-- MTS (R356): Write a special register from A, with dispatch if EI becomes set. -/
  | mts (e : Eng) (o : ROp)
  /-- RTD (R358): Return from dispatch, restoring FLG and PC from the stack. -/
  | rtd (e : Eng) (o : ROp)
  /-- CFENCE (R365): Close the commit group and wait until it has landed everywhere. -/
  | cfence (e : Eng) (o : ROp)
  /-- SWEEP (R367): Close the group and ask the voter to compare state signatures now. -/
  | sweep (e : Eng) (o : ROp)
  /-- LDA (R366): Fully ordered agreed read of a word after every earlier commit has landed. -/
  | lda (e : Eng) (o : IOp)
  /-- LDAQ (R366): Fully ordered agreed read of a block. -/
  | ldaq (e : Eng) (o : IOp)
  /-- MAC (R369): Add the selected product term to an accumulator with saturation. -/
  | mac (e : Eng) (o : ROp)
  /-- MSU (R369): Subtract the selected product term from an accumulator with saturation. -/
  | msu (e : Eng) (o : ROp)
  /-- ACLR (R369): Clear an accumulator. -/
  | aclr (e : Eng) (o : ROp)
  /-- ARD (R370): Read an accumulator shifted, rounded and saturated to 32 bits. -/
  | ard (e : Eng) (o : ROp)
  /-- AWR (R369): Write an accumulator from A sign-extended. -/
  | awr (e : Eng) (o : ROp)
  /-- TCOR (R374): Four-point correlation step into M0 and energy into M1, advancing both pointers. -/
  | tcor (e : Eng) (o : ROp)
  /-- LUTI (R373): Interpolate linearly in a Q1.15 table at a Q16.16 position. -/
  | luti (e : Eng) (o : ROp)
  /-- ADDS (R351): Saturating 32-bit add. -/
  | adds (e : Eng) (o : ROp)
  /-- SUBS (R351): Saturating 32-bit subtract. -/
  | subs (e : Eng) (o : ROp)
  /-- ADDS2 (R351): Saturating add of two 16-bit lanes. -/
  | adds2 (e : Eng) (o : ROp)
  /-- SUBS2 (R351): Saturating subtract of two 16-bit lanes. -/
  | subs2 (e : Eng) (o : ROp)
  /-- NEGS (R351): Saturating negation. -/
  | negs (e : Eng) (o : ROp)
  /-- ABSS (R351): Saturating absolute value. -/
  | abss (e : Eng) (o : ROp)
  /-- SATH (R351): Clamp A to the signed 16-bit range. -/
  | sath (e : Eng) (o : ROp)
  /-- SHLS (R351): Saturating left shift by AUX[4:0]. -/
  | shls (e : Eng) (o : ROp)
  /-- CBSET (R371): Set a circular context's base and length. -/
  | cbset (e : Eng) (o : ROp)
  /-- LDCW (R371): Circular load of a word with pointer update. -/
  | ldcw (e : Eng) (o : ROp)
  /-- LDCH (R371): Circular load of a sign-extended half-word with pointer update. -/
  | ldch (e : Eng) (o : ROp)
  /-- STCW (R371): Circular store of a word with pointer update. -/
  | stcw (e : Eng) (o : ROp)
  /-- STCH (R371): Circular store of a half-word with pointer update. -/
  | stch (e : Eng) (o : ROp)
  /-- SIN (R372): Wait for and take a stream word and its grid instant from a system's latch. -/
  | sin (e : Eng) (o : ROp)
  /-- SCHK (R372): Set Z when a system's latch holds no new word. -/
  | schk (e : Eng) (o : ROp)
  /-- EIN (R375): Take the oldest edge record from the edge FIFO, or set Z when empty. -/
  | ein (e : Eng) (o : ROp)
  /-- MON (R376): Read the latest reading of a growth-ring monitor. -/
  | mon (e : Eng) (o : ROp)
  /-- VSET (R376): Request a core-rail setpoint from 800 to 1,050 mV. -/
  | vset (e : Eng) (o : ROp)
  /-- RATE (R541): Read an engine's measured step rate over the last completed cycle. -/
  | rate (e : Eng) (o : ROp)
  /-- COMMIT_LAND (R385): A commit group lands once two copies agree, as a train of bursts with the voted flag. -/
  | commitLand
  /-- LAG_EXPIRY (R385): A third copy or request not arriving within LAG is a late mismatch and fences that core. -/
  | lagExpiry (c : Fin 3)
  /-- STALL (R387): Fewer than two agreeing copies after STALLT makes the voter declare a stall. -/
  | stall
  /-- RAM_SCRUB (R398): The Heartwood scrubber finishes a pass and recomputes each core's RAM signature. -/
  | ramScrub (found : List (Nat × Nat)) (changed : List (Nat × Block))
  /-- SELFTEST_COMPLETE (R405): A fenced core's self-test ends and the core enters COPY or is retired. -/
  | selftestComplete (c : Fin 3) (pass : Bool)
  /-- COPY_COMPLETE (R408): The copier finishes moving Heartwood RAM and the core enters JOIN. -/
  | copyComplete (c : Fin 3) (bad : Bool)
  /-- VOTER_FAULT (R416): A rail disagreement in the voter or agreement unit enters the safe state with KIND 6. -/
  | voterFault
  /-- PHASE_WRITE (R412): A voted write to HW_PHASE sets the phase and restarts the RSLIM count. -/
  | phaseWrite (q : Req) (v : Word)
  /-- COMMIT_PROOF (R414): A voted HW_TEST write with KIND 0 inverts a bit of the named core's next group. -/
  | commitProof (q : Req) (core : BitVec 2)
  /-- SWEEP_PROOF (R414): A voted HW_TEST write with KIND 1 inverts a bit of the named core's next signature. -/
  | sweepProof (q : Req) (core : BitVec 2)
  /-- SPLIT_REQUEST (R425): A voted HW_MODEREQ write of MODE 2 requests split mode. -/
  | splitRequest (q : Req)
  /-- VOTED_REQUEST (R426): A split-mode core's HW_MODEREQ write of MODE 1 requests voted mode. -/
  | votedRequest (q : Req)
  /-- REQUEST_DROP (R426): A single voted-mode request unmatched within 2 cycles is dropped with MODEREF. -/
  | requestDrop
  /-- MEMORY_SCRUB (R437): A scrubber or flash check pass completes over a memory kind. -/
  | memoryScrub (kind : Fin 6) (found : List (Nat × Nat))
  /-- BURST_GRANT (R441): The arbiter grants the chosen request and takes the decision for the next round. -/
  | burstGrant (new : List ArbReq)
  /-- BURST_END (R442): A burst of up to eight blocks completes and its grant is removed. -/
  | burstEnd
  /-- WATCHDOG_BITE (R449): A grant held for 1,000 TU is removed and the input masked. -/
  | watchdogBite (moved : Fin 9)
  /-- QUIESCE (R447): A voted write of 1 to MI_QUIESCE.REQ stops grants to inputs 0 to 11. -/
  | quiesce (q : Req)
  /-- QUIESCE_END (R447): A voted write of 0 to MI_QUIESCE.REQ ends the quiesce. -/
  | quiesceEnd (q : Req)
  /-- QUIESCE_TIMEOUT (R448): A quiesce lasting QMAX µs ends by itself with QTO. -/
  | quiesceTimeout
  /-- MAP_WRITE (R448): A write to MI_MAP0 or MI_MAP1 remaps requesters to inputs while quiesced. -/
  | mapWrite (q : Req) (hi : Bool) (v : Word)
  /-- CNTCLR (R445): Any write to MI_CNTCLR clears the arbiter counters. -/
  | cntclr (q : Req) (v : Word)
  /-- UNIT_CLAIM (R456): A write of CV_CLAIM.CLAIM claims a free check-value unit. -/
  | unitClaim (q : Req)
  /-- UNIT_RELEASE (R456): A write of CV_CLAIM.RELEASE by the owner frees the unit. -/
  | unitRelease (q : Req)
  /-- CV_INIT (R452): A write of CV_CMD.INIT loads INIT into the running register. -/
  | cvInit (q : Req)
  /-- CV_COMPARE (R455): A write of CV_CMD.CMP compares the result with CV_EXPECT. -/
  | cvCompare (q : Req)
  /-- DATA_FEED (R454): A write to CV_DATA8, CV_DATA16 or CV_DATA32 feeds bytes to the unit. -/
  | dataFeed (q : Req) (width : Fin 3) (v : Word)
  /-- ABSORB_COMPLETE (R454): The unit finishes absorbing fed bytes and BUSY clears. -/
  | absorbComplete (u : Fin 8)
  /-- CV_RESULT_READ (R454): A read of CV_RESULT waits for absorption and returns the result. -/
  | cvResultRead (q : Req)
  /-- MIRROR_READ (R463): A host read of the mirror window completes with no wait state. -/
  | mirrorRead (p : Fin 3) (w : BitVec 12)
  /-- HOST_ACCESS (R464): A wait-stated host access passes the arbiter as one burst and completes or ends with the error response. -/
  | hostAccess (p : Fin 3) (write : Bool) (addr : Word) (be : BitVec 4) (v : Word)
  /-- READY_TIMEOUT (R468): An access holding HxRDY low for RDYTO µs ends with the error response. -/
  | readyTimeout (p : Fin 3)
  /-- PROPOSAL (R470): A host write to an AW register registers that port's proposal. -/
  | proposal (p : Fin 3) (gr : Bool) (v : Word)
  /-- PROPOSAL_EXPIRY (R473): A proposal not agreed within AGREEW expires with AGRFAIL. -/
  | proposalExpiry
  /-- QUEUE_READ (R483): A read of HP_QLO by the port's own host takes the oldest event entry. -/
  | queueRead (p : Fin 3)
  /-- TOKEN (R493): A voted PW_VOTOKEN write with the current cycle and challenge makes an output live. -/
  | token (q : Req) (v : Word)
  /-- DEMAND_WRITE (R496): A voted write to PW_VODEM changes the outputs' demand bits. -/
  | demandWrite (q : Req) (v : Word)
  /-- HALF_PERIOD (R490): A running output's half period elapses, sampling its readback and checking its copies. -/
  | halfPeriod (n : Fin 16) (cls : Fin 3) (differ : Bool)
  /-- LEAKAGE_SAMPLE (R503): A stopped output's comparator is sampled every 100 µs and ten samples at or above ILO latch leakage. -/
  | leakageSample (n : Fin 16) (high : Bool)
  /-- FAULT_CLEAR (R505): A voted write of 1 to PW_VOFAULT clears a fault while demand is 0. -/
  | faultClear (q : Req) (v : Word)
  /-- PERIOD_START (R518): A converter phase starts its period and the voltage loop sets the trip level. -/
  | periodStart (x : Fin 5) (mv : BitVec 16)
  /-- TRIP (R518): The current comparator trips and turns the high-side gate off within 20 ns. -/
  | trip (x : TripIn)
  /-- DUTY_LIMIT (R518): A phase that has not tripped by DMAX turns off. -/
  | dutyLimit (x : Fin 5)
  /-- CURRENT_LIMIT_FAULT (R521): A generator at ILIM for 1,024 periods resets the device or stops PG3. -/
  | currentLimitFault (g : Fin 4)
  /-- WINDOW_COMPARATOR_CHANGE (R525): A window comparator changes band after its filter and its counters and status update. -/
  | windowComparatorChange (w : Fin 32) (st : Fin 3)
  /-- DIP_WARNING (R527): VIN below THI for 1 µs asserts the dip warning and sheds load. -/
  | dipWarning
  /-- DIP_CLEAR (R527): VIN above THI + 0.5 V for DIPCLR clears the warning. -/
  | dipClear
  /-- LOW_INPUT_RESET (R527): VIN below TLO for 2 µs resets the device until power-up completes. -/
  | lowInputReset
  /-- POWER_ON (R516): VIN rising from below the keeper's minimum starts the power-up sequence. -/
  | powerOn (straps : BitVec 2) (cls0 cls1 : BitVec 4)
  /-- SOFT_START_TIMEOUT (R516): A rail not in window within 2 ms of soft-start stops the sequence and switches every generator off. -/
  | softStartTimeout (rail : Fin 4)
  /-- POWER_UP_RETRY (R516): 200 ms after a failed sequence the power-up sequence starts again. -/
  | powerUpRetry
  /-- POWER_CYCLE (R532): A Root write of KEY 0x5AC3 to PW_CYCLE stops outputs and rails for 200 ms. -/
  | powerCycle (q : Req) (v : Word)
  /-- POWER_CYCLE_END (R532): After 200 ms of keeper-only running the power-up sequence starts. -/
  | powerCycleEnd
  /-- MONITOR_MEASUREMENT (R538): A growth-ring monitor is measured and self-checked in its 10 ms slot. -/
  | monitorMeasurement (i : Fin 48) (margin : BitVec 16) (temp : BitVec 8) (fault : Bool)
  /-- OPERATING_HOUR (R548): Each 3,600 s of running increments AG_HOURS. -/
  | operatingHour
  /-- HOURS_WRITE (R548): The Root engine's first write of AG_HOURS after reset sets the count. -/
  | hoursWrite (q : Req) (v : Word)
  /-- RESET_BALL (R559): RST_N asserted starts a device reset and clears the keeper counters and hold. -/
  | resetBall
  /-- BLOCK_RESET (R564): A write of RB_BRST with the key resets the named block. -/
  | blockReset (q : Req) (v : Word)
  /-- DEVICE_RESET_REQUEST (R579): A write of RB_RESET with the key resets the device, evacuating first when EVAC is 1. -/
  | deviceResetRequest (q : Req) (v : Word)
  /-- EVACUATION_TIMEOUT (R579): Evacuation not empty after EVT s sets EVACTO and resets the device. -/
  | evacuationTimeout
  /-- COMMIT_START (R572): A voted RB_CCTRL write of OP 1 erases the image part of the inactive bank. -/
  | commitStart (q : Req)
  /-- ERASE_DONE (R572): The erase completes and the commit becomes ready for chunks. -/
  | eraseDone
  /-- CHUNK (R572): A voted write of RB_CCHUNK programs blocks from the staging buffer. -/
  | chunk (q : Req) (v : Word)
  /-- CHUNK_DONE (R572): A chunk finishes programming and CHUNK is set. -/
  | chunkDone (ok : Bool)
  /-- COMMIT_FINISH (R572): A voted RB_CCTRL write of OP 2 checks the image and writes the new pointer record. -/
  | commitFinish (q : Req)
  /-- COMMIT_ABORT (R573): A voted RB_CCTRL write of OP 3 stops the commit at the next block boundary. -/
  | commitAbort (q : Req)
  /-- COMMIT_TIMEOUT (R573): A commit exceeding 3 s before its pointer write fails. -/
  | commitTimeout
  /-- RECORD (R575): A write of RB_RECORD appends an entry to the record area, compacting if needed. -/
  | record (q : Req) (v : Word)
  /-- RECORD_DONE (R575): A record commit completes and RECDONE is set. -/
  | recordDone
  /-- ROOT_KICK (R576): The Root engine's write of KEY 0xC0DE to RB_RKICK restarts both watchdogs. -/
  | rootKick (q : Req) (v : Word)
  /-- ROOT_WATCHDOG (R576): RWDT cycles without a kick set RWDOG and signal event 12. -/
  | rootWatchdog
  /-- KEEPER_WATCHDOG (R577): KWDT seconds without a kick start a power cycle with cause 5. -/
  | keeperWatchdog
  /-- LADDER_WRITE (R581): A write to RB_LADDER appends a recovery-log entry. -/
  | ladderWrite (q : Req) (v : Word)
  /-- LADDER_COUNTER_CLEAR (R580): After 10 min of SERVICE the keeper clears DRSTN and PCYCN. -/
  | ladderCounterClear
  /-- DEBUG_HALT (R585): A DB_CTRL write with HALT halts the target at its next instruction boundary. -/
  | debugHalt
  /-- DEBUG_RESUME (R585): A DB_CTRL write with RESUME resumes the target. -/
  | debugResume
  /-- SINGLE_STEP (R430): A DB_CTRL write with STEP retires one instruction in every voting core. -/
  | singleStep
  /-- SYSRST (R559): A DB_CTRL write with SYSRST makes a device reset with cause 8. -/
  | sysrst
  /-- DB_DATA_ACCESS (R585): An access of DB_DATA reads or writes the target's RAM word and advances DB_ADDR. -/
  | dbDataAccess (write : Bool) (v : Word)
  /-- REGDATA_ACCESS (R585): An access of DB_REGDATA reads or writes a register of the halted target, replayed into voting cores. -/
  | regdataAccess (write : Bool) (v : Word)
  /-- TRACE_DUMP (R586): A DB_TRDUMP write with GO copies DEPTH trace entries to TRBASE. -/
  | traceDump
  /-- EXTEST (R608): TAP instruction EXTEST, acting as BYPASS with SDBG 0. -/
  | extest (pins shift : BitVec 273)
  /-- SAMPLE_PRELOAD (R608): TAP instruction SAMPLE/PRELOAD. -/
  | samplePreload (pins shift : BitVec 273)
  /-- IDCODE (R608): TAP instruction IDCODE selecting the identification register. -/
  | idcode
  /-- CLAMP (R609): TAP instruction CLAMP, acting as BYPASS with SDBG 0. -/
  | clamp
  /-- HIGHZ (R609): TAP instruction HIGHZ, acting as BYPASS with SDBG 0. -/
  | highz
  /-- DEBUG (R608): TAP instruction DEBUG giving 32-bit DB page access with SDBG 1. -/
  | debug (write : Bool) (off : BitVec 12) (v : Word)
  /-- BYPASS (R608): TAP instruction BYPASS. -/
  | bypass
  /-- TEST_LOGIC_RESET (R609): TRST_N low or five TCK cycles with TMS high put the TAP in Test-Logic-Reset. -/
  | testLogicReset
  /-- RESET_RELEASE (R605): RST_N rising releases a device reset, or the keeper hold, and the boot of Table RB-7 starts at time 0. -/
  | resetRelease (straps : BitVec 2)
  /-- BASELINE_LIMIT (R145): A comparator's tracked baseline reaches BASEREF ± BASETOL, holds there and sets WD_STATUS.BASEERR. -/
  | baselineLimit (i : Fin 64) (high : Bool)
  /-- HOLDOVER_QUALITY_LOSS (R251): In holdover the growing EST passes CORRLIM, so TQLOW becomes 1, TM_STATUS.QLOW is set and the time event is signalled. -/
  | holdoverQualityLoss
  /-- FENCING_AGE_OUT (R405): A fencing falls out of the last 24 h of time-base time, lowering the HW_COUNT figure that R405 compares with MISMAX. -/
  | fencingAgeOut (c : Fin 3)
  /-- KEEPER_SUPPLY_LOSS (R533): VIN falls below the keeper's own minimum, losing the keeper domain and ending any power cycle or keeper hold in progress. -/
  | keeperSupplyLoss
  /-- COMMIT_COMPLETE (R572): FINISH's checks and pointer-record write complete, so RB_CST.STATE reads 5, CMTDONE is set and RB_PTR shows the new SEQ. -/
  | commitComplete
  /-- TRACE_DUMP_COMPLETE (R586): A trace dump finishes copying DEPTH entries to TRBASE and DB_TRDUMP.BUSY clears. -/
  | traceDumpComplete
  deriving DecidableEq, Repr

end Sys2Proof
end

