-- ==== Sys2Proof/Decode.lean ====
section
/-! DEFINITION. The command that a word of bits spells. The opcode table gives no command of this block any bits, so no word spells
one for the host; the Kamotte instructions have words in the spec's own text, which `kamotte` decodes (09 R343 to R345, R351). -/

namespace Sys2Proof

/-- The command that `nbits` bits of value `w` spell under the table's numbering: none, since no row of the table has bits. -/
def decodeTableWord (nbits w : Nat) : Option Instr :=
  let _ := nbits
  let _ := w
  none

/-! ### Kamotte instruction words (09 Tables KM-6 to KM-8, KM-11, KM-14 to KM-16) -/

/-- `n` bits of an instruction word from bit `lo`. -/
def wordBits (w : Word) (lo n : Nat) : Nat := w.toNat / 2 ^ lo % 2 ^ n

/-- The extension word follows where X is 1 (R345). -/
def extOf (w x : Word) : Option Word := if w.getLsbD 25 then some x else none

/-- The operands of a format R word (Table KM-7). -/
def rOpOf (w : Word) : ROp :=
  { d := Fin.ofNat 16 (wordBits w 21 4), a := Fin.ofNat 16 (wordBits w 17 4), b := Fin.ofNat 16 (wordBits w 13 4),
    aux := BitVec.ofNat 6 (wordBits w 0 6), x := w.getLsbD 25 }

/-- The operands of a format I or M word with the word `x` after it. -/
def iOpOf (w x : Word) : IOp :=
  { d := Fin.ofNat 16 (wordBits w 21 4), a := Fin.ofNat 16 (wordBits w 17 4), imm := BitVec.ofNat 17 (wordBits w 0 17), ext := extOf w x }

/-- The operands of a format B word with the word `x` after it. -/
def bOpOf (w x : Word) : BOp :=
  { cond := Fin.ofNat 16 (wordBits w 21 4), off := BitVec.ofNat 21 (wordBits w 0 21), ext := extOf w x }

/-- The format R instruction that OP and FN name (Tables KM-8, KM-11, KM-14 to KM-16); LDX and STX take FN themselves. -/
def kamotteR (op fn : Nat) : Option (Eng → ROp → Instr) :=
  match op, fn with
  | 0x00, 0x00 => some .add
  | 0x00, 0x01 => some .adc
  | 0x00, 0x02 => some .sub
  | 0x00, 0x03 => some .sbc
  | 0x00, 0x04 => some .and_
  | 0x00, 0x05 => some .or_
  | 0x00, 0x06 => some .xor_
  | 0x00, 0x07 => some .andn
  | 0x00, 0x08 => some .cmp
  | 0x00, 0x09 => some .tst
  | 0x00, 0x10 => some .shl
  | 0x00, 0x11 => some .shr
  | 0x00, 0x12 => some .sar
  | 0x00, 0x13 => some .ror
  | 0x00, 0x14 => some .shli
  | 0x00, 0x15 => some .shri
  | 0x00, 0x16 => some .sari
  | 0x00, 0x17 => some .rori
  | 0x00, 0x20 => some .mul
  | 0x00, 0x21 => some .mulh
  | 0x00, 0x22 => some .mulhu
  | 0x00, 0x23 => some .mulq
  | 0x00, 0x28 => some .div
  | 0x00, 0x29 => some .divu
  | 0x00, 0x2A => some .rem
  | 0x00, 0x2B => some .remu
  | 0x00, 0x30 => some .min
  | 0x00, 0x31 => some .max
  | 0x00, 0x32 => some .minu
  | 0x00, 0x33 => some .maxu
  | 0x00, 0x38 => some .sel
  | 0x00, 0x39 => some .clz
  | 0x00, 0x3A => some .sxh
  | 0x00, 0x3B => some .sxb
  | 0x00, 0x3C => some .zxh
  | 0x00, 0x3D => some .zxb
  | 0x1A, 0x00 => some .br
  | 0x1A, 0x01 => some .blr
  | 0x1C, 0x00 => some .nop
  | 0x1C, 0x01 => some .wait
  | 0x1C, 0x02 => some .trap
  | 0x1C, 0x03 => some .brk
  | 0x1C, 0x04 => some .mfs
  | 0x1C, 0x05 => some .mts
  | 0x1C, 0x06 => some .rtd
  | 0x20, 0x00 => some .cfence
  | 0x20, 0x01 => some .sweep
  | 0x28, 0x00 => some .mac
  | 0x28, 0x01 => some .msu
  | 0x28, 0x02 => some .aclr
  | 0x28, 0x03 => some .ard
  | 0x28, 0x04 => some .awr
  | 0x28, 0x05 => some .tcor
  | 0x28, 0x06 => some .luti
  | 0x28, 0x08 => some .adds
  | 0x28, 0x09 => some .subs
  | 0x28, 0x0A => some .adds2
  | 0x28, 0x0B => some .subs2
  | 0x28, 0x0C => some .negs
  | 0x28, 0x0D => some .abss
  | 0x28, 0x0E => some .sath
  | 0x28, 0x0F => some .shls
  | 0x29, 0x00 => some .cbset
  | 0x29, 0x01 => some .ldcw
  | 0x29, 0x02 => some .ldch
  | 0x29, 0x03 => some .stcw
  | 0x29, 0x04 => some .stch
  | 0x2A, 0x00 => some .sin
  | 0x2A, 0x01 => some .schk
  | 0x2A, 0x02 => some .ein
  | 0x30, 0x00 => some .mon
  | 0x30, 0x01 => some .vset
  | 0x30, 0x02 => some .rate
  | _, _ => none

/-- The format I or M instruction that OP names (Table KM-8). -/
def kamotteI (op : Nat) : Option (Eng → IOp → Instr) :=
  match op with
  | 0x01 => some .addi
  | 0x02 => some .andi
  | 0x03 => some .ori
  | 0x04 => some .xori
  | 0x05 => some .cmpi
  | 0x06 => some .movi
  | 0x07 => some .tsti
  | 0x08 => some .ldw
  | 0x09 => some .ldh
  | 0x0A => some .ldhu
  | 0x0B => some .ldb
  | 0x0C => some .ldbu
  | 0x0D => some .ldq
  | 0x10 => some .stw
  | 0x11 => some .sth
  | 0x12 => some .stb
  | 0x13 => some .stq
  | 0x21 => some .lda
  | 0x22 => some .ldaq
  | _ => none

/-- The instruction of engine `e` that the word `w` spells, with the word `x` after it (R343, R351): none where the tables assign its OP or
FN to none, which is an illegal instruction (R344). Fields that must be 0 are for the instruction's own meaning to test. -/
def kamotte (e : Eng) (w x : Word) : Option Instr :=
  let op := wordBits w 26 6
  let fn := wordBits w 6 7
  if op = 0x0E then some (.ldx e (rOpOf w) (BitVec.ofNat 7 fn))
  else if op = 0x14 then some (.stx e (rOpOf w) (BitVec.ofNat 7 fn))
  else if op = 0x18 then some (.b e (bOpOf w x))
  else if op = 0x19 then some (.bl e (bOpOf w x))
  else match kamotteI op with
    | some f => some (f e (iOpOf w x))
    | none => (kamotteR op fn).map (fun f => f e (rOpOf w))

end Sys2Proof
end

