-- ==== Sys2Proof/Machine/Flags.lean ====
section
/-! DEFINITION. The flag word FLG of a Kamotte engine (Table KM-3) and every flag computation of chapter 09:
NZ and NZCV (R349), the carry of the shifts (R352), V of division (R353), sticky Q, and the conditions (R350). -/

namespace Sys2Proof.Machine

/-- FLG with bit `i` set to `b`. -/
def setFlag (f : Word) (i : Nat) (b : Bool) : Word :=
  if b then f ||| (1#32 <<< i) else f &&& ~~~(1#32 <<< i)

/-- FLG.Z, bit 0. -/
def flgZ (f : Word) : Bool := f.getLsbD 0
/-- FLG.N, bit 1. -/
def flgN (f : Word) : Bool := f.getLsbD 1
/-- FLG.C, bit 2. -/
def flgC (f : Word) : Bool := f.getLsbD 2
/-- FLG.V, bit 3. -/
def flgV (f : Word) : Bool := f.getLsbD 3
/-- FLG.Q, bit 4. -/
def flgQ (f : Word) : Bool := f.getLsbD 4
/-- FLG.EI, bit 5. -/
def flgEI (f : Word) : Bool := f.getLsbD 5
/-- FLG.DSP, bit 6. -/
def flgDSP (f : Word) : Bool := f.getLsbD 6
/-- FLG.EVMASK, bits 31:16. -/
def flgMask (f : Word) : BitVec 16 := (f >>> 16).setWidth 16

/-- "NZ" (R349): Z from a zero result, N from bit 31; C and V left. -/
def setNZ (f r : Word) : Word := setFlag (setFlag f 0 (r == 0#32)) 1 r.msb

/-- "Q" (R349): set when the instruction saturates, else left. -/
def setQ (f : Word) (sat : Bool) : Word := if sat then setFlag f 4 true else f

/-- The condition codes of Table KM-10 (R350). -/
def condHolds (c : Nat) (f : Word) : Bool :=
  match c with
  | 0 => true
  | 1 => flgZ f
  | 2 => !flgZ f
  | 3 => flgN f
  | 4 => !flgN f
  | 5 => flgC f
  | 6 => !flgC f
  | 7 => flgV f
  | 8 => !flgV f
  | 9 => flgC f && !flgZ f
  | 10 => !flgC f || flgZ f
  | 11 => flgN f == flgV f
  | 12 => flgN f != flgV f
  | 13 => !flgZ f && flgN f == flgV f
  | 14 => flgZ f || flgN f != flgV f
  | _ => flgQ f

/-- A + B + carry-in with NZCV (R349): C the carry out of bit 31, V signed overflow. -/
def addC (f a b : Word) (cin : Bool) : Word × Word :=
  let r := a + b + (if cin then 1#32 else 0#32)
  let c := decide (2 ^ 32 ≤ a.toNat + b.toNat + bit cin)
  let v := a.msb == b.msb && r.msb != a.msb
  (r, setFlag (setFlag (setNZ f r) 2 c) 3 v)

/-- A − B − borrow with NZCV (R349): C is 1 when no borrow occurs. -/
def subB (f a b : Word) (borrow : Bool) : Word × Word :=
  let r := a - b - (if borrow then 1#32 else 0#32)
  let c := decide (b.toNat + bit borrow ≤ a.toNat)
  let v := a.msb != b.msb && r.msb != a.msb
  (r, setFlag (setFlag (setNZ f r) 2 c) 3 v)

/-- A result with NZ. -/
def nzOf (f r : Word) : Word × Word := (r, setNZ f r)

/-- C := the last bit shifted out, unchanged where there is none (R352). -/
def setC? (f : Word) (c : Option Bool) : Word :=
  match c with
  | some b => setFlag f 2 b
  | none => f

/-- A left shift by `n` (R352). -/
def shlOp (f a : Word) (n : Nat) : Word × Word :=
  let r := if n < 32 then a <<< n else 0#32
  (r, setC? (setNZ f r) (if n = 0 then none else some (decide (n ≤ 32) && a.getLsbD (32 - n))))

/-- A logical right shift by `n` (R352). -/
def shrOp (f a : Word) (n : Nat) : Word × Word :=
  let r := if n < 32 then a >>> n else 0#32
  (r, setC? (setNZ f r) (if n = 0 then none else some (decide (n ≤ 32) && a.getLsbD (n - 1))))

/-- An arithmetic right shift by `n`; by 32 or more gives 32 copies of bit 31 (R352). -/
def sarOp (f a : Word) (n : Nat) : Word × Word :=
  let r := a.sshiftRight (min n 32)
  (r, setC? (setNZ f r) (if n = 0 then none else some (a.getLsbD (min n 32 - 1))))

/-- A right rotation by `n` modulo 32 (R352). -/
def rorOp (f a : Word) (n : Nat) : Word × Word :=
  let m := n % 32
  let r := a.rotateRight m
  (r, setC? (setNZ f r) (if m = 0 then none else some (a.getLsbD (m - 1))))

/-- The low 32 bits of the product, with NZ (R351). -/
def mulOp (f a b : Word) : Word × Word := nzOf f (a * b)

/-- The high 32 bits of the signed product (R351). -/
def mulhOp (f a b : Word) : Word × Word := nzOf f (BitVec.ofInt 32 ((a.toInt * b.toInt) / 2 ^ 32))

/-- The high 32 bits of the unsigned product (R351). -/
def mulhuOp (f a b : Word) : Word × Word := nzOf f (BitVec.ofNat 32 ((a.toNat * b.toNat) / 2 ^ 32))

/-- Whether a value lies outside the signed range of `w` bits. -/
def outOf (w : Nat) (x : Int) : Bool := decide (x < -(2 ^ (w - 1) : Int)) || decide ((2 ^ (w - 1) : Int) ≤ x)

/-- Clamp to the signed range of `w` bits. -/
def clampTo (w : Nat) (x : Int) : Int := max (-(2 ^ (w - 1) : Int)) (min ((2 ^ (w - 1) : Int) - 1) x)

/-- The rounded signed Q1.31 product, saturating with Q (R351, R352). -/
def mulqOp (f a b : Word) : Word × Word :=
  let x := (a.toInt * b.toInt + 2 ^ 30) / 2 ^ 31
  let r := BitVec.ofInt 32 (clampTo 32 x)
  (r, setQ (setNZ f r) (outOf 32 x))

/-- V of the divisions (R353) with NZ. -/
def divFlags (f r : Word) (v : Bool) : Word × Word := (r, setFlag (setNZ f r) 3 v)

/-- DIV (R353): truncated toward zero; by zero gives 0 with V; the most negative by −1 gives itself with V. -/
def divOp (f a b : Word) : Word × Word :=
  if b = 0#32 then divFlags f 0#32 true
  else if a = 0x80000000#32 ∧ b = 0xFFFFFFFF#32 then divFlags f a true
  else divFlags f (BitVec.ofInt 32 (a.toInt.tdiv b.toInt)) false

/-- DIVU (R353). -/
def divuOp (f a b : Word) : Word × Word :=
  if b = 0#32 then divFlags f 0#32 true else divFlags f (BitVec.ofNat 32 (a.toNat / b.toNat)) false

/-- REM (R353): the remainder takes the sign of the dividend; by zero gives the dividend with V. The rule sets V for
the most negative by −1 in "DIV"; REM of it gives 0, and V is set as the same rule's case (DEDUCED, assumption 20). -/
def remOp (f a b : Word) : Word × Word :=
  if b = 0#32 then divFlags f a true
  else if a = 0x80000000#32 ∧ b = 0xFFFFFFFF#32 then divFlags f 0#32 true
  else divFlags f (BitVec.ofInt 32 (a.toInt.tmod b.toInt)) false

/-- REMU (R353). -/
def remuOp (f a b : Word) : Word × Word :=
  if b = 0#32 then divFlags f a true else divFlags f (BitVec.ofNat 32 (a.toNat % b.toNat)) false

/-- The leading zeros of A, 0 to 32 (R351). -/
def clzOf (a : Word) : Nat := 32 - (if a = 0#32 then 0 else a.toNat.log2 + 1)

/-- A value saturated to 32 bits, with NZ and Q (Table KM-15). -/
def satOp (f : Word) (x : Int) : Word × Word :=
  let r := BitVec.ofInt 32 (clampTo 32 x)
  (r, setQ (setNZ f r) (outOf 32 x))

/-- Two 16-bit lanes saturated, with Q (Table KM-15). -/
def sat2Op (f : Word) (x0 x1 : Int) : Word × Word :=
  let r := (BitVec.ofInt 16 (clampTo 16 x1) ++ BitVec.ofInt 16 (clampTo 16 x0) : BitVec 32)
  (r, setQ f (outOf 16 x0 || outOf 16 x1))

/-- Signed lane `i` of a word (R369). -/
def lane (a : Word) (i : Nat) : Int := ((a >>> (16 * i)).setWidth 16).toInt

end Sys2Proof.Machine
end

