-- ==== Sys2Proof/Config.lean ====
section
/-! DEFINITION. What the spec leaves to an implementation or leaves open: values that nothing in the model can see.
Each constant has no body, so a statement about one holds for every value of it. -/

namespace Sys2Proof.Config

/-- A fresh value that the spec leaves undefined, by a counter of the state (field `free` of `State`). Assumption 2. -/
opaque freeValue : Nat → Nat

/-- The 128-bit hash of a block's address and data that the Heartwood RAM signature sums (10 R398 names no
function). Assumption 40. -/
opaque blockHash : Nat → Block → Block

/-- The 128-bit signature of an architectural state laid out as numbers (10 R397 names no function). Assumption 40. -/
opaque stateSig : List Nat → Block

/-- The deviation in 1/64 of a DATA step that a test injection of AMPL is expected to give over a tracked baseline (03 R158 names what it comes
from and gives no formula). Assumption 145. -/
opaque expectedDeviation : Nat → Nat → Nat

/-- The period in TU of a vital output whose FREQ is 0, a value that the register rejects (13 R508). Assumption 3. -/
opaque zeroFreqPeriod : Nat

end Sys2Proof.Config
end

