-- ==== Sys2Proof/Machine/Tab.lean ====
section
/-! DEFINITION. Sparse maps from natural keys, in one canonical form: keys strictly rising, and no entry equal to what
an unlisted key reads as. Memory, the register store and every numbered piece of hidden state are held so. -/

namespace Sys2Proof.Machine

/-- A sparse map: listed keys with their values. -/
abbrev Tab (α : Type) := List (Nat × α)

/-- The value at key `k`, or `d` where the key is not listed. -/
def Tab.get {α : Type} (d : α) : Tab α → Nat → α
  | [], _ => d
  | (k', v) :: t, k => if k' = k then v else Tab.get d t k

/-- Put `v` at key `k`, keeping the keys rising. -/
def Tab.insert {α : Type} (k : Nat) (v : α) : Tab α → Tab α
  | [] => [(k, v)]
  | (k', v') :: t =>
    if k < k' then (k, v) :: (k', v') :: t
    else if k = k' then (k, v) :: t
    else (k', v') :: Tab.insert k v t

/-- Remove key `k`. -/
def Tab.erase {α : Type} (k : Nat) : Tab α → Tab α
  | [] => []
  | (k', v') :: t => if k = k' then Tab.erase k t else (k', v') :: Tab.erase k t

/-- Write `v` at key `k` of a map whose unlisted key reads as `d`: writing `d` removes the entry. -/
def Tab.set {α : Type} [DecidableEq α] (d : α) (m : Tab α) (k : Nat) (v : α) : Tab α :=
  if v = d then Tab.erase k m else Tab.insert k v m

/-- Every key of the map is greater than `b`, and the keys rise strictly. -/
def Tab.risesFrom {α : Type} (b : Nat) : Tab α → Bool
  | [] => true
  | (k, _) :: t => decide (b < k) && Tab.risesFrom k t

/-- The keys rise strictly. -/
def Tab.rising {α : Type} : Tab α → Bool
  | [] => true
  | (k, _) :: t => Tab.risesFrom k t

/-- No entry equals what its key would read as unlisted. -/
def Tab.proper {α : Type} [DecidableEq α] (d : Nat → α) : Tab α → Bool
  | [] => true
  | (k, v) :: t => decide (v ≠ d k) && Tab.proper d t

/-- The canonical form. -/
def Tab.wf {α : Type} [DecidableEq α] (d : Nat → α) (m : Tab α) : Bool :=
  Tab.rising m && Tab.proper d m

end Sys2Proof.Machine
end

