-- ==== Sys2Proof/Machine/Regs.lean ====
section
/-! DEFINITION. The device registers of the TX256 as data, field by field, from the register tables of
chapters 01 to 16: page offset, bit position, width and access code (Table SC-5). One definition per field, one
per register, one list per 4 KiB page (Table AR-7). -/

namespace Sys2Proof.Machine

/-- The access codes of Table SC-5 (00 R14). -/
inductive Acc where
  | ro | rw | wo | w1c | vw | wovw | w1cvw | aw
  deriving DecidableEq, Repr

/-- A register field: the register's offset from 0x3000_0000, the lowest bit, the width, the access
code and the value after a device reset (R21). A field of reset "Image", "Keeper", "Strap" or "Fuse" for which the
table gives no number has 0 here (DESIGN CHOICE, assumption 3): boot loads the image values. -/
structure Field where
  addr : Nat
  lo : Nat
  w : Nat
  acc : Acc
  rst : Nat
  deriving DecidableEq, Repr

/-- How the instance of a register is chosen: one register; a copy per requester (R18); the unit that the requester's
own select register names. -/
inductive Bank where
  | one | req | sys | bob | cv | port | pg | wc
  deriving DecidableEq, Repr

/-- A register: offset, a two-dimensional array of `n1 * n2` instances with strides `s1`, `s2`, its bank and fields. -/
structure Reg where
  addr : Nat
  n1 : Nat
  s1 : Nat
  n2 : Nat
  s2 : Nat
  bank : Bank
  fields : List Field
  deriving DecidableEq, Repr

/-- The key of instance `i` of a field in the register store. -/
def Field.key (f : Field) (i : Nat) : Nat := i * 2097152 + f.addr * 32 + f.lo

/-! ID_VENDOR: Table ID-2. -/
def ID_VENDOR.VENDOR : Field := ⟨0x0, 0, 16, .ro, 0xa7c⟩
def ID_VENDOR.FAMILY : Field := ⟨0x0, 16, 16, .ro, 0x1⟩
def ID_VENDOR : Reg := ⟨0x0, 1, 0x0, 1, 0x0, .one, [ID_VENDOR.VENDOR, ID_VENDOR.FAMILY]⟩
/-! ID_PART: Table ID-3. -/
def ID_PART.PART : Field := ⟨0x4, 0, 16, .ro, 0x256⟩
def ID_PART.REV : Field := ⟨0x4, 16, 8, .ro, 0x42⟩
def ID_PART : Reg := ⟨0x4, 1, 0x0, 1, 0x0, .one, [ID_PART.PART, ID_PART.REV]⟩
/-! ID_SERIALLO: Table ID-4. -/
def ID_SERIALLO.SERIAL : Field := ⟨0x8, 0, 32, .ro, 0x0⟩
def ID_SERIALLO : Reg := ⟨0x8, 1, 0x0, 1, 0x0, .one, [ID_SERIALLO.SERIAL]⟩
/-! ID_SERIALHI: Table ID-4. -/
def ID_SERIALHI.SERIAL : Field := ⟨0xc, 0, 32, .ro, 0x0⟩
def ID_SERIALHI : Reg := ⟨0xc, 1, 0x0, 1, 0x0, .one, [ID_SERIALHI.SERIAL]⟩
/-! ID_CAPS0: Table ID-5. -/
def ID_CAPS0.NSYS : Field := ⟨0x10, 0, 8, .ro, 0x40⟩
def ID_CAPS0.NSPARE : Field := ⟨0x10, 8, 4, .ro, 0x8⟩
def ID_CAPS0.NSE : Field := ⟨0x10, 12, 4, .ro, 0x6⟩
def ID_CAPS0.NHOST : Field := ⟨0x10, 16, 4, .ro, 0x3⟩
def ID_CAPS0.NTRUNK : Field := ⟨0x10, 20, 4, .ro, 0x4⟩
def ID_CAPS0.NFIELD : Field := ⟨0x10, 24, 4, .ro, 0x2⟩
def ID_CAPS0.NCV : Field := ⟨0x10, 28, 4, .ro, 0x8⟩
def ID_CAPS0 : Reg := ⟨0x10, 1, 0x0, 1, 0x0, .one, [ID_CAPS0.NSYS, ID_CAPS0.NSPARE, ID_CAPS0.NSE, ID_CAPS0.NHOST, ID_CAPS0.NTRUNK, ID_CAPS0.NFIELD, ID_CAPS0.NCV]⟩
/-! ID_CAPS1: Table ID-6. -/
def ID_CAPS1.NBOB : Field := ⟨0x14, 0, 9, .ro, 0x100⟩
def ID_CAPS1.NPOINT : Field := ⟨0x14, 9, 12, .ro, 0x800⟩
def ID_CAPS1.NVO : Field := ⟨0x14, 21, 5, .ro, 0x10⟩
def ID_CAPS1.NGR : Field := ⟨0x14, 26, 6, .ro, 0x30⟩
def ID_CAPS1 : Reg := ⟨0x14, 1, 0x0, 1, 0x0, .one, [ID_CAPS1.NBOB, ID_CAPS1.NPOINT, ID_CAPS1.NVO, ID_CAPS1.NGR]⟩
/-! ID_MEM: Table ID-7. -/
def ID_MEM.FLASHKIB : Field := ⟨0x18, 0, 16, .ro, 0x2000⟩
def ID_MEM.SHAREDKIB : Field := ⟨0x18, 16, 16, .ro, 0x800⟩
def ID_MEM : Reg := ⟨0x18, 1, 0x0, 1, 0x0, .one, [ID_MEM.FLASHKIB, ID_MEM.SHAREDKIB]⟩
/-! ID_NODE: Table ID-8. -/
def ID_NODE.NODE : Field := ⟨0x1c, 0, 10, .ro, 0x0⟩
def ID_NODE.RING : Field := ⟨0x1c, 10, 3, .ro, 0x0⟩
def ID_NODE : Reg := ⟨0x1c, 1, 0x0, 1, 0x0, .one, [ID_NODE.NODE, ID_NODE.RING]⟩
/-! ID_IMAGE: Table ID-9. -/
def ID_IMAGE.IMAGEID : Field := ⟨0x20, 0, 32, .ro, 0x0⟩
def ID_IMAGE : Reg := ⟨0x20, 1, 0x0, 1, 0x0, .one, [ID_IMAGE.IMAGEID]⟩
/-! ID_BOOT: Table ID-10. -/
def ID_BOOT.BANK : Field := ⟨0x24, 0, 1, .ro, 0x0⟩
def ID_BOOT.HWMODE : Field := ⟨0x24, 1, 2, .ro, 0x0⟩
def ID_BOOT : Reg := ⟨0x24, 1, 0x0, 1, 0x0, .one, [ID_BOOT.BANK, ID_BOOT.HWMODE]⟩
/-- The registers of page 0x0 (Table AR-7). -/
def page0 : List Reg := [ID_VENDOR, ID_PART, ID_SERIALLO, ID_SERIALHI, ID_CAPS0, ID_CAPS1, ID_MEM, ID_NODE, ID_IMAGE, ID_BOOT]

/-! FE_SYSSEL: Table FE-15. -/
def FE_SYSSEL.SYS : Field := ⟨0x1000, 0, 6, .rw, 0x0⟩
def FE_SYSSEL : Reg := ⟨0x1000, 1, 0x0, 1, 0x0, .req, [FE_SYSSEL.SYS]⟩
/-! FE_CTRL: Table FE-16. -/
def FE_CTRL.RUN : Field := ⟨0x1004, 0, 1, .vw, 0x0⟩
def FE_CTRL.NOTCH : Field := ⟨0x1004, 1, 3, .vw, 0x0⟩
def FE_CTRL.AUXT : Field := ⟨0x1004, 4, 2, .vw, 0x0⟩
def FE_CTRL.MUXSET : Field := ⟨0x1004, 8, 4, .vw, 0x0⟩
def FE_CTRL : Reg := ⟨0x1004, 1, 0x0, 1, 0x0, .one, [FE_CTRL.RUN, FE_CTRL.NOTCH, FE_CTRL.AUXT, FE_CTRL.MUXSET]⟩
/-! FE_STATUS: Table FE-17. -/
def FE_STATUS.EXCERR : Field := ⟨0x1008, 0, 1, .w1c, 0x0⟩
def FE_STATUS.ROUTEERR : Field := ⟨0x1008, 1, 1, .w1c, 0x0⟩
def FE_STATUS.CFGERR : Field := ⟨0x1008, 2, 1, .w1c, 0x0⟩
def FE_STATUS.RETIRED : Field := ⟨0x1008, 3, 1, .w1c, 0x0⟩
def FE_STATUS.MUXFULL : Field := ⟨0x1008, 4, 1, .w1c, 0x0⟩
def FE_STATUS.DIAGABORT : Field := ⟨0x1008, 5, 1, .w1c, 0x0⟩
def FE_STATUS.DIAGREJ : Field := ⟨0x1008, 6, 1, .w1c, 0x0⟩
def FE_STATUS.DIP : Field := ⟨0x1008, 7, 1, .ro, 0x0⟩
def FE_STATUS.LEADJUMP : Field := ⟨0x1008, 8, 1, .w1c, 0x0⟩
def FE_STATUS : Reg := ⟨0x1008, 1, 0x0, 1, 0x0, .one, [FE_STATUS.EXCERR, FE_STATUS.ROUTEERR, FE_STATUS.CFGERR, FE_STATUS.RETIRED, FE_STATUS.MUXFULL, FE_STATUS.DIAGABORT, FE_STATUS.DIAGREJ, FE_STATUS.DIP, FE_STATUS.LEADJUMP]⟩
/-! FE_BUDGET: Table FE-18. -/
def FE_BUDGET.USED : Field := ⟨0x100c, 0, 15, .ro, 0x0⟩
def FE_BUDGET.LIMIT : Field := ⟨0x100c, 16, 15, .ro, 0x2000⟩
def FE_BUDGET : Reg := ⟨0x100c, 1, 0x0, 1, 0x0, .one, [FE_BUDGET.USED, FE_BUDGET.LIMIT]⟩
/-! FE_RETIRE: Table FE-19. -/
def FE_RETIRE.SLICE : Field := ⟨0x1010, 0, 7, .wovw, 0x0⟩
def FE_RETIRE : Reg := ⟨0x1010, 1, 0x0, 1, 0x0, .one, [FE_RETIRE.SLICE]⟩
/-! FE_SLICEST: Table FE-20. -/
def FE_SLICEST.ST : Field := ⟨0x1020, 0, 32, .ro, 0x0⟩
def FE_SLICEST : Reg := ⟨0x1020, 5, 0x4, 1, 0x0, .one, [FE_SLICEST.ST]⟩
/-! FE_BLINDLO: Table FE-21. -/
def FE_BLINDLO.BLIND : Field := ⟨0x1040, 0, 32, .ro, 0xffffffff⟩
def FE_BLINDLO : Reg := ⟨0x1040, 1, 0x0, 1, 0x0, .one, [FE_BLINDLO.BLIND]⟩
/-! FE_BLINDHI: Table FE-21. -/
def FE_BLINDHI.BLIND : Field := ⟨0x1044, 0, 32, .ro, 0xffffffff⟩
def FE_BLINDHI : Reg := ⟨0x1044, 1, 0x0, 1, 0x0, .one, [FE_BLINDHI.BLIND]⟩
/-! FE_MUXLO: Table FE-22. -/
def FE_MUXLO.MUX : Field := ⟨0x1048, 0, 32, .ro, 0x0⟩
def FE_MUXLO : Reg := ⟨0x1048, 1, 0x0, 1, 0x0, .one, [FE_MUXLO.MUX]⟩
/-! FE_MUXHI: Table FE-22. -/
def FE_MUXHI.MUX : Field := ⟨0x104c, 0, 32, .ro, 0x0⟩
def FE_MUXHI : Reg := ⟨0x104c, 1, 0x0, 1, 0x0, .one, [FE_MUXHI.MUX]⟩
/-! FE_HEADBLIND: Table FE-23. -/
def FE_HEADBLIND.HB : Field := ⟨0x1050, 0, 32, .ro, 0xffffffff⟩
def FE_HEADBLIND : Reg := ⟨0x1050, 1, 0x0, 1, 0x0, .one, [FE_HEADBLIND.HB]⟩
/-! FE_HEADDIP: Table FE-24. -/
def FE_HEADDIP.HD : Field := ⟨0x1054, 0, 32, .ro, 0x0⟩
def FE_HEADDIP : Reg := ⟨0x1054, 1, 0x0, 1, 0x0, .one, [FE_HEADDIP.HD]⟩
/-! FE_WINDOW: Table FE-25. -/
def FE_WINDOW.WIN : Field := ⟨0x1058, 0, 32, .ro, 0xffffffff⟩
def FE_WINDOW : Reg := ⟨0x1058, 1, 0x0, 1, 0x0, .one, [FE_WINDOW.WIN]⟩
/-! FE_ROUTE0: Table FE-26. -/
def FE_ROUTE0.SENP : Field := ⟨0x1100, 0, 7, .vw, 0x0⟩
def FE_ROUTE0.SENN : Field := ⟨0x1100, 8, 7, .vw, 0x0⟩
def FE_ROUTE0.EXCP : Field := ⟨0x1100, 16, 7, .vw, 0x0⟩
def FE_ROUTE0.EXCN : Field := ⟨0x1100, 24, 7, .vw, 0x0⟩
def FE_ROUTE0 : Reg := ⟨0x1100, 1, 0x0, 1, 0x0, .sys, [FE_ROUTE0.SENP, FE_ROUTE0.SENN, FE_ROUTE0.EXCP, FE_ROUTE0.EXCN]⟩
/-! FE_ROUTE1: Table FE-27. -/
def FE_ROUTE1.WIRES : Field := ⟨0x1104, 0, 2, .vw, 0x0⟩
def FE_ROUTE1.BURN : Field := ⟨0x1104, 2, 2, .vw, 0x0⟩
def FE_ROUTE1.BURNCONT : Field := ⟨0x1104, 4, 1, .vw, 0x0⟩
def FE_ROUTE1 : Reg := ⟨0x1104, 1, 0x0, 1, 0x0, .sys, [FE_ROUTE1.WIRES, FE_ROUTE1.BURN, FE_ROUTE1.BURNCONT]⟩
/-! FE_EXC: Table FE-28. -/
def FE_EXC.MODE : Field := ⟨0x1108, 0, 2, .vw, 0x0⟩
def FE_EXC.IPK : Field := ⟨0x1108, 4, 9, .vw, 0x0⟩
def FE_EXC.FREQ : Field := ⟨0x1108, 16, 6, .vw, 0x0⟩
def FE_EXC.ARM : Field := ⟨0x1108, 24, 1, .vw, 0x0⟩
def FE_EXC.STAGED : Field := ⟨0x1108, 25, 1, .ro, 0x0⟩
def FE_EXC : Reg := ⟨0x1108, 1, 0x0, 1, 0x0, .sys, [FE_EXC.MODE, FE_EXC.IPK, FE_EXC.FREQ, FE_EXC.ARM, FE_EXC.STAGED]⟩
/-! FE_HOLD: Table FE-29. -/
def FE_HOLD.HOLD : Field := ⟨0x110c, 0, 9, .vw, 0x0⟩
def FE_HOLD.FLOOR : Field := ⟨0x110c, 16, 9, .vw, 0x0⟩
def FE_HOLD : Reg := ⟨0x110c, 1, 0x0, 1, 0x0, .sys, [FE_HOLD.HOLD, FE_HOLD.FLOOR]⟩
/-! FE_GAIN: Table FE-30. -/
def FE_GAIN.AUTO : Field := ⟨0x1110, 0, 1, .vw, 0x0⟩
def FE_GAIN.FIX : Field := ⟨0x1110, 1, 2, .vw, 0x0⟩
def FE_GAIN.RANGE : Field := ⟨0x1110, 4, 2, .ro, 0x0⟩
def FE_GAIN.PEND : Field := ⟨0x1110, 6, 1, .ro, 0x0⟩
def FE_GAIN.PRANGE : Field := ⟨0x1110, 8, 2, .ro, 0x0⟩
def FE_GAIN : Reg := ⟨0x1110, 1, 0x0, 1, 0x0, .sys, [FE_GAIN.AUTO, FE_GAIN.FIX, FE_GAIN.RANGE, FE_GAIN.PEND, FE_GAIN.PRANGE]⟩
/-! FE_SETTLE: Table FE-31. -/
def FE_SETTLE.SETTLE : Field := ⟨0x1114, 0, 8, .vw, 0x0⟩
def FE_SETTLE.EFF : Field := ⟨0x1114, 8, 8, .ro, 0x4⟩
def FE_SETTLE : Reg := ⟨0x1114, 1, 0x0, 1, 0x0, .sys, [FE_SETTLE.SETTLE, FE_SETTLE.EFF]⟩
/-! FE_LEAD: Table FE-32. -/
def FE_LEAD.LEADR : Field := ⟨0x1118, 0, 16, .vw, 0x0⟩
def FE_LEAD.SRC : Field := ⟨0x1118, 16, 2, .ro, 0x0⟩
def FE_LEAD.AUTO : Field := ⟨0x1118, 20, 1, .vw, 0x0⟩
def FE_LEAD : Reg := ⟨0x1118, 1, 0x0, 1, 0x0, .sys, [FE_LEAD.LEADR, FE_LEAD.SRC, FE_LEAD.AUTO]⟩
/-! FE_DIAG: Table FE-33. -/
def FE_DIAG.KIND : Field := ⟨0x111c, 0, 3, .wovw, 0x0⟩
def FE_DIAG.PEND : Field := ⟨0x111c, 8, 1, .ro, 0x0⟩
def FE_DIAG.BUSY : Field := ⟨0x111c, 9, 1, .ro, 0x0⟩
def FE_DIAG : Reg := ⟨0x111c, 1, 0x0, 1, 0x0, .sys, [FE_DIAG.KIND, FE_DIAG.PEND, FE_DIAG.BUSY]⟩
/-! FE_AUXRES: Table FE-33. -/
def FE_AUXRES.VALUE : Field := ⟨0x1120, 0, 24, .ro, 0x0⟩
def FE_AUXRES.KIND : Field := ⟨0x1120, 24, 3, .ro, 0x0⟩
def FE_AUXRES.VALID : Field := ⟨0x1120, 28, 1, .ro, 0x0⟩
def FE_AUXRES.ABORT : Field := ⟨0x1120, 29, 1, .ro, 0x0⟩
def FE_AUXRES.OPEN : Field := ⟨0x1120, 30, 1, .ro, 0x0⟩
def FE_AUXRES : Reg := ⟨0x1120, 1, 0x0, 1, 0x0, .sys, [FE_AUXRES.VALUE, FE_AUXRES.KIND, FE_AUXRES.VALID, FE_AUXRES.ABORT, FE_AUXRES.OPEN]⟩
/-! FE_TEST: Table FE-34. -/
def FE_TEST.AMPL : Field := ⟨0x1124, 0, 8, .vw, 0x0⟩
def FE_TEST.DUR : Field := ⟨0x1124, 16, 8, .vw, 0x0⟩
def FE_TEST.ARM : Field := ⟨0x1124, 24, 1, .vw, 0x0⟩
def FE_TEST.SKIP : Field := ⟨0x1124, 26, 1, .w1c, 0x0⟩
def FE_TEST : Reg := ⟨0x1124, 1, 0x0, 1, 0x0, .sys, [FE_TEST.AMPL, FE_TEST.DUR, FE_TEST.ARM, FE_TEST.SKIP]⟩
/-! FE_SYSST: Table FE-35. -/
def FE_SYSST.BLIND : Field := ⟨0x1128, 0, 1, .ro, 0x1⟩
def FE_SYSST.MUX : Field := ⟨0x1128, 1, 1, .ro, 0x0⟩
def FE_SYSST.UNCONV : Field := ⟨0x1128, 2, 1, .ro, 0x0⟩
def FE_SYSST.OPEN : Field := ⟨0x1128, 3, 1, .ro, 0x0⟩
def FE_SYSST.COMPL : Field := ⟨0x1128, 4, 1, .ro, 0x0⟩
def FE_SYSST.OVR : Field := ⟨0x1128, 5, 1, .ro, 0x0⟩
def FE_SYSST.HOLD : Field := ⟨0x1128, 6, 1, .ro, 0x0⟩
def FE_SYSST.WINDOW : Field := ⟨0x1128, 7, 1, .ro, 0x1⟩
def FE_SYSST.RANGE : Field := ⟨0x1128, 8, 2, .ro, 0x0⟩
def FE_SYSST.RATE : Field := ⟨0x1128, 10, 2, .ro, 0x3⟩
def FE_SYSST.SLICE : Field := ⟨0x1128, 12, 7, .ro, 0x7f⟩
def FE_SYSST.MUXPOS : Field := ⟨0x1128, 19, 2, .ro, 0x0⟩
def FE_SYSST : Reg := ⟨0x1128, 1, 0x0, 1, 0x0, .sys, [FE_SYSST.BLIND, FE_SYSST.MUX, FE_SYSST.UNCONV, FE_SYSST.OPEN, FE_SYSST.COMPL, FE_SYSST.OVR, FE_SYSST.HOLD, FE_SYSST.WINDOW, FE_SYSST.RANGE, FE_SYSST.RATE, FE_SYSST.SLICE, FE_SYSST.MUXPOS]⟩
/-! FE_RESULT: Table FE-36. -/
def FE_RESULT.WORD : Field := ⟨0x112c, 0, 32, .ro, 0x40000⟩
def FE_RESULT : Reg := ⟨0x112c, 1, 0x0, 1, 0x0, .sys, [FE_RESULT.WORD]⟩
/-! FE_RESTIME: Table FE-36. -/
def FE_RESTIME.TIME : Field := ⟨0x1130, 0, 32, .ro, 0x0⟩
def FE_RESTIME : Reg := ⟨0x1130, 1, 0x0, 1, 0x0, .req, [FE_RESTIME.TIME]⟩
/-! FE_DEFER: Table FE-36. -/
def FE_DEFER.RNGDEF : Field := ⟨0x1134, 0, 16, .ro, 0x0⟩
def FE_DEFER.OPDEF : Field := ⟨0x1134, 16, 16, .ro, 0x0⟩
def FE_DEFER : Reg := ⟨0x1134, 1, 0x0, 1, 0x0, .sys, [FE_DEFER.RNGDEF, FE_DEFER.OPDEF]⟩
/-- The registers of page 0x1000 (Table AR-7). -/
def page1 : List Reg := [FE_SYSSEL, FE_CTRL, FE_STATUS, FE_BUDGET, FE_RETIRE, FE_SLICEST, FE_BLINDLO, FE_BLINDHI, FE_MUXLO, FE_MUXHI, FE_HEADBLIND, FE_HEADDIP, FE_WINDOW, FE_ROUTE0, FE_ROUTE1, FE_EXC, FE_HOLD, FE_GAIN, FE_SETTLE, FE_LEAD, FE_DIAG, FE_AUXRES, FE_TEST, FE_SYSST, FE_RESULT, FE_RESTIME, FE_DEFER]

/-! WD_CTRL: Table WD-13. -/
def WD_CTRL.TOLMIN : Field := ⟨0x2000, 4, 8, .vw, 0x0⟩
def WD_CTRL.AGE : Field := ⟨0x2000, 12, 4, .vw, 0x0⟩
def WD_CTRL.PROOFMAX : Field := ⟨0x2000, 16, 6, .vw, 0x0⟩
def WD_CTRL : Reg := ⟨0x2000, 1, 0x0, 1, 0x0, .one, [WD_CTRL.TOLMIN, WD_CTRL.AGE, WD_CTRL.PROOFMAX]⟩
/-! WD_STATUS: Table WD-14. -/
def WD_STATUS.CFGERR : Field := ⟨0x2004, 0, 1, .w1c, 0x0⟩
def WD_STATUS.VMAXCHG : Field := ⟨0x2004, 1, 1, .w1c, 0x0⟩
def WD_STATUS.ORPHAN : Field := ⟨0x2004, 2, 1, .w1c, 0x0⟩
def WD_STATUS.CLAIMERR : Field := ⟨0x2004, 3, 1, .w1c, 0x0⟩
def WD_STATUS.PASSREJ : Field := ⟨0x2004, 4, 1, .w1c, 0x0⟩
def WD_STATUS.BASEERR : Field := ⟨0x2004, 5, 1, .w1c, 0x0⟩
def WD_STATUS.EDGEOVF : Field := ⟨0x2004, 6, 1, .w1c, 0x0⟩
def WD_STATUS.PROOFFAIL : Field := ⟨0x2004, 7, 1, .w1c, 0x0⟩
def WD_STATUS.PROOFSTALE : Field := ⟨0x2004, 8, 1, .w1c, 0x0⟩
def WD_STATUS.CLAIMDONE : Field := ⟨0x2004, 9, 1, .w1c, 0x0⟩
def WD_STATUS : Reg := ⟨0x2004, 1, 0x0, 1, 0x0, .one, [WD_STATUS.CFGERR, WD_STATUS.VMAXCHG, WD_STATUS.ORPHAN, WD_STATUS.CLAIMERR, WD_STATUS.PASSREJ, WD_STATUS.BASEERR, WD_STATUS.EDGEOVF, WD_STATUS.PROOFFAIL, WD_STATUS.PROOFSTALE, WD_STATUS.CLAIMDONE]⟩
/-! WD_CLAIMT: Table WD-15. -/
def WD_CLAIMT.TIME : Field := ⟨0x2008, 0, 32, .vw, 0x0⟩
def WD_CLAIMT : Reg := ⟨0x2008, 1, 0x0, 1, 0x0, .one, [WD_CLAIMT.TIME]⟩
/-! WD_CLAIM: Table WD-16. -/
def WD_CLAIM.HEAD : Field := ⟨0x200c, 0, 5, .wovw, 0x0⟩
def WD_CLAIM.DIR : Field := ⟨0x200c, 5, 2, .wovw, 0x0⟩
def WD_CLAIM : Reg := ⟨0x200c, 1, 0x0, 1, 0x0, .one, [WD_CLAIM.HEAD, WD_CLAIM.DIR]⟩
/-! WD_CLAIMRES: Table WD-17. -/
def WD_CLAIMRES.CODE : Field := ⟨0x2010, 0, 3, .ro, 0x0⟩
def WD_CLAIMRES.RDIR : Field := ⟨0x2010, 3, 2, .ro, 0x0⟩
def WD_CLAIMRES.HEAD : Field := ⟨0x2010, 5, 5, .ro, 0x0⟩
def WD_CLAIMRES : Reg := ⟨0x2010, 1, 0x0, 1, 0x0, .one, [WD_CLAIMRES.CODE, WD_CLAIMRES.RDIR, WD_CLAIMRES.HEAD]⟩
/-! WD_PASS: Table WD-18. -/
def WD_PASS.PASS : Field := ⟨0x2014, 0, 32, .ro, 0x0⟩
def WD_PASS : Reg := ⟨0x2014, 1, 0x0, 1, 0x0, .one, [WD_PASS.PASS]⟩
/-! WD_PASSSET: Table WD-18. -/
def WD_PASSSET.SET : Field := ⟨0x2018, 0, 32, .wo, 0x0⟩
def WD_PASSSET : Reg := ⟨0x2018, 1, 0x0, 1, 0x0, .one, [WD_PASSSET.SET]⟩
/-! WD_PASSCLR: Table WD-18. -/
def WD_PASSCLR.CLR : Field := ⟨0x201c, 0, 32, .wo, 0x0⟩
def WD_PASSCLR : Reg := ⟨0x201c, 1, 0x0, 1, 0x0, .one, [WD_PASSCLR.CLR]⟩
/-! WD_CLEAN: Table WD-19. -/
def WD_CLEAN.CLEAN : Field := ⟨0x2020, 0, 32, .ro, 0x0⟩
def WD_CLEAN : Reg := ⟨0x2020, 1, 0x0, 1, 0x0, .one, [WD_CLEAN.CLEAN]⟩
/-! WD_INDET: Table WD-19. -/
def WD_INDET.INDET : Field := ⟨0x2024, 0, 32, .ro, 0xffffffff⟩
def WD_INDET : Reg := ⟨0x2024, 1, 0x0, 1, 0x0, .one, [WD_INDET.INDET]⟩
/-! WD_CMPLO: Table WD-20. -/
def WD_CMPLO.PRES : Field := ⟨0x2028, 0, 32, .ro, 0x0⟩
def WD_CMPLO : Reg := ⟨0x2028, 1, 0x0, 1, 0x0, .one, [WD_CMPLO.PRES]⟩
/-! WD_CMPHI: Table WD-20. -/
def WD_CMPHI.PRES : Field := ⟨0x202c, 0, 32, .ro, 0x0⟩
def WD_CMPHI : Reg := ⟨0x202c, 1, 0x0, 1, 0x0, .one, [WD_CMPHI.PRES]⟩
/-! WD_PSTALE: Table WD-21. -/
def WD_PSTALE.STALE : Field := ⟨0x2030, 0, 32, .ro, 0x0⟩
def WD_PSTALE : Reg := ⟨0x2030, 1, 0x0, 1, 0x0, .one, [WD_PSTALE.STALE]⟩
/-! WD_XCOUNT: Table WD-21. -/
def WD_XCOUNT.ORPHANS : Field := ⟨0x2034, 0, 16, .ro, 0x0⟩
def WD_XCOUNT.FAILS : Field := ⟨0x2034, 16, 16, .ro, 0x0⟩
def WD_XCOUNT : Reg := ⟨0x2034, 1, 0x0, 1, 0x0, .one, [WD_XCOUNT.ORPHANS, WD_XCOUNT.FAILS]⟩
/-! WD_PROOFENG: Table WD-21. -/
def WD_PROOFENG.HEAD : Field := ⟨0x2038, 0, 5, .wovw, 0x0⟩
def WD_PROOFENG.PASS : Field := ⟨0x2038, 8, 1, .wovw, 0x0⟩
def WD_PROOFENG : Reg := ⟨0x2038, 1, 0x0, 1, 0x0, .one, [WD_PROOFENG.HEAD, WD_PROOFENG.PASS]⟩
/-! WD_CMPCFG: Table WD-22. -/
def WD_CMPCFG.PRES : Field := ⟨0x2100, 0, 8, .vw, 0x0⟩
def WD_CMPCFG.ABS : Field := ⟨0x2100, 8, 8, .vw, 0x0⟩
def WD_CMPCFG.POL : Field := ⟨0x2100, 16, 1, .vw, 0x0⟩
def WD_CMPCFG : Reg := ⟨0x2100, 1, 0x0, 1, 0x0, .sys, [WD_CMPCFG.PRES, WD_CMPCFG.ABS, WD_CMPCFG.POL]⟩
/-! WD_BASE: Table WD-23. -/
def WD_BASE.BASEREF : Field := ⟨0x2104, 0, 16, .vw, 0x0⟩
def WD_BASE.BASETOL : Field := ⟨0x2104, 16, 6, .vw, 0x0⟩
def WD_BASE : Reg := ⟨0x2104, 1, 0x0, 1, 0x0, .sys, [WD_BASE.BASEREF, WD_BASE.BASETOL]⟩
/-! WD_CMPST: Table WD-23. -/
def WD_CMPST.BASE : Field := ⟨0x2108, 0, 16, .ro, 0x0⟩
def WD_CMPST.STATE : Field := ⟨0x2108, 16, 3, .ro, 0x4⟩
def WD_CMPST.ACQ : Field := ⟨0x2108, 19, 1, .ro, 0x0⟩
def WD_CMPST.TEST : Field := ⟨0x2108, 20, 1, .ro, 0x0⟩
def WD_CMPST : Reg := ⟨0x2108, 1, 0x0, 1, 0x0, .sys, [WD_CMPST.BASE, WD_CMPST.STATE, WD_CMPST.ACQ, WD_CMPST.TEST]⟩
/-! WD_EDGET: Table WD-23. -/
def WD_EDGET.TIME : Field := ⟨0x210c, 0, 32, .ro, 0x0⟩
def WD_EDGET : Reg := ⟨0x210c, 1, 0x0, 1, 0x0, .sys, [WD_EDGET.TIME]⟩
/-! WD_HCFG: Table WD-24. -/
def WD_HCFG.POINT : Field := ⟨0x2200, 0, 11, .vw, 0x0⟩
def WD_HCFG.HEN : Field := ⟨0x2200, 11, 1, .vw, 0x0⟩
def WD_HCFG.HOLDW : Field := ⟨0x2200, 12, 4, .vw, 0x0⟩
def WD_HCFG.SPACING : Field := ⟨0x2200, 16, 8, .vw, 0x0⟩
def WD_HCFG : Reg := ⟨0x2200, 32, 0x4, 1, 0x0, .one, [WD_HCFG.POINT, WD_HCFG.HEN, WD_HCFG.HOLDW, WD_HCFG.SPACING]⟩
/-! WD_HST: Table WD-25. -/
def WD_HST.VMAX : Field := ⟨0x2280, 0, 16, .ro, 0x0⟩
def WD_HST.FWD : Field := ⟨0x2280, 16, 8, .ro, 0x0⟩
def WD_HST.REV : Field := ⟨0x2280, 24, 8, .ro, 0x0⟩
def WD_HST : Reg := ⟨0x2280, 32, 0x4, 1, 0x0, .one, [WD_HST.VMAX, WD_HST.FWD, WD_HST.REV]⟩
/-! WD_HCLM: Table WD-25. -/
def WD_HCLM.CODE : Field := ⟨0x2300, 0, 3, .ro, 0x0⟩
def WD_HCLM.RDIR : Field := ⟨0x2300, 3, 2, .ro, 0x0⟩
def WD_HCLM.HELD : Field := ⟨0x2300, 5, 1, .ro, 0x0⟩
def WD_HCLM.DUR : Field := ⟨0x2300, 8, 24, .ro, 0x0⟩
def WD_HCLM : Reg := ⟨0x2300, 32, 0x4, 1, 0x0, .one, [WD_HCLM.CODE, WD_HCLM.RDIR, WD_HCLM.HELD, WD_HCLM.DUR]⟩
/-! WD_PROOF: Table WD-26. -/
def WD_PROOF.AGE : Field := ⟨0x2380, 0, 16, .ro, 0xffff⟩
def WD_PROOF.PA : Field := ⟨0x2380, 16, 1, .ro, 0x0⟩
def WD_PROOF.PB : Field := ⟨0x2380, 17, 1, .ro, 0x0⟩
def WD_PROOF.FAIL : Field := ⟨0x2380, 18, 1, .w1c, 0x0⟩
def WD_PROOF.CPEND : Field := ⟨0x2380, 19, 1, .ro, 0x0⟩
def WD_PROOF.EP : Field := ⟨0x2380, 20, 1, .ro, 0x0⟩
def WD_PROOF : Reg := ⟨0x2380, 32, 0x4, 1, 0x0, .one, [WD_PROOF.AGE, WD_PROOF.PA, WD_PROOF.PB, WD_PROOF.FAIL, WD_PROOF.CPEND, WD_PROOF.EP]⟩
/-- The registers of page 0x2000 (Table AR-7). -/
def page2 : List Reg := [WD_CTRL, WD_STATUS, WD_CLAIMT, WD_CLAIM, WD_CLAIMRES, WD_PASS, WD_PASSSET, WD_PASSCLR, WD_CLEAN, WD_INDET, WD_CMPLO, WD_CMPHI, WD_PSTALE, WD_XCOUNT, WD_PROOFENG, WD_CMPCFG, WD_BASE, WD_CMPST, WD_EDGET, WD_HCFG, WD_HST, WD_HCLM, WD_PROOF]

/-! BB_BOBSEL: Table BB-17. -/
def BB_BOBSEL.BOB : Field := ⟨0x3000, 0, 8, .rw, 0x0⟩
def BB_BOBSEL : Reg := ⟨0x3000, 1, 0x0, 1, 0x0, .req, [BB_BOBSEL.BOB]⟩
/-! BB_CTRL: Table BB-18. -/
def BB_CTRL.LOCKMAX : Field := ⟨0x3004, 0, 8, .vw, 0x0⟩
def BB_CTRL : Reg := ⟨0x3004, 1, 0x0, 1, 0x0, .one, [BB_CTRL.LOCKMAX]⟩
/-! BB_STATUS: Table BB-19. -/
def BB_STATUS.CFGERR : Field := ⟨0x3008, 0, 1, .w1c, 0x0⟩
def BB_STATUS.LOCKORD : Field := ⟨0x3008, 1, 1, .w1c, 0x0⟩
def BB_STATUS.LOCKREL : Field := ⟨0x3008, 2, 1, .w1c, 0x0⟩
def BB_STATUS.LOCKBRK : Field := ⟨0x3008, 3, 1, .w1c, 0x0⟩
def BB_STATUS.RINGFULL : Field := ⟨0x3008, 4, 1, .w1c, 0x0⟩
def BB_STATUS.INACTIVE : Field := ⟨0x3008, 5, 1, .w1c, 0x0⟩
def BB_STATUS.CMDQ : Field := ⟨0x3008, 6, 1, .w1c, 0x0⟩
def BB_STATUS.CMDDONE : Field := ⟨0x3008, 7, 1, .w1c, 0x0⟩
def BB_STATUS.LATCH : Field := ⟨0x3008, 8, 1, .w1c, 0x0⟩
def BB_STATUS.ORIGFULL : Field := ⟨0x3008, 9, 1, .w1c, 0x0⟩
def BB_STATUS : Reg := ⟨0x3008, 1, 0x0, 1, 0x0, .one, [BB_STATUS.CFGERR, BB_STATUS.LOCKORD, BB_STATUS.LOCKREL, BB_STATUS.LOCKBRK, BB_STATUS.RINGFULL, BB_STATUS.INACTIVE, BB_STATUS.CMDQ, BB_STATUS.CMDDONE, BB_STATUS.LATCH, BB_STATUS.ORIGFULL]⟩
/-! BB_LOCK: Table BB-20. -/
def BB_LOCK.BOB : Field := ⟨0x300c, 0, 8, .wo, 0x0⟩
def BB_LOCK : Reg := ⟨0x300c, 1, 0x0, 1, 0x0, .one, [BB_LOCK.BOB]⟩
/-! BB_UNLOCK: Table BB-20. -/
def BB_UNLOCK.BOB : Field := ⟨0x3010, 0, 8, .wo, 0x0⟩
def BB_UNLOCK : Reg := ⟨0x3010, 1, 0x0, 1, 0x0, .one, [BB_UNLOCK.BOB]⟩
/-! BB_LOCKST: Table BB-21. -/
def BB_LOCKST.TOP : Field := ⟨0x3014, 0, 8, .ro, 0x0⟩
def BB_LOCKST.NHELD : Field := ⟨0x3014, 8, 4, .ro, 0x0⟩
def BB_LOCKST : Reg := ⟨0x3014, 1, 0x0, 1, 0x0, .req, [BB_LOCKST.TOP, BB_LOCKST.NHELD]⟩
/-! BB_CMD: Table BB-22. -/
def BB_CMD.BOB : Field := ⟨0x3018, 0, 8, .aw, 0x0⟩
def BB_CMD.CODE : Field := ⟨0x3018, 8, 4, .aw, 0x0⟩
def BB_CMD.TAG : Field := ⟨0x3018, 16, 16, .aw, 0x0⟩
def BB_CMD : Reg := ⟨0x3018, 1, 0x0, 1, 0x0, .one, [BB_CMD.BOB, BB_CMD.CODE, BB_CMD.TAG]⟩
/-! BB_CMDRES: Table BB-23. -/
def BB_CMDRES.BOB : Field := ⟨0x301c, 0, 8, .ro, 0x0⟩
def BB_CMDRES.CODE : Field := ⟨0x301c, 8, 4, .ro, 0x0⟩
def BB_CMDRES.RESULT : Field := ⟨0x301c, 12, 4, .ro, 0x0⟩
def BB_CMDRES.TAG : Field := ⟨0x301c, 16, 16, .ro, 0x0⟩
def BB_CMDRES : Reg := ⟨0x301c, 1, 0x0, 1, 0x0, .one, [BB_CMDRES.BOB, BB_CMDRES.CODE, BB_CMDRES.RESULT, BB_CMDRES.TAG]⟩
/-! BB_CMDQ: Table BB-24. -/
def BB_CMDQ.BOB : Field := ⟨0x3020, 0, 8, .ro, 0x0⟩
def BB_CMDQ.CODE : Field := ⟨0x3020, 8, 4, .ro, 0x0⟩
def BB_CMDQ.VALID : Field := ⟨0x3020, 15, 1, .ro, 0x0⟩
def BB_CMDQ.TAG : Field := ⟨0x3020, 16, 16, .ro, 0x0⟩
def BB_CMDQ : Reg := ⟨0x3020, 1, 0x0, 1, 0x0, .one, [BB_CMDQ.BOB, BB_CMDQ.CODE, BB_CMDQ.VALID, BB_CMDQ.TAG]⟩
/-! BB_CMDPOP: Table BB-24. -/
def BB_CMDPOP.POP : Field := ⟨0x3024, 0, 32, .wovw, 0x0⟩
def BB_CMDPOP : Reg := ⟨0x3024, 1, 0x0, 1, 0x0, .one, [BB_CMDPOP.POP]⟩
/-! BB_CMDDONE: Table BB-24. -/
def BB_CMDDONE.BOB : Field := ⟨0x3028, 0, 8, .wovw, 0x0⟩
def BB_CMDDONE.CODE : Field := ⟨0x3028, 8, 4, .wovw, 0x0⟩
def BB_CMDDONE.RESULT : Field := ⟨0x3028, 12, 4, .wovw, 0x0⟩
def BB_CMDDONE.TAG : Field := ⟨0x3028, 16, 16, .wovw, 0x0⟩
def BB_CMDDONE : Reg := ⟨0x3028, 1, 0x0, 1, 0x0, .one, [BB_CMDDONE.BOB, BB_CMDDONE.CODE, BB_CMDDONE.RESULT, BB_CMDDONE.TAG]⟩
/-! BB_BLINDLAT: Table BB-25. -/
def BB_BLINDLAT.LAT : Field := ⟨0x3030, 0, 32, .w1cvw, 0x0⟩
def BB_BLINDLAT : Reg := ⟨0x3030, 1, 0x0, 1, 0x0, .one, [BB_BLINDLAT.LAT]⟩
/-! BB_DIPLAT: Table BB-25. -/
def BB_DIPLAT.LAT : Field := ⟨0x3034, 0, 32, .w1cvw, 0x0⟩
def BB_DIPLAT : Reg := ⟨0x3034, 1, 0x0, 1, 0x0, .one, [BB_DIPLAT.LAT]⟩
/-! BB_ORPHLAT: Table BB-25. -/
def BB_ORPHLAT.LAT : Field := ⟨0x3038, 0, 32, .w1cvw, 0x0⟩
def BB_ORPHLAT : Reg := ⟨0x3038, 1, 0x0, 1, 0x0, .one, [BB_ORPHLAT.LAT]⟩
/-! BB_ACTIVE: Table BB-26. -/
def BB_ACTIVE.ACT : Field := ⟨0x3040, 0, 32, .ro, 0x0⟩
def BB_ACTIVE : Reg := ⟨0x3040, 8, 0x4, 1, 0x0, .one, [BB_ACTIVE.ACT]⟩
/-! BB_ORIGBASE: Table BB-31. -/
def BB_ORIGBASE.BASE : Field := ⟨0x3060, 0, 32, .ro, 0x0⟩
def BB_ORIGBASE : Reg := ⟨0x3060, 1, 0x0, 1, 0x0, .one, [BB_ORIGBASE.BASE]⟩
/-! BB_ORIGIDX: Table BB-31. -/
def BB_ORIGIDX.WI : Field := ⟨0x3064, 0, 7, .ro, 0x0⟩
def BB_ORIGIDX.RI : Field := ⟨0x3064, 7, 7, .vw, 0x0⟩
def BB_ORIGIDX.DROP : Field := ⟨0x3064, 14, 16, .ro, 0x0⟩
def BB_ORIGIDX : Reg := ⟨0x3064, 1, 0x0, 1, 0x0, .one, [BB_ORIGIDX.WI, BB_ORIGIDX.RI, BB_ORIGIDX.DROP]⟩
/-! BB_CFG: Table BB-27. -/
def BB_CFG.ACTIVE : Field := ⟨0x3100, 0, 1, .vw, 0x0⟩
def BB_CFG : Reg := ⟨0x3100, 1, 0x0, 1, 0x0, .bob, [BB_CFG.ACTIVE]⟩
/-! BB_INB: Table BB-28. -/
def BB_INB.LWI : Field := ⟨0x3104, 0, 5, .ro, 0x0⟩
def BB_INB.LRI : Field := ⟨0x3104, 5, 5, .ro, 0x0⟩
def BB_INB.RWI : Field := ⟨0x3104, 10, 5, .ro, 0x0⟩
def BB_INB.RRI : Field := ⟨0x3104, 15, 5, .ro, 0x0⟩
def BB_INB : Reg := ⟨0x3104, 1, 0x0, 1, 0x0, .bob, [BB_INB.LWI, BB_INB.LRI, BB_INB.RWI, BB_INB.RRI]⟩
/-! BB_INBACK: Table BB-28. -/
def BB_INBACK.LRI : Field := ⟨0x3108, 0, 5, .wovw, 0x0⟩
def BB_INBACK.RRI : Field := ⟨0x3108, 5, 5, .wovw, 0x0⟩
def BB_INBACK.LSET : Field := ⟨0x3108, 10, 1, .wovw, 0x0⟩
def BB_INBACK.RSET : Field := ⟨0x3108, 11, 1, .wovw, 0x0⟩
def BB_INBACK : Reg := ⟨0x3108, 1, 0x0, 1, 0x0, .bob, [BB_INBACK.LRI, BB_INBACK.RRI, BB_INBACK.LSET, BB_INBACK.RSET]⟩
/-! BB_LOCKOWN: Table BB-29. -/
def BB_LOCKOWN.OWNER : Field := ⟨0x310c, 0, 4, .ro, 0xf⟩
def BB_LOCKOWN : Reg := ⟨0x310c, 1, 0x0, 1, 0x0, .bob, [BB_LOCKOWN.OWNER]⟩
/-! BB_DROP: Table BB-30. -/
def BB_DROP.INACT : Field := ⟨0x3110, 0, 16, .ro, 0x0⟩
def BB_DROP.FULL : Field := ⟨0x3110, 16, 16, .ro, 0x0⟩
def BB_DROP : Reg := ⟨0x3110, 1, 0x0, 1, 0x0, .bob, [BB_DROP.INACT, BB_DROP.FULL]⟩
/-! FP_MATCH: Table FP-8. -/
def FP_MATCH.BOB : Field := ⟨0x3800, 0, 8, .wovw, 0x0⟩
def FP_MATCH.MODE : Field := ⟨0x3800, 8, 1, .wovw, 0x0⟩
def FP_MATCH : Reg := ⟨0x3800, 1, 0x0, 1, 0x0, .one, [FP_MATCH.BOB, FP_MATCH.MODE]⟩
/-! FP_RESULT: Table FP-9. -/
def FP_RESULT.CODE : Field := ⟨0x3804, 0, 4, .ro, 0x0⟩
def FP_RESULT.BOB : Field := ⟨0x3804, 4, 8, .ro, 0x0⟩
def FP_RESULT.POS : Field := ⟨0x3804, 12, 6, .ro, 0x0⟩
def FP_RESULT.SUSP : Field := ⟨0x3804, 18, 4, .ro, 0x0⟩
def FP_RESULT.ALT : Field := ⟨0x3804, 22, 4, .ro, 0x0⟩
def FP_RESULT.SLIST : Field := ⟨0x3804, 26, 1, .ro, 0x0⟩
def FP_RESULT.BUSY : Field := ⟨0x3804, 27, 1, .ro, 0x0⟩
def FP_RESULT : Reg := ⟨0x3804, 1, 0x0, 1, 0x0, .one, [FP_RESULT.CODE, FP_RESULT.BOB, FP_RESULT.POS, FP_RESULT.SUSP, FP_RESULT.ALT, FP_RESULT.SLIST, FP_RESULT.BUSY]⟩
/-! FP_DETAIL: Table FP-10. -/
def FP_DETAIL.NPAIR : Field := ⟨0x3808, 0, 8, .ro, 0x0⟩
def FP_DETAIL.NBAD : Field := ⟨0x3808, 8, 8, .ro, 0x0⟩
def FP_DETAIL.WORST : Field := ⟨0x3808, 16, 8, .ro, 0x0⟩
def FP_DETAIL.NUNKU : Field := ⟨0x3808, 24, 8, .ro, 0x0⟩
def FP_DETAIL : Reg := ⟨0x3808, 1, 0x0, 1, 0x0, .one, [FP_DETAIL.NPAIR, FP_DETAIL.NBAD, FP_DETAIL.WORST, FP_DETAIL.NUNKU]⟩
/-! FP_STATUS: Table FP-11. -/
def FP_STATUS.CONF : Field := ⟨0x380c, 0, 1, .w1c, 0x0⟩
def FP_STATUS.LOC : Field := ⟨0x380c, 1, 1, .w1c, 0x0⟩
def FP_STATUS.MISM : Field := ⟨0x380c, 2, 1, .w1c, 0x0⟩
def FP_STATUS.TQSTOP : Field := ⟨0x380c, 3, 1, .ro, 0x0⟩
def FP_STATUS : Reg := ⟨0x380c, 1, 0x0, 1, 0x0, .one, [FP_STATUS.CONF, FP_STATUS.LOC, FP_STATUS.MISM, FP_STATUS.TQSTOP]⟩
/-! FP_COUNT: Table FP-11. -/
def FP_COUNT.NCONF : Field := ⟨0x3810, 0, 16, .ro, 0x0⟩
def FP_COUNT.NLOC : Field := ⟨0x3810, 16, 16, .ro, 0x0⟩
def FP_COUNT : Reg := ⟨0x3810, 1, 0x0, 1, 0x0, .one, [FP_COUNT.NCONF, FP_COUNT.NLOC]⟩
/-! FP_TOLA: Table FP-12. -/
def FP_TOLA.SETLO : Field := ⟨0x3840, 0, 32, .ro, 0x0⟩
def FP_TOLA : Reg := ⟨0x3840, 8, 0x4, 1, 0x0, .one, [FP_TOLA.SETLO]⟩
/-! FP_TOLB: Table FP-12. -/
def FP_TOLB.SETHI : Field := ⟨0x3860, 0, 32, .ro, 0x0⟩
def FP_TOLB : Reg := ⟨0x3860, 8, 0x4, 1, 0x0, .one, [FP_TOLB.SETHI]⟩
/-- The registers of page 0x3000 (Table AR-7). -/
def page3 : List Reg := [BB_BOBSEL, BB_CTRL, BB_STATUS, BB_LOCK, BB_UNLOCK, BB_LOCKST, BB_CMD, BB_CMDRES, BB_CMDQ, BB_CMDPOP, BB_CMDDONE, BB_BLINDLAT, BB_DIPLAT, BB_ORPHLAT, BB_ACTIVE, BB_ORIGBASE, BB_ORIGIDX, BB_CFG, BB_INB, BB_INBACK, BB_LOCKOWN, BB_DROP, FP_MATCH, FP_RESULT, FP_DETAIL, FP_STATUS, FP_COUNT, FP_TOLA, FP_TOLB]

/-! TM_CTRL: Table TM-6. -/
def TM_CTRL.HOLDTO : Field := ⟨0x4000, 0, 8, .vw, 0x0⟩
def TM_CTRL.STEPCONF : Field := ⟨0x4000, 8, 4, .vw, 0x0⟩
def TM_CTRL.LOCKN : Field := ⟨0x4000, 12, 4, .vw, 0x0⟩
def TM_CTRL.PDEXP : Field := ⟨0x4000, 16, 4, .vw, 0x0⟩
def TM_CTRL.ANNTO : Field := ⟨0x4000, 20, 4, .vw, 0x0⟩
def TM_CTRL.BRIDGEM : Field := ⟨0x4000, 24, 1, .vw, 0x0⟩
def TM_CTRL.LEAD : Field := ⟨0x4000, 25, 7, .vw, 0x0⟩
def TM_CTRL : Reg := ⟨0x4000, 1, 0x0, 1, 0x0, .one, [TM_CTRL.HOLDTO, TM_CTRL.STEPCONF, TM_CTRL.LOCKN, TM_CTRL.PDEXP, TM_CTRL.ANNTO, TM_CTRL.BRIDGEM, TM_CTRL.LEAD]⟩
/-! TM_STATUS: Table TM-7. -/
def TM_STATUS.CFGERR : Field := ⟨0x4004, 0, 1, .w1c, 0x0⟩
def TM_STATUS.EPCHG : Field := ⟨0x4004, 1, 1, .w1c, 0x0⟩
def TM_STATUS.HOLDIN : Field := ⟨0x4004, 2, 1, .w1c, 0x0⟩
def TM_STATUS.HOLDOUT : Field := ⟨0x4004, 3, 1, .w1c, 0x0⟩
def TM_STATUS.OFFEXC : Field := ⟨0x4004, 4, 1, .w1c, 0x0⟩
def TM_STATUS.REROUTE : Field := ⟨0x4004, 5, 1, .w1c, 0x0⟩
def TM_STATUS.QLOW : Field := ⟨0x4004, 6, 1, .w1c, 0x0⟩
def TM_STATUS.QOK : Field := ⟨0x4004, 7, 1, .w1c, 0x0⟩
def TM_STATUS.MASTERCHG : Field := ⟨0x4004, 8, 1, .w1c, 0x0⟩
def TM_STATUS.LREF : Field := ⟨0x4004, 9, 1, .w1c, 0x0⟩
def TM_STATUS.LHELD : Field := ⟨0x4004, 10, 1, .w1c, 0x0⟩
def TM_STATUS.LFAULT : Field := ⟨0x4004, 11, 1, .w1c, 0x0⟩
def TM_STATUS.GRIDERR : Field := ⟨0x4004, 12, 1, .ro, 0x0⟩
def TM_STATUS.TQLOW : Field := ⟨0x4004, 13, 1, .ro, 0x1⟩
def TM_STATUS : Reg := ⟨0x4004, 1, 0x0, 1, 0x0, .one, [TM_STATUS.CFGERR, TM_STATUS.EPCHG, TM_STATUS.HOLDIN, TM_STATUS.HOLDOUT, TM_STATUS.OFFEXC, TM_STATUS.REROUTE, TM_STATUS.QLOW, TM_STATUS.QOK, TM_STATUS.MASTERCHG, TM_STATUS.LREF, TM_STATUS.LHELD, TM_STATUS.LFAULT, TM_STATUS.GRIDERR, TM_STATUS.TQLOW]⟩
/-! TM_NOWLO: Table TM-8. -/
def TM_NOWLO.TLO : Field := ⟨0x4008, 0, 32, .ro, 0x0⟩
def TM_NOWLO : Reg := ⟨0x4008, 1, 0x0, 1, 0x0, .one, [TM_NOWLO.TLO]⟩
/-! TM_NOWHI: Table TM-8. -/
def TM_NOWHI.THI : Field := ⟨0x400c, 0, 32, .ro, 0x0⟩
def TM_NOWHI : Reg := ⟨0x400c, 1, 0x0, 1, 0x0, .req, [TM_NOWHI.THI]⟩
/-! TM_NOWX: Table TM-8. -/
def TM_NOWX.EPOCH : Field := ⟨0x4010, 0, 4, .ro, 0x0⟩
def TM_NOWX.STATE : Field := ⟨0x4010, 4, 3, .ro, 0x0⟩
def TM_NOWX.TQLOW : Field := ⟨0x4010, 7, 1, .ro, 0x1⟩
def TM_NOWX : Reg := ⟨0x4010, 1, 0x0, 1, 0x0, .req, [TM_NOWX.EPOCH, TM_NOWX.STATE, TM_NOWX.TQLOW]⟩
/-! TM_QUAL: Table TM-9. -/
def TM_QUAL.EST : Field := ⟨0x4014, 0, 16, .ro, 0xffff⟩
def TM_QUAL.OFFSET : Field := ⟨0x4014, 16, 16, .ro, 0x0⟩
def TM_QUAL : Reg := ⟨0x4014, 1, 0x0, 1, 0x0, .one, [TM_QUAL.EST, TM_QUAL.OFFSET]⟩
/-! TM_HOLD: Table TM-9. -/
def TM_HOLD.AGE : Field := ⟨0x4018, 0, 24, .ro, 0x0⟩
def TM_HOLD.HOLDN : Field := ⟨0x4018, 24, 8, .ro, 0x0⟩
def TM_HOLD : Reg := ⟨0x4018, 1, 0x0, 1, 0x0, .one, [TM_HOLD.AGE, TM_HOLD.HOLDN]⟩
/-! TM_GUARD: Table TM-10. -/
def TM_GUARD.GBASE : Field := ⟨0x401c, 0, 16, .vw, 0x0⟩
def TM_GUARD.EFF : Field := ⟨0x401c, 16, 16, .ro, 0xffff⟩
def TM_GUARD : Reg := ⟨0x401c, 1, 0x0, 1, 0x0, .one, [TM_GUARD.GBASE, TM_GUARD.EFF]⟩
/-! TM_SERVO: Table TM-11. -/
def TM_SERVO.STEPTHR : Field := ⟨0x4020, 0, 16, .vw, 0x0⟩
def TM_SERVO.SLEWMAX : Field := ⟨0x4020, 16, 10, .vw, 0x0⟩
def TM_SERVO : Reg := ⟨0x4020, 1, 0x0, 1, 0x0, .one, [TM_SERVO.STEPTHR, TM_SERVO.SLEWMAX]⟩
/-! TM_LIM: Table TM-12. -/
def TM_LIM.LOCKLIM : Field := ⟨0x4024, 0, 8, .vw, 0x0⟩
def TM_LIM.OFFLIM : Field := ⟨0x4024, 8, 8, .vw, 0x0⟩
def TM_LIM.CORRLIM : Field := ⟨0x4024, 16, 16, .vw, 0x0⟩
def TM_LIM : Reg := ⟨0x4024, 1, 0x0, 1, 0x0, .one, [TM_LIM.LOCKLIM, TM_LIM.OFFLIM, TM_LIM.CORRLIM]⟩
/-! TM_OSC: Table TM-13. -/
def TM_OSC.HOLDRATE : Field := ⟨0x4028, 0, 8, .vw, 0x0⟩
def TM_OSC.RATE : Field := ⟨0x4028, 8, 24, .ro, 0x0⟩
def TM_OSC : Reg := ⟨0x4028, 1, 0x0, 1, 0x0, .one, [TM_OSC.HOLDRATE, TM_OSC.RATE]⟩
/-! TM_GRID: Table TM-14. -/
def TM_GRID.PHASE : Field := ⟨0x4030, 0, 14, .vw, 0x0⟩
def TM_GRID.PHASEF : Field := ⟨0x4030, 16, 14, .ro, 0x0⟩
def TM_GRID : Reg := ⟨0x4030, 1, 0x0, 1, 0x0, .one, [TM_GRID.PHASE, TM_GRID.PHASEF]⟩
/-! TM_MASTER: Table TM-15. -/
def TM_MASTER.MNODE : Field := ⟨0x4034, 0, 10, .ro, 0x0⟩
def TM_MASTER.MRANK : Field := ⟨0x4034, 10, 2, .ro, 0x0⟩
def TM_MASTER.MEPOCH : Field := ⟨0x4034, 12, 4, .ro, 0x0⟩
def TM_MASTER.CPHASE : Field := ⟨0x4034, 16, 14, .ro, 0x0⟩
def TM_MASTER.VALID : Field := ⟨0x4034, 31, 1, .ro, 0x0⟩
def TM_MASTER : Reg := ⟨0x4034, 1, 0x0, 1, 0x0, .one, [TM_MASTER.MNODE, TM_MASTER.MRANK, TM_MASTER.MEPOCH, TM_MASTER.CPHASE, TM_MASTER.VALID]⟩
/-! TM_MCAND0: Table TM-16. -/
def TM_MCAND0.CANDA : Field := ⟨0x4038, 0, 10, .vw, 0x0⟩
def TM_MCAND0.VA : Field := ⟨0x4038, 15, 1, .vw, 0x0⟩
def TM_MCAND0.CANDB : Field := ⟨0x4038, 16, 10, .vw, 0x0⟩
def TM_MCAND0.VB : Field := ⟨0x4038, 31, 1, .vw, 0x0⟩
def TM_MCAND0 : Reg := ⟨0x4038, 1, 0x0, 1, 0x0, .one, [TM_MCAND0.CANDA, TM_MCAND0.VA, TM_MCAND0.CANDB, TM_MCAND0.VB]⟩
/-! TM_MCAND1: Table TM-16. -/
def TM_MCAND1.CANDA : Field := ⟨0x403c, 0, 10, .vw, 0x0⟩
def TM_MCAND1.VA : Field := ⟨0x403c, 15, 1, .vw, 0x0⟩
def TM_MCAND1.CANDB : Field := ⟨0x403c, 16, 10, .vw, 0x0⟩
def TM_MCAND1.VB : Field := ⟨0x403c, 31, 1, .vw, 0x0⟩
def TM_MCAND1 : Reg := ⟨0x403c, 1, 0x0, 1, 0x0, .one, [TM_MCAND1.CANDA, TM_MCAND1.VA, TM_MCAND1.CANDB, TM_MCAND1.VB]⟩
/-! TM_PROF: Table TM-17. -/
def TM_PROF.DOMAIN : Field := ⟨0x4040, 0, 8, .vw, 0x0⟩
def TM_PROF : Reg := ⟨0x4040, 1, 0x0, 1, 0x0, .one, [TM_PROF.DOMAIN]⟩
/-! TM_PASYM: Table TM-18. -/
def TM_PASYM.ASYM : Field := ⟨0x4080, 0, 16, .vw, 0x0⟩
def TM_PASYM : Reg := ⟨0x4080, 1, 0x0, 1, 0x0, .port, [TM_PASYM.ASYM]⟩
/-! TM_PDELAY: Table TM-18. -/
def TM_PDELAY.DELAY : Field := ⟨0x4084, 0, 16, .ro, 0x0⟩
def TM_PDELAY.VALID : Field := ⟨0x4084, 16, 1, .ro, 0x0⟩
def TM_PDELAY.NMEAS : Field := ⟨0x4084, 17, 3, .ro, 0x0⟩
def TM_PDELAY : Reg := ⟨0x4084, 1, 0x0, 1, 0x0, .port, [TM_PDELAY.DELAY, TM_PDELAY.VALID, TM_PDELAY.NMEAS]⟩
/-! TM_CMPT: Table TM-19. -/
def TM_CMPT.TIME : Field := ⟨0x40c0, 0, 32, .rw, 0x0⟩
def TM_CMPT : Reg := ⟨0x40c0, 1, 0x0, 1, 0x0, .req, [TM_CMPT.TIME]⟩
/-! TM_CMPC: Table TM-19. -/
def TM_CMPC.EPOCH : Field := ⟨0x40c4, 0, 4, .rw, 0x0⟩
def TM_CMPC.ARM : Field := ⟨0x40c4, 4, 1, .rw, 0x0⟩
def TM_CMPC : Reg := ⟨0x40c4, 1, 0x0, 1, 0x0, .req, [TM_CMPC.EPOCH, TM_CMPC.ARM]⟩
/-! TM_LTIME: Table TM-20. -/
def TM_LTIME.TIME : Field := ⟨0x4100, 0, 32, .vw, 0x0⟩
def TM_LTIME : Reg := ⟨0x4100, 16, 0x10, 1, 0x0, .one, [TM_LTIME.TIME]⟩
/-! TM_LCFG: Table TM-20. -/
def TM_LCFG.ACTION : Field := ⟨0x4104, 0, 3, .vw, 0x0⟩
def TM_LCFG.EPOCH : Field := ⟨0x4104, 4, 4, .vw, 0x0⟩
def TM_LCFG.ARM : Field := ⟨0x4104, 8, 1, .vw, 0x0⟩
def TM_LCFG.ST : Field := ⟨0x4104, 12, 3, .ro, 0x0⟩
def TM_LCFG : Reg := ⟨0x4104, 16, 0x10, 1, 0x0, .one, [TM_LCFG.ACTION, TM_LCFG.EPOCH, TM_LCFG.ARM, TM_LCFG.ST]⟩
/-! TM_LTGTLO: Table TM-20. -/
def TM_LTGTLO.TGT : Field := ⟨0x4108, 0, 32, .vw, 0x0⟩
def TM_LTGTLO : Reg := ⟨0x4108, 16, 0x10, 1, 0x0, .one, [TM_LTGTLO.TGT]⟩
/-! TM_LTGTHI: Table TM-20. -/
def TM_LTGTHI.TGT : Field := ⟨0x410c, 0, 32, .vw, 0x0⟩
def TM_LTGTHI : Reg := ⟨0x410c, 16, 0x10, 1, 0x0, .one, [TM_LTGTHI.TGT]⟩
/-- The registers of page 0x4000 (Table AR-7). -/
def page4 : List Reg := [TM_CTRL, TM_STATUS, TM_NOWLO, TM_NOWHI, TM_NOWX, TM_QUAL, TM_HOLD, TM_GUARD, TM_SERVO, TM_LIM, TM_OSC, TM_GRID, TM_MASTER, TM_MCAND0, TM_MCAND1, TM_PROF, TM_PASYM, TM_PDELAY, TM_CMPT, TM_CMPC, TM_LTIME, TM_LCFG, TM_LTGTLO, TM_LTGTHI]

/-! CK_CTRL: Table CK-17. -/
def CK_CTRL.RUN : Field := ⟨0x5000, 0, 1, .vw, 0x0⟩
def CK_CTRL.ETYPE : Field := ⟨0x5000, 16, 16, .vw, 0x0⟩
def CK_CTRL : Reg := ⟨0x5000, 1, 0x0, 1, 0x0, .one, [CK_CTRL.RUN, CK_CTRL.ETYPE]⟩
/-! CK_STATUS: Table CK-18. -/
def CK_STATUS.CFGERR : Field := ⟨0x5004, 0, 1, .w1c, 0x0⟩
def CK_STATUS.FITERR : Field := ⟨0x5004, 1, 1, .w1c, 0x0⟩
def CK_STATUS.BUFVIOL : Field := ⟨0x5004, 2, 1, .w1c, 0x0⟩
def CK_STATUS.RXOVF : Field := ⟨0x5004, 3, 1, .w1c, 0x0⟩
def CK_STATUS.SCERR : Field := ⟨0x5004, 4, 1, .w1c, 0x0⟩
def CK_STATUS.ACCREJ : Field := ⟨0x5004, 5, 1, .w1c, 0x0⟩
def CK_STATUS.RLYDROP : Field := ⟨0x5004, 6, 1, .w1c, 0x0⟩
def CK_STATUS.FOOTCUT : Field := ⟨0x5004, 7, 1, .w1c, 0x0⟩
def CK_STATUS.GUARDSHUT : Field := ⟨0x5004, 8, 1, .w1c, 0x0⟩
def CK_STATUS.NULLTX : Field := ⟨0x5004, 9, 1, .w1c, 0x0⟩
def CK_STATUS.TXLEN : Field := ⟨0x5004, 10, 1, .w1c, 0x0⟩
def CK_STATUS.COLL : Field := ⟨0x5004, 11, 1, .w1c, 0x0⟩
def CK_STATUS.REROUTE : Field := ⟨0x5004, 12, 1, .w1c, 0x0⟩
def CK_STATUS.STCHG : Field := ⟨0x5004, 13, 1, .w1c, 0x0⟩
def CK_STATUS.LINKERR : Field := ⟨0x5004, 14, 1, .w1c, 0x0⟩
def CK_STATUS.PIDERR : Field := ⟨0x5004, 15, 1, .w1c, 0x0⟩
def CK_STATUS.RETERR : Field := ⟨0x5004, 16, 1, .w1c, 0x0⟩
def CK_STATUS.SUMOVF : Field := ⟨0x5004, 17, 1, .w1c, 0x0⟩
def CK_STATUS : Reg := ⟨0x5004, 1, 0x0, 1, 0x0, .one, [CK_STATUS.CFGERR, CK_STATUS.FITERR, CK_STATUS.BUFVIOL, CK_STATUS.RXOVF, CK_STATUS.SCERR, CK_STATUS.ACCREJ, CK_STATUS.RLYDROP, CK_STATUS.FOOTCUT, CK_STATUS.GUARDSHUT, CK_STATUS.NULLTX, CK_STATUS.TXLEN, CK_STATUS.COLL, CK_STATUS.REROUTE, CK_STATUS.STCHG, CK_STATUS.LINKERR, CK_STATUS.PIDERR, CK_STATUS.RETERR, CK_STATUS.SUMOVF]⟩
/-! CK_NODEST: Table CK-19. -/
def CK_NODEST.STATE : Field := ⟨0x5008, 0, 3, .ro, 0x0⟩
def CK_NODEST.OPEN : Field := ⟨0x5008, 3, 1, .ro, 0x1⟩
def CK_NODEST.PREF : Field := ⟨0x5008, 4, 1, .ro, 0x0⟩
def CK_NODEST.HOPM : Field := ⟨0x5008, 8, 8, .ro, 0x0⟩
def CK_NODEST.CYC : Field := ⟨0x5008, 16, 16, .ro, 0x0⟩
def CK_NODEST : Reg := ⟨0x5008, 1, 0x0, 1, 0x0, .one, [CK_NODEST.STATE, CK_NODEST.OPEN, CK_NODEST.PREF, CK_NODEST.HOPM, CK_NODEST.CYC]⟩
/-! CK_NODEST2: Table CK-19. -/
def CK_NODEST2.STATE : Field := ⟨0x500c, 0, 3, .ro, 0x0⟩
def CK_NODEST2.OPEN : Field := ⟨0x500c, 3, 1, .ro, 0x1⟩
def CK_NODEST2.PREF : Field := ⟨0x500c, 4, 1, .ro, 0x0⟩
def CK_NODEST2.HOPM : Field := ⟨0x500c, 8, 8, .ro, 0x0⟩
def CK_NODEST2.CYC : Field := ⟨0x500c, 16, 16, .ro, 0x0⟩
def CK_NODEST2 : Reg := ⟨0x500c, 1, 0x0, 1, 0x0, .one, [CK_NODEST2.STATE, CK_NODEST2.OPEN, CK_NODEST2.PREF, CK_NODEST2.HOPM, CK_NODEST2.CYC]⟩
/-! CK_RING: Table CK-20. -/
def CK_RING.RING : Field := ⟨0x5010, 0, 3, .ro, 0x0⟩
def CK_RING.POS : Field := ⟨0x5010, 3, 7, .ro, 0x0⟩
def CK_RING.NPOS : Field := ⟨0x5010, 10, 8, .ro, 0x0⟩
def CK_RING.CYCLE : Field := ⟨0x5010, 18, 2, .ro, 0x0⟩
def CK_RING.FIELD : Field := ⟨0x5010, 20, 1, .ro, 0x0⟩
def CK_RING.COLD : Field := ⟨0x5010, 21, 1, .ro, 0x0⟩
def CK_RING.VALID : Field := ⟨0x5010, 31, 1, .ro, 0x0⟩
def CK_RING : Reg := ⟨0x5010, 1, 0x0, 1, 0x0, .one, [CK_RING.RING, CK_RING.POS, CK_RING.NPOS, CK_RING.CYCLE, CK_RING.FIELD, CK_RING.COLD, CK_RING.VALID]⟩
/-! CK_RING2: Table CK-20. -/
def CK_RING2.RING : Field := ⟨0x5014, 0, 3, .ro, 0x0⟩
def CK_RING2.POS : Field := ⟨0x5014, 3, 7, .ro, 0x0⟩
def CK_RING2.NPOS : Field := ⟨0x5014, 10, 8, .ro, 0x0⟩
def CK_RING2.CYCLE : Field := ⟨0x5014, 18, 2, .ro, 0x0⟩
def CK_RING2.FIELD : Field := ⟨0x5014, 20, 1, .ro, 0x0⟩
def CK_RING2.COLD : Field := ⟨0x5014, 21, 1, .ro, 0x0⟩
def CK_RING2.VALID : Field := ⟨0x5014, 31, 1, .ro, 0x0⟩
def CK_RING2 : Reg := ⟨0x5014, 1, 0x0, 1, 0x0, .one, [CK_RING2.RING, CK_RING2.POS, CK_RING2.NPOS, CK_RING2.CYCLE, CK_RING2.FIELD, CK_RING2.COLD, CK_RING2.VALID]⟩
/-! CK_PID: Table CK-20. -/
def CK_PID.PID : Field := ⟨0x5018, 0, 32, .ro, 0x0⟩
def CK_PID : Reg := ⟨0x5018, 1, 0x0, 1, 0x0, .one, [CK_PID.PID]⟩
/-! CK_PID2: Table CK-20. -/
def CK_PID2.PID : Field := ⟨0x501c, 0, 32, .ro, 0x0⟩
def CK_PID2 : Reg := ⟨0x501c, 1, 0x0, 1, 0x0, .one, [CK_PID2.PID]⟩
/-! CK_RXBASE: Table CK-21. -/
def CK_RXBASE.BASE : Field := ⟨0x5020, 0, 32, .ro, 0x0⟩
def CK_RXBASE : Reg := ⟨0x5020, 1, 0x0, 1, 0x0, .one, [CK_RXBASE.BASE]⟩
/-! CK_RXGEOM: Table CK-21. -/
def CK_RXGEOM.NRXB : Field := ⟨0x5024, 0, 11, .ro, 0x0⟩
def CK_RXGEOM.RXBLEN : Field := ⟨0x5024, 16, 11, .ro, 0x0⟩
def CK_RXGEOM : Reg := ⟨0x5024, 1, 0x0, 1, 0x0, .one, [CK_RXGEOM.NRXB, CK_RXGEOM.RXBLEN]⟩
/-! CK_RXWI: Table CK-21. -/
def CK_RXWI.WI : Field := ⟨0x5028, 0, 11, .ro, 0x0⟩
def CK_RXWI : Reg := ⟨0x5028, 1, 0x0, 1, 0x0, .one, [CK_RXWI.WI]⟩
/-! CK_RXRI: Table CK-21. -/
def CK_RXRI.RI : Field := ⟨0x502c, 0, 11, .vw, 0x0⟩
def CK_RXRI : Reg := ⟨0x502c, 1, 0x0, 1, 0x0, .one, [CK_RXRI.RI]⟩
/-! CK_NODECNT: Table CK-22. -/
def CK_NODECNT.NULLN : Field := ⟨0x5030, 0, 16, .ro, 0x0⟩
def CK_NODECNT.SKIPN : Field := ⟨0x5030, 16, 16, .ro, 0x0⟩
def CK_NODECNT : Reg := ⟨0x5030, 1, 0x0, 1, 0x0, .one, [CK_NODECNT.NULLN, CK_NODECNT.SKIPN]⟩
/-! CK_EVDROP: Table CK-22. -/
def CK_EVDROP.NOPOINT : Field := ⟨0x5034, 0, 12, .ro, 0x0⟩
def CK_EVDROP.WRONGSRC : Field := ⟨0x5034, 12, 12, .ro, 0x0⟩
def CK_EVDROP.UNKEL : Field := ⟨0x5034, 24, 8, .ro, 0x0⟩
def CK_EVDROP : Reg := ⟨0x5034, 1, 0x0, 1, 0x0, .one, [CK_EVDROP.NOPOINT, CK_EVDROP.WRONGSRC, CK_EVDROP.UNKEL]⟩
/-! CK_COLD: Table CK-22. -/
def CK_COLD.COLLN : Field := ⟨0x5038, 0, 8, .ro, 0x0⟩
def CK_COLD.ATTEMPT : Field := ⟨0x5038, 8, 8, .ro, 0x0⟩
def CK_COLD : Reg := ⟨0x5038, 1, 0x0, 1, 0x0, .one, [CK_COLD.COLLN, CK_COLD.ATTEMPT]⟩
/-! CK_PORTSEL: Table CK-23. -/
def CK_PORTSEL.PORT : Field := ⟨0x5040, 0, 3, .rw, 0x0⟩
def CK_PORTSEL : Reg := ⟨0x5040, 1, 0x0, 1, 0x0, .req, [CK_PORTSEL.PORT]⟩
/-! CK_PCTRL: Table CK-23. -/
def CK_PCTRL.EN : Field := ⟨0x5044, 0, 1, .vw, 0x0⟩
def CK_PCTRL.AMP : Field := ⟨0x5044, 1, 1, .vw, 0x0⟩
def CK_PCTRL : Reg := ⟨0x5044, 1, 0x0, 1, 0x0, .port, [CK_PCTRL.EN, CK_PCTRL.AMP]⟩
/-! CK_PST: Table CK-23. -/
def CK_PST.PSTATE : Field := ⟨0x5048, 0, 2, .ro, 0x0⟩
def CK_PST.SYNC : Field := ⟨0x5048, 2, 1, .ro, 0x0⟩
def CK_PST.LINKD : Field := ⟨0x5048, 16, 16, .ro, 0x0⟩
def CK_PST : Reg := ⟨0x5048, 1, 0x0, 1, 0x0, .port, [CK_PST.PSTATE, CK_PST.SYNC, CK_PST.LINKD]⟩
/-! CK_PCNT0: Table CK-24. -/
def CK_PCNT0.RXOK : Field := ⟨0x504c, 0, 16, .ro, 0x0⟩
def CK_PCNT0.SCERR : Field := ⟨0x504c, 16, 16, .ro, 0x0⟩
def CK_PCNT0 : Reg := ⟨0x504c, 1, 0x0, 1, 0x0, .port, [CK_PCNT0.RXOK, CK_PCNT0.SCERR]⟩
/-! CK_PCNT1: Table CK-24. -/
def CK_PCNT1.ACCREJ : Field := ⟨0x5050, 0, 16, .ro, 0x0⟩
def CK_PCNT1.RLYDROP : Field := ⟨0x5050, 16, 16, .ro, 0x0⟩
def CK_PCNT1 : Reg := ⟨0x5050, 1, 0x0, 1, 0x0, .port, [CK_PCNT1.ACCREJ, CK_PCNT1.RLYDROP]⟩
/-! CK_PCNT2: Table CK-24. -/
def CK_PCNT2.FCSERR : Field := ⟨0x5054, 0, 16, .ro, 0x0⟩
def CK_PCNT2.FOOTCUT : Field := ⟨0x5054, 16, 16, .ro, 0x0⟩
def CK_PCNT2 : Reg := ⟨0x5054, 1, 0x0, 1, 0x0, .port, [CK_PCNT2.FCSERR, CK_PCNT2.FOOTCUT]⟩
/-! CK_TXBASE: Table CK-24. -/
def CK_TXBASE.BASE : Field := ⟨0x5060, 0, 32, .ro, 0x0⟩
def CK_TXBASE : Reg := ⟨0x5060, 1, 0x0, 1, 0x0, .one, [CK_TXBASE.BASE]⟩
/-! CK_TXRDY: Table CK-24. -/
def CK_TXRDY.HOME : Field := ⟨0x5064, 0, 8, .wovw, 0x0⟩
def CK_TXRDY.BRIDGED : Field := ⟨0x5064, 8, 8, .wovw, 0x0⟩
def CK_TXRDY.SUMH : Field := ⟨0x5064, 16, 1, .wovw, 0x0⟩
def CK_TXRDY.SUMB : Field := ⟨0x5064, 17, 1, .wovw, 0x0⟩
def CK_TXRDY : Reg := ⟨0x5064, 1, 0x0, 1, 0x0, .one, [CK_TXRDY.HOME, CK_TXRDY.BRIDGED, CK_TXRDY.SUMH, CK_TXRDY.SUMB]⟩
/-! CK_TXST: Table CK-24. -/
def CK_TXST.NEXT : Field := ⟨0x5068, 0, 8, .ro, 0x0⟩
def CK_TXST.NEXT2 : Field := ⟨0x5068, 8, 8, .ro, 0x0⟩
def CK_TXST.NULL : Field := ⟨0x5068, 16, 8, .ro, 0x0⟩
def CK_TXST.NULL2 : Field := ⟨0x5068, 24, 8, .ro, 0x0⟩
def CK_TXST : Reg := ⟨0x5068, 1, 0x0, 1, 0x0, .one, [CK_TXST.NEXT, CK_TXST.NEXT2, CK_TXST.NULL, CK_TXST.NULL2]⟩
/-! CK_TXST2: Table CK-25. -/
def CK_TXST2.SNEXT : Field := ⟨0x506c, 0, 1, .ro, 0x0⟩
def CK_TXST2.SNEXT2 : Field := ⟨0x506c, 1, 1, .ro, 0x0⟩
def CK_TXST2.SNONE : Field := ⟨0x506c, 8, 1, .ro, 0x0⟩
def CK_TXST2.SNONE2 : Field := ⟨0x506c, 9, 1, .ro, 0x0⟩
def CK_TXST2 : Reg := ⟨0x506c, 1, 0x0, 1, 0x0, .one, [CK_TXST2.SNEXT, CK_TXST2.SNEXT2, CK_TXST2.SNONE, CK_TXST2.SNONE2]⟩
/-! CK_SSBASE: Table CK-25. -/
def CK_SSBASE.BASE : Field := ⟨0x5070, 0, 32, .ro, 0x0⟩
def CK_SSBASE : Reg := ⟨0x5070, 1, 0x0, 1, 0x0, .one, [CK_SSBASE.BASE]⟩
/-! CK_SUMMASK: Table CK-25. -/
def CK_SUMMASK.HOME : Field := ⟨0x5074, 0, 8, .ro, 0x0⟩
def CK_SUMMASK.BRIDGED : Field := ⟨0x5074, 8, 8, .ro, 0x0⟩
def CK_SUMMASK : Reg := ⟨0x5074, 1, 0x0, 1, 0x0, .one, [CK_SUMMASK.HOME, CK_SUMMASK.BRIDGED]⟩
/-- The registers of page 0x5000 (Table AR-7). -/
def page5 : List Reg := [CK_CTRL, CK_STATUS, CK_NODEST, CK_NODEST2, CK_RING, CK_RING2, CK_PID, CK_PID2, CK_RXBASE, CK_RXGEOM, CK_RXWI, CK_RXRI, CK_NODECNT, CK_EVDROP, CK_COLD, CK_PORTSEL, CK_PCTRL, CK_PST, CK_PCNT0, CK_PCNT1, CK_PCNT2, CK_TXBASE, CK_TXRDY, CK_TXST, CK_TXST2, CK_SSBASE, CK_SUMMASK]

/-! GR_CTRL: Table GR-9. -/
def GR_CTRL.SHMIN : Field := ⟨0x6000, 0, 4, .vw, 0x0⟩
def GR_CTRL.SPARE : Field := ⟨0x6000, 4, 3, .vw, 0x0⟩
def GR_CTRL.MIGMIN : Field := ⟨0x6000, 8, 4, .vw, 0x0⟩
def GR_CTRL.STALEC : Field := ⟨0x6000, 12, 4, .vw, 0x0⟩
def GR_CTRL.CTO : Field := ⟨0x6000, 16, 4, .vw, 0x0⟩
def GR_CTRL.SWEEPN : Field := ⟨0x6000, 20, 6, .vw, 0x0⟩
def GR_CTRL.MIGTRY : Field := ⟨0x6000, 26, 6, .vw, 0x0⟩
def GR_CTRL : Reg := ⟨0x6000, 1, 0x0, 1, 0x0, .one, [GR_CTRL.SHMIN, GR_CTRL.SPARE, GR_CTRL.MIGMIN, GR_CTRL.STALEC, GR_CTRL.CTO, GR_CTRL.SWEEPN, GR_CTRL.MIGTRY]⟩
/-! GR_STATUS: Table GR-10. -/
def GR_STATUS.CFGERR : Field := ⟨0x6004, 0, 1, .w1c, 0x0⟩
def GR_STATUS.PLANREJ : Field := ⟨0x6004, 1, 1, .w1c, 0x0⟩
def GR_STATUS.HOVER : Field := ⟨0x6004, 2, 1, .w1c, 0x0⟩
def GR_STATUS.FORCED : Field := ⟨0x6004, 3, 1, .w1c, 0x0⟩
def GR_STATUS.UNPLACED : Field := ⟨0x6004, 4, 1, .w1c, 0x0⟩
def GR_STATUS.SHDROP : Field := ⟨0x6004, 5, 1, .w1c, 0x0⟩
def GR_STATUS.MIGSTART : Field := ⟨0x6004, 6, 1, .w1c, 0x0⟩
def GR_STATUS.MIGDONE : Field := ⟨0x6004, 7, 1, .w1c, 0x0⟩
def GR_STATUS.MIGABORT : Field := ⟨0x6004, 8, 1, .w1c, 0x0⟩
def GR_STATUS.COORDCHG : Field := ⟨0x6004, 9, 1, .w1c, 0x0⟩
def GR_STATUS.EMPTY : Field := ⟨0x6004, 10, 1, .w1c, 0x0⟩
def GR_STATUS.CMDDONE : Field := ⟨0x6004, 11, 1, .w1c, 0x0⟩
def GR_STATUS.EVAC : Field := ⟨0x6004, 12, 1, .ro, 0x0⟩
def GR_STATUS.LEARN : Field := ⟨0x6004, 13, 1, .ro, 0x0⟩
def GR_STATUS : Reg := ⟨0x6004, 1, 0x0, 1, 0x0, .one, [GR_STATUS.CFGERR, GR_STATUS.PLANREJ, GR_STATUS.HOVER, GR_STATUS.FORCED, GR_STATUS.UNPLACED, GR_STATUS.SHDROP, GR_STATUS.MIGSTART, GR_STATUS.MIGDONE, GR_STATUS.MIGABORT, GR_STATUS.COORDCHG, GR_STATUS.EMPTY, GR_STATUS.CMDDONE, GR_STATUS.EVAC, GR_STATUS.LEARN]⟩
/-! GR_ENG: Table GR-11. -/
def GR_ENG.ST : Field := ⟨0x6008, 0, 12, .ro, 0x0⟩
def GR_ENG : Reg := ⟨0x6008, 1, 0x0, 1, 0x0, .one, [GR_ENG.ST]⟩
/-! GR_SHPASS: Table GR-11. -/
def GR_SHPASS.SPASS : Field := ⟨0x600c, 0, 32, .rw, 0x0⟩
def GR_SHPASS : Reg := ⟨0x600c, 1, 0x0, 1, 0x0, .one, [GR_SHPASS.SPASS]⟩
/-! GR_CMD: Table GR-12. -/
def GR_CMD.BOB : Field := ⟨0x6010, 0, 8, .aw, 0x0⟩
def GR_CMD.TNODE : Field := ⟨0x6010, 8, 10, .aw, 0x0⟩
def GR_CMD.CODE : Field := ⟨0x6010, 18, 3, .aw, 0x0⟩
def GR_CMD.TAG : Field := ⟨0x6010, 21, 11, .aw, 0x0⟩
def GR_CMD : Reg := ⟨0x6010, 1, 0x0, 1, 0x0, .one, [GR_CMD.BOB, GR_CMD.TNODE, GR_CMD.CODE, GR_CMD.TAG]⟩
/-! GR_CMDRES: Table GR-12. -/
def GR_CMDRES.BOB : Field := ⟨0x6014, 0, 8, .ro, 0x0⟩
def GR_CMDRES.CODE : Field := ⟨0x6014, 8, 3, .ro, 0x0⟩
def GR_CMDRES.RESULT : Field := ⟨0x6014, 11, 4, .ro, 0x0⟩
def GR_CMDRES.REASON : Field := ⟨0x6014, 15, 4, .ro, 0x0⟩
def GR_CMDRES.TAG : Field := ⟨0x6014, 21, 11, .ro, 0x0⟩
def GR_CMDRES : Reg := ⟨0x6014, 1, 0x0, 1, 0x0, .one, [GR_CMDRES.BOB, GR_CMDRES.CODE, GR_CMDRES.RESULT, GR_CMDRES.REASON, GR_CMDRES.TAG]⟩
/-! GR_COORD: Table GR-13. -/
def GR_COORD.CNODE : Field := ⟨0x6018, 0, 10, .vw, 0x0⟩
def GR_COORD.SNODE : Field := ⟨0x6018, 10, 10, .vw, 0x0⟩
def GR_COORD.VC : Field := ⟨0x6018, 20, 1, .vw, 0x0⟩
def GR_COORD : Reg := ⟨0x6018, 1, 0x0, 1, 0x0, .one, [GR_COORD.CNODE, GR_COORD.SNODE, GR_COORD.VC]⟩
/-! GR_COORDST: Table GR-13. -/
def GR_COORDST.CUR : Field := ⟨0x601c, 0, 10, .ro, 0x0⟩
def GR_COORDST.TERM : Field := ⟨0x601c, 10, 6, .ro, 0x0⟩
def GR_COORDST.ROLE : Field := ⟨0x601c, 16, 2, .ro, 0x0⟩
def GR_COORDST.VALID : Field := ⟨0x601c, 18, 1, .ro, 0x0⟩
def GR_COORDST : Reg := ⟨0x601c, 1, 0x0, 1, 0x0, .one, [GR_COORDST.CUR, GR_COORDST.TERM, GR_COORDST.ROLE, GR_COORDST.VALID]⟩
/-! GR_CANOPY: Table GR-13. -/
def GR_CANOPY.NEND : Field := ⟨0x6020, 0, 18, .ro, 0x0⟩
def GR_CANOPY : Reg := ⟨0x6020, 1, 0x0, 1, 0x0, .one, [GR_CANOPY.NEND]⟩
/-! GR_SHBASE: Table GR-11. -/
def GR_SHBASE.BASE : Field := ⟨0x6024, 0, 32, .ro, 0x0⟩
def GR_SHBASE : Reg := ⟨0x6024, 1, 0x0, 1, 0x0, .one, [GR_SHBASE.BASE]⟩
/-! GR_SHIDX: Table GR-11. -/
def GR_SHIDX.WI : Field := ⟨0x6028, 0, 6, .ro, 0x0⟩
def GR_SHIDX.RI : Field := ⟨0x6028, 6, 6, .vw, 0x0⟩
def GR_SHIDX.DROP : Field := ⟨0x6028, 12, 16, .ro, 0x0⟩
def GR_SHIDX : Reg := ⟨0x6028, 1, 0x0, 1, 0x0, .one, [GR_SHIDX.WI, GR_SHIDX.RI, GR_SHIDX.DROP]⟩
/-! GR_MIG: Table GR-13. -/
def GR_MIG.BOB : Field := ⟨0x6040, 0, 8, .ro, 0x0⟩
def GR_MIG.PBOB : Field := ⟨0x6040, 8, 8, .ro, 0x0⟩
def GR_MIG.PEER : Field := ⟨0x6040, 16, 10, .ro, 0x0⟩
def GR_MIG.STATE : Field := ⟨0x6040, 26, 3, .ro, 0x0⟩
def GR_MIG.ROLE : Field := ⟨0x6040, 29, 1, .ro, 0x0⟩
def GR_MIG : Reg := ⟨0x6040, 8, 0x4, 1, 0x0, .one, [GR_MIG.BOB, GR_MIG.PBOB, GR_MIG.PEER, GR_MIG.STATE, GR_MIG.ROLE]⟩
/-! GR_BSID: Table GR-14. -/
def GR_BSID.SID : Field := ⟨0x6100, 0, 17, .vw, 0x0⟩
def GR_BSID.VALID : Field := ⟨0x6100, 17, 1, .vw, 0x0⟩
def GR_BSID : Reg := ⟨0x6100, 1, 0x0, 1, 0x0, .bob, [GR_BSID.SID, GR_BSID.VALID]⟩
/-! GR_BMODE: Table GR-14. -/
def GR_BMODE.MODE : Field := ⟨0x6104, 0, 2, .ro, 0x0⟩
def GR_BMODE.SLOT : Field := ⟨0x6104, 2, 3, .ro, 0x0⟩
def GR_BMODE : Reg := ⟨0x6104, 1, 0x0, 1, 0x0, .bob, [GR_BMODE.MODE, GR_BMODE.SLOT]⟩
/-! GR_HPLACE: Table GR-14. -/
def GR_HPLACE.PRIM : Field := ⟨0x6200, 0, 3, .vw, 0x0⟩
def GR_HPLACE.SHAD : Field := ⟨0x6200, 4, 3, .vw, 0x0⟩
def GR_HPLACE.HOVER : Field := ⟨0x6200, 8, 1, .wovw, 0x0⟩
def GR_HPLACE.FORCE : Field := ⟨0x6200, 9, 1, .wovw, 0x0⟩
def GR_HPLACE.PEND : Field := ⟨0x6200, 10, 1, .ro, 0x0⟩
def GR_HPLACE.SEQ : Field := ⟨0x6200, 12, 4, .rw, 0x0⟩
def GR_HPLACE : Reg := ⟨0x6200, 32, 0x4, 1, 0x0, .one, [GR_HPLACE.PRIM, GR_HPLACE.SHAD, GR_HPLACE.HOVER, GR_HPLACE.FORCE, GR_HPLACE.PEND, GR_HPLACE.SEQ]⟩
/-- The registers of page 0x6000 (Table AR-7). -/
def page6 : List Reg := [GR_CTRL, GR_STATUS, GR_ENG, GR_SHPASS, GR_CMD, GR_CMDRES, GR_COORD, GR_COORDST, GR_CANOPY, GR_SHBASE, GR_SHIDX, GR_MIG, GR_BSID, GR_BMODE, GR_HPLACE]

/-! HW_CTRL: Table HW-5. -/
def HW_CTRL.LAG : Field := ⟨0x7000, 0, 8, .vw, 0x0⟩
def HW_CTRL.STALLT : Field := ⟨0x7000, 8, 8, .vw, 0x0⟩
def HW_CTRL.MISMAX : Field := ⟨0x7000, 16, 4, .vw, 0x0⟩
def HW_CTRL.RSLIM : Field := ⟨0x7000, 20, 4, .vw, 0x0⟩
def HW_CTRL.SCRUB : Field := ⟨0x7000, 24, 4, .vw, 0x0⟩
def HW_CTRL : Reg := ⟨0x7000, 1, 0x0, 1, 0x0, .one, [HW_CTRL.LAG, HW_CTRL.STALLT, HW_CTRL.MISMAX, HW_CTRL.RSLIM, HW_CTRL.SCRUB]⟩
/-! HW_STATUS: Table HW-6. -/
def HW_STATUS.CFGERR : Field := ⟨0x7004, 0, 1, .w1c, 0x0⟩
def HW_STATUS.FENCE : Field := ⟨0x7004, 1, 1, .w1c, 0x0⟩
def HW_STATUS.REJOIN : Field := ⟨0x7004, 2, 1, .w1c, 0x0⟩
def HW_STATUS.RETIRE : Field := ⟨0x7004, 3, 1, .w1c, 0x0⟩
def HW_STATUS.STFAIL : Field := ⟨0x7004, 4, 1, .w1c, 0x0⟩
def HW_STATUS.GRPSPLIT : Field := ⟨0x7004, 5, 1, .w1c, 0x0⟩
def HW_STATUS.GRPSPAN : Field := ⟨0x7004, 6, 1, .w1c, 0x0⟩
def HW_STATUS.EXTFLT : Field := ⟨0x7004, 7, 1, .w1c, 0x0⟩
def HW_STATUS.MODECHG : Field := ⟨0x7004, 8, 1, .w1c, 0x0⟩
def HW_STATUS.TESTDONE : Field := ⟨0x7004, 9, 1, .w1c, 0x0⟩
def HW_STATUS.MODEREF : Field := ⟨0x7004, 10, 1, .w1c, 0x0⟩
def HW_STATUS.SAFE : Field := ⟨0x7004, 16, 1, .ro, 0x0⟩
def HW_STATUS : Reg := ⟨0x7004, 1, 0x0, 1, 0x0, .one, [HW_STATUS.CFGERR, HW_STATUS.FENCE, HW_STATUS.REJOIN, HW_STATUS.RETIRE, HW_STATUS.STFAIL, HW_STATUS.GRPSPLIT, HW_STATUS.GRPSPAN, HW_STATUS.EXTFLT, HW_STATUS.MODECHG, HW_STATUS.TESTDONE, HW_STATUS.MODEREF, HW_STATUS.SAFE]⟩
/-! HW_CORE: Table HW-7. -/
def HW_CORE.HA : Field := ⟨0x7008, 0, 4, .ro, 0x0⟩
def HW_CORE.HB : Field := ⟨0x7008, 4, 4, .ro, 0x0⟩
def HW_CORE.HC : Field := ⟨0x7008, 8, 4, .ro, 0x0⟩
def HW_CORE : Reg := ⟨0x7008, 1, 0x0, 1, 0x0, .one, [HW_CORE.HA, HW_CORE.HB, HW_CORE.HC]⟩
/-! HW_PHASE: Table HW-8. -/
def HW_PHASE.PHASE : Field := ⟨0x700c, 0, 2, .vw, 0x0⟩
def HW_PHASE.REQ : Field := ⟨0x700c, 2, 2, .ro, 0x0⟩
def HW_PHASE : Reg := ⟨0x700c, 1, 0x0, 1, 0x0, .one, [HW_PHASE.PHASE, HW_PHASE.REQ]⟩
/-! HW_MODEREQ: Table HW-9. -/
def HW_MODEREQ.MODE : Field := ⟨0x7010, 0, 2, .wo, 0x0⟩
def HW_MODEREQ : Reg := ⟨0x7010, 1, 0x0, 1, 0x0, .one, [HW_MODEREQ.MODE]⟩
/-! HW_TEST: Table HW-10. -/
def HW_TEST.CORE : Field := ⟨0x7014, 0, 2, .wovw, 0x0⟩
def HW_TEST.KIND : Field := ⟨0x7014, 2, 1, .wovw, 0x0⟩
def HW_TEST : Reg := ⟨0x7014, 1, 0x0, 1, 0x0, .one, [HW_TEST.CORE, HW_TEST.KIND]⟩
/-! HW_MIS: Table HW-11. -/
def HW_MIS.KIND : Field := ⟨0x7018, 0, 3, .ro, 0x0⟩
def HW_MIS.CORE : Field := ⟨0x7018, 3, 2, .ro, 0x0⟩
def HW_MIS.PHASE : Field := ⟨0x7018, 5, 2, .ro, 0x0⟩
def HW_MIS.INJ : Field := ⟨0x7018, 7, 1, .ro, 0x0⟩
def HW_MIS : Reg := ⟨0x7018, 1, 0x0, 1, 0x0, .one, [HW_MIS.KIND, HW_MIS.CORE, HW_MIS.PHASE, HW_MIS.INJ]⟩
/-! HW_MISADDR: Table HW-12. -/
def HW_MISADDR.ADDR : Field := ⟨0x701c, 0, 32, .ro, 0x0⟩
def HW_MISADDR : Reg := ⟨0x701c, 1, 0x0, 1, 0x0, .one, [HW_MISADDR.ADDR]⟩
/-! HW_MISTIME: Table HW-12. -/
def HW_MISTIME.TIME : Field := ⟨0x7020, 0, 32, .ro, 0x0⟩
def HW_MISTIME : Reg := ⟨0x7020, 1, 0x0, 1, 0x0, .one, [HW_MISTIME.TIME]⟩
/-! HW_COUNT: Table HW-13. -/
def HW_COUNT.FHA : Field := ⟨0x7024, 0, 8, .ro, 0x0⟩
def HW_COUNT.FHB : Field := ⟨0x7024, 8, 8, .ro, 0x0⟩
def HW_COUNT.FHC : Field := ⟨0x7024, 16, 8, .ro, 0x0⟩
def HW_COUNT.REJOINN : Field := ⟨0x7024, 24, 8, .ro, 0x0⟩
def HW_COUNT : Reg := ⟨0x7024, 1, 0x0, 1, 0x0, .one, [HW_COUNT.FHA, HW_COUNT.FHB, HW_COUNT.FHC, HW_COUNT.REJOINN]⟩
/-! HW_EXTFLT: Table HW-14. -/
def HW_EXTFLT.SRC : Field := ⟨0x7028, 0, 4, .ro, 0x0⟩
def HW_EXTFLT.INDEX : Field := ⟨0x7028, 4, 4, .ro, 0x0⟩
def HW_EXTFLT : Reg := ⟨0x7028, 1, 0x0, 1, 0x0, .one, [HW_EXTFLT.SRC, HW_EXTFLT.INDEX]⟩
/-! HW_GRP: Table HW-15. -/
def HW_GRP.MAXW : Field := ⟨0x702c, 0, 8, .ro, 0x0⟩
def HW_GRP.SPLITN : Field := ⟨0x702c, 8, 8, .ro, 0x0⟩
def HW_GRP.SPANN : Field := ⟨0x702c, 16, 8, .ro, 0x0⟩
def HW_GRP : Reg := ⟨0x702c, 1, 0x0, 1, 0x0, .one, [HW_GRP.MAXW, HW_GRP.SPLITN, HW_GRP.SPANN]⟩
/-- The registers of page 0x7000 (Table AR-7). -/
def page7 : List Reg := [HW_CTRL, HW_STATUS, HW_CORE, HW_PHASE, HW_MODEREQ, HW_TEST, HW_MIS, HW_MISADDR, HW_MISTIME, HW_COUNT, HW_EXTFLT, HW_GRP]

/-! MI_CTRL: Table MI-6. -/
def MI_CTRL.SCRUBP : Field := ⟨0x8000, 0, 8, .vw, 0x0⟩
def MI_CTRL.QMAX : Field := ⟨0x8000, 8, 8, .vw, 0x0⟩
def MI_CTRL : Reg := ⟨0x8000, 1, 0x0, 1, 0x0, .one, [MI_CTRL.SCRUBP, MI_CTRL.QMAX]⟩
/-! MI_STATUS: Table MI-7. -/
def MI_STATUS.CFGERR : Field := ⟨0x8004, 0, 1, .w1c, 0x0⟩
def MI_STATUS.CE : Field := ⟨0x8004, 1, 1, .w1c, 0x0⟩
def MI_STATUS.UE : Field := ⟨0x8004, 2, 1, .w1c, 0x0⟩
def MI_STATUS.UEW : Field := ⟨0x8004, 3, 1, .w1c, 0x0⟩
def MI_STATUS.WDOG : Field := ⟨0x8004, 4, 1, .w1c, 0x0⟩
def MI_STATUS.LOCKWD : Field := ⟨0x8004, 5, 1, .w1c, 0x0⟩
def MI_STATUS.MAPREJ : Field := ⟨0x8004, 6, 1, .w1c, 0x0⟩
def MI_STATUS.QTO : Field := ⟨0x8004, 7, 1, .w1c, 0x0⟩
def MI_STATUS.QUIESCED : Field := ⟨0x8004, 16, 1, .ro, 0x0⟩
def MI_STATUS : Reg := ⟨0x8004, 1, 0x0, 1, 0x0, .one, [MI_STATUS.CFGERR, MI_STATUS.CE, MI_STATUS.UE, MI_STATUS.UEW, MI_STATUS.WDOG, MI_STATUS.LOCKWD, MI_STATUS.MAPREJ, MI_STATUS.QTO, MI_STATUS.QUIESCED]⟩
/-! MI_QUIESCE: Table MI-8. -/
def MI_QUIESCE.REQ : Field := ⟨0x8008, 0, 1, .vw, 0x0⟩
def MI_QUIESCE : Reg := ⟨0x8008, 1, 0x0, 1, 0x0, .one, [MI_QUIESCE.REQ]⟩
/-! MI_MASK: Table MI-8. -/
def MI_MASK.MASK : Field := ⟨0x800c, 0, 13, .ro, 0x0⟩
def MI_MASK : Reg := ⟨0x800c, 1, 0x0, 1, 0x0, .one, [MI_MASK.MASK]⟩
/-! MI_WDOG: Table MI-9. -/
def MI_WDOG.INPUT : Field := ⟨0x8010, 0, 4, .ro, 0x0⟩
def MI_WDOG.CAUSE : Field := ⟨0x8010, 4, 2, .ro, 0x0⟩
def MI_WDOG.BLK : Field := ⟨0x8010, 6, 4, .ro, 0x0⟩
def MI_WDOG : Reg := ⟨0x8010, 1, 0x0, 1, 0x0, .one, [MI_WDOG.INPUT, MI_WDOG.CAUSE, MI_WDOG.BLK]⟩
/-! MI_WDTIME: Table MI-9. -/
def MI_WDTIME.TIME : Field := ⟨0x8014, 0, 32, .ro, 0x0⟩
def MI_WDTIME : Reg := ⟨0x8014, 1, 0x0, 1, 0x0, .one, [MI_WDTIME.TIME]⟩
/-! MI_CNTCLR: Table MI-8. -/
def MI_CNTCLR.CLR : Field := ⟨0x8018, 0, 32, .wovw, 0x0⟩
def MI_CNTCLR : Reg := ⟨0x8018, 1, 0x0, 1, 0x0, .one, [MI_CNTCLR.CLR]⟩
/-! MI_UEADDR: Table MI-10. -/
def MI_UEADDR.ADDR : Field := ⟨0x8020, 0, 32, .ro, 0x0⟩
def MI_UEADDR : Reg := ⟨0x8020, 1, 0x0, 1, 0x0, .one, [MI_UEADDR.ADDR]⟩
/-! MI_UEINFO: Table MI-10. -/
def MI_UEINFO.KIND : Field := ⟨0x8024, 0, 3, .ro, 0x0⟩
def MI_UEINFO.INPUT : Field := ⟨0x8024, 4, 4, .ro, 0x0⟩
def MI_UEINFO.WRITE : Field := ⟨0x8024, 8, 1, .ro, 0x0⟩
def MI_UEINFO : Reg := ⟨0x8024, 1, 0x0, 1, 0x0, .one, [MI_UEINFO.KIND, MI_UEINFO.INPUT, MI_UEINFO.WRITE]⟩
/-! MI_MAP0: Table MI-11. -/
def MI_MAP0.DBG : Field := ⟨0x8028, 0, 4, .vw, 0x0⟩
def MI_MAP0.HOSTA : Field := ⟨0x8028, 4, 4, .vw, 0x1⟩
def MI_MAP0.HOSTB : Field := ⟨0x8028, 8, 4, .vw, 0x2⟩
def MI_MAP0.HOSTC : Field := ⟨0x8028, 12, 4, .vw, 0x3⟩
def MI_MAP0.ROOT : Field := ⟨0x8028, 16, 4, .vw, 0x4⟩
def MI_MAP0.SE0 : Field := ⟨0x8028, 20, 4, .vw, 0x5⟩
def MI_MAP0.SE1 : Field := ⟨0x8028, 24, 4, .vw, 0x6⟩
def MI_MAP0.SE2 : Field := ⟨0x8028, 28, 4, .vw, 0x7⟩
def MI_MAP0 : Reg := ⟨0x8028, 1, 0x0, 1, 0x0, .one, [MI_MAP0.DBG, MI_MAP0.HOSTA, MI_MAP0.HOSTB, MI_MAP0.HOSTC, MI_MAP0.ROOT, MI_MAP0.SE0, MI_MAP0.SE1, MI_MAP0.SE2]⟩
/-! MI_MAP1: Table MI-11. -/
def MI_MAP1.SE3 : Field := ⟨0x802c, 0, 4, .vw, 0x8⟩
def MI_MAP1.SE4 : Field := ⟨0x802c, 4, 4, .vw, 0x9⟩
def MI_MAP1.SE5 : Field := ⟨0x802c, 8, 4, .vw, 0xa⟩
def MI_MAP1.DMA : Field := ⟨0x802c, 12, 4, .vw, 0xb⟩
def MI_MAP1 : Reg := ⟨0x802c, 1, 0x0, 1, 0x0, .one, [MI_MAP1.SE3, MI_MAP1.SE4, MI_MAP1.SE5, MI_MAP1.DMA]⟩
/-! MI_CE: Table MI-12. -/
def MI_CE.CE1 : Field := ⟨0x8040, 0, 16, .ro, 0x0⟩
def MI_CE.CE2 : Field := ⟨0x8040, 16, 16, .ro, 0x0⟩
def MI_CE : Reg := ⟨0x8040, 6, 0x8, 1, 0x0, .one, [MI_CE.CE1, MI_CE.CE2]⟩
/-! MI_UE: Table MI-12. -/
def MI_UE.UE : Field := ⟨0x8044, 0, 16, .ro, 0x0⟩
def MI_UE.PASSN : Field := ⟨0x8044, 16, 16, .ro, 0x0⟩
def MI_UE : Reg := ⟨0x8044, 6, 0x8, 1, 0x0, .one, [MI_UE.UE, MI_UE.PASSN]⟩
/-! MI_IGRANT: Table MI-12. -/
def MI_IGRANT.GRANTS : Field := ⟨0x8100, 0, 32, .ro, 0x0⟩
def MI_IGRANT : Reg := ⟨0x8100, 13, 0x10, 1, 0x0, .one, [MI_IGRANT.GRANTS]⟩
/-! MI_IWAIT: Table MI-12. -/
def MI_IWAIT.WAITS : Field := ⟨0x8104, 0, 32, .ro, 0x0⟩
def MI_IWAIT : Reg := ⟨0x8104, 13, 0x10, 1, 0x0, .one, [MI_IWAIT.WAITS]⟩
/-! MI_ILONG: Table MI-12. -/
def MI_ILONG.LONG : Field := ⟨0x8108, 0, 16, .ro, 0x0⟩
def MI_ILONG.REJ : Field := ⟨0x8108, 16, 16, .ro, 0x0⟩
def MI_ILONG : Reg := ⟨0x8108, 13, 0x10, 1, 0x0, .one, [MI_ILONG.LONG, MI_ILONG.REJ]⟩
/-- The registers of page 0x8000 (Table AR-7). -/
def page8 : List Reg := [MI_CTRL, MI_STATUS, MI_QUIESCE, MI_MASK, MI_WDOG, MI_WDTIME, MI_CNTCLR, MI_UEADDR, MI_UEINFO, MI_MAP0, MI_MAP1, MI_CE, MI_UE, MI_IGRANT, MI_IWAIT, MI_ILONG]

/-! CV_CVSEL: Table CV-3. -/
def CV_CVSEL.UNIT : Field := ⟨0x9000, 0, 3, .rw, 0x0⟩
def CV_CVSEL : Reg := ⟨0x9000, 1, 0x0, 1, 0x0, .req, [CV_CVSEL.UNIT]⟩
/-! CV_STATUS: Table CV-3. -/
def CV_STATUS.MISM : Field := ⟨0x9004, 0, 8, .w1c, 0x0⟩
def CV_STATUS.MATCH : Field := ⟨0x9004, 8, 8, .w1c, 0x0⟩
def CV_STATUS.CFGERR : Field := ⟨0x9004, 16, 1, .w1c, 0x0⟩
def CV_STATUS.OWNREJ : Field := ⟨0x9004, 17, 1, .w1c, 0x0⟩
def CV_STATUS.OWNBRK : Field := ⟨0x9004, 18, 1, .w1c, 0x0⟩
def CV_STATUS : Reg := ⟨0x9004, 1, 0x0, 1, 0x0, .one, [CV_STATUS.MISM, CV_STATUS.MATCH, CV_STATUS.CFGERR, CV_STATUS.OWNREJ, CV_STATUS.OWNBRK]⟩
/-! CV_OWNST: Table CV-3. -/
def CV_OWNST.OWN : Field := ⟨0x9008, 0, 32, .ro, 0xffffffff⟩
def CV_OWNST : Reg := ⟨0x9008, 1, 0x0, 1, 0x0, .one, [CV_OWNST.OWN]⟩
/-! CV_CFG: Table CV-4. -/
def CV_CFG.WIDTH : Field := ⟨0x9100, 0, 6, .rw, 0x20⟩
def CV_CFG.REFIN : Field := ⟨0x9100, 6, 1, .rw, 0x0⟩
def CV_CFG.REFOUT : Field := ⟨0x9100, 7, 1, .rw, 0x0⟩
def CV_CFG : Reg := ⟨0x9100, 1, 0x0, 1, 0x0, .cv, [CV_CFG.WIDTH, CV_CFG.REFIN, CV_CFG.REFOUT]⟩
/-! CV_POLY: Table CV-4. -/
def CV_POLY.POLY : Field := ⟨0x9104, 0, 32, .rw, 0x0⟩
def CV_POLY : Reg := ⟨0x9104, 1, 0x0, 1, 0x0, .cv, [CV_POLY.POLY]⟩
/-! CV_INIT: Table CV-4. -/
def CV_INIT.INIT : Field := ⟨0x9108, 0, 32, .rw, 0x0⟩
def CV_INIT : Reg := ⟨0x9108, 1, 0x0, 1, 0x0, .cv, [CV_INIT.INIT]⟩
/-! CV_XOROUT: Table CV-4. -/
def CV_XOROUT.XOROUT : Field := ⟨0x910c, 0, 32, .rw, 0x0⟩
def CV_XOROUT : Reg := ⟨0x910c, 1, 0x0, 1, 0x0, .cv, [CV_XOROUT.XOROUT]⟩
/-! CV_DATA8: Table CV-5. -/
def CV_DATA8.D : Field := ⟨0x9110, 0, 8, .wo, 0x0⟩
def CV_DATA8 : Reg := ⟨0x9110, 1, 0x0, 1, 0x0, .cv, [CV_DATA8.D]⟩
/-! CV_DATA16: Table CV-5. -/
def CV_DATA16.D : Field := ⟨0x9114, 0, 16, .wo, 0x0⟩
def CV_DATA16 : Reg := ⟨0x9114, 1, 0x0, 1, 0x0, .cv, [CV_DATA16.D]⟩
/-! CV_DATA32: Table CV-5. -/
def CV_DATA32.D : Field := ⟨0x9118, 0, 32, .wo, 0x0⟩
def CV_DATA32 : Reg := ⟨0x9118, 1, 0x0, 1, 0x0, .cv, [CV_DATA32.D]⟩
/-! CV_RESULT: Table CV-5. -/
def CV_RESULT.RESULT : Field := ⟨0x911c, 0, 32, .ro, 0x0⟩
def CV_RESULT : Reg := ⟨0x911c, 1, 0x0, 1, 0x0, .cv, [CV_RESULT.RESULT]⟩
/-! CV_EXPECT: Table CV-5. -/
def CV_EXPECT.EXPECT : Field := ⟨0x9120, 0, 32, .rw, 0x0⟩
def CV_EXPECT : Reg := ⟨0x9120, 1, 0x0, 1, 0x0, .cv, [CV_EXPECT.EXPECT]⟩
/-! CV_CMD: Table CV-6. -/
def CV_CMD.INIT : Field := ⟨0x9124, 0, 1, .wo, 0x0⟩
def CV_CMD.CMP : Field := ⟨0x9124, 1, 1, .wo, 0x0⟩
def CV_CMD : Reg := ⟨0x9124, 1, 0x0, 1, 0x0, .cv, [CV_CMD.INIT, CV_CMD.CMP]⟩
/-! CV_UST: Table CV-6. -/
def CV_UST.BUSY : Field := ⟨0x9128, 0, 1, .ro, 0x0⟩
def CV_UST.LAST : Field := ⟨0x9128, 1, 2, .ro, 0x0⟩
def CV_UST.NBYTES : Field := ⟨0x9128, 16, 16, .ro, 0x0⟩
def CV_UST : Reg := ⟨0x9128, 1, 0x0, 1, 0x0, .cv, [CV_UST.BUSY, CV_UST.LAST, CV_UST.NBYTES]⟩
/-! CV_CLAIM: Table CV-6. -/
def CV_CLAIM.CLAIM : Field := ⟨0x912c, 0, 1, .wo, 0x0⟩
def CV_CLAIM.RELEASE : Field := ⟨0x912c, 1, 1, .wo, 0x0⟩
def CV_CLAIM : Reg := ⟨0x912c, 1, 0x0, 1, 0x0, .cv, [CV_CLAIM.CLAIM, CV_CLAIM.RELEASE]⟩
/-- The registers of page 0x9000 (Table AR-7). -/
def page9 : List Reg := [CV_CVSEL, CV_STATUS, CV_OWNST, CV_CFG, CV_POLY, CV_INIT, CV_XOROUT, CV_DATA8, CV_DATA16, CV_DATA32, CV_RESULT, CV_EXPECT, CV_CMD, CV_UST, CV_CLAIM]

/-! HP_CTRL: Table HP-10. -/
def HP_CTRL.AGREEW : Field := ⟨0xa000, 0, 8, .vw, 0x0⟩
def HP_CTRL.RDYTO : Field := ⟨0xa000, 8, 8, .vw, 0x0⟩
def HP_CTRL : Reg := ⟨0xa000, 1, 0x0, 1, 0x0, .one, [HP_CTRL.AGREEW, HP_CTRL.RDYTO]⟩
/-! HP_STATUS: Table HP-10. -/
def HP_STATUS.CFGERR : Field := ⟨0xa004, 0, 1, .w1c, 0x0⟩
def HP_STATUS.AGREED : Field := ⟨0xa004, 1, 1, .w1c, 0x0⟩
def HP_STATUS.EXPIRED : Field := ⟨0xa004, 2, 1, .w1c, 0x0⟩
def HP_STATUS.DISAGREE : Field := ⟨0xa004, 3, 1, .w1c, 0x0⟩
def HP_STATUS.ERRRESP : Field := ⟨0xa004, 4, 1, .w1c, 0x0⟩
def HP_STATUS.BITMAP : Field := ⟨0xa004, 5, 1, .w1c, 0x0⟩
def HP_STATUS.RDYTO : Field := ⟨0xa004, 6, 1, .w1c, 0x0⟩
def HP_STATUS : Reg := ⟨0xa004, 1, 0x0, 1, 0x0, .one, [HP_STATUS.CFGERR, HP_STATUS.AGREED, HP_STATUS.EXPIRED, HP_STATUS.DISAGREE, HP_STATUS.ERRRESP, HP_STATUS.BITMAP, HP_STATUS.RDYTO]⟩
/-! HP_AGRST: Table HP-11. -/
def HP_AGRST.ADDR : Field := ⟨0xa008, 0, 16, .ro, 0x0⟩
def HP_AGRST.PORTS : Field := ⟨0xa008, 16, 3, .ro, 0x0⟩
def HP_AGRST.EVENT : Field := ⟨0xa008, 19, 2, .ro, 0x0⟩
def HP_AGRST : Reg := ⟨0xa008, 1, 0x0, 1, 0x0, .one, [HP_AGRST.ADDR, HP_AGRST.PORTS, HP_AGRST.EVENT]⟩
/-! HP_AGRVAL: Table HP-11. -/
def HP_AGRVAL.VALUE : Field := ⟨0xa00c, 0, 32, .ro, 0x0⟩
def HP_AGRVAL : Reg := ⟨0xa00c, 1, 0x0, 1, 0x0, .one, [HP_AGRVAL.VALUE]⟩
/-! HP_PCTRL: Table HP-12. -/
def HP_PCTRL.EN : Field := ⟨0xa200, 0, 1, .vw, 0x0⟩
def HP_PCTRL.IQNE : Field := ⟨0xa200, 8, 1, .rw, 0x0⟩
def HP_PCTRL.IBITMAP : Field := ⟨0xa200, 9, 1, .rw, 0x0⟩
def HP_PCTRL.ICMD : Field := ⟨0xa200, 10, 1, .rw, 0x0⟩
def HP_PCTRL.IERR : Field := ⟨0xa200, 11, 1, .rw, 0x0⟩
def HP_PCTRL.IAGR : Field := ⟨0xa200, 12, 1, .rw, 0x0⟩
def HP_PCTRL : Reg := ⟨0xa200, 3, 0x200, 1, 0x0, .one, [HP_PCTRL.EN, HP_PCTRL.IQNE, HP_PCTRL.IBITMAP, HP_PCTRL.ICMD, HP_PCTRL.IERR, HP_PCTRL.IAGR]⟩
/-! HP_PSTATUS: Table HP-12. -/
def HP_PSTATUS.ERR : Field := ⟨0xa204, 0, 1, .w1c, 0x0⟩
def HP_PSTATUS.BITMAP : Field := ⟨0xa204, 1, 1, .w1c, 0x0⟩
def HP_PSTATUS.CMD : Field := ⟨0xa204, 2, 1, .w1c, 0x0⟩
def HP_PSTATUS.AGRFAIL : Field := ⟨0xa204, 3, 1, .w1c, 0x0⟩
def HP_PSTATUS.QNE : Field := ⟨0xa204, 16, 1, .ro, 0x0⟩
def HP_PSTATUS.MODE : Field := ⟨0xa204, 17, 1, .ro, 0x0⟩
def HP_PSTATUS.SAFE : Field := ⟨0xa204, 18, 1, .ro, 0x0⟩
def HP_PSTATUS.QCNT : Field := ⟨0xa204, 19, 7, .ro, 0x0⟩
def HP_PSTATUS : Reg := ⟨0xa204, 3, 0x200, 1, 0x0, .one, [HP_PSTATUS.ERR, HP_PSTATUS.BITMAP, HP_PSTATUS.CMD, HP_PSTATUS.AGRFAIL, HP_PSTATUS.QNE, HP_PSTATUS.MODE, HP_PSTATUS.SAFE, HP_PSTATUS.QCNT]⟩
/-! HP_PERR: Table HP-13. -/
def HP_PERR.ADDR : Field := ⟨0xa208, 0, 24, .ro, 0x0⟩
def HP_PERR.CAUSE : Field := ⟨0xa208, 24, 4, .ro, 0x0⟩
def HP_PERR.WRITE : Field := ⟨0xa208, 28, 1, .ro, 0x0⟩
def HP_PERR : Reg := ⟨0xa208, 3, 0x200, 1, 0x0, .one, [HP_PERR.ADDR, HP_PERR.CAUSE, HP_PERR.WRITE]⟩
/-! HP_QLO: Table HP-13. -/
def HP_QLO.ELO : Field := ⟨0xa20c, 0, 32, .ro, 0x0⟩
def HP_QLO : Reg := ⟨0xa20c, 3, 0x200, 1, 0x0, .one, [HP_QLO.ELO]⟩
/-! HP_QHI: Table HP-13. -/
def HP_QHI.EHI : Field := ⟨0xa210, 0, 32, .ro, 0x0⟩
def HP_QHI : Reg := ⟨0xa210, 3, 0x200, 1, 0x0, .one, [HP_QHI.EHI]⟩
/-! HP_POV: Table HP-13. -/
def HP_POV.CMDLOST : Field := ⟨0xa214, 0, 1, .w1c, 0x0⟩
def HP_POV.DEV : Field := ⟨0xa214, 1, 7, .w1c, 0x0⟩
def HP_POV : Reg := ⟨0xa214, 3, 0x200, 1, 0x0, .one, [HP_POV.CMDLOST, HP_POV.DEV]⟩
/-! HP_DSUM: Table HP-14. -/
def HP_DSUM.SUM : Field := ⟨0xa218, 0, 32, .ro, 0x0⟩
def HP_DSUM : Reg := ⟨0xa218, 3, 0x200, 3, 0x4, .one, [HP_DSUM.SUM]⟩
/-! HP_PPROP: Table HP-14. -/
def HP_PPROP.ADDR : Field := ⟨0xa224, 0, 16, .ro, 0x0⟩
def HP_PPROP.VALID : Field := ⟨0xa224, 16, 1, .ro, 0x0⟩
def HP_PPROP : Reg := ⟨0xa224, 3, 0x200, 1, 0x0, .one, [HP_PPROP.ADDR, HP_PPROP.VALID]⟩
/-! HP_PPVAL: Table HP-14. -/
def HP_PPVAL.VALUE : Field := ⟨0xa228, 0, 32, .ro, 0x0⟩
def HP_PPVAL : Reg := ⟨0xa228, 3, 0x200, 1, 0x0, .one, [HP_PPVAL.VALUE]⟩
/-! HP_DIRTY: Table HP-14. -/
def HP_DIRTY.D : Field := ⟨0xa240, 0, 32, .w1c, 0x0⟩
def HP_DIRTY : Reg := ⟨0xa240, 3, 0x200, 72, 0x4, .one, [HP_DIRTY.D]⟩
/-- The registers of page 0xa000 (Table AR-7). -/
def pageA : List Reg := [HP_CTRL, HP_STATUS, HP_AGRST, HP_AGRVAL, HP_PCTRL, HP_PSTATUS, HP_PERR, HP_QLO, HP_QHI, HP_POV, HP_DSUM, HP_PPROP, HP_PPVAL, HP_DIRTY]

/-! PW_PGSEL: Table PW-6. -/
def PW_PGSEL.PG : Field := ⟨0xb000, 0, 2, .rw, 0x0⟩
def PW_PGSEL : Reg := ⟨0xb000, 1, 0x0, 1, 0x0, .req, [PW_PGSEL.PG]⟩
/-! PW_WCSEL: Table PW-6. -/
def PW_WCSEL.WC : Field := ⟨0xb004, 0, 5, .rw, 0x0⟩
def PW_WCSEL : Reg := ⟨0xb004, 1, 0x0, 1, 0x0, .req, [PW_WCSEL.WC]⟩
/-! PW_WCOUT: Table PW-6. -/
def PW_WCOUT.OUT : Field := ⟨0xb008, 0, 32, .ro, 0xfffffff0⟩
def PW_WCOUT : Reg := ⟨0xb008, 1, 0x0, 1, 0x0, .one, [PW_WCOUT.OUT]⟩
/-! PW_PGCFG: Table PW-7. -/
def PW_PGCFG.PERIOD : Field := ⟨0xb100, 0, 11, .vw, 0x0⟩
def PW_PGCFG.BLANK : Field := ⟨0xb100, 11, 5, .vw, 0x0⟩
def PW_PGCFG.DMAX : Field := ⟨0xb100, 16, 7, .vw, 0x0⟩
def PW_PGCFG.EN : Field := ⟨0xb100, 24, 1, .vw, 0x0⟩
def PW_PGCFG : Reg := ⟨0xb100, 1, 0x0, 1, 0x0, .pg, [PW_PGCFG.PERIOD, PW_PGCFG.BLANK, PW_PGCFG.DMAX, PW_PGCFG.EN]⟩
/-! PW_PGRAMP: Table PW-7. -/
def PW_PGRAMP.SLOPE : Field := ⟨0xb104, 0, 12, .vw, 0x0⟩
def PW_PGRAMP : Reg := ⟨0xb104, 1, 0x0, 1, 0x0, .pg, [PW_PGRAMP.SLOPE]⟩
/-! PW_PGLOOP: Table PW-8. -/
def PW_PGLOOP.KP : Field := ⟨0xb108, 0, 8, .vw, 0x0⟩
def PW_PGLOOP.KI : Field := ⟨0xb108, 8, 8, .vw, 0x0⟩
def PW_PGLOOP.ILIM : Field := ⟨0xb108, 16, 12, .vw, 0x0⟩
def PW_PGLOOP : Reg := ⟨0xb108, 1, 0x0, 1, 0x0, .pg, [PW_PGLOOP.KP, PW_PGLOOP.KI, PW_PGLOOP.ILIM]⟩
/-! PW_PGSET: Table PW-8. -/
def PW_PGSET.SETPT : Field := ⟨0xb10c, 0, 16, .vw, 0x0⟩
def PW_PGSET.ACT : Field := ⟨0xb10c, 16, 16, .ro, 0x0⟩
def PW_PGSET : Reg := ⟨0xb10c, 1, 0x0, 1, 0x0, .pg, [PW_PGSET.SETPT, PW_PGSET.ACT]⟩
/-! PW_PGST: Table PW-8. -/
def PW_PGST.STATE : Field := ⟨0xb110, 0, 3, .ro, 0x0⟩
def PW_PGST.LIMP : Field := ⟨0xb110, 16, 16, .ro, 0x0⟩
def PW_PGST : Reg := ⟨0xb110, 1, 0x0, 1, 0x0, .pg, [PW_PGST.STATE, PW_PGST.LIMP]⟩
/-! PW_WCCFG: Table PW-9. -/
def PW_WCCFG.TLO : Field := ⟨0xb180, 0, 12, .vw, 0x0⟩
def PW_WCCFG.THI : Field := ⟨0xb180, 16, 12, .vw, 0x0⟩
def PW_WCCFG : Reg := ⟨0xb180, 1, 0x0, 1, 0x0, .wc, [PW_WCCFG.TLO, PW_WCCFG.THI]⟩
/-! PW_WCFILT: Table PW-9. -/
def PW_WCFILT.FILT : Field := ⟨0xb184, 0, 10, .vw, 0x0⟩
def PW_WCFILT.HYST : Field := ⟨0xb184, 16, 8, .vw, 0x0⟩
def PW_WCFILT : Reg := ⟨0xb184, 1, 0x0, 1, 0x0, .wc, [PW_WCFILT.FILT, PW_WCFILT.HYST]⟩
/-! PW_WCST: Table PW-9. -/
def PW_WCST.STATE : Field := ⟨0xb188, 0, 2, .ro, 0x3⟩
def PW_WCST.LOWN : Field := ⟨0xb188, 8, 8, .ro, 0x0⟩
def PW_WCST.HIGHN : Field := ⟨0xb188, 16, 8, .ro, 0x0⟩
def PW_WCST : Reg := ⟨0xb188, 1, 0x0, 1, 0x0, .wc, [PW_WCST.STATE, PW_WCST.LOWN, PW_WCST.HIGHN]⟩
/-! PW_VOSTATUS: Table VO-4. -/
def PW_VOSTATUS.CFGERR : Field := ⟨0xb800, 0, 1, .w1c, 0x0⟩
def PW_VOSTATUS.TOKREJ : Field := ⟨0xb800, 1, 1, .w1c, 0x0⟩
def PW_VOSTATUS.LAPSE : Field := ⟨0xb800, 2, 1, .w1c, 0x0⟩
def PW_VOSTATUS.OVER : Field := ⟨0xb800, 3, 1, .w1c, 0x0⟩
def PW_VOSTATUS.UNDER : Field := ⟨0xb800, 4, 1, .w1c, 0x0⟩
def PW_VOSTATUS.LEAK : Field := ⟨0xb800, 5, 1, .w1c, 0x0⟩
def PW_VOSTATUS.COPY : Field := ⟨0xb800, 6, 1, .w1c, 0x0⟩
def PW_VOSTATUS : Reg := ⟨0xb800, 1, 0x0, 1, 0x0, .one, [PW_VOSTATUS.CFGERR, PW_VOSTATUS.TOKREJ, PW_VOSTATUS.LAPSE, PW_VOSTATUS.OVER, PW_VOSTATUS.UNDER, PW_VOSTATUS.LEAK, PW_VOSTATUS.COPY]⟩
/-! PW_VOCHAL: Table VO-4. -/
def PW_VOCHAL.CHAL : Field := ⟨0xb804, 0, 8, .ro, 0x1⟩
def PW_VOCHAL.CYC : Field := ⟨0xb804, 16, 16, .ro, 0x0⟩
def PW_VOCHAL : Reg := ⟨0xb804, 1, 0x0, 1, 0x0, .one, [PW_VOCHAL.CHAL, PW_VOCHAL.CYC]⟩
/-! PW_VOTOKEN: Table VO-4. -/
def PW_VOTOKEN.CYC : Field := ⟨0xb808, 0, 16, .wovw, 0x0⟩
def PW_VOTOKEN.OUT : Field := ⟨0xb808, 16, 4, .wovw, 0x0⟩
def PW_VOTOKEN.CHK : Field := ⟨0xb808, 20, 8, .wovw, 0x0⟩
def PW_VOTOKEN : Reg := ⟨0xb808, 1, 0x0, 1, 0x0, .one, [PW_VOTOKEN.CYC, PW_VOTOKEN.OUT, PW_VOTOKEN.CHK]⟩
/-! PW_VODEM: Table VO-5. -/
def PW_VODEM.DEM : Field := ⟨0xb80c, 0, 16, .vw, 0x0⟩
def PW_VODEM : Reg := ⟨0xb80c, 1, 0x0, 1, 0x0, .one, [PW_VODEM.DEM]⟩
/-! PW_VOSTAGE: Table VO-5. -/
def PW_VOSTAGE.STAGE : Field := ⟨0xb810, 0, 16, .vw, 0x0⟩
def PW_VOSTAGE : Reg := ⟨0xb810, 1, 0x0, 1, 0x0, .one, [PW_VOSTAGE.STAGE]⟩
/-! PW_VORUN: Table VO-5. -/
def PW_VORUN.RUN : Field := ⟨0xb814, 0, 16, .ro, 0x0⟩
def PW_VORUN.LIVE : Field := ⟨0xb814, 16, 16, .ro, 0x0⟩
def PW_VORUN : Reg := ⟨0xb814, 1, 0x0, 1, 0x0, .one, [PW_VORUN.RUN, PW_VORUN.LIVE]⟩
/-! PW_VOFAULT: Table VO-5. -/
def PW_VOFAULT.FLT : Field := ⟨0xb818, 0, 16, .w1cvw, 0x0⟩
def PW_VOFAULT : Reg := ⟨0xb818, 1, 0x0, 1, 0x0, .one, [PW_VOFAULT.FLT]⟩
/-! PW_VOCFG: Table VO-6. -/
def PW_VOCFG.FREQ : Field := ⟨0xb840, 0, 7, .vw, 0x0⟩
def PW_VOCFG.ILO : Field := ⟨0xb840, 8, 8, .vw, 0x0⟩
def PW_VOCFG.IHI : Field := ⟨0xb840, 16, 8, .vw, 0x0⟩
def PW_VOCFG.FAILN : Field := ⟨0xb840, 24, 4, .vw, 0x0⟩
def PW_VOCFG : Reg := ⟨0xb840, 16, 0x4, 1, 0x0, .one, [PW_VOCFG.FREQ, PW_VOCFG.ILO, PW_VOCFG.IHI, PW_VOCFG.FAILN]⟩
/-! PW_VOST: Table VO-6. -/
def PW_VOST.STATE : Field := ⟨0xb880, 0, 3, .ro, 0x0⟩
def PW_VOST.CAUSE : Field := ⟨0xb880, 4, 3, .ro, 0x0⟩
def PW_VOST.LASTI : Field := ⟨0xb880, 8, 2, .ro, 0x0⟩
def PW_VOST.TOKREJN : Field := ⟨0xb880, 10, 6, .ro, 0x0⟩
def PW_VOST.TOKCYC : Field := ⟨0xb880, 16, 16, .ro, 0x0⟩
def PW_VOST : Reg := ⟨0xb880, 16, 0x4, 1, 0x0, .one, [PW_VOST.STATE, PW_VOST.CAUSE, PW_VOST.LASTI, PW_VOST.TOKREJN, PW_VOST.TOKCYC]⟩
/-- The registers of page 0xb000 (Table AR-7). -/
def pageB : List Reg := [PW_PGSEL, PW_WCSEL, PW_WCOUT, PW_PGCFG, PW_PGRAMP, PW_PGLOOP, PW_PGSET, PW_PGST, PW_WCCFG, PW_WCFILT, PW_WCST, PW_VOSTATUS, PW_VOCHAL, PW_VOTOKEN, PW_VODEM, PW_VOSTAGE, PW_VORUN, PW_VOFAULT, PW_VOCFG, PW_VOST]

/-! PW_CTRL: Table PW-10. -/
def PW_CTRL.DIPCLR : Field := ⟨0xc000, 0, 8, .vw, 0x0⟩
def PW_CTRL.CSLEW : Field := ⟨0xc000, 8, 8, .vw, 0x0⟩
def PW_CTRL : Reg := ⟨0xc000, 1, 0x0, 1, 0x0, .one, [PW_CTRL.DIPCLR, PW_CTRL.CSLEW]⟩
/-! PW_STATUS: Table PW-10. -/
def PW_STATUS.CFGERR : Field := ⟨0xc004, 0, 1, .w1c, 0x0⟩
def PW_STATUS.DIPW : Field := ⟨0xc004, 1, 1, .w1c, 0x0⟩
def PW_STATUS.DIPEND : Field := ⟨0xc004, 2, 1, .w1c, 0x0⟩
def PW_STATUS.EXCFLT : Field := ⟨0xc004, 3, 1, .w1c, 0x0⟩
def PW_STATUS.PGFLT : Field := ⟨0xc004, 4, 1, .w1c, 0x0⟩
def PW_STATUS.THERM : Field := ⟨0xc004, 5, 1, .w1c, 0x0⟩
def PW_STATUS.SRCCHG : Field := ⟨0xc004, 6, 1, .w1c, 0x0⟩
def PW_STATUS.GPCHG : Field := ⟨0xc004, 7, 1, .w1c, 0x0⟩
def PW_STATUS.WARN : Field := ⟨0xc004, 16, 1, .ro, 0x0⟩
def PW_STATUS.EXCOK : Field := ⟨0xc004, 17, 1, .ro, 0x0⟩
def PW_STATUS : Reg := ⟨0xc004, 1, 0x0, 1, 0x0, .one, [PW_STATUS.CFGERR, PW_STATUS.DIPW, PW_STATUS.DIPEND, PW_STATUS.EXCFLT, PW_STATUS.PGFLT, PW_STATUS.THERM, PW_STATUS.SRCCHG, PW_STATUS.GPCHG, PW_STATUS.WARN, PW_STATUS.EXCOK]⟩
/-! PW_SRC: Table PW-11. -/
def PW_SRC.F0 : Field := ⟨0xc008, 0, 1, .ro, 0x0⟩
def PW_SRC.F1 : Field := ⟨0xc008, 1, 1, .ro, 0x0⟩
def PW_SRC.AUX : Field := ⟨0xc008, 2, 1, .ro, 0x0⟩
def PW_SRC.F0CLS : Field := ⟨0xc008, 4, 4, .ro, 0x0⟩
def PW_SRC.F1CLS : Field := ⟨0xc008, 8, 4, .ro, 0x0⟩
def PW_SRC : Reg := ⟨0xc008, 1, 0x0, 1, 0x0, .one, [PW_SRC.F0, PW_SRC.F1, PW_SRC.AUX, PW_SRC.F0CLS, PW_SRC.F1CLS]⟩
/-! PW_DIP: Table PW-11. -/
def PW_DIP.DIPN : Field := ⟨0xc00c, 0, 16, .ro, 0x0⟩
def PW_DIP.LASTD : Field := ⟨0xc00c, 16, 16, .ro, 0x0⟩
def PW_DIP : Reg := ⟨0xc00c, 1, 0x0, 1, 0x0, .one, [PW_DIP.DIPN, PW_DIP.LASTD]⟩
/-! PW_DIPTIME: Table PW-11. -/
def PW_DIPTIME.TIME : Field := ⟨0xc010, 0, 32, .ro, 0x0⟩
def PW_DIPTIME : Reg := ⟨0xc010, 1, 0x0, 1, 0x0, .one, [PW_DIPTIME.TIME]⟩
/-! PW_CYCLE: Table PW-12. -/
def PW_CYCLE.KEY : Field := ⟨0xc014, 0, 16, .wo, 0x0⟩
def PW_CYCLE : Reg := ⟨0xc014, 1, 0x0, 1, 0x0, .one, [PW_CYCLE.KEY]⟩
/-- The registers of page 0xc000 (Table AR-7). -/
def pageC : List Reg := [PW_CTRL, PW_STATUS, PW_SRC, PW_DIP, PW_DIPTIME, PW_CYCLE]

/-! AG_CTRL: Table AG-8. -/
def AG_CTRL.TMARG : Field := ⟨0xd000, 0, 8, .vw, 0x0⟩
def AG_CTRL.MAINTM : Field := ⟨0xd000, 8, 8, .vw, 0x0⟩
def AG_CTRL.TRIMT : Field := ⟨0xd000, 16, 8, .vw, 0x0⟩
def AG_CTRL : Reg := ⟨0xd000, 1, 0x0, 1, 0x0, .one, [AG_CTRL.TMARG, AG_CTRL.MAINTM, AG_CTRL.TRIMT]⟩
/-! AG_STATUS: Table AG-9. -/
def AG_STATUS.CFGERR : Field := ⟨0xd004, 0, 1, .w1c, 0x0⟩
def AG_STATUS.LOWRATE : Field := ⟨0xd004, 1, 1, .w1c, 0x0⟩
def AG_STATUS.MONFLT : Field := ⟨0xd004, 2, 1, .w1c, 0x0⟩
def AG_STATUS.CEIL : Field := ⟨0xd004, 3, 1, .w1c, 0x0⟩
def AG_STATUS.MAINTSET : Field := ⟨0xd004, 4, 1, .w1c, 0x0⟩
def AG_STATUS.ENGRET : Field := ⟨0xd004, 5, 1, .w1c, 0x0⟩
def AG_STATUS.LOGERR : Field := ⟨0xd004, 6, 1, .w1c, 0x0⟩
def AG_STATUS.MAINT : Field := ⟨0xd004, 16, 1, .ro, 0x0⟩
def AG_STATUS.LRENG : Field := ⟨0xd004, 24, 8, .ro, 0x0⟩
def AG_STATUS : Reg := ⟨0xd004, 1, 0x0, 1, 0x0, .one, [AG_STATUS.CFGERR, AG_STATUS.LOWRATE, AG_STATUS.MONFLT, AG_STATUS.CEIL, AG_STATUS.MAINTSET, AG_STATUS.ENGRET, AG_STATUS.LOGERR, AG_STATUS.MAINT, AG_STATUS.LRENG]⟩
/-! AG_HOURS: Table AG-10. -/
def AG_HOURS.HOURS : Field := ⟨0xd008, 0, 24, .rw, 0x0⟩
def AG_HOURS : Reg := ⟨0xd008, 1, 0x0, 1, 0x0, .one, [AG_HOURS.HOURS]⟩
/-! AG_PLAN: Table AG-10. -/
def AG_PLAN.LIFE : Field := ⟨0xd00c, 0, 16, .rw, 0xffff⟩
def AG_PLAN.WMON : Field := ⟨0xd00c, 16, 6, .rw, 0x0⟩
def AG_PLAN.MAINT : Field := ⟨0xd00c, 22, 1, .rw, 0x0⟩
def AG_PLAN.CEIL : Field := ⟨0xd00c, 23, 1, .rw, 0x0⟩
def AG_PLAN.VALID : Field := ⟨0xd00c, 24, 1, .rw, 0x0⟩
def AG_PLAN : Reg := ⟨0xd00c, 1, 0x0, 1, 0x0, .one, [AG_PLAN.LIFE, AG_PLAN.WMON, AG_PLAN.MAINT, AG_PLAN.CEIL, AG_PLAN.VALID]⟩
/-! AG_ENGRET: Table AG-11. -/
def AG_ENGRET.ENG : Field := ⟨0xd010, 0, 3, .wovw, 0x0⟩
def AG_ENGRET : Reg := ⟨0xd010, 1, 0x0, 1, 0x0, .one, [AG_ENGRET.ENG]⟩
/-! AG_WORST: Table AG-11. -/
def AG_WORST.MARGIN : Field := ⟨0xd014, 0, 16, .ro, 0x0⟩
def AG_WORST.MON : Field := ⟨0xd014, 16, 6, .ro, 0x0⟩
def AG_WORST : Reg := ⟨0xd014, 1, 0x0, 1, 0x0, .one, [AG_WORST.MARGIN, AG_WORST.MON]⟩
/-! AG_RATE: Table AG-12. -/
def AG_RATE.RATE : Field := ⟨0xd020, 0, 20, .ro, 0x0⟩
def AG_RATE.LOAD : Field := ⟨0xd020, 20, 8, .ro, 0x0⟩
def AG_RATE : Reg := ⟨0xd020, 8, 0x4, 1, 0x0, .one, [AG_RATE.RATE, AG_RATE.LOAD]⟩
/-! AG_MON: Table AG-12. -/
def AG_MON.READING : Field := ⟨0xd100, 0, 32, .ro, 0x0⟩
def AG_MON : Reg := ⟨0xd100, 48, 0x4, 1, 0x0, .one, [AG_MON.READING]⟩
/-- The registers of page 0xd000 (Table AR-7). -/
def pageD : List Reg := [AG_CTRL, AG_STATUS, AG_HOURS, AG_PLAN, AG_ENGRET, AG_WORST, AG_RATE, AG_MON]

/-! RB_CTRL: Table RB-13. -/
def RB_CTRL.KWDT : Field := ⟨0xe000, 0, 8, .vw, 0x0⟩
def RB_CTRL.RWDT : Field := ⟨0xe000, 8, 4, .vw, 0x0⟩
def RB_CTRL.LADMAX : Field := ⟨0xe000, 12, 4, .vw, 0x0⟩
def RB_CTRL.RECUR : Field := ⟨0xe000, 16, 8, .vw, 0x0⟩
def RB_CTRL.EVT : Field := ⟨0xe000, 24, 8, .vw, 0x0⟩
def RB_CTRL : Reg := ⟨0xe000, 1, 0x0, 1, 0x0, .one, [RB_CTRL.KWDT, RB_CTRL.RWDT, RB_CTRL.LADMAX, RB_CTRL.RECUR, RB_CTRL.EVT]⟩
/-! RB_STATUS: Table RB-13. -/
def RB_STATUS.CFGERR : Field := ⟨0xe004, 0, 1, .w1c, 0x0⟩
def RB_STATUS.RWDOG : Field := ⟨0xe004, 1, 1, .w1c, 0x0⟩
def RB_STATUS.FITREF : Field := ⟨0xe004, 2, 1, .w1c, 0x0⟩
def RB_STATUS.CMTDONE : Field := ⟨0xe004, 3, 1, .w1c, 0x0⟩
def RB_STATUS.CMTFAIL : Field := ⟨0xe004, 4, 1, .w1c, 0x0⟩
def RB_STATUS.CHUNK : Field := ⟨0xe004, 5, 1, .w1c, 0x0⟩
def RB_STATUS.RECDONE : Field := ⟨0xe004, 6, 1, .w1c, 0x0⟩
def RB_STATUS.RECFAIL : Field := ⟨0xe004, 7, 1, .w1c, 0x0⟩
def RB_STATUS.EVACTO : Field := ⟨0xe004, 8, 1, .w1c, 0x0⟩
def RB_STATUS.CMTBUSY : Field := ⟨0xe004, 16, 1, .ro, 0x0⟩
def RB_STATUS.RECBUSY : Field := ⟨0xe004, 17, 1, .ro, 0x0⟩
def RB_STATUS : Reg := ⟨0xe004, 1, 0x0, 1, 0x0, .one, [RB_STATUS.CFGERR, RB_STATUS.RWDOG, RB_STATUS.FITREF, RB_STATUS.CMTDONE, RB_STATUS.CMTFAIL, RB_STATUS.CHUNK, RB_STATUS.RECDONE, RB_STATUS.RECFAIL, RB_STATUS.EVACTO, RB_STATUS.CMTBUSY, RB_STATUS.RECBUSY]⟩
/-! RB_CAUSE: Table RB-14. -/
def RB_CAUSE.CAUSE : Field := ⟨0xe008, 0, 4, .ro, 0x0⟩
def RB_CAUSE.PREV : Field := ⟨0xe008, 4, 4, .ro, 0x0⟩
def RB_CAUSE.CMTINTR : Field := ⟨0xe008, 8, 1, .ro, 0x0⟩
def RB_CAUSE.HELD : Field := ⟨0xe008, 9, 1, .ro, 0x0⟩
def RB_CAUSE.DRSTN : Field := ⟨0xe008, 16, 4, .ro, 0x0⟩
def RB_CAUSE.PCYCN : Field := ⟨0xe008, 20, 2, .ro, 0x0⟩
def RB_CAUSE : Reg := ⟨0xe008, 1, 0x0, 1, 0x0, .one, [RB_CAUSE.CAUSE, RB_CAUSE.PREV, RB_CAUSE.CMTINTR, RB_CAUSE.HELD, RB_CAUSE.DRSTN, RB_CAUSE.PCYCN]⟩
/-! RB_STRAP: Table RB-14. -/
def RB_STRAP.SMODE : Field := ⟨0xe00c, 0, 1, .ro, 0x0⟩
def RB_STRAP.SDBG : Field := ⟨0xe00c, 1, 1, .ro, 0x0⟩
def RB_STRAP : Reg := ⟨0xe00c, 1, 0x0, 1, 0x0, .one, [RB_STRAP.SMODE, RB_STRAP.SDBG]⟩
/-! RB_BOOT: Table RB-14. -/
def RB_BOOT.IMGBANK : Field := ⟨0xe010, 0, 1, .ro, 0x0⟩
def RB_BOOT.RECBANK : Field := ⟨0xe010, 1, 1, .ro, 0x0⟩
def RB_BOOT.FAIL : Field := ⟨0xe010, 2, 1, .ro, 0x0⟩
def RB_BOOT.BOOTMS : Field := ⟨0xe010, 4, 12, .ro, 0x0⟩
def RB_BOOT : Reg := ⟨0xe010, 1, 0x0, 1, 0x0, .one, [RB_BOOT.IMGBANK, RB_BOOT.RECBANK, RB_BOOT.FAIL, RB_BOOT.BOOTMS]⟩
/-! RB_PTR: Table RB-14. -/
def RB_PTR.SEQ : Field := ⟨0xe014, 0, 32, .ro, 0x0⟩
def RB_PTR : Reg := ⟨0xe014, 1, 0x0, 1, 0x0, .one, [RB_PTR.SEQ]⟩
/-! RB_RESET: Table RB-14. -/
def RB_RESET.KEY : Field := ⟨0xe018, 0, 16, .wo, 0x0⟩
def RB_RESET.EVAC : Field := ⟨0xe018, 16, 1, .wo, 0x0⟩
def RB_RESET : Reg := ⟨0xe018, 1, 0x0, 1, 0x0, .one, [RB_RESET.KEY, RB_RESET.EVAC]⟩
/-! RB_BRST: Table RB-14. -/
def RB_BRST.BLK : Field := ⟨0xe01c, 0, 4, .wo, 0x0⟩
def RB_BRST.KEY : Field := ⟨0xe01c, 16, 16, .wo, 0x0⟩
def RB_BRST : Reg := ⟨0xe01c, 1, 0x0, 1, 0x0, .one, [RB_BRST.BLK, RB_BRST.KEY]⟩
/-! RB_LADDER: Table RB-14. -/
def RB_LADDER.FN : Field := ⟨0xe020, 0, 4, .wo, 0x0⟩
def RB_LADDER.STEP : Field := ⟨0xe020, 4, 3, .wo, 0x0⟩
def RB_LADDER.RESULT : Field := ⟨0xe020, 8, 2, .wo, 0x0⟩
def RB_LADDER.DETAIL : Field := ⟨0xe020, 16, 16, .wo, 0x0⟩
def RB_LADDER : Reg := ⟨0xe020, 1, 0x0, 1, 0x0, .one, [RB_LADDER.FN, RB_LADDER.STEP, RB_LADDER.RESULT, RB_LADDER.DETAIL]⟩
/-! RB_RKICK: Table RB-14. -/
def RB_RKICK.KEY : Field := ⟨0xe024, 0, 16, .wo, 0x0⟩
def RB_RKICK : Reg := ⟨0xe024, 1, 0x0, 1, 0x0, .one, [RB_RKICK.KEY]⟩
/-! RB_CCTRL: Table RB-15. -/
def RB_CCTRL.OP : Field := ⟨0xe028, 0, 2, .wovw, 0x0⟩
def RB_CCTRL : Reg := ⟨0xe028, 1, 0x0, 1, 0x0, .one, [RB_CCTRL.OP]⟩
/-! RB_CSTAGE: Table RB-15. -/
def RB_CSTAGE.ADDR : Field := ⟨0xe02c, 0, 32, .vw, 0x0⟩
def RB_CSTAGE : Reg := ⟨0xe02c, 1, 0x0, 1, 0x0, .one, [RB_CSTAGE.ADDR]⟩
/-! RB_CCHUNK: Table RB-15. -/
def RB_CCHUNK.OFFSET : Field := ⟨0xe030, 0, 18, .wovw, 0x0⟩
def RB_CCHUNK.LEN : Field := ⟨0xe030, 18, 13, .wovw, 0x0⟩
def RB_CCHUNK : Reg := ⟨0xe030, 1, 0x0, 1, 0x0, .one, [RB_CCHUNK.OFFSET, RB_CCHUNK.LEN]⟩
/-! RB_CST: Table RB-15. -/
def RB_CST.STATE : Field := ⟨0xe034, 0, 3, .ro, 0x0⟩
def RB_CST.SUSP : Field := ⟨0xe034, 3, 1, .ro, 0x0⟩
def RB_CST.FAILR : Field := ⟨0xe034, 4, 3, .ro, 0x0⟩
def RB_CST.ELAPSED : Field := ⟨0xe034, 16, 12, .ro, 0x0⟩
def RB_CST : Reg := ⟨0xe034, 1, 0x0, 1, 0x0, .one, [RB_CST.STATE, RB_CST.SUSP, RB_CST.FAILR, RB_CST.ELAPSED]⟩
/-! RB_RECORD: Table RB-15. -/
def RB_RECORD.KIND : Field := ⟨0xe038, 0, 4, .wo, 0x0⟩
def RB_RECORD.ADDR : Field := ⟨0xe038, 4, 28, .wo, 0x0⟩
def RB_RECORD : Reg := ⟨0xe038, 1, 0x0, 1, 0x0, .one, [RB_RECORD.KIND, RB_RECORD.ADDR]⟩
/-! RB_FIT: Table RB-15. -/
def RB_FIT.CODE : Field := ⟨0xe03c, 0, 8, .ro, 0x0⟩
def RB_FIT.STAGE : Field := ⟨0xe03c, 8, 2, .ro, 0x0⟩
def RB_FIT.ITEM : Field := ⟨0xe03c, 16, 16, .ro, 0x0⟩
def RB_FIT : Reg := ⟨0xe03c, 1, 0x0, 1, 0x0, .one, [RB_FIT.CODE, RB_FIT.STAGE, RB_FIT.ITEM]⟩
/-- The registers of page 0xe000 (Table AR-7). -/
def pageE : List Reg := [RB_CTRL, RB_STATUS, RB_CAUSE, RB_STRAP, RB_BOOT, RB_PTR, RB_RESET, RB_BRST, RB_LADDER, RB_RKICK, RB_CCTRL, RB_CSTAGE, RB_CCHUNK, RB_CST, RB_RECORD, RB_FIT]

/-! DB_CTRL: Table DB-2. -/
def DB_CTRL.HALT : Field := ⟨0xf000, 0, 1, .wo, 0x0⟩
def DB_CTRL.RESUME : Field := ⟨0xf000, 1, 1, .wo, 0x0⟩
def DB_CTRL.STEP : Field := ⟨0xf000, 2, 1, .wo, 0x0⟩
def DB_CTRL.SYSRST : Field := ⟨0xf000, 3, 1, .wo, 0x0⟩
def DB_CTRL : Reg := ⟨0xf000, 1, 0x0, 1, 0x0, .one, [DB_CTRL.HALT, DB_CTRL.RESUME, DB_CTRL.STEP, DB_CTRL.SYSRST]⟩
/-! DB_STATUS: Table DB-2. -/
def DB_STATUS.ACCERR : Field := ⟨0xf004, 0, 1, .w1c, 0x0⟩
def DB_STATUS.BRK : Field := ⟨0xf004, 1, 1, .w1c, 0x0⟩
def DB_STATUS.HALTED : Field := ⟨0xf004, 8, 9, .ro, 0x0⟩
def DB_STATUS : Reg := ⟨0xf004, 1, 0x0, 1, 0x0, .one, [DB_STATUS.ACCERR, DB_STATUS.BRK, DB_STATUS.HALTED]⟩
/-! DB_TGT: Table DB-2. -/
def DB_TGT.TGT : Field := ⟨0xf008, 0, 4, .rw, 0x0⟩
def DB_TGT : Reg := ⟨0xf008, 1, 0x0, 1, 0x0, .one, [DB_TGT.TGT]⟩
/-! DB_ADDR: Table DB-2. -/
def DB_ADDR.ADDR : Field := ⟨0xf00c, 0, 32, .rw, 0x0⟩
def DB_ADDR : Reg := ⟨0xf00c, 1, 0x0, 1, 0x0, .one, [DB_ADDR.ADDR]⟩
/-! DB_DATA: Table DB-2. -/
def DB_DATA.DATA : Field := ⟨0xf010, 0, 32, .rw, 0x0⟩
def DB_DATA : Reg := ⟨0xf010, 1, 0x0, 1, 0x0, .one, [DB_DATA.DATA]⟩
/-! DB_REGSEL: Table DB-2. -/
def DB_REGSEL.REG : Field := ⟨0xf014, 0, 6, .rw, 0x0⟩
def DB_REGSEL : Reg := ⟨0xf014, 1, 0x0, 1, 0x0, .one, [DB_REGSEL.REG]⟩
/-! DB_REGDATA: Table DB-2. -/
def DB_REGDATA.DATA : Field := ⟨0xf018, 0, 32, .rw, 0x0⟩
def DB_REGDATA : Reg := ⟨0xf018, 1, 0x0, 1, 0x0, .one, [DB_REGDATA.DATA]⟩
/-! DB_TRCFG: Table DB-2. -/
def DB_TRCFG.KIND : Field := ⟨0xf01c, 0, 2, .rw, 0x0⟩
def DB_TRCFG.DEPTH : Field := ⟨0xf01c, 16, 11, .rw, 0x40⟩
def DB_TRCFG : Reg := ⟨0xf01c, 1, 0x0, 1, 0x0, .one, [DB_TRCFG.KIND, DB_TRCFG.DEPTH]⟩
/-! DB_TRDUMP: Table DB-2. -/
def DB_TRDUMP.GO : Field := ⟨0xf020, 0, 1, .wo, 0x0⟩
def DB_TRDUMP.BUSY : Field := ⟨0xf020, 1, 1, .ro, 0x0⟩
def DB_TRDUMP : Reg := ⟨0xf020, 1, 0x0, 1, 0x0, .one, [DB_TRDUMP.GO, DB_TRDUMP.BUSY]⟩
/-- The registers of page 0xf000 (Table AR-7). -/
def pageF : List Reg := [DB_CTRL, DB_STATUS, DB_TGT, DB_ADDR, DB_DATA, DB_REGSEL, DB_REGDATA, DB_TRCFG, DB_TRDUMP]


/-- The registers of a page. -/
def pageRegs : Nat → List Reg
  | 0 => page0
  | 1 => page1
  | 2 => page2
  | 3 => page3
  | 4 => page4
  | 5 => page5
  | 6 => page6
  | 7 => page7
  | 8 => page8
  | 9 => page9
  | 10 => pageA
  | 11 => pageB
  | 12 => pageC
  | 13 => pageD
  | 14 => pageE
  | 15 => pageF
  | _ => []

/-- The index of the instance at offset `a`, when `a` lies in the register's array. -/
def Reg.index (r : Reg) (a : Nat) : Option Nat :=
  (List.range (r.n1 * r.n2)).find? (fun i => r.addr + (i / r.n2) * r.s1 + (i % r.n2) * r.s2 == a)

/-- The register assigned to offset `a` of the register pages, with its array index (R46). -/
def findReg (a : Nat) : Option (Reg × Nat) :=
  (pageRegs (a / 4096)).findSome? (fun r => (r.index a).map (fun i => (r, i)))

end Sys2Proof.Machine
end

