-- ==== Sys2Proof/Machine/State.lean ====
section
/-! DEFINITION. The state of the TX256 as plain data: every register field, memory, engine, queue and piece of hidden
state that the spec gives the device, the queue of waiting commands, and the state right after reset. -/

namespace Sys2Proof.Machine

/-! ### Engines (chapter 09) -/

/-- Whether an engine advances: running; waiting in WAIT (R362); halted by the debugger (16 R585); stopped by a double
fault (R360), a retirement, a power-down or the safe state; held in reset until boot releases it (16 R568). -/
inductive RunState where
  | running
  | waiting
  | halted
  | stopped
  | held
  deriving DecidableEq, Repr

/-- The architectural state of a Kamotte engine (R339, Table KM-2), with its run state. CAPS is derived. The retire
index is 10 R393's count of retired instructions; `budgeted` is R348's once-per-cycle mark; `midway` while the instruction at PC has begun
and waits at the arbiter, for a lock, for a commit or for the agreement unit (R346, R362). -/
structure Engine where
  w : Vector Word 16
  pc : Word
  flg : Word
  code : Byte
  detail : Byte
  pend : BitVec 16
  step : Word
  evp : Word
  m0 : BitVec 40
  m1 : BitVec 40
  cbBase : Vector Word 4
  cbLen : Vector Nat 4
  run : RunState
  budgeted : Bool
  midway : Bool
  retire : Nat
  deriving DecidableEq, Repr

/-- An engine at reset (R341): every register 0. PC and EVP take the entry address of the image; before an image has
named one they are 0 (DESIGN CHOICE, assumption 3). -/
def Engine.reset : Engine :=
  { w := Vector.replicate 16 0#32, pc := 0#32, flg := 0#32, code := 0#8, detail := 0#8, pend := 0#16, step := 0#32,
    evp := 0#32, m0 := 0#40, m1 := 0#40, cbBase := Vector.replicate 4 0#32, cbLen := Vector.replicate 4 0,
    run := .running, budgeted := false, midway := false, retire := 0 }

/-! ### The Heartwood (chapter 10) -/

/-- One write of a commit group: block address, byte mask and block image (before R384). -/
structure GWrite where
  blk : Nat
  mask : BitVec 16
  img : Block
  deriving DecidableEq, Repr

/-- Why a commit group was closed, as far as a status bit depends on it (R388, R389). -/
inductive CloseWhy where
  | plain
  | split
  | span
  deriving DecidableEq, Repr

/-- A closed commit group: its writes in order, why it was closed, and the time base at its arrival at the voter. In
`Core.expect` it is a group that has landed, with the time base of the second copy's arrival. -/
structure Group where
  writes : List GWrite
  why : CloseWhy
  time : Nat
  deriving DecidableEq, Repr

/-- A signal on its way to a Heartwood core (R393): an event of Table KM-12, the boundary mark, a debug halt, or the
sweep that the SWEEP with retire index `idx` raises (R397). -/
inductive Sig where
  | event (e : Nat)
  | mark
  | halt
  | sweep (idx : Nat)
  deriving DecidableEq, Repr

/-- What a core gives to a sweep (R397): its architectural state laid out as numbers, its Heartwood RAM, and the
scrubber's mark that its RAM signature differs (R398). -/
structure MarkSig where
  arch : List Nat
  ram : List (Nat × Byte)
  diff : Bool
  deriving DecidableEq, Repr

/-- The hidden state of one Heartwood core: its open group and its closed groups not landed (R384); the groups landed
from the other two cores that its own copy must still match (R385); the signals waiting with their delivery index (R393);
what it gave to the running sweep of the boundary mark and of SWEEP (R396, R367); the scrubber's mark (R398) with
the blocks whose silent change the scrubber has met; its fencings in this phase (R412); the times of its fencings of
the last 24 h, and whether its last fencing counts among them (R403, R405). -/
structure Core where
  openG : List GWrite
  closed : List Group
  expect : List Group
  sigs : List (Sig × Nat)
  marked : Option MarkSig
  swept : Option MarkSig
  sigDiff : Bool
  silent : List Nat
  phaseFences : Nat
  fenceTimes : List Nat
  counted : Bool
  deriving DecidableEq, Repr

/-- A core at reset (R413): no group, no signal, the RAM all 0. -/
def Core.reset : Core :=
  { openG := [], closed := [], expect := [], sigs := [], marked := none, swept := none, sigDiff := false, silent := [],
    phaseFences := 0, fenceTimes := [], counted := false }

/-- An agreed read in progress (R390): the requests presented (core, address, size in bytes), the value once the unit has
performed it (`none` inside: the block was uncorrectable), the cores that have taken it, and the time base of the
latest presentation. -/
structure AgreedRead where
  reqs : List (Nat × Nat × Nat)
  val : Option (Option Block)
  taken : List Nat
  time : Nat
  deriving DecidableEq, Repr

/-- The HW_TEST proof under way (R414): the core, the kind, the groups that the core has still to deliver up to the one that holds the
HW_TEST write, and whether the voter has fenced the core for it. -/
structure Proof where
  core : Nat
  kind : Nat
  skip : Nat
  caught : Bool
  deriving DecidableEq, Repr

/-- The Heartwood as a whole: agreed reads in progress (R390); the HW_TEST proof (R414); the accepted split request (R425);
the cycles at which HA and HB asked for voted mode (R426), and whether HC's self-test for the hand-over has passed; a
boundary mark merged while halted (R430); the mode HWMODE takes at the next boundary (R49); the cores stopped by a double
fault, with the time base (R400); single step: the engines that halt again after one instruction (R430); the engines that were waiting in WAIT when they were halted. -/
structure Heart where
  reads : List AgreedRead
  test : Option Proof
  splitDue : Bool
  reqA : Option Nat
  reqB : Option Nat
  hcTest : Option Bool
  merged : Bool
  modeNext : Option Nat
  stops : List (Nat × Nat)
  stepping : List Nat
  parked : List Nat
  deriving DecidableEq, Repr

/-- The Heartwood at reset. -/
def Heart.reset : Heart :=
  { reads := [], test := none, splitDue := false, reqA := none, reqB := none, hcTest := none, merged := false,
    modeNext := none, stops := [], stepping := [], parked := [] }

/-! ### The arbiter and the check-value units (chapter 11) -/

/-- A request waiting at the arbiter: its input, its requester, the time base of its arrival, its target range (R442), the blocks that it has
still to move, and whether R445 has counted it as having waited. -/
structure Waiting where
  input : Nat
  who : Req
  since : Nat
  target : Target
  blocks : Nat
  counted : Bool
  deriving DecidableEq, Repr

/-- The arbiter (R441): the requests present and not chosen, the request chosen for the next round, the burst that runs
with the time base of its grant; the requester served last of the three that share an input (01 R45), and the core served last in split
mode (10 R422). -/
structure Arbiter where
  waiting : List Waiting
  chosen : Option Waiting
  running : Option (Waiting × Nat)
  quiesceAt : Nat
  last : Req
  lastCore : Req
  deriving DecidableEq, Repr

/-- The arbiter at reset: no request. Of those that take turns the debugger, and HA, come first (DESIGN CHOICE, assumption 162). -/
def Arbiter.reset : Arbiter :=
  { waiting := [], chosen := none, running := none, quiesceAt := 0, last := .commit, lastCore := .splitB }

/-- The hidden part of a check-value unit (R452 to R454): the running register, the width, polynomial and input
reflection in force since the last INIT, the bytes being absorbed, and the requester that has claimed the unit (R456). -/
structure CvUnit where
  crc : Word
  width : Nat
  poly : Word
  refin : Bool
  bytes : List Byte
  owner : Option Req
  deriving DecidableEq, Repr

/-- A unit at reset: width 32, all else 0 (Table CV-4). -/
def CvUnit.reset : CvUnit :=
  { crc := 0#32, width := 32, poly := 0#32, refin := false, bytes := [], owner := none }

/-! ### The front end and the comparators (chapters 02 and 03) -/

/-- An excitation (R62): mode 0 off, 1 DC, 2 carrier; peak current in 62.5 µA; carrier frequency in kHz. -/
structure Exc where
  mode : Nat
  ipk : Nat
  freq : Nat
  deriving DecidableEq, Repr

/-- A test injection (R71, R157): the mark of the launch that started it, words left, words of its tail left, the network times at
which it started and ended, and the comparator's changes during it with their new states. -/
structure Injection where
  mark : Nat
  left : Nat
  tail : Nat
  start : Nat
  stop : Nat
  edges : List (Nat × Nat)
  deriving DecidableEq, Repr

/-- A diagnostic (R92 to R95): its kind, whether it runs, whether its wait has been counted, the network time from which its result is
ready (R74), and the mux position that a running kind 4 uses (Table FE-8). -/
structure Diag where
  kind : Nat
  running : Bool
  counted : Bool
  ready : Nat
  pos : Option (Nat × Nat)
  deriving DecidableEq, Repr

/-- The hidden state of a sensor system: the excitation in force; a change waiting for its grid instant, and whether its wait
has been counted (R65, R66); a staged change (R65); blind words left to settle (R85); blindness of a hold below the floor
(R70); consecutive words with a sense pin beyond the rails (R89); the open and compliance conditions (R89, R90); the runs of
large and small words (R76); whether the pending range change has been counted (R77); the spare slice and mux position, or no
path (R98, R99); whether the wait of a requested retirement has been counted (R97); the diagnostic; an injection due, as the
mark of the launch that armed it (R157), and one running or awaiting its verdict (R71); the grid instant of the latest word (R104).
Of the comparator: masked until the settling ends (R146); the level the tally takes while masked (Table WD-10); the time base at
which an acquisition started, and at which it is tried again (R144); the tracked baseline in 2^-24 of a DATA step (R145). -/
structure SysSt where
  exc : Exc
  due : Option Exc
  dueCounted : Bool
  staged : Option Exc
  settle : Nat
  holdLow : Bool
  rails : Nat
  isOpen : Bool
  compl : Bool
  big : Nat
  small : Nat
  rngCounted : Bool
  mux : Option (Nat × Nat)
  unconv : Bool
  retCounted : Bool
  diag : Option Diag
  injDue : Option Nat
  inj : Option Injection
  wordTime : Nat
  maskSettle : Bool
  level : Bool
  acqAt : Option Nat
  retryAt : Option Nat
  fine : Nat
  deriving DecidableEq, Repr

/-- A system at reset: off, on its own slice, its comparator not running. -/
def SysSt.reset : SysSt :=
  { exc := { mode := 0, ipk := 0, freq := 0 }, due := none, dueCounted := false, staged := none, settle := 0,
    holdLow := false, rails := 0, isOpen := false, compl := false, big := 0, small := 0, rngCounted := false, mux := none,
    unconv := false, retCounted := false, diag := none, injDue := none, inj := none, wordTime := 0, maskSettle := false,
    level := true, acqAt := none, retryAt := none, fine := 0 }

/-- A crossing record of the tally queue (R150): direction 1 forward, 2 reverse, 3 unresolved; time; duration in TU; the
partial mark; the time base of its last edge (R154). -/
structure Crossing where
  dir : Nat
  time : Nat
  dur : Nat
  part : Bool
  last : Nat
  deriving DecidableEq, Repr

/-- A pending claim (R153): the claimed time, the direction, the time base at which it was made. -/
structure ClaimSt where
  time : Nat
  dir : Nat
  since : Nat
  deriving DecidableEq, Repr

/-- An engine verdict that the Heartwood owes for a round of a head (R158, R611): the mark of the launch that started the round, and the
network time of its start; the systems that it injects; the network time at
which the last of them ended, once all have; the test event and the network time at which it arrived. -/
structure ProofSt where
  mark : Nat
  start : Nat
  systems : List Nat
  ended : Option Nat
  event : Option (Nat × Nat)
  deriving DecidableEq, Repr

/-- The hidden state of a slice in the slice monitor (R96): the run of equal bits of its modulator, and its last 256 bits, newest
first. -/
structure SliceSt where
  run : Nat
  bits : List Bool
  deriving DecidableEq, Repr

/-- A slice at reset: no bit seen. -/
def SliceSt.reset : SliceSt := { run := 0, bits := [] }

/-- The hidden state of a head: the tally logic armed (R612) and its phase; the captures of the crossing in progress: its
first present edge, and the last present and last absent edge of each comparator; whether a comparator has been masked in it;
the queue of crossing records; the pending claim; a WD_HCFG write held for a closed window (R161); grid instants since the
last condition of the wheel window ended (R79), and of those that a running comparator or the passage flag gives; the rounds under
way, as the mark of the launch and the systems it injected (R157), and the engine verdicts that are owed, oldest first (R611); a forced move due with
its new primary (R316); the final result of the latest claim that was pending, until the section program takes it (R155); the engines
that a block reset has taken off the head (16 Table RB-3); the time base of the last minute counted in WD_PROOF.AGE; the time base of the last change of SHAD and the
grid instants for which the window has been closed without a break (08 R312); the events that its primary and that its shadow have
written since then and that the other has not matched yet (08 R314). -/
structure HeadSt where
  armed : Bool
  phase : Nat
  first : Nat
  presA : Nat
  absA : Nat
  presB : Nat
  absB : Nat
  masked : Bool
  queue : List Crossing
  claim : Option ClaimSt
  cfg : Option Nat
  closing : Nat
  tail : Nat
  rounds : List (Nat × List Nat)
  proofs : List ProofSt
  force : Option Nat
  result : Option Nat
  gone : List Nat
  proofAt : Nat
  shadAt : Nat
  closedFor : Nat
  lone : List Nat
  loneShad : List Nat
  deriving DecidableEq, Repr

/-- A head at reset. Every window is open at reset (R79); how long it then stays open without a condition is not stated: the count
starts at 0, so the window closes at the first grid instant at which no condition holds (DESIGN CHOICE, assumption 131). -/
def HeadSt.reset : HeadSt :=
  { armed := false, phase := 0, first := 0, presA := 0, absA := 0, presB := 0, absB := 0, masked := false, queue := [],
    claim := none, cfg := none, closing := 0, tail := 0, rounds := [], proofs := [], force := none, result := none, gone := [], proofAt := 0, shadAt := 0, closedFor := 0,
    lone := [], loneShad := [] }

/-- A word as the detection program keeps it (R119 to R123): its grid instant, the epoch then, the group delay of its path in 1/8 TU (02
R56), the deviation in 1/64 of a DATA step of range 0 signed by POL, and its linearised value in Q1.15. -/
structure DWord where
  time : Nat
  epoch : Nat
  delay : Nat
  dev : Int
  y : Int
  deriving DecidableEq, Repr

/-- The largest word of a present interval with its two neighbours, as far as there are (R121). -/
structure Peak where
  top : DWord
  prev : Option DWord
  next : Option DWord
  deriving DecidableEq, Repr

/-- The measurement of a test injection (R158): the mark of the launch that started it, the grid instant and epoch of its start, and the
largest deviation met in it. -/
structure TestSt where
  mark : Nat
  start : Nat
  epoch : Nat
  dev : Int
  deriving DecidableEq, Repr

/-- What the detection program holds of one system of a head (R119 to R123, R158): the tracked baseline in DATA steps of range 0; the
level, 0 absent, 1 present, 2 blind; consecutive blind words; words still left out after the last word with TEST, and whether
the latest word was left out; whether a word has been blind, on the mux path or held by a dip since the last evaluation, and whether
the level has changed since; whether the level has been blind in the passage; the peak of the latest present interval of the
passage; the words of the passage, newest first; the measurement of a test injection. -/
structure SysDet where
  base : Nat
  level : Nat
  held : Nat
  skip : Nat
  left : Bool
  dark : Bool
  mux : Bool
  hold : Bool
  moved : Bool
  lost : Bool
  peak : Option Peak
  words : List DWord
  test : Option TestSt
  deriving DecidableEq, Repr

/-- A system that the detection program has not met. -/
def SysDet.reset : SysDet :=
  { base := 0, level := 0, held := 0, skip := 0, left := false, dark := false, mux := false, hold := false, moved := false,
    lost := false, peak := none, words := [], test := none }

/-- What the detection program on one engine holds of one head (R127 to R130): it has started on the head; its two systems; the phase of
the phase machine; the time base at which the passage began; the marks of the passage: a held word (HALF), a system on the mux
path, a dip hold, rocked. -/
structure DetSt where
  started : Bool
  a : SysDet
  b : SysDet
  phase : Nat
  since : Nat
  half : Bool
  mux : Bool
  hold : Bool
  rock : Bool
  deriving DecidableEq, Repr

/-- A head that the program has not met. -/
def DetSt.reset : DetSt :=
  { started := false, a := SysDet.reset, b := SysDet.reset, phase := 0, since := 0, half := false, mux := false, hold := false,
    rock := false }

/-- A table of the image that booted, as its directory names it (16 Table RB-6): kind, index and the address it is read at. -/
structure ImgTable where
  kind : Nat
  index : Nat
  addr : Nat
  len : Nat
  deriving DecidableEq, Repr

/-! ### Host ports (chapter 12) -/

/-- A pending proposal of a host port (R470): register offset, value, time-base stamp. -/
structure Proposal where
  reg : Nat
  val : Nat
  stamp : Nat
  deriving DecidableEq, Repr

/-- An agreement within its window (R472): register, value, time base, the ports that proposed or concurred. -/
structure Agreement where
  reg : Nat
  val : Nat
  time : Nat
  ports : List Nat
  deriving DecidableEq, Repr

/-- A wait-stated access in progress (R464): host address, direction, byte enables, write value, and the time base at which
the port took HxRDY low. -/
structure HostAcc where
  write : Bool
  addr : Nat
  be : Nat
  val : Nat
  since : Nat
  deriving DecidableEq, Repr

/-- The hidden state of a host port: its event queue, its pending proposals, the access that waits. -/
structure Port where
  queue : List Nat
  props : List Proposal
  acc : Option HostAcc
  deriving DecidableEq, Repr

/-- A port at reset. -/
def Port.reset : Port := { queue := [], props := [], acc := none }

/-! ### Bobbins (chapters 04 and 05) -/

/-- A held bobbin lock (R204): its holder and the time base of the grant. -/
structure LockSt where
  who : Req
  since : Nat
  deriving DecidableEq, Repr

/-- A request that waits for a bobbin lock (R206): its requester, the bobbin, and the time base of its arrival. -/
structure LockReq where
  who : Req
  bob : Nat
  since : Nat
  deriving DecidableEq, Repr

/-- An agreed bobbin command in the queue (R194). -/
structure Cmd where
  bob : Nat
  code : Nat
  tag : Nat
  deriving DecidableEq, Repr

/-- A match that runs (05 R220): what it will write to FP_RESULT and FP_DETAIL, and its mode. -/
structure Match where
  result : Nat
  detail : Nat
  mode : Nat
  deriving DecidableEq, Repr

/-! ### Network time (chapter 06) -/

/-- The hidden state of the time unit: the epoch and the time-quality state (R231, R246); the offset of the latest valid Sync,
and the integral term in ppb (R245); the runs of valid Syncs within LOCKLIM, beyond OFFLIM and beyond STEPTHR (R246, R247,
R253); a step confirmed for the next boundary (R253); the cycles of the last valid Sync and the last valid Announce; the node
whose Syncs are followed, and the estimated error it announced; the time base at the entry to holdover and the EST then (R251);
a master yielding at the next boundary, with the master it will follow: sender, node, rank, epoch, phase, EST (R240); a settled
node of the cluster has published the next epoch (R255); a re-measurement runs (R244); the latest epoch changes, newest first, each as
the epoch before it, the network time at it, and the step of network time that came with it (03 R122, R137; at most 15, since an
epoch counts modulo 16); the cycle boundary from which a
candidate that took over sends Sync and Announce (R239). -/
structure TimeSt where
  epoch : Nat
  tq : Nat
  off : Int
  integ : Int
  lockRun : Nat
  offRun : Nat
  stepRun : Nat
  stepDue : Bool
  lastSync : Nat
  lastAnn : Nat
  follow : Option Nat
  annEst : Nat
  holdAt : Nat
  holdEst : Nat
  yields : Option (List Nat)
  pubSeen : Bool
  remeasure : Bool
  changes : List (Nat × Nat × Int)
  masterFrom : Nat
  deriving DecidableEq, Repr

/-- The time unit at reset: time 0 in epoch 0, FREE (R230, Table TM-2). -/
def TimeSt.reset : TimeSt :=
  { epoch := 0, tq := 0, off := 0, integ := 0, lockRun := 0, offRun := 0, stepRun := 0, stepDue := false, lastSync := 0,
    lastAnn := 0, follow := none, annEst := 0, holdAt := 0, holdEst := 0, yields := none, pubSeen := false,
    remeasure := false, changes := [], masterFrom := 0 }

/-! ### Carrik (chapter 07) -/

/-- An own frame on its way round the ring (R292, R299): slot, CYC, the time base by which it must be back, the safety code sent,
whether it has come back on the even and on the odd port, and whether an ACTIVE node sent it. -/
structure Ret where
  slot : Nat
  cyc : Nat
  due : Nat
  scode : Nat
  even : Bool
  odd : Bool
  active : Bool
  deriving DecidableEq, Repr

/-- A frame assembled and waiting for its release (R281): slot, network time of the release, bytes; the port and the time base of
arrival of each request that one of its PDRESP elements answers (R274); the head events, the facts of points and the Graft messages that
it carries (04 R178). -/
structure TxFrame where
  ring : Nat
  slot : Nat
  rel : Nat
  bytes : List Byte
  resps : List (Nat × Nat)
  events : List Nat
  facts : List (Nat × Nat)
  msgs : List (Nat × GMsg)
  deriving DecidableEq, Repr

/-- A transmission in progress on the ports of a ring (R284): slot, the time base at its end, and the network time at which its
window's slot ends, none for a cold-start frame (R285); the frame, whose content goes back when it is cut off (04 R178). -/
structure TxRun where
  slot : Nat
  ends : Nat
  slotEnd : Option Nat
  frame : Option TxFrame
  deriving DecidableEq, Repr

/-- The hidden state of the node in one ring: the time base at which the listen timer runs out (R294); the time base of the last
valid frame (Table CK-13); clean cycles, a master frame seen and a frame rejected in the cycle (R297); the frames accepted, as
SRC, SLOT, CYC with the cycle of acceptance (R290); the own frames not yet back, those that are expected no more but may still come back
(R292), a failure to return since the last boundary,
and the cycles in which every frame returned (R299); the HOP of the master's latest frames on the even and the odd port with the cycle of arrival, and
the master's OPEN bit (R299); a Pdelay_Req is due (R242, R274); the
transmission in progress; the next ORIGIN of the summary train (R303); the Footside's copy of the node's slot entries by slot, and of
GREL (R279, R286). -/
structure RingSt where
  listenAt : Option Nat
  heardAt : Nat
  clean : Nat
  seenMaster : Bool
  badFrame : Bool
  seen : List (Nat × Nat × Nat × Nat)
  rets : List Ret
  late : List Ret
  retFail : Bool
  retRun : Nat
  hopE : Option (Nat × Nat)
  hopO : Option (Nat × Nat)
  mOpen : Option Bool
  pdDue : Bool
  tx : Option TxRun
  train : Nat
  copy : List (Nat × Nat)
  copyRel : Nat
  deriving DecidableEq, Repr

/-- A ring at reset. -/
def RingSt.reset : RingSt :=
  { listenAt := none, heardAt := 0, clean := 0, seenMaster := false, badFrame := false, seen := [], rets := [], late := [],
    retFail := false, retRun := 0, hopE := none, hopO := none, mOpen := none, pdDue := false,
    tx := none, train := 0, copy := [], copyRel := 0 }

/-- The hidden state of a port: the latest link-delay measurements, newest first (R242); the responses owed, as the time base at which
each Pdelay_Req arrived, oldest first; the time base at which a port in ERROR retrains, and of its last training frame (R293). -/
structure PortSt where
  meas : List Nat
  owed : List Nat
  retrainAt : Nat
  trainedAt : Option Nat
  deriving DecidableEq, Repr

/-- A port at reset. -/
def PortSt.reset : PortSt := { meas := [], owed := [], retrainAt := 0, trainedAt := none }

/-! ### Graft (chapter 08) -/

/-- A migration in a GR_MIG slot, beside the slot's register (R322 to R329): the order's code and tag (code 0 on the target
side); a PLAN is awaited; SID, TABLE and HOLDT; each point's point-list entry with its NODE and VMAXP; the cycle numbers of
C0 and C_h; the snapshot's bytes sent or received; the next segment; READY or SWITCH has been sent, SWITCH has been
released; agreeing cycles, and one more than the cycle number of the last of them; the target's own digests by cycle (none with TQLOW);
the cycle of the last awaited message; the cycle of the install; refusals met; the epoch at C0. -/
structure MigSt where
  code : Nat
  tag : Nat
  waits : Bool
  sid : Nat
  table : Nat
  holdt : Nat
  entries : List (Nat × Nat)
  c0 : Nat
  ch : Nat
  bytes : List Byte
  seg : Nat
  ready : Bool
  switched : Bool
  agree : Nat
  agreeAt : Nat
  own : List (Nat × Option (Nat × Nat × Nat))
  last : Nat
  inst : Option Nat
  refused : Nat
  epoch0 : Nat
  deriving DecidableEq, Repr

/-- A free slot. -/
def MigSt.reset : MigSt :=
  { code := 0, tag := 0, waits := false, sid := 0, table := 0, holdt := 0, entries := [], c0 := 0, ch := 0, bytes := [], seg := 0,
    ready := false, switched := false, agree := 0, agreeAt := 0, own := [], last := 0, inst := none, refused := 0, epoch0 := 0 }

/-- A switch of an endpoint's owner (R335): SID, node, ring, bobbin, cycle number of C_h. -/
structure MoveSt where
  sid : Nat
  node : Nat
  ring : Nat
  bob : Nat
  ch : Nat
  deriving DecidableEq, Repr

/-- The Graft program's own state: the senders of ALIVE heard, as node, TERM and cycle (R318); the LOAD of each node (R319),
with bit 16 set; the nodes a coordinator has planned, as source, bobbin, node and cycle; the cycle of the first entry into
ACTIVE on the home ring, and the learning period over (R336); the next bobbin of the OWN list (R332); the next endpoint of the
sweep; switches waiting for C_h; the C_h of endpoints with MIG set (R335); migrations to be requested again, as bobbin and
cycle, and the tag of the evacuation (R330); of each node heard, TQLOW, NSTATE times 2 and 16 from its latest TSTAT (R326); one more
than the ring by which the latest state of each node came (R332). -/
structure GraftSt where
  heard : List (Nat × Nat × Nat)
  loads : Tab Nat
  plans : List (Nat × Nat × Nat × Nat)
  active : Option Nat
  learned : Bool
  ownNext : Nat
  sweepAt : Nat
  moves : List MoveSt
  chs : Tab Nat
  retry : List (Nat × Nat)
  evacTag : Nat
  peers : Tab Nat
  via : Tab Nat
  deriving DecidableEq, Repr

/-- The Graft program at reset. -/
def GraftSt.reset : GraftSt :=
  { heard := [], loads := [], plans := [], active := none, learned := false, ownNext := 0, sweepAt := 0, moves := [], chs := [],
    retry := [], evacTag := 0, peers := [], via := [] }

/-! ### The section program (chapters 04 and 05) -/

/-- An event in a hold list (04 R172): the 16 bytes as a number; whether it came by the remote ring; whether its SEQ was not
the expected one (R183). -/
structure Held where
  ev : Nat
  remote : Bool
  gap : Bool
  deriving DecidableEq, Repr

/-- The predecessor of a point (05 R216): point, TIME, EPOCH, SPEED, HALF, list. -/
structure Pred where
  point : Nat
  time : Nat
  epoch : Nat
  speed : Nat
  half : Bool
  exit : Bool
  deriving DecidableEq, Repr

/-- The hidden state of a bobbin in the section program: evaluated since it became active (04 R198, R201); its hold list in
order of arrival; every head clean and closed at the previous evaluation; the state timer ran out (R190); the predecessors;
POINT, TIME and EPOCH of the last event released (08 R324); MEMERR met in the record (11 R438); one more than the cycle of
the last localisation match, and one that is owed (05 R227); the evaluation under way has presented a count class; cycle boundaries that
the state timer owes, passed while the record could not be written (R190, R207); the bobbin has run since the store was cleared (R199). -/
structure SecSt where
  started : Bool
  hold : List Held
  quiet : Bool
  ranOut : Bool
  preds : List Pred
  rel : Option (Nat × Nat × Nat)
  memerr : Bool
  locAt : Nat
  locDue : Bool
  counted : Bool
  ticks : Nat
  ran : Bool
  deriving DecidableEq, Repr

/-- A bobbin that has not been evaluated. -/
def SecSt.reset : SecSt := { started := false, hold := [], quiet := true, ranOut := false, preds := [], rel := none,
                              memerr := false, locAt := 0, locDue := false, counted := false, ticks := 0, ran := false }

/-- What a bobbin knows of a point of its list: a LOST is outstanding, and the cycle since when the status has been present
(04 R183, R184); the status was missing, or HEN 0, at the last evaluation; the expected SEQ; clean and proof-stale at the last
evaluation; the facts of remote statuses not presented yet, and of local latches presented and not cleared yet (R185), as the
bits of Table CK-7; HEN returned (R203). -/
structure PtSt where
  lost : Bool
  since : Nat
  down : Bool
  exp : Option Nat
  clean : Bool
  stale : Bool
  acc : Nat
  done : Nat
  deriving DecidableEq, Repr

/-- A point not looked at yet. -/
def PtSt.reset : PtSt :=
  { lost := false, since := 0, down := false, exp := none, clean := true, stale := false, acc := 0, done := 0 }

/-- A local head event taken from the origin ring (04 R182): the claim has been made; its final result. -/
structure Claimed where
  ev : Nat
  made : Bool
  code : Option Nat
  deriving DecidableEq, Repr

/-- A part of an evaluation that is still to be committed (R192, R210): bobbins evaluated whole in one commit, or what comes before the
released events, the events themselves, one commit each, and what comes after them. -/
inductive EvalPart where
  | whole (bs : List Nat)
  | before (bs : List Nat)
  | release (bs : List Nat)
  | after (bs : List Nat)
  deriving DecidableEq, Repr

/-- What the mirror's point word needs of a point (12 Table HP-6): DIR of the last event taken, and the events taken. -/
structure Taken where
  seq : Nat
  dir : Nat
  n : Nat
  deriving DecidableEq, Repr

/-! ### Vital outputs, power, keeper (chapters 13, 14, 16) -/

/-- A vital output (13 R491 to R503): the cycles for which it stays live; the half its generator drives (0 both signals low, 1
VOnP, 2 VOnN), the time base at its start, and the halves since the train's start; the run condition holds; consecutive
samples below ILO; a copy mismatch that ends the drive at the next edge; while stopped, consecutive samples at or above ILO and
the time base of the last sample. -/
structure VoSt where
  live : Nat
  drive : Nat
  halfAt : Nat
  halves : Nat
  run : Bool
  low : Nat
  copyBad : Bool
  leak : Nat
  leakAt : Nat
  deriving DecidableEq, Repr

/-- An output at reset: both signals low (R489). -/
def VoSt.reset : VoSt :=
  { live := 0, drive := 0, halfAt := 0, halves := 0, run := false, low := 0, copyBad := false, leak := 0, leakAt := 0 }

/-- A pulse generator (14 R520 to R522): the integral term and the trip level in 0.5 mV; consecutive periods at ILIM; the setpoint
in force at the start of its last slew, and the time base of that start; its soft-start belongs to a power-up sequence. -/
structure PgSt where
  integ : Nat
  th : Nat
  limRun : Nat
  base : Nat
  since : Nat
  first : Bool
  deriving DecidableEq, Repr

/-- A generator at reset. -/
def PgSt.reset : PgSt := { integ := 0, th := 0, limRun := 0, base := 0, since := 0, first := false }

/-- A phase of a generator (14 R518): its high-side gate is on; the time base of its period start, and the PERIOD in force; the time
base at which the high-side gate fell, from which the low-side gate follows. -/
structure PhaseSt where
  high : Bool
  start : Nat
  period : Nat
  fall : Nat
  deriving DecidableEq, Repr

/-- A phase at reset: both gates low. -/
def PhaseSt.reset : PhaseSt := { high := false, start := 0, period := 0, fall := 0 }

/-- The power stage (14 R516, R532, 16 R559, R580): the rails are up; the power-up sequence runs, its 10 ms wait counted from a time
base; the sequence failed, and is tried again 200 ms after a time base; a power cycle, its 200 ms counted from a time base;
RST_N holds the device in reset with the rails up; the keeper hold; RST_N low in the keeper hold; no supply. -/
inductive PowerPhase where
  | up
  | sequence (since : Nat)
  | failed (since : Nat)
  | cycling (since : Nat)
  | ballLow
  | hold
  | holdLow
  | dead
  deriving DecidableEq, Repr

/-- The keeper and the reset logic (16 R559 to R580): the power stage; the cause that the reset in progress will record, and whether
it ended a commit; the reset was released from the hold; the bobbin store survives it; the retired-core bits (10 R406); the
levels of the strap balls, SMODE in bit 0 and SDBG in bit 1; the time base of the last kick of the keeper watchdog, and the
cycle of the last kick of the Root watchdog; the time base at which HW_PHASE entered SERVICE; a reset that waits for an
evacuation, as cause and time base; the time base at which the dip warning asserted. -/
structure Keeper where
  power : PowerPhase
  cause : Nat
  intr : Bool
  held : Bool
  keep : Bool
  retired : Nat
  straps : Nat
  kick : Nat
  rkick : Nat
  serviceAt : Option Nat
  resetReq : Option (Nat × Nat)
  dipAt : Nat
  deriving DecidableEq, Repr

/-- The keeper with the rails up after a power-on. -/
def Keeper.reset : Keeper :=
  { power := .up, cause := 0, intr := false, held := false, keep := false, retired := 0, straps := 0, kick := 0, rkick := 0,
    serviceAt := none, resetReq := none, dipAt := 0 }

/-- The commit unit (16 R572 to R575): the time base of START, the time suspended by dips, the milliseconds at its end; the first
image block not yet written; the chunk under way as offset and length; the words that the debugger fills in place of the
staging buffer (R585); the record request under way as KIND and body address. -/
structure CommitSt where
  start : Nat
  susp : Nat
  ended : Option Nat
  next : Nat
  off : Nat
  len : Nat
  buf : List Nat
  record : Option (Nat × Nat)
  deriving DecidableEq, Repr

/-- The commit unit at reset: idle. -/
def CommitSt.reset : CommitSt :=
  { start := 0, susp := 0, ended := none, next := 0, off := 0, len := 0, buf := [], record := none }

/-- What the margin program of the Root engine holds (15 R546 to R556): the least projected margin of each monitor over the week, none
without a valid reading; the highest temperature code of the week and the flags seen in it (Table AG-5); by monitor, its consecutive
readings below the floor, up to two; the monitors that the last projection put in WATCH; by Sapwood engine, the consecutive boundaries
with its LRENG bit, up to three, and one more than the time base at which LEAVE first appeared; the Sapwood engines retired by a double
fault; the body of the record entry that it has requested; whether the
retirements on record have been made again since the reset (R554). -/
structure PlanSt where
  least : Tab (Option Int)
  hottest : Nat
  seen : Nat
  low : Tab Nat
  watch : List Nat
  slow : Tab Nat
  leaving : Tab Nat
  faults : List Nat
  body : Option (List Byte)
  recalled : Bool
  deriving DecidableEq, Repr

/-- The margin program at reset: nothing read yet. -/
def PlanSt.reset : PlanSt :=
  { least := [], hottest := 0, seen := 0, low := [], watch := [], slow := [], leaving := [], faults := [], body := none,
    recalled := false }

/-- The test access port (17 R608, R609): the instruction in force; the value that the selected data register captured last; the
update latch of the boundary register. -/
structure TapSt where
  ir : Nat
  dr : Nat
  latch : Nat
  deriving DecidableEq, Repr

/-- The TAP in Test-Logic-Reset: IDCODE is loaded (Table EL-15). -/
def TapSt.reset : TapSt := { ir := 2, dr := 0, latch := 0 }

/-! ### The state -/

/-- The state of the device. -/
structure State where
  /-- Every register field, by field key and instance; unlisted keys read the field's reset value. -/
  regs : Tab Nat
  /-- Every byte of memory, by memory key; unlisted bytes read as `memInit` gives. -/
  mem : Tab Byte
  /-- Wrong bits per 128-bit block (11 R432), by block key. -/
  errs : Tab Nat
  /-- The 125 MHz time base: TU since reset (01 R26). -/
  tb : Nat
  /-- Network time in TU (06 R230). -/
  now : BitVec 64
  /-- Cycle boundaries since reset (00 R4). -/
  cycle : Nat
  /-- The ten engines (09 R338); unlisted engines are at reset. -/
  engines : Tab Engine
  /-- The hidden state of HA, HB and HC. -/
  cores : Tab Core
  /-- The voter and agreement unit. -/
  heart : Heart
  /-- The arbiter. -/
  arb : Arbiter
  /-- The time base at the end of the last scrubber or check pass over each memory kind (11 R437, 10 R398). -/
  passes : Tab Nat
  /-- The check-value units. -/
  cvs : Tab CvUnit
  /-- The model's own counter of free values (assumption 2). -/
  free : Nat
  /-- The commands that wait, first in, first out. -/
  pending : List Instr
  /-- The hidden state of the 64 sensor systems. -/
  systems : Tab SysSt
  /-- The hidden state of the 32 heads. -/
  heads : Tab HeadSt
  /-- The earliest network time of the next grid instant to come: one TU after the last (02 R54). -/
  gridNext : Nat
  /-- Stream latches, by engine * 64 + system: the word not yet taken and the low 32 bits of its grid instant (03 R112). -/
  latches : Tab (Option (Nat × Nat))
  /-- Edge FIFOs of the Sapwood engines, oldest first (03 R113). -/
  edges : Tab (List Nat)
  /-- What the detection program on each engine holds of each head, by engine * 32 + head (03 R119 to R131). -/
  dets : Tab DetSt
  /-- The slices as the slice monitor sees them (02 R96). -/
  slices : Tab SliceSt
  /-- The slices in which the slice monitor has found a fault: what it finds again at boot (02 R100). -/
  badSlices : List Nat
  /-- The supply-dip warning that the front end acts on at the next grid instant (02 R68). -/
  dip : Bool
  /-- The tables of the booted image: kind, index, address (16 R570). -/
  tables : List ImgTable
  /-- The value the last read delivered to each requester, by bank number of the requester (00 R18): what the reader sees on its port. -/
  delivered : Tab Nat
  /-- The hidden state of the host ports. -/
  ports : Tab Port
  /-- The agreements whose concurrence window is open (12 R472). -/
  agreements : List Agreement
  /-- Agreed values that have not taken their effect: register offset and value (12 R471). -/
  agreed : List (Nat × Nat)
  /-- Bobbin locks held (04 R204), by bobbin. -/
  locks : Tab (Option LockSt)
  /-- Requests waiting for a bobbin lock, in order of arrival (04 R206). -/
  lockWait : List LockReq
  /-- The command queue (04 R194), oldest first. -/
  cmds : List Cmd
  /-- The fingerprint match that runs (05 R220). -/
  fp : Option Match
  /-- The time unit (06). -/
  time : TimeSt
  /-- The earliest network time of the next cycle boundary to come (06 R254). -/
  cycNext : Nat
  /-- The node in its home ring and its bridged ring (07). -/
  rings : Tab RingSt
  /-- The six Carrik ports (07 R293). -/
  links : Tab PortSt
  /-- The transmit buffers marked ready since the last close, newest first, with the time base of the write, by bit of CK_TXRDY (07 R280). -/
  ready : Tab (List (Nat × Nat))
  /-- Frames assembled and not released (07 R281). -/
  frames : List TxFrame
  /-- One more than the network time of the last buffer close, by ring * 1024 + slot (07 R280). -/
  closes : Tab Nat
  /-- Stored frames whose head events are not dispatched: buffer address and length (07 R305). -/
  rxq : List (Nat × Nat)
  /-- Frames that the Carrik DMA holds while it waits for a bobbin lock (04 R206) or a quiesce holds it back (11 R447): port, bridged, arrival
  time, bytes. -/
  rxHeld : List (Nat × Bool × Nat × List Byte)
  /-- What each Carrik port sent last, by port (07 R281, R287). -/
  lines : Tab (List Byte)
  /-- The receive-ring buffer that the next frame takes (07 R304; assumption 54). -/
  rxNext : Nat
  /-- Entries written so far to the fit log, the recovery log, the keeper log and the trace ring (16 R583, R586), by number 0 to 3. -/
  logs : Tab Nat
  /-- Graft messages waiting to be sent, with their MTYPE, by ring (08 R332). -/
  gmsgs : Tab (List (Nat × GMsg))
  /-- The migrations in the GR_MIG slots (08 R322). -/
  migs : Tab MigSt
  /-- The Graft program (08). -/
  graft : GraftSt
  /-- The section program's state of each bobbin (04). -/
  secs : Tab SecSt
  /-- What a bobbin knows of a point, by bobbin * 2048 + point. -/
  pts : Tab PtSt
  /-- The latest status received for a remote point (07 Table CK-7), and one more than the cycle of its arrival. -/
  remotes : Tab (Nat × Nat)
  /-- Local head events taken from the origin ring, oldest first (04 R182). -/
  claims : List Claimed
  /-- Head events to be transmitted, with XOK and XFAIL set (04 R178, 03 R155). -/
  txEvents : List Nat
  /-- The accumulation of the facts of each LOCAL point not yet published (04 R178), as bits of Table CK-7. -/
  accum : Tab Nat
  /-- What an evaluation that waits for a bobbin lock has still to commit (04 R192, R210). -/
  evalRest : List EvalPart
  /-- Results of the commands that the evaluation under way has presented, which its commit writes to BB_CMDDONE (04 R195). -/
  results : List (Cmd × Nat)
  /-- The last event of each point taken into a hold list (12 Table HP-6). -/
  takens : Tab Taken
  /-- Steps that each engine has completed in the running cycle (15 R541). -/
  steps : Tab Nat
  /-- The sixteen vital outputs (13). -/
  vos : Tab VoSt
  /-- The four pulse generators (14). -/
  pgs : Tab PgSt
  /-- The phases PG0A, PG0B, PG1, PG2 and PG3, numbered 0 to 4 (14 R518). -/
  phases : Tab PhaseSt
  /-- The keeper and the reset logic (16). -/
  keeper : Keeper
  /-- The commit unit (16 R572 to R575). -/
  commit : CommitSt
  /-- The test access port (17 R608). -/
  tap : TapSt
  /-- The Root engine has made its first write of AG_HOURS after the reset (15 R548). -/
  hoursSet : Bool
  /-- AG_HOURS at the last trend record, from which the next falls due (15 R549). -/
  trendAt : Nat
  /-- The time base at the margin program's last trim step (15 R543). -/
  trimAt : Nat
  /-- The margin program has made its request of R545 since the reset. -/
  restored : Bool
  /-- What the margin program holds of the week, and the margin plan (15 R546 to R556). -/
  plan : PlanSt
  deriving DecidableEq, Repr

/-- Why a command stops the model without a next state. No command of the model raises one: every instruction fault of the
spec is taken (09 R357), every refused access has the response the spec gives it. Kept for the host's interface; a stop
would be safe. -/
inductive Fault where
  | none
  deriving DecidableEq, Repr

/-- Why a command has no meaning in the model. `notModelled` is raised by an arm of `exec` whose command has no meaning
yet; safe, since nothing is claimed of it. -/
inductive Refusal where
  | notModelled (mnemonic : String)
  deriving DecidableEq, Repr

/-- The device right after a device reset, released and booted under an image that leaves every register of reset value
"Image" at 0 (DESIGN CHOICE, assumption 3): every register field at the value of its Reset column, memory as `memInit`
gives it, every engine at its entry with the queue of commands empty. -/
def State.reset : State :=
  { regs := [],
    mem := [],
    errs := [],
    tb := 0,
    now := 0#64,
    cycle := 0,
    engines := [],
    cores := [],
    heart := Heart.reset,
    arb := Arbiter.reset,
    passes := [],
    cvs := [],
    free := 0,
    pending := [],
    systems := [],
    heads := [],
    gridNext := 0,
    latches := [],
    edges := [],
    dets := [],
    slices := [],
    badSlices := [],
    dip := false,
    tables := [],
    delivered := [],
    ports := [],
    agreements := [],
    agreed := [],
    locks := [],
    lockWait := [],
    cmds := [],
    fp := none,
    time := TimeSt.reset,
    cycNext := 1,
    rings := [],
    links := [],
    ready := [],
    frames := [],
    closes := [],
    rxq := [],
    rxHeld := [],
    lines := [],
    rxNext := 0,
    logs := [],
    gmsgs := [],
    migs := [],
    graft := GraftSt.reset,
    secs := [],
    pts := [],
    remotes := [],
    claims := [],
    txEvents := [],
    accum := [],
    evalRest := [],
    results := [],
    takens := [],
    steps := [],
    vos := [],
    pgs := [],
    phases := [],
    keeper := Keeper.reset,
    commit := CommitSt.reset,
    tap := TapSt.reset,
    hoursSet := false,
    trendAt := 0,
    trimAt := 0,
    restored := false,
    plan := PlanSt.reset }

end Sys2Proof.Machine
end

