-- ==== Sys2Proof/Machine/Ops.lean ====
section
/-! DEFINITION. The named operations on the state: register fields, memory, time, requesters, engines and their events,
rejected writes, memory errors. Every other file of the machine reads and changes the state through these. -/

namespace Sys2Proof

/-- The bank of select registers a requester uses (00 R18; 10 R422 for split mode). -/
def Req.bank : Req → Nat
  | .dbg => 0
  | .host p => 1 + p.val
  | .root => 4
  | .se k => 5 + k.val
  | .hw => 11
  | .splitA => 11
  | .splitB => 12
  | .dma => 13
  | .trace => 14
  | .commit => 15

/-- The requester whose writes carry the voted flag (01 R32). -/
def Req.voted : Req → Bool
  | .hw => true
  | _ => false

/-- The number of an engine in the state: HA, HB, HC 0 to 2; SE0 to SE5 3 to 8; Root 9. -/
def Eng.idx : Eng → Nat
  | .ha => 0
  | .hb => 1
  | .hc => 2
  | .se k => 3 + k.val
  | .root => 9

end Sys2Proof

namespace Sys2Proof.Machine

/-! ### Iteration -/

/-- Apply a change for each element of a list, in order. -/
def forEach {α : Type} (l : List α) (f : α → State → State) (s : State) : State :=
  l.foldl (fun t x => f x t) s

/-- Apply a change when a condition holds. -/
def onlyIf (c : Bool) (f : State → State) (s : State) : State := if c then f s else s

/-! ### Register fields -/

/-- The value of instance `i` of a field. -/
def State.fld (s : State) (f : Field) (i : Nat := 0) : Nat := Tab.get f.rst s.regs (f.key i)

/-- Whether instance `i` of a one-bit field is 1. -/
def State.isSet (s : State) (f : Field) (i : Nat := 0) : Bool := s.fld f i == 1

/-- Set instance `i` of a field, in the field's width. -/
def State.setFld (f : Field) (i v : Nat) (s : State) : State :=
  { s with regs := Tab.set f.rst s.regs (f.key i) (v % 2 ^ f.w) }

/-- Bit `b` of a field. -/
def State.fbit (s : State) (f : Field) (b : Nat) (i : Nat := 0) : Bool := (s.fld f i).testBit b

/-- Set bit `b` of a field. -/
def State.putFbit (f : Field) (i b : Nat) (v : Bool) (s : State) : State :=
  s.setFld f i (putBit (s.fld f i) b v)

/-- Add to a counting field that saturates at its width. -/
def State.countFld (f : Field) (i : Nat) (n : Nat) (s : State) : State :=
  s.setFld f i (satAdd (2 ^ f.w - 1) (s.fld f i) n)

/-! ### Time (01 R26, 06 R230) -/

/-- Network time as a number of TU. -/
def State.nowTu (s : State) : Nat := s.now.toNat

/-- The low 32 bits of network time. -/
def State.nowLow (s : State) : Nat := s.now.toNat % 2 ^ 32

/-- The cycle length in TU (07 Table CK-9, CYCLE). -/
def State.cycleLen (s : State) : Nat := 312500 * 2 ^ s.fld CK_RING.CYCLE

/-- `n` TU pass: the time base and network time advance together (06 R245 steers the time base itself). -/
def State.advance (n : Nat) (s : State) : State :=
  { s with tb := s.tb + n, now := s.now + BitVec.ofNat 64 n }

/-- Time passes until the time base reads `t`, if it does not yet. -/
def State.advanceTo (t : Nat) (s : State) : State := s.advance (t - s.tb)

/-- A fresh undefined value: the next one of the free sequence. -/
def State.fresh (s : State) : Nat × State := (Config.freeValue s.free, { s with free := s.free + 1 })

/-! ### Memory (01 R36, 00 R7) -/

/-- The store key of address `a` in memory space `sp`: 0 for what every requester shares; 1 to 3 the Heartwood RAM of HA,
HB, HC; 4 to 9 the local RAM of SE0 to SE5; 10 the local RAM of the Root engine; 11 the host-port mirror memory. -/
def memKey (sp a : Nat) : Nat := sp * 2 ^ 32 + a

/-- What a byte of memory that nothing has written reads as: erased flash, and the mirror source and mirror memory of
12 R477, read 0xFF; all other memory 0 (assumption 4). -/
def memInit (k : Nat) : Byte :=
  if k < 0x800000 then 0xFF#8
  else if 0x201FC000 ≤ k ∧ k < 0x20200000 then 0xFF#8
  else if memKey 11 0 ≤ k ∧ k < memKey 11 0x4000 then 0xFF#8
  else 0#8

/-- The byte at a store key. -/
def State.byte (s : State) (k : Nat) : Byte := Tab.get (memInit k) s.mem k

/-- Write the byte at a store key. -/
def State.setByte (k : Nat) (v : Byte) (s : State) : State :=
  { s with mem := Tab.set (memInit k) s.mem k v }

/-- The little-endian number in `n` bytes from key `k` (R7). -/
def State.rd (s : State) (k : Nat) : Nat → Nat
  | 0 => 0
  | n + 1 => (s.byte k).toNat + 256 * s.rd (k + 1) n

/-- Write `v` little-endian into `n` bytes from key `k`. -/
def State.wr (k : Nat) (n v : Nat) (s : State) : State :=
  match n with
  | 0 => s
  | m + 1 => State.wr (k + 1) m (v / 256) (s.setByte k (BitVec.ofNat 8 v))

/-- The 32-bit word at key `k`. -/
def State.rdW (s : State) (k : Nat) : Nat := s.rd k 4

/-- Write the 32-bit word at key `k`. -/
def State.wrW (k v : Nat) (s : State) : State := s.wr k 4 v

/-- The `n` bytes from key `k`. -/
def State.rdL (s : State) (k : Nat) : Nat → List Byte
  | 0 => []
  | n + 1 => s.byte k :: s.rdL (k + 1) n

/-- Write a list of bytes from key `k`. -/
def State.wrL (k : Nat) (l : List Byte) (s : State) : State :=
  match l with
  | [] => s
  | b :: t => State.wrL (k + 1) t (s.setByte k b)

/-- The whole of memory space `sp` becomes `cells`, which lie in it. -/
def State.putSpace (sp : Nat) (cells : Tab Byte) (s : State) : State :=
  { s with mem := s.mem.filter (fun p => decide (p.1 / 2 ^ 32 < sp)) ++ (cells ++ s.mem.filter (fun p => decide (sp < p.1 / 2 ^ 32))) }

/-- Copy `n` bytes from key `a` to key `b`. -/
def State.copyBytes (a b n : Nat) (s : State) : State := s.wrL b (s.rdL a n)

/-! ### Requesters and their arbiter inputs (11 R439) -/

/-- The input of the map field that names Sapwood engine `k`. -/
def mapSe (k : Nat) : Field :=
  match k with
  | 0 => MI_MAP0.SE0 | 1 => MI_MAP0.SE1 | 2 => MI_MAP0.SE2 | 3 => MI_MAP1.SE3 | 4 => MI_MAP1.SE4 | _ => MI_MAP1.SE5

/-- The input of the map field that names host port `p`. -/
def mapHost (p : Nat) : Field :=
  match p with
  | 0 => MI_MAP0.HOSTA | 1 => MI_MAP0.HOSTB | _ => MI_MAP0.HOSTC

/-- The arbiter input of a requester under the map in force (R439, R45). -/
def State.input (s : State) : Req → Nat
  | .dbg => s.fld MI_MAP0.DBG
  | .trace => s.fld MI_MAP0.DBG
  | .commit => s.fld MI_MAP0.DBG
  | .host p => s.fld (mapHost p.val)
  | .root => s.fld MI_MAP0.ROOT
  | .se k => s.fld (mapSe k.val)
  | .dma => s.fld MI_MAP1.DMA
  | .hw => 12
  | .splitA => 12
  | .splitB => 12

/-- A write counted as rejected, under the input of its requester (R15, R446). -/
def State.reject (q : Req) (s : State) : State := s.countFld MI_ILONG.REJ (s.input q) 1

/-- The input is masked by the watchdog (R449). -/
def State.masked (s : State) (q : Req) : Bool := s.fbit MI_MASK.MASK (s.input q)

/-- A quiesce is in force (R447). -/
def State.quiesced (s : State) : Bool := s.isSet MI_QUIESCE.REQ

/-- The arbiter does not serve the requester now: its input is masked (R449), or held back by a quiesce (R447). -/
def State.arbHolds (s : State) (q : Req) : Bool :=
  s.masked q || (s.quiesced && decide (s.input q < 12))

/-- The longest wait of input `i` is at least `n` TU (11 R445). -/
def noteWait (i n : Nat) (s : State) : State :=
  if s.fld MI_ILONG.LONG i < min 0xFFFF n then s.setFld MI_ILONG.LONG i (min 0xFFFF n) else s

/-! ### Engines and events (09 R357 to R361, 10 R393) -/

/-- The engine with a number. -/
def State.eng (s : State) (i : Nat) : Engine := Tab.get Engine.reset s.engines i

/-- Change the engine with a number. -/
def State.modEng (i : Nat) (f : Engine → Engine) (s : State) : State :=
  { s with engines := Tab.set Engine.reset s.engines i (f (s.eng i)) }

/-- The hidden state of core `c`. -/
def State.core (s : State) (c : Nat) : Core := Tab.get Core.reset s.cores c

/-- Change the hidden state of core `c`. -/
def State.modCore (c : Nat) (f : Core → Core) (s : State) : State :=
  { s with cores := Tab.set Core.reset s.cores c (f (s.core c)) }

/-- Change the Heartwood's common state. -/
def State.modHeart (f : Heart → Heart) (s : State) : State := { s with heart := f s.heart }

/-- The HW_CORE field of core `c` (Table HW-7). -/
def coreField (c : Nat) : Field :=
  match c with
  | 0 => HW_CORE.HA | 1 => HW_CORE.HB | _ => HW_CORE.HC

/-- The state of core `c` (Table HW-1). -/
def State.coreState (s : State) (c : Nat) : Nat := s.fld (coreField c)

/-- The Heartwood runs in split mode (R380). -/
def State.isSplit (s : State) : Bool := s.fld ID_BOOT.HWMODE == 2

/-- The voting set: the cores in RUN (R381). -/
def State.voting (s : State) : List Nat := [0, 1, 2].filter (fun c => s.coreState c == 0)

/-- The Heartwood is in the safe state (R418). -/
def State.isSafe (s : State) : Bool := s.isSet HW_STATUS.SAFE

/-- The Heartwood can make voted writes (01 R33, 10 R381, R418): voted mode, at least two cores in the voting set, and none of
them stopped, halted or held. -/
def State.canVote (s : State) : Bool :=
  !s.isSafe && !s.isSplit && decide (2 ≤ s.voting.length)
    && s.voting.all (fun c => (s.eng c).run == .running || (s.eng c).run == .waiting)

/-- A voting core is halted by the debugger: no group lands (R428). -/
def State.heartHalted (s : State) : Bool := s.voting.any (fun c => (s.eng c).run == .halted)

/-- Requester `q` makes no access now: the voted Heartwood while it cannot vote or is halted (R418, R423, R428), HA and HB for themselves outside
split mode (R422). -/
def State.absent (s : State) (q : Req) : Bool :=
  match q with
  | .hw => !s.canVote
  | .splitA | .splitB => !s.isSplit || s.isSafe
  | _ => false

/-- A command that is an access of requester `q`: it finds no occasion where that requester makes none. -/
def asReq (q : Req) (s : State) (r : Host.Outcome State Fault Refusal) : Host.Outcome State Fault Refusal :=
  if s.absent q then .next s else r

/-- Change what the margin program holds. -/
def State.modPlan (f : PlanSt → PlanSt) (s : State) : State := { s with plan := f s.plan }

/-- An event that EVMASK enables is pending: what ends WAIT (R362). -/
def Engine.wakes (x : Engine) : Bool := (x.pend &&& flgMask x.flg) != 0#16

/-- Set event `e` pending in engine `i` (R361): a signal while the bit is set merges into it. An engine that single-steps a WAIT halts again when
the event ends it (10 R430). -/
def State.pendEng (i e : Nat) (s : State) : State :=
  let stepping := s.heart.stepping.contains i
  s.modEng i (fun x =>
    let y := { x with pend := x.pend ||| (1#16 <<< e) }
    { y with run := if stepping && x.run == .waiting && y.wakes then .halted else x.run })

/-- The largest retire index of the voting cores (R393). -/
def State.maxRetire (s : State) : Nat := (s.voting.map (fun c => (s.eng c).retire)).foldl max 0

/-- A signal to the Heartwood (R393): queued at every voting core with the delivery index, the largest retire index
plus 1. In split mode an event reaches each core directly (R421). -/
def State.toHeart (g : Sig) (s : State) : State :=
  if s.isSplit then
    match g with
    | .event e => (s.pendEng 0 e).pendEng 1 e
    | _ => s
  else
    let d := s.maxRetire + 1
    forEach s.voting (fun c => State.modCore c (fun k => { k with sigs := k.sigs ++ [(g, d)] })) s

/-- Event `e` to the Heartwood and to the Root engine (Table KM-12, R395). -/
def State.raise (e : Nat) (s : State) : State := (s.toHeart (.event e)).pendEng 9 e

/-- Event numbers of Table KM-12. -/
def evFE : Nat := 0
def evWD : Nat := 1
def evBB : Nat := 2
def evTM : Nat := 3
def evCK : Nat := 4
def evGR : Nat := 5
def evHW : Nat := 6
def evMI : Nat := 7
def evCV : Nat := 8
def evHP : Nat := 9
def evPW : Nat := 10
def evAG : Nat := 11
def evRB : Nat := 12
def evCOMPARE : Nat := 13
def evLAUNCH : Nat := 14
def evBUDGET : Nat := 15

/-- Set a W1C status bit that signals event `e` (R395 and the register rule of the page). -/
def State.flag (f : Field) (e : Nat) (s : State) : State := (s.setFld f 0 1).raise e

/-- Set bit `b` of a W1C status field that signals event `e`. -/
def State.flagBit (f : Field) (b e : Nat) (s : State) : State := (s.putFbit f 0 b true).raise e

/-! ### Coded memory (11 R432 to R437) -/

/-- The wrong bits the block at a key carries: 0, 1, 2 corrected, 3 uncorrectable (R432). -/
def State.badBits (s : State) (k : Nat) : Nat := Tab.get 0 s.errs (k / 16)

/-- Mark the block at a key. -/
def State.setBad (k n : Nat) (s : State) : State := { s with errs := Tab.set 0 s.errs (k / 16) n }

/-- The memory kind of Table MI-1 that a store key belongs to. -/
def kindOfKey (k : Nat) : Nat :=
  let sp := k / 2 ^ 32
  if sp = 0 then (if k < 0x800000 then 0 else if 0x28000000 ≤ k ∧ k < 0x28040000 then 3 else 2)
  else if sp ≤ 3 then 1
  else if sp ≤ 9 then 4
  else if sp = 10 then 5
  else 2

/-- An uncorrectable block was met at key `k` by input `inp` (R436). -/
def State.recordUe (inp k : Nat) (write : Bool) (s : State) : State :=
  let kind := kindOfKey k
  let s := (s.setFld MI_UEADDR.ADDR 0 (k % 2 ^ 32 / 16 * 16)).setFld MI_UEINFO.KIND 0 kind
  let s := (s.setFld MI_UEINFO.INPUT 0 inp).setFld MI_UEINFO.WRITE 0 (bit write)
  let s := (s.countFld MI_UE.UE kind 1).flag MI_STATUS.UE evMI
  onlyIf write (State.flag MI_STATUS.UEW evMI) s

/-- A correctable block was met at key `k` (R434): counted, and written back except in flash. -/
def State.correct (k : Nat) (s : State) : State :=
  let kind := kindOfKey k
  let s := s.countFld (if s.badBits k = 1 then MI_CE.CE1 else MI_CE.CE2) kind 1
  let s := s.flag MI_STATUS.CE evMI
  onlyIf (kind != 0) (State.setBad k 0) s

/-- A read of the block at key `k` by input `inp`: whether data is delivered, and the state after the correction or the
record (R434, R436). -/
def State.readBlock (inp k : Nat) (s : State) : Bool × State :=
  match s.badBits k with
  | 0 => (true, s)
  | 1 => (true, s.correct k)
  | 2 => (true, s.correct k)
  | _ => (false, s.recordUe inp k false)

/-- A write of less than a block at key `k` reads and corrects the block first (R435): whether the write is performed. -/
def State.mergeBlock (inp k : Nat) (s : State) : Bool × State :=
  match s.badBits k with
  | 0 => (true, s)
  | 1 => (true, s.correct k)
  | 2 => (true, s.correct k)
  | _ => (false, s.recordUe inp k true)

/-- The blocks of `n` bytes from key `k` are read by input `inp`: whether every one delivers its data (R434, R436). -/
def readSpan (inp k n : Nat) (s : State) : Bool × State :=
  (List.range ((k % 16 + n + 15) / 16)).foldl (fun r j =>
    let x := r.2.readBlock inp (k / 16 * 16 + 16 * j)
    (r.1 && x.1, x.2)) (true, s)

/-- The bytes of `l`, written from key `k`, that fall into the block at `a`, written by input `inp`: a whole block replaces the block and its
check bits, less is merged into it, and is not performed where the block is uncorrectable (R435, R436). Whether it has been performed. -/
def writePart (inp k : Nat) (l : List Byte) (a : Nat) (s : State) : Bool × State :=
  let lo := max k a
  let part := (l.drop (lo - k)).take (a + 16 - lo)
  if part.length = 16 then (true, (s.wrL lo part).setBad a 0)
  else
    let r := s.mergeBlock inp a
    (r.1, if r.1 then r.2.wrL lo part else r.2)

/-- A write of the bytes `l` from key `k` by input `inp`, block by block (R435): whether every block has been written. -/
def writeSpan (inp k : Nat) (l : List Byte) (s : State) : Bool × State :=
  (List.range ((k % 16 + l.length + 15) / 16)).foldl (fun r j =>
    let x := writePart inp k l (k / 16 * 16 + 16 * j) r.2
    (r.1 && x.1, x.2)) (true, s)

/-- `n` bytes of `v`, lowest first. -/
def bytesOf : Nat → Nat → List Byte
  | 0, _ => []
  | n + 1, v => BitVec.ofNat 8 v :: bytesOf n (v / 256)

/-- A voted write of the `n` low bytes of `v` at key `k` (R435). -/
def votedWr (k n v : Nat) (s : State) : State := (writeSpan 12 k (bytesOf n v) s).2

end Sys2Proof.Machine
end

