-- ==== Sys2Proof/Machine/Access.lean ====
section
/-! DEFINITION. The address map (01 R36 to R46): the ranges, the access each requester has to each (Table AR-6), and the
access codes of register fields (Table SC-5) as one read and one write of a register's fields. -/

namespace Sys2Proof.Machine

/-- The ranges of Tables AR-4 and AR-5. -/
inductive Region where
  | flash
  | hwram
  | shared
  | canopy
  | mirrorSrc
  | bobbin
  | dev
  | diag
  | lram
  | none
  deriving DecidableEq, Repr

/-- The range an address lies in. -/
def regionOf (a : Nat) : Region :=
  if a < 0x800000 then .flash
  else if 0x10000000 ≤ a ∧ a < 0x10100000 then .hwram
  else if 0x20000000 ≤ a ∧ a < 0x20200000 then
    if 0x20100000 ≤ a ∧ a < 0x20180000 then .canopy
    else if 0x201FC000 ≤ a then .mirrorSrc
    else .shared
  else if 0x28000000 ≤ a ∧ a < 0x28040000 then .bobbin
  else if 0x30000000 ≤ a ∧ a < 0x30010000 then .dev
  else if 0x38000000 ≤ a ∧ a < 0x38010000 then .diag
  else if 0x40000000 ≤ a ∧ a < 0x40020000 then .lram
  else .none

/-- What a requester's access meets (Table AR-6, R41, R43): it is made; it faults with a detail of Table KM-13; or, for
a write, it has no effect and is counted as rejected. -/
inductive Perm where
  | ok
  | fault (detail : Nat)
  | ignored
  deriving DecidableEq, Repr

/-- The access of an engine to a range. `heart`, `sap`, `root` in the columns of Table AR-6. -/
def engPerm (e : Eng) (voted : Bool) (a : Nat) (write : Bool) : Perm :=
  match regionOf a, write with
  | .none, _ => .fault 0
  | .flash, false => .ok
  | .flash, true => .fault 3
  | .diag, false => .ok
  | .diag, true => .ignored
  | .dev, _ => .ok
  | .shared, _ => .ok
  | .hwram, _ =>
    match e with
    | .se _ => .fault 1
    | .root => .fault 1
    | _ => .ok
  | .canopy, false => .ok
  | .canopy, true =>
    match e with
    | .se _ => .ignored
    | .root => .ignored
    | _ => .ok
  | .mirrorSrc, false => .ok
  | .mirrorSrc, true =>
    match e with
    | .se _ => .ignored
    | .root => .ignored
    | _ => if voted then .ok else .ignored
  | .bobbin, false => .ok
  | .bobbin, true =>
    match e with
    | .root => .ignored
    | _ => .ok
  | .lram, _ =>
    match e with
    | .se _ => .ok
    | .root => if a < 0x40010000 then .ok else .fault 1
    | _ => .fault 1

/-- The store key of an address an engine uses: its own Heartwood RAM copy or local RAM, or what all share (R29, R37). -/
def engKey (e : Eng) (a : Nat) : Nat :=
  match regionOf a with
  | .hwram => memKey (1 + e.idx) a
  | .lram => memKey (1 + e.idx) a
  | _ => a

/-- The requester an engine is (R32, R422). -/
def State.reqOf (s : State) (e : Eng) : Req :=
  match e with
  | .se k => .se k
  | .root => .root
  | .ha => if s.isSplit then .splitA else .hw
  | _ => if s.isSplit then .splitB else .hw

/-! ### Register fields by access code -/

/-- The instance of a register that a requester reaches: the array index, its own copy, or the unit its own select
register names (R18). -/
def State.instOf (s : State) (q : Req) (r : Reg) (i : Nat) : Nat :=
  match r.bank with
  | .one => i
  | .req => q.bank
  | .sys => s.fld FE_SYSSEL.SYS q.bank
  | .bob => s.fld BB_BOBSEL.BOB q.bank
  | .cv => s.fld CV_CVSEL.UNIT q.bank
  | .port => s.fld CK_PORTSEL.PORT q.bank
  | .pg => s.fld PW_PGSEL.PG q.bank
  | .wc => s.fld PW_WCSEL.WC q.bank

/-- What a field returns when read (Table SC-5): a WO field returns 0. -/
def State.readField (s : State) (f : Field) (i : Nat) : Nat :=
  match f.acc with
  | .wo => 0
  | .wovw => 0
  | _ => s.fld f i

/-- The 32-bit value of a register instance: its fields at their places, reserved bits 0 (R13). -/
def State.readFields (s : State) (fs : List Field) (i : Nat) : Nat :=
  (fs.map (fun f => s.readField f i * 2 ^ f.lo)).foldl (· + ·) 0

/-- A read delivers its value to the requester. -/
def deliver (q : Req) (p : Nat × State) : State := { p.2 with delivered := Tab.set 0 p.2.delivered q.bank p.1 }

/-- The bits of a written value that belong to a field. -/
def Field.of (f : Field) (v : Nat) : Nat := bitsOf v f.lo f.w

/-- The effect of a write on one field under its access code (Table SC-5). WO fields and W1C fields of voted access
are acted on by the register's own rule, not here. -/
def writeField (q : Req) (i v : Nat) (f : Field) (s : State) : State :=
  match f.acc with
  | .ro => s
  | .rw => s.setFld f i (f.of v)
  | .wo => s
  | .w1c => s.setFld f i ((s.fld f i) &&& (2 ^ f.w - 1 - f.of v))
  | .vw => if q.voted then s.setFld f i (f.of v) else s
  | .wovw => s
  | .w1cvw => if q.voted then s.setFld f i ((s.fld f i) &&& (2 ^ f.w - 1 - f.of v)) else s
  | .aw => s

/-- Whether a write from a requester without the voted flag counts as rejected (R15): it would have changed a VW field,
or the register holds a WO, VW field. A W1C, VW field counts when the write would have cleared a bit. -/
def State.countsRejected (s : State) (q : Req) (fs : List Field) (i v : Nat) : Bool :=
  !q.voted && fs.any (fun f =>
    match f.acc with
    | .vw => s.fld f i != f.of v
    | .wovw => true
    | .w1cvw => ((s.fld f i) &&& (f.of v)) != 0
    | _ => false)

/-- A write of a register whose fields take effect by their access codes alone (R14, R15). -/
def writeFields (q : Req) (fs : List Field) (i v : Nat) (s : State) : State :=
  let rej := s.countsRejected q fs i v
  onlyIf rej (State.reject q) (forEach fs (writeField q i v) s)

/-! ### The trace unit (16 R586) -/

/-- A happening of the kind that DB_TRCFG names enters the trace ring (16 R583, R586). What the 16 bytes of an entry hold the
spec does not state: a free value (assumption 74). -/
def traceHap (kind : Nat) (s : State) : State :=
  if s.fld DB_TRCFG.KIND = kind then
    let r := s.fresh
    let i := Tab.get 0 s.logs 3
    { r.2.wr (0x38004000 + i % 1024 * 16) 16 r.1 with logs := Tab.set 0 s.logs 3 (i + 1) }
  else s

end Sys2Proof.Machine
end

