-- ==== Sys2Proof/Machine/Front.lean ====
section
/-! DEFINITION. The operations that the front end and the wheel detection share: sensor systems, heads, slices, blindness,
comparator states, the tally logic, the speed in force and the latches of the bobbin page (02 R53 to R101, 03 R113,
R132 to R156, R612, 04 R186). -/

namespace Sys2Proof.Machine

/-! ### Systems, heads, tables -/

/-- The hidden state of system `i`. -/
def State.sys (s : State) (i : Nat) : SysSt := Tab.get SysSt.reset s.systems i

/-- Change the hidden state of system `i`. -/
def State.modSys (i : Nat) (f : SysSt → SysSt) (s : State) : State :=
  { s with systems := Tab.set SysSt.reset s.systems i (f (s.sys i)) }

/-- The hidden state of head `k`. -/
def State.head (s : State) (k : Nat) : HeadSt := Tab.get HeadSt.reset s.heads k

/-- Change the hidden state of head `k`. -/
def State.modHead (k : Nat) (f : HeadSt → HeadSt) (s : State) : State :=
  { s with heads := Tab.set HeadSt.reset s.heads k (f (s.head k)) }

/-- The pair partner of a system (R53). -/
def partner (i : Nat) : Nat := if i % 2 = 0 then i + 1 else i - 1

/-- The address of the image's table of a kind and index, if the image has it (16 Table RB-6; the meaning of INDEX is
PRESUMED, assumption 45). -/
def State.table (s : State) (kind index : Nat) : Option Nat :=
  (s.tables.find? (fun t => t.kind == kind && t.index == index)).map ImgTable.addr

/-! ### Slices and the mux path (R96 to R101) -/

/-- The state of slice `k` in FE_SLICEST (Table FE-20). -/
def State.slice (s : State) (k : Nat) : Nat := bitsOf (s.fld FE_SLICEST.ST (k / 16)) (2 * (k % 16)) 2

/-- Set the state of slice `k`. -/
def State.setSlice (k v : Nat) (s : State) : State :=
  let r := s.fld FE_SLICEST.ST (k / 16)
  let p := 4 ^ (k % 16)
  s.setFld FE_SLICEST.ST (k / 16) (r - bitsOf r (2 * (k % 16)) 2 * p + v % 4 * p)

/-- A mux position serves no system, and no running kind 4 diagnostic converts through it (Table FE-8). That a running kind 4 occupies
its position follows from R92's rejection; a request that waits holds none (DESIGN CHOICE, assumption 24). -/
def State.muxFree (s : State) (sp p : Nat) : Bool :=
  !(List.range 64).any (fun i =>
    (s.sys i).mux == some (sp, p) || (match (s.sys i).diag with | some d => d.pos == some (sp, p) | none => false))

/-- The lowest free mux position of the lowest-numbered spare in service (R98): code 0b00 of Table FE-20. -/
def State.freeMux (s : State) : Option (Nat × Nat) :=
  (((List.range 8).filter (fun j => s.slice (64 + j) = 0)).flatMap (fun j => (List.range 4).map (fun p => (64 + j, p)))).find?
    (fun x => s.muxFree x.1 x.2)

/-- Period in grid instants and phase of a system's words (R55, R67, R99). -/
def State.rate (s : State) (i : Nat) : Nat × Nat :=
  let x := s.sys i
  let carrier := x.exc.mode == 2
  if x.unconv then (if carrier then 1 else 16, 0)
  else match x.mux with
    | some (_, p) => (if carrier then 4 else 16, p)
    | none => (if carrier then 1 else 16, 0)

/-- System `i` delivers a word at grid instant `n` of the cycle. -/
def State.isWord (s : State) (i n : Nat) : Bool := n % (s.rate i).1 == (s.rate i).2

/-- The group delay from the field pins to the word's instant in 1/8 TU (R56, Table FE-2). The table has no row for a system that is off or
unconverted: an off system takes that of DC mode, an unconverted one that of its own slice (DESIGN CHOICE, assumption 172). -/
def State.delay8 (s : State) (i : Nat) : Nat :=
  let x := s.sys i
  if x.exc.mode = 2 then (if x.mux.isSome then 62500 else 46875) else 750000

/-- The burn-out current in µA that flows in system `i` (R89, R91): 10 µA in a running kind 3 diagnostic (Table FE-8); else the current of
FE_ROUTE1.BURN in carrier mode with BURNCONT set; in DC mode none. That none flows in carrier mode with BURNCONT clear, or
with MODE off, is DEDUCED (assumption 132). -/
def State.burnCurrent (s : State) (i : Nat) : Nat :=
  let x := s.sys i
  let kind3 := match x.diag with | some d => d.running && d.kind == 3 | none => false
  if kind3 then 10
  else if x.exc.mode = 2 && s.isSet FE_ROUTE1.BURNCONT i then
    (match s.fld FE_ROUTE1.BURN i with | 1 => 1 | 2 => 10 | _ => 0)
  else 0

/-- The settling delay in force (R85, Table FE-7). The table gives no minimum for an unconverted system nor for one that is off on the
mux path: the model takes 2 words, 12 for an unconverted system in DC mode (DESIGN CHOICE, assumption 133). -/
def State.settleEff (s : State) (i : Nat) : Nat :=
  let x := s.sys i
  let low := if x.exc.mode = 1 then 12 else if x.mux.isSome || x.unconv then 2 else 4
  max (s.fld FE_SETTLE.SETTLE i) low

/-- The FE_EXC fields of system `i` read the excitation `e` (Table FE-28). -/
def showExc (i : Nat) (e : Exc) (s : State) : State :=
  ((s.setFld FE_EXC.MODE i e.mode).setFld FE_EXC.IPK i e.ipk).setFld FE_EXC.FREQ i e.freq

/-! ### Blindness (R84, Table FE-6) -/

/-- A re-routing diagnostic of the system runs (Table FE-8: every kind but 4). -/
def SysSt.rerouted (x : SysSt) : Bool :=
  match x.diag with
  | some d => d.running && d.kind != 4
  | none => false

/-- System `i` is blind. -/
def State.blind (s : State) (i : Nat) : Bool :=
  let x := s.sys i
  !s.isSet FE_CTRL.RUN || x.exc.mode == 0 || x.unconv || x.isOpen || x.compl || x.holdLow || x.rerouted || x.settle != 0

/-- The settling delay of system `i` starts between grid instants, or before the words of the coming one are counted. -/
def startSettle (i : Nat) (s : State) : State :=
  let k := s.settleEff i
  s.modSys i (fun x => { x with settle := max x.settle (k + 1) })

/-- The settling delay of system `i` starts at grid instant `n`, after its words have been counted. A delay that still runs when the rate
or the path changes keeps the larger of the words left and the new delay, counted at the new rate (DESIGN CHOICE, assumption
133). -/
def startSettleAt (i n : Nat) (s : State) : State :=
  let k := s.settleEff i
  let m := if s.isWord i n then k else k + 1
  s.modSys i (fun x => { x with settle := max x.settle m })

/-- Add one to a deferral count of FE_DEFER. -/
def defer (f : Field) (i : Nat) (s : State) : State := s.countFld f i 1

/-! ### Bobbin-page latches (04 R186) -/

/-- Set bit `k` of a latch of the bobbin page. -/
def setLatch (f : Field) (k : Nat) (s : State) : State :=
  if s.fbit f k then s else (s.putFbit f 0 k true).flag BB_STATUS.LATCH evBB

/-! ### Comparators (03 R142 to R149) -/

/-- The state of the comparator of system `i` (Table WD-10). -/
def State.cmp (s : State) (i : Nat) : Nat := s.fld WD_CMPST.STATE i

/-- A test injection of the system or its tail is in progress (R151). -/
def SysSt.inTest (x : SysSt) : Bool :=
  match x.inj with
  | some j => decide (0 < j.left + j.tail)
  | none => false

/-- The engines placed on head `k` (08 R308): primary, then shadow. An engine that a block reset has taken off the head is not, until it
is placed again (16 Table RB-3). -/
def State.placed (s : State) (k : Nat) : List Nat :=
  let l := [s.fld GR_HPLACE.PRIM k, s.fld GR_HPLACE.SHAD k].filter (fun p => decide (p < 6) && !(s.head k).gone.contains p)
  if s.fld GR_HPLACE.PRIM k = s.fld GR_HPLACE.SHAD k then l.take 1 else l

/-- The edge FIFO of engine `i` (3 to 8). -/
def State.edgeFifo (s : State) (i : Nat) : List Nat := Tab.get [] s.edges i

/-- Set the edge FIFO of engine `i`. -/
def State.setEdgeFifo (i : Nat) (l : List Nat) (s : State) : State := { s with edges := Tab.set [] s.edges i l }

/-- An edge record to one engine: the newest is dropped when the FIFO is full (R113). -/
def pushEdge (i r : Nat) (s : State) : State :=
  if 32 ≤ (s.edgeFifo i).length then s.flag WD_STATUS.EDGEOVF evWD else s.setEdgeFifo i (s.edgeFifo i ++ [r])

/-- The edge record of Table WD-1. -/
def edgeRecord (time sys st : Nat) (test : Bool) : Nat :=
  time % 2 ^ 32 + sys * 2 ^ 32 + st * 2 ^ 38 + bit test * 2 ^ 41

/-! ### The tally (03 R150 to R156, R612) -/

/-- The fixed transition logic of the tally (03 R150: the entries c0, c1, c3 and c4 of Table WD-7): next phase and
direction emitted (1 F, 2 R, 3 U, 0 none), from the phase and the levels of the two comparators. -/
def tallyNext (phase : Nat) (a b : Bool) : Nat × Nat :=
  match phase, a, b with
  | 0, false, false => (0, 0) | 0, true, false => (1, 0) | 0, false, true => (4, 0) | 0, true, true => (7, 0)
  | 1, false, false => (0, 0) | 1, true, false => (1, 0) | 1, false, true => (7, 0) | 1, true, true => (2, 0)
  | 2, false, false => (0, 3) | 2, true, false => (1, 0) | 2, false, true => (3, 0) | 2, true, true => (2, 0)
  | 3, false, false => (0, 1) | 3, true, false => (7, 0) | 3, false, true => (3, 0) | 3, true, true => (2, 0)
  | 4, false, false => (0, 0) | 4, true, false => (7, 0) | 4, false, true => (4, 0) | 4, true, true => (5, 0)
  | 5, false, false => (0, 3) | 5, true, false => (6, 0) | 5, false, true => (4, 0) | 5, true, true => (5, 0)
  | 6, false, false => (0, 2) | 6, true, false => (6, 0) | 6, false, true => (7, 0) | 6, true, true => (5, 0)
  | _, false, false => (0, 3) | _, _, _ => (7, 0)

/-- A final claim result of head `k` (R152): WD_HCLM, and the count of NOMATCH and CONFLICT. -/
def finalClaim (k code dir dur : Nat) (s : State) : State :=
  let s := (s.setFld WD_HCLM.CODE k code).setFld WD_HCLM.RDIR k dir
  let s := s.setFld WD_HCLM.DUR k (min 0xFFFFFF (dur / 1250))
  onlyIf (code == 2 || code == 3) (State.countFld WD_XCOUNT.FAILS 0 1) s

/-- The result of a claim with direction `dir` on a record (Table WD-11). -/
def claimCode (dir : Nat) (r : Crossing) : Nat :=
  if r.part || r.dir == 3 || dir == 3 then 1 else if r.dir = dir then 0 else 3

/-- A record lies within TOLMIN + D / 4 of the claimed time (R152), by signed comparison of the low 32 bits. -/
def State.inTolerance (s : State) (time : Nat) (r : Crossing) : Bool :=
  decide ((sgn 32 (time + 2 ^ 32 - r.time % 2 ^ 32)).natAbs * 4 ≤ s.fld WD_CTRL.TOLMIN * 5000 + r.dur)

/-- A pending claim ends (R153): its result in WD_HCLM, CLAIMDONE, HELD clear. -/
def resolveClaim (k code dir dur : Nat) (s : State) : State :=
  let s := s.modHead k (fun h => { h with claim := none, result := some code })
  ((finalClaim k code dir dur s).setFld WD_HCLM.HELD k 0).flag WD_STATUS.CLAIMDONE evWD

/-- A record becomes an orphan (R154). -/
def orphan (k : Nat) (r : Crossing) (s : State) : State :=
  let s := s.countFld WD_XCOUNT.ORPHANS 0 1
  let s := (s.setFld WD_HCLM.CODE k 2).setFld WD_HCLM.RDIR k r.dir
  let s := s.setFld WD_HCLM.DUR k (min 0xFFFFFF (r.dur / 1250))
  setLatch BB_ORPHLAT.LAT k (s.flag WD_STATUS.ORPHAN evWD)

/-- Count a record in WD_HST (Table WD-25). -/
def countCrossing (k dir : Nat) (s : State) : State :=
  if dir = 1 then s.setFld WD_HST.FWD k (s.fld WD_HST.FWD k + 1)
  else if dir = 2 then s.setFld WD_HST.REV k (s.fld WD_HST.REV k + 1)
  else s

/-- A crossing completes (R150, R153): a pending claim is resolved on the record by the rules of R152; an unclaimed record
joins the queue of eight, which drops its oldest as an orphan when it is full. -/
def addCrossing (k : Nat) (r : Crossing) (s : State) : State :=
  let s := countCrossing k r.dir s
  let enqueue (t : State) : State :=
    let q := (t.head k).queue
    match q with
    | o :: rest =>
      if 8 ≤ q.length then orphan k o (t.modHead k (fun h => { h with queue := rest ++ [r] }))
      else t.modHead k (fun h => { h with queue := q ++ [r] })
    | [] => t.modHead k (fun h => { h with queue := [r] })
  match (s.head k).claim with
  | none => enqueue s
  | some c =>
    if s.inTolerance c.time r then resolveClaim k (claimCode c.dir r) r.dir r.dur s
    else enqueue (resolveClaim k 2 0 0 s)

/-- The tally logic of head `k` follows the levels of its comparators (R150, R612). -/
def tallyStep (k : Nat) (s : State) : State :=
  let h := s.head k
  if !h.armed then s
  else
    let a := (s.sys (2 * k)).level
    let b := (s.sys (2 * k + 1)).level
    let p := tallyNext h.phase a b
    let dim := s.cmp (2 * k) == 3 || s.cmp (2 * k + 1) == 3
    let now := s.nowTu
    let starts := h.phase == 0 && p.1 != 0
    let first := if starts then now else h.first
    let dark := if starts then dim else h.masked || dim
    let s := s.modHead k (fun x => { x with phase := p.1, first := first, masked := dark })
    if h.phase ≠ 0 && p.1 = 0 then
      if p.2 = 0 then
        match (s.head k).claim with
        | some _ => resolveClaim k 2 0 0 s
        | none => s
      else
        let x := s.head k
        let last := max x.absA x.absB
        -- The mean of R150 is rounded down to 1 TU (DESIGN CHOICE, assumption 134).
        addCrossing k { dir := if dark then 3 else p.2, time := (x.presA + x.absA + x.presB + x.absB) / 4,
                        dur := last - first, part := dark, last := s.tb } s
    else s

/-- The level of system `i` in the tally becomes `p` (Table WD-10): the edge is captured and the logic follows. -/
def setLevel (i : Nat) (p : Bool) (s : State) : State :=
  if (s.sys i).level = p then s
  else
    let k := i / 2
    let now := s.nowTu
    let s := s.modSys i (fun x => { x with level := p })
    let s := s.modHead k (fun h =>
      if i % 2 = 0 then (if p then { h with presA := now } else { h with absA := now })
      else (if p then { h with presB := now } else { h with absB := now }))
    tallyStep k s

/-- The comparator of system `i` takes state `st` (R142, R149): the capture, an edge record to each engine placed on the head
(R113), and the tally. A change in an injection or its tail is kept for the proof and the tally ignores it (R151, R157); that the comparator
is masked counts for a crossing in progress in any case (R150). -/
def setCmp (i st : Nat) (s : State) : State :=
  if s.cmp i = st then s
  else
    let test := (s.sys i).inTest
    let s := (s.setFld WD_CMPST.STATE i st).setFld WD_EDGET.TIME i s.nowLow
    let s := forEach (s.placed (i / 2)) (fun p => pushEdge (3 + p) (edgeRecord s.nowTu i st test)) s
    let s := onlyIf (st == 3) (State.modHead (i / 2) (fun h => { h with masked := h.masked || h.phase != 0 })) s
    if test then
      s.modSys i (fun x => { x with inj := x.inj.map (fun j => { j with edges := j.edges ++ [(s.nowTu, st)] }) })
    else if st = 3 then s
    else setLevel i (st != 0) s

/-- The comparator of system `i` is masked (R146). -/
def SysSt.maskDue (x : SysSt) : Bool := x.rerouted || x.maskSettle || x.holdLow

/-- The comparator of system `i` follows the run bit, the mode and the masking causes (Table WD-10, R144, R146): leaving the
not-running or the masked state starts an acquisition. What WD_CMPST.BASE reads after a baseline is given up is not stated: it keeps
the old value, with ACQ 0 (DESIGN CHOICE, assumption 135). -/
def refreshCmp (i : Nat) (s : State) : State :=
  let x := s.sys i
  let off (t : State) : State := (t.setFld WD_CMPST.ACQ i 0).modSys i (fun y => { y with acqAt := none, retryAt := none })
  if !s.isSet FE_CTRL.RUN || x.exc.mode == 0 then off (setCmp i 4 s)
  else if x.maskDue then (if s.cmp i = 3 then s else off (setCmp i 3 s))
  else if s.cmp i = 3 || s.cmp i = 4 then
    (off (setCmp i 2 s)).modSys i (fun y => { y with acqAt := some s.tb })
  else s

/-- After an injection and its tail the tally takes the level of the comparator's state again (R151, Table WD-10). The spec does not say
with which capture time: the model takes the moment at which the tail ends (DESIGN CHOICE, assumption 164). -/
def retakeLevel (i : Nat) (s : State) : State := if s.cmp i = 3 then s else setLevel i (s.cmp i != 0) s

/-- A baseline lies within BASEREF ± BASETOL (R144). -/
def State.baseOk (s : State) (i base : Nat) : Bool :=
  let r := s.fld WD_BASE.BASEREF i
  let d := if base < r then r - base else base - r
  decide (d * 200 ≤ r * s.fld WD_BASE.BASETOL i)

/-! ### The wheel window (R79) and a head's speed in force (03 R132 to R134) -/

/-- The passage flag of head `k` (R127). -/
def State.passage (s : State) (k : Nat) : Bool := s.fbit WD_PASS.PASS k

/-- The wheel window of head `k` as step 3 of Table FE-11 evaluated it at the last grid instant: what the later steps go by. -/
def State.window (s : State) (k : Nat) : Bool := s.fbit FE_WINDOW.WIN k

/-- A comparator of head `k` is present or indeterminate, or its passage flag is set: the conditions that R79 names. -/
def State.sighted (s : State) (k : Nat) : Bool :=
  [2 * k, 2 * k + 1].any (fun i => s.cmp i == 1 || s.cmp i == 2) || s.passage k

/-- A condition that opens the window of head `k` holds (R79, and Table WD-10: a comparator that is not running). -/
def State.opens (s : State) (k : Nat) : Bool :=
  s.sighted k || [2 * k, 2 * k + 1].any (fun i => s.cmp i == 4)

/-- The wheel window of head `k` is open (R79): it was at the last grid instant, or a condition holds that opens it. -/
def State.isOpen (s : State) (k : Nat) : Bool := s.window k || s.opens k

/-- The limit of a system's path (Table WD-8, R133). -/
def State.pathLimit (s : State) (i : Nat) : Nat :=
  let x := s.sys i
  if x.unconv || x.exc.mode == 0 then 0
  else if x.exc.mode = 1 then 1200
  else if x.mux.isSome then 5556 else 13889

/-- The maximum speed in force of head `k` (R133). -/
def State.vmax (s : State) (k : Nat) : Nat :=
  if !s.isSet WD_HCFG.HEN k then 0
  else
    let t := match s.table 1 k with
      | some a => s.rd (a + 0x10) 2
      | none => 0
    min (min (s.pathLimit (2 * k)) (s.pathLimit (2 * k + 1))) t

/-- The tally of head `k` starts anew, unarmed (R161, R612): phase 0, the queue empty, the records no orphans. -/
def resetTally (k : Nat) (s : State) : State :=
  s.modHead k (fun h => { h with armed := false, phase := 0, first := 0, presA := 0, absA := 0, presB := 0, absB := 0,
                                 masked := false, queue := [] })

/-- What the detection program on engine `e` (0 to 5) holds of head `k`. -/
def State.det (s : State) (e k : Nat) : DetSt := Tab.get DetSt.reset s.dets (e * 32 + k)

/-- Change it. -/
def State.setDet (e k : Nat) (d : DetSt) (s : State) : State := { s with dets := Tab.set DetSt.reset s.dets (e * 32 + k) d }

/-- The program on engine `e` starts anew on head `k`, in phase 0 with the baselines at BASEREF (R119, R161). -/
def dropDet (e k : Nat) (s : State) : State := s.setDet e k DetSt.reset

/-- A head is reset as by a change of HEN (R161, R316): phase 0, the passage flag clear, the tally queue empty, not clean, and
a pending claim resolved with `code`. R148 names reset and a change of HEN; that a forced move makes a head unclean too is the model's
choice (DESIGN CHOICE, assumption 165). -/
def resetHead (k code : Nat) (s : State) : State :=
  let s := resetTally k ((s.putFbit WD_PASS.PASS 0 k false).putFbit WD_CLEAN.CLEAN 0 k false)
  let s := forEach (List.range 6) (fun e => dropDet e k) s
  match (s.head k).claim with
  | some _ => resolveClaim k code 0 0 s
  | none => s

/-! ### Stream latches (03 R112) -/

/-- Engine `i` (3 to 8) holds a latch for system `y`: it is placed on the system's head. -/
def State.hasLatch (s : State) (i y : Nat) : Bool := (s.placed (y / 2)).any (fun p => p + 3 == i)

/-- The word in the latch, if it has not been taken. -/
def State.latchOf (s : State) (i y : Nat) : Option (Nat × Nat) := Tab.get none s.latches (i * 64 + y)

/-- Put a word in a latch. -/
def State.setLatchWord (i y : Nat) (v : Option (Nat × Nat)) (s : State) : State :=
  { s with latches := Tab.set none s.latches (i * 64 + y) v }

/-- Take the word of a latch. -/
def State.clearLatch (i y : Nat) (s : State) : State := s.setLatchWord i y none

end Sys2Proof.Machine
end

