-- ==== Sys2Proof/Machine/HostQueue.lean ====
section
/-! DEFINITION. The event queues, dirty bitmaps and error responses of the host ports (12 R467, R482 to R486). -/

namespace Sys2Proof.Machine

/-- The hidden state of port `p`. -/
def State.port (s : State) (p : Nat) : Port := Tab.get Port.reset s.ports p

/-- Change the hidden state of port `p`. -/
def State.modPort (p : Nat) (f : Port → Port) (s : State) : State :=
  { s with ports := Tab.set Port.reset s.ports p (f (s.port p)) }

/-- The event entry of Table HP-7. -/
def State.entry (s : State) (kind sub index val data : Nat) : Nat :=
  kind + sub * 2 ^ 4 + index * 2 ^ 8 + val % 16 * 2 ^ 20 + data % 65536 * 2 ^ 32 + s.fld CK_NODEST.CYC * 2 ^ 48

/-- Set dirty bit `d` of port `p` (R485: bobbins 0 to 255, then points). -/
def setDirty (p d : Nat) (s : State) : State := s.putFbit HP_DIRTY.D (p * 72 + d / 32) (d % 32) true

/-- A port enters bitmap mode (R484). -/
def enterBitmap (p : Nat) (s : State) : State :=
  if s.fld HP_PSTATUS.MODE p = 1 then s
  else ((s.setFld HP_PSTATUS.MODE p 1).setFld HP_PSTATUS.BITMAP p 1).flag HP_STATUS.BITMAP evHP

/-- Put an entry in the queue of port `p`. -/
def enqueue (p e : Nat) (s : State) : State := s.modPort p (fun x => { x with queue := x.queue ++ [e] })

/-- A SECTION or POINT entry (R484): queued in queue mode below 56 entries, else its dirty bit `d`. -/
def pushChange (e d p : Nat) (s : State) : State :=
  if s.fld HP_PSTATUS.MODE p = 0 && decide ((s.port p).queue.length < 56) then enqueue p e s
  else enterBitmap p (setDirty p d s)

/-- A COMMAND entry (R484, R486). -/
def pushCommand (e bob p : Nat) (s : State) : State :=
  let s := s.setFld HP_PSTATUS.CMD p 1
  if (s.port p).queue.length < 64 then enqueue p e s
  else (setDirty p bob s).setFld HP_POV.CMDLOST p 1

/-- A DEVICE entry (R484). HP_POV.DEV holds bits 7 to 1, cause 1 at its bit 0. -/
def pushDevice (e cause p : Nat) (s : State) : State :=
  if (s.port p).queue.length < 64 then enqueue p e s else s.putFbit HP_POV.DEV p (cause - 1) true

/-- Every port receives a SECTION entry. -/
def hostSection (b report count : Nat) (s : State) : State :=
  forEach [0, 1, 2] (fun p t => pushChange (t.entry 1 0 b report count) b p t) s

/-- Every port receives a POINT entry. -/
def hostPoint (pt : Nat) (s : State) : State :=
  forEach [0, 1, 2] (fun p t => pushChange (t.entry 2 0 pt 0 0) (256 + pt) p t) s

/-- Every port receives a COMMAND entry: `sub` 0 for BB_CMDRES, 1 for GR_CMDRES. -/
def hostCommand (sub bob result tag : Nat) (s : State) : State :=
  forEach [0, 1, 2] (fun p t => pushCommand (t.entry 3 sub bob result tag) bob p t) s

/-- Every port receives a DEVICE entry of a cause of Table HP-8, with the head of cause 1. -/
def hostDevice (cause head : Nat) (s : State) : State :=
  forEach [0, 1, 2] (fun p t => pushDevice (t.entry 4 0 (cause + head * 64) 0 0) cause p t) s

/-- A port returns to queue mode once its queue, its bitmap and HP_POV are empty (R485). -/
def modeReturn (p : Nat) (s : State) : State :=
  if s.fld HP_PSTATUS.MODE p = 1 && (s.port p).queue.isEmpty && s.fld HP_POV.DEV p == 0 && s.fld HP_POV.CMDLOST p == 0
      && (List.range 72).all (fun w => s.fld HP_DIRTY.D (p * 72 + w) == 0) then
    s.setFld HP_PSTATUS.MODE p 0
  else s

/-- HxIRQ_N is low (R486, R469). -/
def State.irqLow (s : State) (p : Nat) : Bool :=
  s.isSafe || (s.isSet HP_PCTRL.EN p &&
    ((!(s.port p).queue.isEmpty && s.isSet HP_PCTRL.IQNE p) || (s.isSet HP_PSTATUS.BITMAP p && s.isSet HP_PCTRL.IBITMAP p)
      || (s.isSet HP_PSTATUS.CMD p && s.isSet HP_PCTRL.ICMD p) || (s.isSet HP_PSTATUS.ERR p && s.isSet HP_PCTRL.IERR p)
      || (s.isSet HP_PSTATUS.AGRFAIL p && s.isSet HP_PCTRL.IAGR p)))

/-- The error response of port `p` (R467): a read returns all ones, a write has no effect; the access is over. -/
def errorResponse (p : Fin 3) (cause addr : Nat) (write : Bool) (s : State) : State :=
  let i := p.val
  let s := (s.setFld HP_PERR.ADDR i addr).setFld HP_PERR.CAUSE i cause
  let s := (s.setFld HP_PERR.WRITE i (bit write)).setFld HP_PSTATUS.ERR i 1
  let s := (s.modPort i (fun x => { x with acc := none })).flag HP_STATUS.ERRRESP evHP
  if write then s else deliver (.host p) (0xFFFFFFFF, s)

/-- The access of port `p` that waits, if any, ends with the error response. -/
def failAccess (p : Fin 3) (cause : Nat) (s : State) : State :=
  match (s.port p.val).acc with
  | some a => errorResponse p cause a.addr a.write s
  | none => s

end Sys2Proof.Machine
end

