-- ==== Sys2Proof/Machine/Interconnect.lean ====
section
/-! DEFINITION. The memories' scrubbers and the arbiter (11 R432 to R451, Tables MI-1 to MI-12), but for the
requester's side of a watchdog bite, which `Machine/Recovery.lean` holds. -/

namespace Sys2Proof.Machine

/-- Change the arbiter. -/
def State.modArb (f : Arbiter → Arbiter) (s : State) : State := { s with arb := f s.arb }

/-! ### Scrubbing (R434, R437) -/

/-- Record wrong bits that have come about in blocks of memory, beside those they carry: what only the memory cells decide. An uncorrectable
block stays so (R436). -/
def upset (found : List (Nat × Nat)) (s : State) : State :=
  forEach found (fun p t => t.setBad p.1 (min (t.badBits p.1 + p.2) 3)) s

/-- The pass over memory kind `kind` ends, `period` TU after the last one (R437, 10 R398). -/
def passEnd (kind period : Nat) (s : State) : State :=
  let s := s.advanceTo (Tab.get 0 s.passes kind + period)
  { s with passes := Tab.set 0 s.passes kind s.tb }

/-- A scrubber or check pass reads one block (R434, R436, R437). -/
def scrubBlock (k : Nat) (s : State) : State :=
  match s.badBits k with
  | 0 => s
  | 1 => s.correct k
  | 2 => s.correct k
  | _ => s.recordUe 0xF k false

/-- A pass over a memory kind: every block that carries wrong bits is met, and PASSN counts the pass (R437). -/
def scrubPass (kind : Nat) (s : State) : State :=
  let blocks := (s.errs.map (fun p => p.1 * 16)).filter (fun k => kindOfKey k == kind)
  (forEach blocks scrubBlock s).countFld MI_UE.PASSN kind 1

/-- MEMORY_SCRUB (R437): the pass over memory kind `kind` (0, 2 to 5) ends, SCRUBP seconds after the last, and has met the wrong bits `found` besides those marked.
Kind 1 has its own scrubber (R398). -/
def execMemoryScrub (kind : Fin 6) (found : List (Nat × Nat)) (s : State) : Host.Outcome State Fault Refusal :=
  if kind.val = 1 then .next s
  else
    let s := passEnd kind.val (s.fld MI_CTRL.SCRUBP * 125000000) s
    .next (scrubPass kind.val (upset (found.filter (fun p => kindOfKey p.1 == kind.val)) s))

/-! ### The arbiter (R439 to R446) -/

/-- An input the arbiter may choose at a decision: not masked (R449), not held back by a quiesce (R447). -/
def State.mayChoose (s : State) (i : Nat) : Bool :=
  !s.fbit MI_MASK.MASK i && !(s.quiesced && decide (i < 12))

/-- The requesters that share an input and take turns at burst boundaries, in the order of their turns: on input 0 (01 R45), and on input 12
in split mode (10 R422). The order, and who is first, is the model's (DESIGN CHOICE, assumption 162). -/
def sharedInput : List Req := [.dbg, .trace, .commit]
def sharedHeart : List Req := [.splitA, .splitB]

/-- How far requester `q` of a list stands behind the one served last, in the order of turns. -/
def turn (l : List Req) (last q : Req) : Nat :=
  (l.findIdx (· == q) + l.length - 1 - l.findIdx (· == last) % l.length) % l.length

/-- Request `w` has its turn before `x` on a shared input. -/
def Arbiter.turnBefore (a : Arbiter) (w x : Waiting) : Bool :=
  (sharedInput.contains x.who && sharedInput.contains w.who && decide (turn sharedInput a.last w.who < turn sharedInput a.last x.who))
    || (sharedHeart.contains x.who && sharedHeart.contains w.who
      && decide (turn sharedHeart a.lastCore w.who < turn sharedHeart a.lastCore x.who))

/-- The request that wins a decision: the highest input, the earliest of one input (R440); of the requesters that share an input, the
one whose turn it is (01 R45, 10 R422). -/
def arbBest (a : Arbiter) (l : List Waiting) : Option Waiting :=
  l.foldl (fun b w =>
    match b with
    | none => some w
    | some x => if x.input < w.input || (x.input == w.input && a.turnBefore w x) then some w else some x) none

/-- A request not granted at the first burst start after it arrived counts as having waited (R445). -/
def countWait (w : Waiting) (s : State) : State :=
  if w.counted then s else s.countFld MI_IWAIT.WAITS w.input 1

/-- The blocks of one burst: at most eight, and one of the device registers or the diagnostics range (R442). -/
def Waiting.burst (w : Waiting) : Nat :=
  match w.target with
  | .dev => min 1 w.blocks
  | .diag => min 1 w.blocks
  | _ => min 8 w.blocks

/-- What is left of a train after its burst: the voter presents the next burst before the decision that this burst's start triggers
(R444). -/
def Waiting.rest (now : Nat) (w : Waiting) : List Waiting :=
  if w.who.trains && decide (w.burst < w.blocks) then [{ w with since := now, blocks := w.blocks - w.burst, counted := true }] else []

/-- The grant of a request: the burst starts, and R445 counts the grant and the longest wait. -/
def grantBurst (w : Waiting) (s : State) : State :=
  let s := s.countFld MI_IGRANT.GRANTS w.input 1
  let s := noteWait w.input (s.tb - w.since) s
  traceHap 3 (s.modArb (fun a =>
    { a with waiting := a.waiting ++ w.rest s.tb, running := some ({ w with blocks := w.burst }, s.tb),
             last := if sharedInput.contains w.who then w.who else a.last,
             lastCore := if sharedHeart.contains w.who then w.who else a.lastCore }))

/-- The decision for the next round at a burst start, among the requests present (R441). -/
def decideNext (s : State) : State :=
  let w := s.arb.waiting
  let pick := arbBest s.arb (w.filter (fun x => s.mayChoose x.input))
  let s := forEach w countWait s
  let w := w.map (fun x => { x with counted := true })
  match pick with
  | none => s.modArb (fun a => { a with waiting := w, chosen := none })
  | some p =>
    s.modArb (fun a => { a with waiting := w.erase { p with counted := true },
                                chosen := some { p with counted := true } })

/-- The waiting requests that a quiesce holds back are counted as waits (R445). -/
def countHeld (s : State) : State :=
  if !s.quiesced then s
  else
    let s := forEach (s.arb.waiting.filter (fun w => decide (w.input < 12))) countWait s
    s.modArb (fun a => { a with waiting := a.waiting.map (fun w => if w.input < 12 then { w with counted := true } else w) })

/-- A request as it waits. -/
def State.waitingOf (s : State) (r : ArbReq) : Waiting :=
  { input := s.input r.who, who := r.who, since := s.tb - r.age, target := r.target, blocks := r.blocks, counted := false }

/-- The requests that have arrived join those present. -/
def arbArrive (new : List ArbReq) (s : State) : State :=
  countHeld (s.modArb (fun a => { a with waiting := a.waiting ++ new.map s.waitingOf }))

/-- The requests among which an idle arbiter grants (R441): those that it has held back and may choose again, which it sees together; else
the first to arrive, with those that arrived in the same TU. -/
def State.firstCome (s : State) (old : Nat) : List Waiting :=
  let l := (s.arb.waiting.take old).filter (fun x => s.mayChoose x.input)
  let new := (s.arb.waiting.drop old).filter (fun x => s.mayChoose x.input)
  if l.isEmpty then new.filter (fun x => new.all (fun y => decide (x.since ≤ y.since))) else l

/-- A request chosen for the next round is chosen no longer, where it comes by input `i`: it waits again (R449). -/
def unchoose (i : Nat) (s : State) : State :=
  s.modArb (fun a => { a with waiting := (a.chosen.filter (fun x => x.input == i)).toList ++ a.waiting,
                              chosen := a.chosen.filter (fun x => x.input != i) })

/-- BURST_GRANT (R441): requests arrive; when no burst runs, the chosen request, or with none chosen the first to
arrive, is granted, and the decision for the next round is taken. -/
def execBurstGrant (new : List ArbReq) (s : State) : Host.Outcome State Fault Refusal :=
  let old := s.arb.waiting.length
  let s := arbArrive new s
  match s.arb.running with
  | some _ => .next s
  | none =>
    match s.arb.chosen with
    | some w => .next (decideNext (grantBurst w (s.modArb (fun a => { a with chosen := none }))))
    | none =>
      match arbBest s.arb (s.firstCome old) with
      | none => .next s
      | some w => .next (decideNext (grantBurst w (s.modArb (fun a => { a with waiting := a.waiting.erase w }))))

/-- QUIESCED reads 1 once no burst of inputs 0 to 11 runs or is still to run (R447). -/
def quiesceSettle (s : State) : State :=
  let busy := match s.arb.running with
    | some (w, _) => decide (w.input < 12)
    | none => false
  let next := match s.arb.chosen with
    | some w => decide (w.input < 12)
    | none => false
  if s.quiesced && !busy && !next then s.setFld MI_STATUS.QUIESCED 0 1 else s

/-- BURST_END (R442): the burst completes and its grant is removed. -/
def execBurstEnd (s : State) : Host.Outcome State Fault Refusal :=
  match s.arb.running with
  | none => .next s
  | some _ => .next (quiesceSettle (s.modArb (fun a => { a with running := none })))

/-! ### Quiesce and the map (R447, R448) -/

/-- A write of MI_QUIESCE with REQ `r` (R447). -/
def miQuiesce (q : Req) (r : Bool) (s : State) : State :=
  if !q.voted then writeFields q MI_QUIESCE.fields 0 (bit r) s
  else if r then
    if s.quiesced then s
    else quiesceSettle (countHeld ((s.setFld MI_QUIESCE.REQ 0 1).modArb (fun a => { a with quiesceAt := s.tb })))
  else (s.setFld MI_QUIESCE.REQ 0 0).setFld MI_STATUS.QUIESCED 0 0

/-- QUIESCE (R447): a write of 1 to MI_QUIESCE.REQ. -/
def execQuiesce (q : Req) (s : State) : Host.Outcome State Fault Refusal :=
  asReq q s <| .next (miQuiesce q true s)

/-- The counters of R445 return to 0. -/
def clearCounters (s : State) : State :=
  forEach (List.range 13) (fun i t =>
    ((t.setFld MI_IGRANT.GRANTS i 0).setFld MI_IWAIT.WAITS i 0).setFld MI_ILONG.LONG i 0) s

/-- The twelve inputs of a pair of map values. -/
def mapInputs (m0 m1 : Nat) : List Nat :=
  (List.range 8).map (fun i => m0 / 16 ^ i % 16) ++ (List.range 4).map (fun i => m1 / 16 ^ i % 16)

/-- BB_LOCKOWN shows the holder of every lock by its input, under the map in force (04 Table BB-30). -/
def showHolders (s : State) : State :=
  forEach s.locks (fun p t => match p.2 with
    | some l => t.setFld BB_LOCKOWN.OWNER p.1 (t.input l.who)
    | none => t) s

/-- The requests present come by the inputs of the map in force (R440). -/
def remapWaiting (s : State) : State :=
  s.modArb (fun a => { a with waiting := a.waiting.map (fun w => { w with input := s.input w.who }) })

/-- A map gives each of the twelve requesters a distinct input from 0 to 11 (R448). -/
def mapOk (m0 m1 : Nat) : Bool :=
  (mapInputs m0 m1).all (fun i => decide (i < 12)) && decide (mapInputs m0 m1).Nodup

/-- A write of MI_MAP0 (`hi` false) or MI_MAP1 (R448). -/
def miMap (q : Req) (hi : Bool) (v : Nat) (s : State) : State :=
  let fs := if hi then MI_MAP1.fields else MI_MAP0.fields
  if !q.voted then writeFields q fs 0 v s
  else
    let m0 := if hi then s.readFields MI_MAP0.fields 0 else v
    let m1 := if hi then v % 65536 else s.readFields MI_MAP1.fields 0
    let same := if hi then decide (m1 = s.readFields MI_MAP1.fields 0) else decide (v = s.readFields MI_MAP0.fields 0)
    if s.isSet MI_STATUS.QUIESCED && mapOk m0 m1 then 
      onlyIf (!same) (fun s => remapWaiting (showHolders (clearCounters s))) (writeFields q fs 0 v s)
    else s.flag MI_STATUS.MAPREJ evMI

/-- MAP_WRITE (R448). -/
def execMapWrite (q : Req) (hi : Bool) (v : Word) (s : State) : Host.Outcome State Fault Refusal :=
  asReq q s <|
  .next (miMap q hi v.toNat s)

/-- A write of MI_CNTCLR (R445): only a voted write clears (Table MI-8, R15). -/
def miCntClr (q : Req) (s : State) : State := if q.voted then clearCounters s else s.reject q

/-- CNTCLR (R445). -/
def execCntclr (q : Req) (v : Word) (s : State) : Host.Outcome State Fault Refusal :=
  asReq q s <|
  let _ := v
  .next (miCntClr q s)

/-- A write of MI_CTRL (Table MI-6): a value of 0 in either field is rejected (R459). -/
def miCtrl (q : Req) (v : Nat) (s : State) : State :=
  if q.voted && (v % 256 == 0 || v / 256 % 256 == 0) then s.flag MI_STATUS.CFGERR evMI
  else writeFields q MI_CTRL.fields 0 v s

end Sys2Proof.Machine
end

