-- ==== Sys2Proof/Machine/Vital.lean ====
section
/-! DEFINITION. The vital outputs (13 R489 to R508): trains, tokens and liveness, demand and run condition, lapse, readback and
faults. An output counts as running while its generator drives (DEDUCED from Table VO-2, assumption 63). -/

namespace Sys2Proof.Machine

/-- Output `n`. -/
def State.vo (s : State) (n : Nat) : VoSt := Tab.get VoSt.reset s.vos n

/-- Change output `n`. -/
def State.modVo (n : Nat) (f : VoSt → VoSt) (s : State) : State := { s with vos := Tab.set VoSt.reset s.vos n (f (s.vo n)) }

/-! ### The train (R490, R491) -/

/-- The period of output `n` in TU (R490). FREQ 0 is outside the register's span: an open value (assumption 3). -/
def State.voPeriod (s : State) (n : Nat) : Nat :=
  let f := s.fld PW_VOCFG.FREQ n
  if f = 0 then Config.zeroFreqPeriod else 1250000 / f

/-- The length of the half that output `n` drives: the second half takes any odd TU. -/
def State.voHalf (s : State) (n : Nat) : Nat :=
  let p := s.voPeriod n
  if (s.vo n).drive = 2 then p - p / 2 else p / 2

/-- The signal VOnP, or with `neg` VOnN, is high now (R489): in its half of the period, but for the 100 ns around each change, of which half
lie on either side (DEDUCED). Times are compared in quarters of a TU. -/
def State.voHigh (s : State) (n : Nat) (neg : Bool) : Bool :=
  let v := s.vo n
  v.drive == (if neg then 2 else 1) && decide (25 ≤ 4 * (s.tb - v.halfAt)) && decide (4 * s.tb + 25 ≤ 4 * (v.halfAt + s.voHalf n))

/-- The run condition of output `n` (R495). -/
def State.voRun (s : State) (n : Nat) : Bool :=
  s.fbit PW_VODEM.DEM n && (s.vo n).live != 0 && !s.fbit PW_VOFAULT.FLT n && !s.isSafe

/-- PW_VOST.STATE and PW_VORUN of output `n` follow the output. -/
def showVo (n : Nat) (s : State) : State :=
  let v := s.vo n
  let st := if s.fbit PW_VOFAULT.FLT n then 3 else if v.drive ≠ 0 then 2 else bit (s.fbit PW_VODEM.DEM n)
  let s := s.setFld PW_VOST.STATE n st
  (s.putFbit PW_VORUN.RUN 0 n (v.drive != 0)).putFbit PW_VORUN.LIVE 0 n (v.live != 0)

/-- Output `n` follows its run condition (R491): a train starts with a VOnP half; a train whose condition has ended completes its
period. -/
def refreshVo (n : Nat) (s : State) : State :=
  let run := s.voRun n
  let t := s.tb
  let s := s.modVo n (fun v =>
    if run && !v.run then
      let v := { v with run := true, low := 0, halves := 0 }
      if v.drive = 0 then { v with drive := 1, halfAt := t, leak := 0, copyBad := false } else v
    else { v with run := run })
  showVo n s

/-- Every output follows its run condition. -/
def refreshVos (s : State) : State := forEach (List.range 16) refreshVo s

/-- The drive of output `n` ends: both signals low, and the comparator is sampled as a stopped one (R503). Where the run condition holds
again, a new train starts at once (R491). -/
def voStop (n : Nat) (s : State) : State :=
  let t := s.tb
  refreshVo n (s.modVo n (fun v =>
    { v with drive := 0, run := false, halves := 0, low := 0, leak := 0, leakAt := t, copyBad := false }))

/-- A fault of output `n` (R501 to R503, R506): the first one latched is its CAUSE. -/
def voFault (n cause : Nat) (f : Field) (s : State) : State :=
  let s := if s.fbit PW_VOFAULT.FLT n then s else (s.putFbit PW_VOFAULT.FLT 0 n true).setFld PW_VOST.CAUSE n cause
  refreshVo n (s.flag f evPW)

/-! ### Tokens and demand (R492 to R498) -/

/-- The next challenge (R492). -/
def nextChallenge (c : Nat) : Nat := if c % 2 = 1 then (c / 2) ^^^ 0xB8 else c / 2

/-- A cycle boundary at the present TU is still to be carried out. -/
def State.atBoundary (s : State) : Bool := decide (s.cycNext ≤ s.nowTu) && s.nowTu % s.cycleLen == 0

/-- The cycle number and the challenge that a token landing now must carry: at the TU of a boundary those of the cycle that begins (R493). -/
def State.tokenCycle (s : State) : Nat × Nat :=
  if s.atBoundary then (s.nowTu / s.cycleLen % 2 ^ PW_VOCHAL.CYC.w, nextChallenge (s.fld PW_VOCHAL.CHAL))
  else (s.fld PW_VOCHAL.CYC, s.fld PW_VOCHAL.CHAL)

/-- A write of PW_VOTOKEN (R493, R494): an accepted token holds to the end of the cycle after its own. -/
def voToken (q : Req) (v : Nat) (s : State) : State :=
  if !q.voted then s.reject q
  else
    let n := PW_VOTOKEN.OUT.of v
    let c := PW_VOTOKEN.CYC.of v
    if c = s.tokenCycle.1 && PW_VOTOKEN.CHK.of v == s.tokenCycle.2 then
      let k := if s.atBoundary then 3 else 2
      refreshVo n ((s.setFld PW_VOST.TOKCYC n c).modVo n (fun x => { x with live := k }))
    else (s.countFld PW_VOST.TOKREJN n 1).flag PW_VOSTATUS.TOKREJ evPW

/-- TOKEN (R493). -/
def execToken (q : Req) (v : Word) (s : State) : Host.Outcome State Fault Refusal :=
  asReq q s <| .next (voToken q v.toNat s)

/-- A write of PW_VODEM (R496). -/
def voDem (q : Req) (v : Nat) (s : State) : State :=
  if !q.voted then writeFields q PW_VODEM.fields 0 v s
  else
    let flt := s.fld PW_VOFAULT.FLT
    let new := PW_VODEM.DEM.of v
    let bad := (List.range 16).any (fun n => new.testBit n && flt.testBit n)
    let s := forEach (List.range 16) (fun n => State.putFbit PW_VODEM.DEM 0 n (new.testBit n && !flt.testBit n)) s
    onlyIf bad (State.flag PW_VOSTATUS.CFGERR evPW) (refreshVos s)

/-- DEMAND_WRITE (R496). -/
def execDemandWrite (q : Req) (v : Word) (s : State) : Host.Outcome State Fault Refusal :=
  asReq q s <| .next (voDem q v.toNat s)

/-- An OUTPUT launch (R497): staged demand bits into PW_VODEM; a staged 1 of a faulted output is not copied. -/
def launchOutput (lo : Nat) (s : State) : State :=
  refreshVos (forEach ((List.range 16).filter (fun n => lo.testBit n)) (fun n t =>
    if t.fbit PW_VOSTAGE.STAGE n && t.fbit PW_VOFAULT.FLT n then t.flag PW_VOSTATUS.CFGERR evPW
    else t.putFbit PW_VODEM.DEM 0 n (t.fbit PW_VOSTAGE.STAGE n)) s)

/-- A write of PW_VOFAULT (R505). -/
def voFaultClear (q : Req) (v : Nat) (s : State) : State :=
  if !q.voted then writeFields q PW_VOFAULT.fields 0 v s
  else forEach ((List.range 16).filter (fun n => v.testBit n)) (fun n t =>
    if t.fbit PW_VODEM.DEM n then t.flag PW_VOSTATUS.CFGERR evPW
    else refreshVo n ((t.putFbit PW_VOFAULT.FLT 0 n false).setFld PW_VOST.CAUSE n 0)) s

/-- FAULT_CLEAR (R505). -/
def execFaultClear (q : Req) (v : Word) (s : State) : Host.Outcome State Fault Refusal :=
  asReq q s <| .next (voFaultClear q v.toNat s)

/-- A write of PW_VOCFG of output `n` (R508); the thresholds of WC(8 + n) follow (14 Table PW-4). -/
def voCfg (q : Req) (n v : Nat) (s : State) : State :=
  if !q.voted then writeFields q PW_VOCFG.fields n v s
  else
    let f := PW_VOCFG.FREQ.of v
    let lo := PW_VOCFG.ILO.of v
    let hi := PW_VOCFG.IHI.of v
    if (s.vo n).drive ≠ 0 || decide (f < 20) || decide (100 < f) || decide (hi ≤ lo) || lo == 0 || PW_VOCFG.FAILN.of v == 0 then
      s.flag PW_VOSTATUS.CFGERR evPW
    else
      let s := writeFields q PW_VOCFG.fields n v s
      (s.setFld PW_WCCFG.TLO (8 + n) lo).setFld PW_WCCFG.THI (8 + n) hi

/-- The vital outputs at a cycle boundary at network time `t`: the challenge and the cycle number step (R492), liveness counts down
(R494), and an output that ran and is no longer live lapses (R498). -/
def voBoundary (t len : Nat) (s : State) : State :=
  let s := s.setFld PW_VOCHAL.CHAL 0 (nextChallenge (s.fld PW_VOCHAL.CHAL))
  let s := s.setFld PW_VOCHAL.CYC 0 (t / len)
  let ran := (List.range 16).filter (fun n => s.voRun n)
  let s := forEach (List.range 16) (fun n => State.modVo n (fun v => { v with live := v.live - 1 })) s
  let lapsed := ran.filter (fun n => (s.vo n).live = 0)
  let s := forEach lapsed (fun n => State.putFbit PW_VODEM.DEM 0 n false) s
  refreshVos (onlyIf (!lapsed.isEmpty) (State.flag PW_VOSTATUS.LAPSE evPW) s)

/-! ### Readback (R500 to R503) -/

/-- The edge at the end of a half of output `n` (R491, R503): the copies are compared, and the train goes on, completes, or ends
for a mismatch found at the edge before. -/
def voEdge (n : Nat) (differ : Bool) (s : State) : State :=
  let v := s.vo n
  let t := s.tb
  let s := if differ then voFault n 4 PW_VOSTATUS.COPY s else s
  if v.copyBad || (v.drive == 2 && !v.run) then voStop n s
  else showVo n (s.modVo n (fun v =>
    { v with drive := 3 - v.drive, halfAt := t, halves := v.halves + 1, copyBad := differ }))

/-- HALF_PERIOD (R490): the half that output `n` drives elapses. Its middle is sampled as `cls`: 0 below, 1 within, 2 above (R500 to
R502); at its end the two copies of the configuration are compared, and `differ` (R503). -/
def execHalfPeriod (n : Fin 16) (cls : Fin 3) (differ : Bool) (s : State) : Host.Outcome State Fault Refusal :=
  let n := n.val
  let v := s.vo n
  if v.drive = 0 then .next s
  else
    let h := s.voHalf n
    let s := (s.advanceTo (v.halfAt + h / 2)).setFld PW_VOST.LASTI n cls.val
    if cls.val = 2 then .next (voStop n (voFault n 1 PW_VOSTATUS.OVER s))
    else
      let low := if cls.val = 0 && decide (2 ≤ v.halves) then v.low + 1 else 0
      let s := s.modVo n (fun x => { x with low := low })
      let under := s.fld PW_VOCFG.FAILN n = low && low != 0 && !s.fbit PW_VOFAULT.FLT n
      let s := if under then voFault n 2 PW_VOSTATUS.UNDER s else s
      .next (voEdge n differ (s.advanceTo (v.halfAt + h)))

/-- LEAKAGE_SAMPLE (R503): the comparator of output `n`, which does not run, is sampled, 100 µs after the last sample; `high` is at or
above ILO. Leakage is judged while the fault bit is 0 (DEDUCED, assumption 64). -/
def execLeakageSample (n : Fin 16) (high : Bool) (s : State) : Host.Outcome State Fault Refusal :=
  let n := n.val
  if (s.vo n).drive ≠ 0 then .next s
  else
    let s := s.advanceTo ((s.vo n).leakAt + 12500)
    let t := s.tb
    let k := if high then min 10 ((s.vo n).leak + 1) else 0
    let s := s.modVo n (fun v => { v with leak := k, leakAt := t })
    .next (if k = 10 && !s.fbit PW_VOFAULT.FLT n then voFault n 3 PW_VOSTATUS.LEAK s else s)

end Sys2Proof.Machine
end

