-- ==== Sys2Proof/Machine/Time.lean ====
section
/-! DEFINITION. Network time, the servo, holdover, steps and epochs, launch channels and compares (06 R230 to R267). -/

namespace Sys2Proof.Machine

/-! ### Time values (R230 to R234) -/

/-- Change the time unit. -/
def State.modTime (f : TimeSt → TimeSt) (s : State) : State := { s with time := f s.time }

/-- The signed difference a − b of the low 32 bits (R234). -/
def tdiff (a b : Nat) : Int := sgn 32 (a % 2 ^ 32 + (2 ^ 32 - b % 2 ^ 32))

/-- Epoch `a` is older than epoch `b` (R232). -/
def olderEpoch (a b : Nat) : Bool := let d := (b + 16 - a % 16) % 16; decide (1 ≤ d) && decide (d ≤ 8)

/-- The first multiple of `l` at or after `t`. -/
def nextMultiple (l t : Nat) : Nat := (t + l - 1) / l * l

/-- Network time passes until it reads `t`, if it does not yet. -/
def State.advanceNow (t : Nat) (s : State) : State := s.advance (t - s.nowTu)

/-- A fresh value from −m to m. -/
def State.freshWithin (m : Nat) (s : State) : Int × State :=
  let p := s.fresh
  ((p.1 : Int) % (2 * m + 1) - m, p.2)

/-- A signed value in `w` bits, saturating at ±(2^(w−1) − 1). -/
def satOffset (w : Nat) (x : Int) : Nat := unsgn w (max (-(2 ^ (w - 1) - 1)) (min (2 ^ (w - 1) - 1) x))

/-! ### Time quality (R246, R248, R250, R251) -/

/-- TM_HOLD.AGE: milliseconds in holdover (R251), 0 outside. -/
def State.holdAge (s : State) : Nat :=
  if s.time.tq = 3 then min 0xFFFFFF ((s.tb - s.time.holdAt) / 125000) else 0

/-- EST (Table TM-2, R251). -/
def State.est (s : State) : Nat :=
  let t := s.time
  let lim := s.fld TM_LIM.LOCKLIM
  min 0xFFFF (match t.tq with
    | 0 => 0xFFFF
    | 2 => lim + t.annEst
    | 3 => t.holdEst + (s.holdAge * s.fld TM_OSC.HOLDRATE + 999) / 1000
    | 5 => 0
    | _ => lim + t.off.natAbs)

/-- TM_GUARD.EFF (R250). -/
def State.eff (s : State) : Nat := min 0xFFFF (s.fld TM_GUARD.GBASE + s.est)

/-- Time quality is below the correlation limit (R248). -/
def State.belowLimit (s : State) : Bool :=
  [0, 1, 4, 6].contains s.time.tq || decide (s.fld TM_LIM.CORRLIM < s.est) || s.isSet TM_STATUS.GRIDERR

/-- GRIDERR follows the grid phase in force and the one announced (R265); TQLOW follows R248, with QLOW or QOK and their
device entries (12 Table HP-8). -/
def refreshTq (s : State) : State :=
  let g := s.isSet TM_MASTER.VALID && s.fld TM_GRID.PHASEF != s.fld TM_MASTER.CPHASE
  let s := s.setFld TM_STATUS.GRIDERR 0 (bit g)
  let low := s.belowLimit
  if low = s.isSet TM_STATUS.TQLOW then s
  else
    let s := s.setFld TM_STATUS.TQLOW 0 (bit low)
    if low then hostDevice 2 0 (s.flag TM_STATUS.QLOW evTM) else hostDevice 3 0 (s.flag TM_STATUS.QOK evTM)

/-- The epoch becomes `e`, with a step `d` of network time: EPCHG when the value changes (R253). -/
def setEpoch (d : Int) (e : Nat) (s : State) : State :=
  if s.time.epoch = e then s
  else
    let s := s.modTime (fun t => { t with epoch := e, changes := ((t.epoch, s.nowTu, d) :: t.changes).take 15 })
    hostDevice 6 0 (s.flag TM_STATUS.EPCHG evTM)

/-! ### Launch channels (R256 to R264) -/

/-- The state of channel `c` (TM_LCFG.ST). -/
def State.lst (s : State) (c : Nat) : Nat := s.fld TM_LCFG.ST c

/-- The channel is armed or held. -/
def State.lbusy (s : State) (c : Nat) : Bool := s.lst c == 1 || s.lst c == 2

/-- Set ST, with ARM 1 only while armed or held. -/
def setSt (c v : Nat) (s : State) : State :=
  (s.setFld TM_LCFG.ST c v).setFld TM_LCFG.ARM c (bit (v == 1 || v == 2))

/-- Every held launch is dropped when the node leaves EPOCH (R256). -/
def dropHeld (s : State) : State :=
  let h := (List.range 16).filter (fun c => s.lst c == 2)
  let s := forEach h (fun c => setSt c 5) s
  onlyIf (!h.isEmpty) (State.flag TM_STATUS.LHELD evTM) s

/-- The node enters time-quality state `q` (Table TM-2): holdover entered or left, held launches dropped at the exit from
EPOCH. -/
def enterTq (q : Nat) (s : State) : State :=
  let old := s.time.tq
  let e := s.est
  if old = q then s
  else
    let s := if q = 3 then
        (((s.modTime (fun t => { t with holdAt := s.tb, holdEst := e })).setFld TM_OSC.RATE 0 (unsgn 24 s.time.integ)).countFld
          TM_HOLD.HOLDN 0 1).flag TM_STATUS.HOLDIN evTM
      else s
    let s := s.modTime (fun t => { t with tq := q })
    let s := onlyIf (old == 3) (State.flag TM_STATUS.HOLDOUT evTM) s
    let s := onlyIf (old == 4) dropHeld s
    refreshTq s

/-- The targets an action admits (Table TM-4). -/
def targetsOk (act lo hi : Nat) : Bool :=
  match act with
  | 1 => true
  | 2 => true
  | 3 => lo == 0 && hi == 0
  | 4 => decide (lo < 65536) && hi == 0
  | 5 => decide (lo < 256) && hi == 0
  | _ => false

/-- Channel `c` as it stands may be armed with the current time and epoch (R258). -/
def State.armOk (s : State) (c : Nat) : Bool :=
  let act := s.fld TM_LCFG.ACTION c
  targetsOk act (s.fld TM_LTGTLO.TGT c) (s.fld TM_LTGTHI.TGT c) && s.fld TM_LCFG.EPOCH c == s.time.epoch
    && decide (((s.fld TM_CTRL.LEAD * 1250 : Nat) : Int) ≤ tdiff (s.fld TM_LTIME.TIME c) s.nowTu)

/-- The systems of a pair of target masks. -/
def targetSystems (lo hi : Nat) : List Nat := (List.range 64).filter (fun i => if i < 32 then lo.testBit i else hi.testBit (i - 32))

/-- The launch event to the engines named (Table TM-4). -/
def launchEvent (lo : Nat) (s : State) : State :=
  let s := onlyIf (lo.testBit 0) (State.toHeart (.event evLAUNCH)) s
  let s := onlyIf (lo.testBit 1) (State.pendEng 9 evLAUNCH) s
  forEach ((List.range 6).filter (fun k => lo.testBit (k + 2))) (fun k => State.pendEng (3 + k) evLAUNCH) s

/-- The effect of a firing channel at its TIME (Table TM-4): EXCITE makes staged changes due, INJECT makes armed injections
due, at the next grid instant. GRID fires at a cycle boundary (R264). -/
def fireEffect (c : Nat) (s : State) : State :=
  let lo := s.fld TM_LTGTLO.TGT c
  let hi := s.fld TM_LTGTHI.TGT c
  match s.fld TM_LCFG.ACTION c with
  | 1 => setSt c 3 (forEach (targetSystems lo hi) (fun i t =>
      match (t.sys i).staged with
      | some e => (showExc i e (t.modSys i (fun x => { x with staged := none, due := some e, dueCounted := false }))).setFld FE_EXC.ARM i 0
      | none => t) s)
  | 2 => setSt c 3 (forEach (targetSystems lo hi) (fun i t =>
      if t.isSet FE_TEST.ARM i then (t.setFld FE_TEST.ARM i 0).modSys i (fun x => { x with injDue := some (s.tb * 16 + c) }) else t) s)
  | 3 =>
    if s.isSet FE_CTRL.RUN then (setSt c 4 s).flag TM_STATUS.LREF evTM
    else
      let s := s.setFld TM_GRID.PHASEF 0 (s.fld TM_GRID.PHASE)
      let s := onlyIf (s.time.tq == 5) (State.setFld TM_MASTER.CPHASE 0 (s.fld TM_GRID.PHASEF)) s
      refreshTq (setSt c 3 s)
  | 4 => setSt c 3 (launchOutput lo s)
  | 5 => setSt c 3 (launchEvent lo s)
  | _ => s

/-- An armed channel that is due fires, or is held while the node is in EPOCH (R256, R260). -/
def fire (c : Nat) (s : State) : State := if s.time.tq = 4 then setSt c 2 s else fireEffect c s

/-- TU until channel `c` falls due, not after now when negative or 0 (R260): its TIME, or for GRID the first cycle boundary at or after
it, at which it acts (R264). -/
def State.dueIn (s : State) (c : Nat) : Int :=
  let d := tdiff (s.fld TM_LTIME.TIME c) s.nowTu
  if s.fld TM_LCFG.ACTION c = 3 then
    let t := ((s.nowTu : Int) + d).toNat
    (nextMultiple s.cycleLen t : Int) - s.nowTu
  else d

/-- The order of firing in one TU (R261). -/
def fireOrder (act : Nat) : Nat := match act with | 3 => 0 | 1 => 1 | 2 => 2 | 4 => 3 | _ => 4

/-- Channel `x` falls due before channel `c`, both armed (R261). -/
def State.firesBefore (s : State) (x c : Nat) : Bool :=
  let d := s.dueIn x - s.dueIn c
  let o := fireOrder (s.fld TM_LCFG.ACTION x)
  let p := fireOrder (s.fld TM_LCFG.ACTION c)
  decide (d < 0) || (d == 0 && (decide (o < p) || (o == p && decide (x < c))))

/-- Channel `c` is armed with action `act` and no other armed channel falls due before it. -/
def State.fireable (s : State) (c act : Nat) : Bool :=
  s.lst c == 1 && s.fld TM_LCFG.ACTION c == act
    && (List.range 16).all (fun x => x == c || s.lst x != 1 || !s.firesBefore x c)

/-- Channel `c` falls due: network time reaches its TIME, for GRID the cycle boundary (R260), and it fires. -/
def launch (c act : Nat) (s : State) : State :=
  if s.fireable c act then fire c (s.advance (s.dueIn c).toNat) else s

/-- EXCITE (R257). -/
def execExcite (c : Fin 16) (s : State) : Host.Outcome State Fault Refusal := .next (launch c.val 1 s)
/-- INJECT (R257). -/
def execInject (c : Fin 16) (s : State) : Host.Outcome State Fault Refusal := .next (launch c.val 2 s)
/-- GRID (R264). -/
def execGrid (c : Fin 16) (s : State) : Host.Outcome State Fault Refusal := .next (launch c.val 3 s)
/-- OUTPUT (13 R497). -/
def execOutput (c : Fin 16) (s : State) : Host.Outcome State Fault Refusal := .next (launch c.val 4 s)
/-- EVENT (R257). -/
def execEvent (c : Fin 16) (s : State) : Host.Outcome State Fault Refusal := .next (launch c.val 5 s)

/-- A write of TM_LCFG of channel `c` (R258, R259): a channel that falls due in this TU fires first. -/
def tmLcfg (q : Req) (c v : Nat) (s : State) : State :=
  if !q.voted then writeFields q TM_LCFG.fields c v s
  else
    let s := onlyIf (s.lst c == 1 && decide (s.dueIn c ≤ 0)) (fire c) s
    let busy := s.lbusy c
    let s := (s.setFld TM_LCFG.ACTION c (TM_LCFG.ACTION.of v)).setFld TM_LCFG.EPOCH c (TM_LCFG.EPOCH.of v)
    if TM_LCFG.ARM.of v = 1 then
      if s.armOk c then setSt c 1 s else (setSt c 4 s).flag TM_STATUS.LREF evTM
    else if busy then setSt c 0 s
    else s

/-- LAUNCH_ARM (R258): a write of TM_LCFG with ARM 1. -/
def execLaunchArm (q : Req) (c : Fin 16) (v : Word) (s : State) : Host.Outcome State Fault Refusal :=
  asReq q s <|
  .next (tmLcfg q c.val (putBit v.toNat 8 true) s)

/-- LAUNCH_DISARM (R259): a write of TM_LCFG with ARM 0. -/
def execLaunchDisarm (q : Req) (c : Fin 16) (v : Word) (s : State) : Host.Outcome State Fault Refusal :=
  asReq q s <|
  .next (tmLcfg q c.val (putBit v.toNat 8 false) s)

/-- A write of TM_LTIME, TM_LTGTLO or TM_LTGTHI of channel `c`: none while it is armed or held (R259). -/
def tmTarget (q : Req) (fs : List Field) (c v : Nat) (s : State) : State :=
  if q.voted && s.lbusy c then s.flag TM_STATUS.CFGERR evTM else writeFields q fs c v s

/-- An external fault (10 R417). -/
def externalFault (src index : Nat) (s : State) : State :=
  ((s.setFld HW_EXTFLT.SRC 0 src).setFld HW_EXTFLT.INDEX 0 index).flag HW_STATUS.EXTFLT evHW

/-- LAUNCH_COPY_FAULT (R262): the two copies of channel `c` differ, or a copy's check code is wrong. -/
def execLaunchCopyFault (c : Fin 16) (s : State) : Host.Outcome State Fault Refusal :=
  .next (externalFault 1 c.val ((setSt c.val 6 s).flag TM_STATUS.LFAULT evTM))

/-! ### Compares (R263) -/

/-- The event 13 to the requester of a compare. -/
def compareEvent (q : Req) (s : State) : State :=
  match q with
  | .hw => s.toHeart (.event evCOMPARE)
  | .splitA => s.pendEng 0 evCOMPARE
  | .splitB => s.pendEng 1 evCOMPARE
  | .se k => s.pendEng (3 + k.val) evCOMPARE
  | .root => s.pendEng 9 evCOMPARE
  | _ => s

/-- The requester is an engine. -/
def isEngine : Req → Bool
  | .hw => true
  | .splitA => true
  | .splitB => true
  | .se _ => true
  | .root => true
  | _ => false

/-- The requesters that hold a compare. -/
def compareReqs (s : State) : List Req :=
  (if s.isSplit then [.splitA, .splitB] else [.hw]) ++ [.root] ++ ([0, 1, 2, 3, 4, 5] : List (Fin 6)).map Req.se

/-- The compare of a requester is delivered. -/
def deliverCompare (q : Req) (s : State) : State := compareEvent q (s.setFld TM_CMPC.ARM q.bank 0)

/-- The compare's time is not after network time, or its epoch is not the epoch in force (assumption 50). -/
def State.compareDue (s : State) (q : Req) : Bool :=
  s.fld TM_CMPC.EPOCH q.bank != s.time.epoch || decide (tdiff (s.fld TM_CMPT.TIME q.bank) s.nowTu ≤ 0)

/-- A write of TM_CMPT or TM_CMPC: engines only (R263). Arming a time that has passed delivers the event at once. -/
def tmCompare (q : Req) (fs : List Field) (v : Nat) (s : State) : State :=
  if !isEngine q then s.reject q
  else
    let s := writeFields q fs q.bank v s
    if s.isSet TM_CMPC.ARM q.bank && s.compareDue q then deliverCompare q s else s

/-- COMPARE_ARM (R263): a write of TM_CMPC with ARM 1. -/
def execCompareArm (q : Req) (v : Word) (s : State) : Host.Outcome State Fault Refusal :=
  asReq q s <|
  .next (tmCompare q TM_CMPC.fields (putBit v.toNat 4 true) s)

/-- COMPARE (R263): the armed compare of requester `q` falls due. -/
def execCompare (q : Req) (s : State) : Host.Outcome State Fault Refusal :=
  asReq q s <|
  if isEngine q && s.isSet TM_CMPC.ARM q.bank then
    .next (deliverCompare q (if s.compareDue q then s else s.advance (tdiff (s.fld TM_CMPT.TIME q.bank) s.nowTu).toNat))
  else .next s

/-! ### The servo (R245 to R253) -/

/-- STEPTHR in TU. -/
def State.stepThr (s : State) : Nat := s.fld TM_SERVO.STEPTHR * 125

/-- The servo takes offset `o` (R245). The gains of the loop are not stated: the new integral and proportional terms are free
values within their limits (assumption 51). -/
def servo (o : Int) (s : State) : State :=
  let i := s.freshWithin 200000
  let p := i.2.freshWithin (s.fld TM_SERVO.SLEWMAX * 1000)
  let s := p.2.modTime (fun t => { t with integ := i.1, off := o })
  (s.setFld TM_OSC.RATE 0 (unsgn 24 (i.1 + p.1))).setFld TM_QUAL.OFFSET 0 (satOffset 16 o)

/-- The runs of Syncs that R246, R247 and R253 count. -/
def countRuns (o : Int) (s : State) : State :=
  let a := o.natAbs
  let thr := s.stepThr
  s.modTime (fun t =>
    { t with lockRun := if a ≤ s.fld TM_LIM.LOCKLIM then t.lockRun + 1 else 0,
             offRun := if s.fld TM_LIM.OFFLIM * 8 < a ∧ a ≤ thr then t.offRun + 1 else 0,
             stepRun := if thr < a then t.stepRun + 1 else 0, lastSync := s.cycle })

/-- The node is settled (R246). -/
def State.settled (s : State) : Bool := decide (s.fld TM_CTRL.LOCKN ≤ s.time.lockRun)

/-- The state after a valid Sync with offset `o` (R246, R247, R252, R253; FREE within STEPTHR: DEDUCED, assumption 52). -/
def syncState (o : Int) (s : State) : State :=
  let conf := s.fld TM_CTRL.STEPCONF
  match s.time.tq with
  | 2 => if conf ≤ s.time.offRun then (enterTq 6 s).flag TM_STATUS.OFFEXC evTM else refreshTq s
  | 5 => s
  | 0 =>
    if s.time.stepDue then s
    else if o.natAbs ≤ s.stepThr then enterTq 1 s
    else if conf ≤ s.time.stepRun then s.modTime (fun t => { t with stepDue := true }) else s
  | 3 =>
    if s.time.stepDue then s
    else if o.natAbs ≤ s.stepThr then enterTq 1 s
    else if conf ≤ s.time.stepRun then s.modTime (fun t => { t with stepDue := true }) else s
  | _ => if s.settled then enterTq 2 s else refreshTq s

/-- The port of the home ring on which the node takes Sync elements (07 R299). -/
def State.prefPort (s : State) : Nat := (if s.isSet CK_RING.FIELD then 4 else 0) + s.fld CK_NODEST.PREF

/-- In HOLDOVER the integral term holds and the proportional term is 0 (R251): a Sync that does not end it, being beyond STEPTHR or one that
comes when the step is due (R253), only shows its offset. -/
def servoSync (o : Int) (s : State) : State :=
  if s.time.tq = 3 ∧ (s.stepThr < o.natAbs ∨ s.time.stepDue = true) then
    (s.modTime (fun t => { t with off := o })).setFld TM_QUAL.OFFSET 0 (satOffset 16 o)
  else servo o s

/-- HOLDOVER_ENTRY (R251, Table TM-2): no valid Sync for HOLDTO cycles in states 1, 2, 4 or 6. -/
def execHoldoverEntry (s : State) : Host.Outcome State Fault Refusal :=
  if [1, 2, 4, 6].contains s.time.tq && decide (s.time.lastSync + s.fld TM_CTRL.HOLDTO ≤ s.cycle) then
    .next (enterTq 3 (s.modTime (fun t => { t with stepRun := 0, stepDue := false })))
  else .next s

/-- HOLDOVER_QUALITY_LOSS (R251, R248): the EST of a holdover passes CORRLIM. Time passes until it does, at a HOLDRATE that
is not 0. -/
def execHoldoverQualityLoss (s : State) : Host.Outcome State Fault Refusal :=
  let lim := s.fld TM_LIM.CORRLIM
  let rate := s.fld TM_OSC.HOLDRATE
  if s.time.tq = 3 && rate ≠ 0 && decide (lim < 0xFFFF) then
    let ms := (lim - s.time.holdEst) * 1000 / rate + 1
    .next (refreshTq (if lim < s.est then s else s.advanceTo (s.time.holdAt + ms * 125000)))
  else .next s

/-! ### Masters (R239, R240, R296) -/

/-- This node's rank in the list of candidates, if it is one. -/
def State.rank (s : State) : Option Nat :=
  let me := s.fld ID_NODE.NODE
  if s.isSet TM_MCAND0.VA && s.fld TM_MCAND0.CANDA == me then some 0
  else if s.isSet TM_MCAND0.VB && s.fld TM_MCAND0.CANDB == me then some 1
  else if s.isSet TM_MCAND1.VA && s.fld TM_MCAND1.CANDA == me then some 2
  else if s.isSet TM_MCAND1.VB && s.fld TM_MCAND1.CANDB == me then some 3
  else none

/-- TM_MASTER takes a master, with MASTERCHG when the node followed changes. -/
def setMaster (node rank epoch phase : Nat) (s : State) : State :=
  let new := !s.isSet TM_MASTER.VALID || s.fld TM_MASTER.MNODE != node
  let s := (s.setFld TM_MASTER.MNODE 0 node).setFld TM_MASTER.MRANK 0 rank
  let s := (s.setFld TM_MASTER.MEPOCH 0 epoch).setFld TM_MASTER.CPHASE 0 phase
  let s := s.setFld TM_MASTER.VALID 0 1
  onlyIf new (State.flag TM_STATUS.MASTERCHG evTM) s

/-- The node follows the master whose Announce node `src` sends. -/
def followMaster (src node rank epoch phase est : Nat) (s : State) : State :=
  refreshTq ((setMaster node rank epoch phase s).modTime (fun t => { t with follow := some src, annEst := est }))

/-- MASTER_TAKEOVER (R239): a candidate has had no valid Announce for (r + 1) × ANNTO cycles. It sends as master from the next cycle
boundary on. -/
def execMasterTakeover (s : State) : Host.Outcome State Fault Refusal :=
  match s.rank with
  | none => .next s
  | some r =>
    if s.time.tq ≠ 5 && decide (s.time.lastAnn + (r + 1) * s.fld TM_CTRL.ANNTO ≤ s.cycle) then
      let s := s.modTime (fun t => { t with follow := none, stepDue := false, stepRun := 0 })
      let s := s.modTime (fun t => { t with masterFrom := nextMultiple s.cycleLen (s.nowTu + 1) })
      .next (enterTq 5 (setMaster (s.fld ID_NODE.NODE) r s.time.epoch (s.fld TM_GRID.PHASEF) s))
    else .next s

/-- The Announce of a slave's frame is taken: by the master followed; by any where none is, in FREE and in holdover
(DEDUCED, assumption 53). -/
def State.takesAnnounce (s : State) (src node : Nat) : Bool :=
  s.time.follow == some src || s.time.follow == none || s.time.tq == 0 || s.time.tq == 3
    || (s.isSet TM_MASTER.VALID && s.fld TM_MASTER.MNODE == node)

/-! ### The boundary (R240, R253 to R256) -/

/-- The step D for an offset: the nearest multiple of 20 ms, ties toward 0 (R253). -/
def stepOf (o : Int) : Int :=
  let q := (o.natAbs + 1249999) / 2500000
  if o < 0 then -((q * 2500000 : Nat) : Int) else ((q * 2500000 : Nat) : Int)

/-- An armed one-shot launch is moved by `d` into epoch `e` (R256). -/
def moveLaunches (d : Int) (e : Nat) (s : State) : State :=
  forEach ((List.range 16).filter (fun c => s.lst c == 1)) (fun c t =>
    (t.setFld TM_LTIME.TIME c (unsgn 32 (t.fld TM_LTIME.TIME c + d))).setFld TM_LCFG.EPOCH c e) s

/-- A network time of the schedule moves with a step. -/
def shiftTime (d : Int) (t : Nat) : Nat := ((t : Int) + d).toNat

/-- TIME_STEP (R253, R254, R256, R263): network time jumps by D, the epoch changes, armed launches move, compares are
delivered, and grid and boundaries keep their instants. -/
def timeStep (s : State) : State :=
  let d := stepOf s.time.off
  let e := if s.time.tq = 0 then s.fld TM_MASTER.MEPOCH else (s.fld TM_MASTER.MEPOCH + 1) % 16
  let s := moveLaunches d e s
  let s := forEach ((compareReqs s).filter (fun q => s.isSet TM_CMPC.ARM q.bank)) deliverCompare s
  let closed := (s.closes.map (fun p => (p.1, shiftTime d p.2))).filter (fun p => p.2 != 0)
  let s := { s with now := s.now + BitVec.ofInt 64 d, gridNext := shiftTime d s.gridNext, cycNext := shiftTime d s.cycNext, closes := closed }
  let s := s.modTime (fun t => { t with off := t.off - d, stepDue := false, stepRun := 0, lockRun := 0 })
  enterTq 4 (setEpoch d e s)

/-- LABEL_ONLY_EPOCH_CHANGE (R255, R256). -/
def labelEpoch (e : Nat) (s : State) : State :=
  if s.time.epoch = e then s
  else setEpoch 0 e (forEach ((List.range 16).filter (fun c => s.lst c == 1)) (fun c => State.setFld TM_LCFG.EPOCH c e) s)

/-- MASTER_YIELD (R240). -/
def masterYield (s : State) : State :=
  match s.time.yields with
  | some [src, node, rank, epoch, phase, est] =>
    let s := s.modTime (fun t => { t with yields := none })
    if s.time.tq = 5 then
      let s := enterTq 3 (s.modTime (fun t => { t with lastAnn := s.cycle, stepRun := 0, lockRun := 0, offRun := 0 }))
      followMaster src node rank epoch phase est (s.modTime (fun t => { t with holdEst := 0 }))
    else s
  | _ => s

/-- The time unit's work at a cycle boundary. -/
def timeBoundary (s : State) : State :=
  let s := masterYield s
  let s := onlyIf s.time.stepDue timeStep s
  let e := s.fld TM_MASTER.MEPOCH
  let s := if s.time.tq = 2 && s.time.epoch ≠ e && s.time.epoch ≠ (e + 1) % 16 then labelEpoch e s
    else if s.time.tq = 5 && s.time.pubSeen then
      let n := (s.time.epoch + 1) % 16
      (labelEpoch n s).setFld TM_MASTER.MEPOCH 0 n
    else s
  refreshTq (s.modTime (fun t => { t with pubSeen := false }))

/-! ### Reading the time (R233) -/

/-- A read of TM_NOWLO. -/
def nowRead (q : Req) (s : State) : Nat × State :=
  let s' := (s.setFld TM_NOWHI.THI q.bank (s.nowTu / 2 ^ 32)).setFld TM_NOWX.EPOCH q.bank s.time.epoch
  (s.nowLow, (s'.setFld TM_NOWX.STATE q.bank s.time.tq).setFld TM_NOWX.TQLOW q.bank (bit s.belowLimit))

/-- NOW_READ (R233). -/
def execNowRead (q : Req) (s : State) : Host.Outcome State Fault Refusal :=
  asReq q s <| .next (deliver q (nowRead q s))

/-! ### Configuration (Tables TM-6, TM-11 to TM-17) -/

/-- A write whose value is rejected unless `ok`. -/
def tmChecked (q : Req) (ok : Bool) (fs : List Field) (v : Nat) (s : State) : State :=
  if q.voted && !ok then s.flag TM_STATUS.CFGERR evTM else refreshTq (writeFields q fs 0 v s)

/-- A write of TM_CTRL. -/
def tmCtrl (q : Req) (v : Nat) (s : State) : State :=
  let a := TM_CTRL.ANNTO.of v
  tmChecked q (TM_CTRL.HOLDTO.of v != 0 && TM_CTRL.STEPCONF.of v != 0 && TM_CTRL.LOCKN.of v != 0
    && decide (TM_CTRL.PDEXP.of v ≤ 8) && decide (2 ≤ a) && TM_CTRL.LEAD.of v != 0) TM_CTRL.fields v s

/-- A write of TM_SERVO. -/
def tmServo (q : Req) (v : Nat) (s : State) : State :=
  let w := TM_SERVO.SLEWMAX.of v
  let t := TM_SERVO.STEPTHR.of v
  tmChecked q (t != 0 && decide (s.fld TM_LIM.OFFLIM * 8 < t * 125) && decide (10 ≤ w) && decide (w ≤ 1000))
    TM_SERVO.fields v s

/-- A write of TM_LIM. -/
def tmLim (q : Req) (v : Nat) (s : State) : State :=
  let c := TM_LIM.CORRLIM.of v
  tmChecked q (TM_LIM.LOCKLIM.of v != 0 && TM_LIM.OFFLIM.of v != 0 && decide (25 ≤ c) && decide (c ≤ 12500)) TM_LIM.fields v s

/-- A write of TM_OSC. -/
def tmOsc (q : Req) (v : Nat) (s : State) : State := tmChecked q (TM_OSC.HOLDRATE.of v != 0) TM_OSC.fields v s

/-- A write of TM_GRID. -/
def tmGrid (q : Req) (v : Nat) (s : State) : State := tmChecked q (decide (TM_GRID.PHASE.of v ≤ 15624)) TM_GRID.fields v s

/-- A write of TM_PROF. -/
def tmProf (q : Req) (v : Nat) (s : State) : State := tmChecked q (decide (TM_PROF.DOMAIN.of v ≤ 127)) TM_PROF.fields v s

end Sys2Proof.Machine
end

