-- ==== Sys2Proof/Machine/Bobbin.lean ====
section
/-! DEFINITION. The hardware of the bobbins: inbound rings, the origin and shadow rings, locks, the command queue and the
registers of the BB page (04 R170 to R211, 08 R313). -/

namespace Sys2Proof.Machine

/-- The address of bobbin `b` (01 R38). -/
def bobAddr (b : Nat) : Nat := 0x28000000 + b * 0x400

/-- Bobbin `b` is active (R165). -/
def State.active (s : State) (b : Nat) : Bool := s.isSet BB_CFG.ACTIVE b

/-! ### Pushes (R170, R171, R610, 08 R313) -/

/-- Slots used in a ring whose indexes count modulo `m`. -/
def ringUsed (m wi ri : Nat) : Nat := (wi + m - ri) % m

/-- A push of block `v` into a ring of bobbin `b` that the writer may push to: dropped when the bobbin is inactive, then when
the ring is full; else placed in the next free slot. -/
def pushRing (b : Nat) (remote : Bool) (v : Nat) (s : State) : State :=
  let wf := if remote then BB_INB.RWI else BB_INB.LWI
  let rf := if remote then BB_INB.RRI else BB_INB.LRI
  if !s.active b then (s.countFld BB_DROP.INACT b 1).flag BB_STATUS.INACTIVE evBB
  else
    let wi := s.fld wf b
    if ringUsed 32 wi (s.fld rf b) = 16 then (s.countFld BB_DROP.FULL b 1).flag BB_STATUS.RINGFULL evBB
    else
      let k := bobAddr b + (if remote then 0x300 else 0x200) + wi % 16 * 16
      ((s.wr k 16 v).setBad k 0).setFld wf b (wi + 1)

/-- A write of `n` bytes to the bobbin store by a requester that may only push (R43, R170): an aligned block into the ring
of the requester is a push, any other write is counted as rejected; and so is a block with SHADOW set, which never enters an inbound
area (03 R140; that the interconnect refuses it is DEDUCED, assumption 146). -/
def bobbinPush (q : Req) (a n v : Nat) (s : State) : State :=
  let b := (a - 0x28000000) / 0x400 % 256
  let off := a % 0x400
  let whole := n == 16 && a % 16 == 0
  let isSe := match q with | .se _ => true | _ => false
  if whole && isSe && decide (0x200 ≤ off) && decide (off < 0x300) then (if v.testBit 127 then s.reject q else pushRing b false v s)
  else if whole && q == .dma && decide (0x300 ≤ off) then (if v.testBit 127 then s.reject q else pushRing b true v s)
  else s.reject q

/-- INBOUND_PUSH (R170): a write of `n` bytes of `v` at offset `a` of the bobbin store by requester `q`. -/
def execInboundPush (q : Req) (a : BitVec 18) (n : Fin 17) (v : Block) (s : State) : Host.Outcome State Fault Refusal :=
  asReq q s <|
  .next (bobbinPush q (0x28000000 + a.toNat) n.val v.toNat s)

/-- A block enters a ring of shared RAM at address `a`. -/
def ringStore (a v : Nat) (s : State) : State :=
  onlyIf (decide (0x20000000 ≤ a) && decide (a + 16 ≤ 0x20200000)) (fun t => (t.wr a 16 v).setBad a 0) s

/-- The event in a block is a test event (03 Table WD-9): DIR 0b00 with TEST 1. -/
def isTest (v : Nat) : Bool := bitsOf v 11 2 == 0 && v.testBit 117

/-- The head in use of point `p` on this node, the lowest of equals. -/
def State.headOfPoint (s : State) (p : Nat) : Option Nat :=
  (List.range 32).find? (fun k => s.isSet WD_HCFG.HEN k && s.fld WD_HCFG.POINT k == p)

/-- The ratio of a system in a test event (03 R158). -/
def testRatioOf (v i : Nat) : Nat := if i % 2 = 0 then bitsOf v 101 8 else bitsOf v 81 8

/-- A test event of head `k` is that of the round (03 R158): its TIME is the round's start, and the ratio of a system that the round did not
inject is 0. -/
def ProofSt.takes (k v : Nat) (p : ProofSt) : Bool :=
  p.event.isNone && bitsOf v 17 64 == p.start % 2 ^ 64
    && [2 * k, 2 * k + 1].all (fun i => p.systems.contains i || testRatioOf v i == 0)

/-- The Heartwood takes a test event to the engine proof of the round that it belongs to, the oldest of equals (03 R158, R181). -/
def noteTest (v : Nat) (s : State) : State :=
  match (if isTest v then s.headOfPoint (v % 2048) else none) with
  | none => s
  | some k =>
    match (s.head k).proofs.find? (ProofSt.takes k v) with
    | none => s
    | some p => s.modHead k (fun h => { h with proofs := h.proofs.map (fun q =>
        if q.mark = p.mark then { q with event := some (v, s.nowTu) } else q) })

/-- An event of the primary and one of the shadow match (08 R314): the same DIR, TIME within 4 us, and of test events both ratios
within 8. -/
def eventsMatch (a b : Nat) : Bool :=
  let near (i : Nat) : Bool := decide (((bitsOf a i 8 : Nat) - (bitsOf b i 8 : Nat) : Int).natAbs ≤ 8)
  bitsOf a 11 2 == bitsOf b 11 2 && decide ((tdiff (bitsOf a 17 64) (bitsOf b 17 64)).natAbs ≤ 500)
    && isTest a == isTest b && (!isTest a || (near 101 && near 81))

/-- An event of the primary, or of the shadow, of a shadowed head is held against what the other has written (08 R314). -/
def noteEvent (shadow : Bool) (v : Nat) (s : State) : State :=
  match s.headOfPoint (v % 2048) with
  | none => s
  | some k =>
    if s.fld GR_HPLACE.SHAD k = 7 then s
    else
      s.modHead k (fun h =>
        match (if shadow then h.lone else h.loneShad).find? (eventsMatch v) with
        | some w => if shadow then { h with lone := h.lone.erase w } else { h with loneShad := h.loneShad.erase w }
        | none => if shadow then { h with loneShad := h.loneShad ++ [v] } else { h with lone := h.lone ++ [v] })

/-- A write to the origin ring (R610): an aligned block by a Sapwood engine is a push into the next free slot. -/
def originPush (q : Req) (whole : Bool) (v : Nat) (s : State) : State :=
  let isSe := match q with | .se _ => true | _ => false
  if !(isSe && whole) then s.reject q
  else
    let wi := s.fld BB_ORIGIDX.WI
    if ringUsed 128 wi (s.fld BB_ORIGIDX.RI) = 64 then
      (s.countFld BB_ORIGIDX.DROP 0 1).flag BB_STATUS.ORIGFULL evBB
    else
      let k := s.fld BB_ORIGBASE.BASE + wi % 64 * 16
      noteEvent false v (noteTest v ((ringStore k v s).setFld BB_ORIGIDX.WI 0 (wi + 1)))

/-- ORIGIN_PUSH (R610). -/
def execOriginPush (k : Fin 6) (v : Block) (s : State) : Host.Outcome State Fault Refusal :=
  .next (originPush (.se k) true v.toNat s)

/-- A write to the shadow ring (08 R313): pushed by Sapwood engines only. What stands in it carries SHADOW 1 (03 R140): the push sets it
(DEDUCED, assumption 146). -/
def shadowPush (q : Req) (whole : Bool) (v : Nat) (s : State) : State :=
  let isSe := match q with | .se _ => true | _ => false
  if !(isSe && whole) then s.reject q
  else
    let wi := s.fld GR_SHIDX.WI
    if ringUsed 64 wi (s.fld GR_SHIDX.RI) = 32 then
      (s.countFld GR_SHIDX.DROP 0 1).flag GR_STATUS.SHDROP evGR
    else
      let k := s.fld GR_SHBASE.BASE + wi % 32 * 16
      noteEvent true v ((ringStore k (putBit v 127 true) s).setFld GR_SHIDX.WI 0 (wi + 1))

/-- SHADOW_PUSH (08 R313). -/
def execShadowPush (k : Fin 6) (v : Block) (s : State) : Host.Outcome State Fault Refusal :=
  .next (shadowPush (.se k) true v.toNat s)

/-- The address lies in the origin ring or the shadow ring of shared RAM. -/
def State.inOrigin (s : State) (a : Nat) : Bool :=
  decide (s.fld BB_ORIGBASE.BASE ≤ a) && decide (a < s.fld BB_ORIGBASE.BASE + 1024) && s.fld BB_ORIGBASE.BASE != 0
def State.inShadow (s : State) (a : Nat) : Bool :=
  decide (s.fld GR_SHBASE.BASE ≤ a) && decide (a < s.fld GR_SHBASE.BASE + 512) && s.fld GR_SHBASE.BASE != 0

/-! ### Acknowledgements -/

/-- A new read index neither moves backward nor passes the write index (Table BB-28, counted modulo `m`). -/
def ackOk (m wi ri new : Nat) : Bool := decide (ringUsed m new ri ≤ ringUsed m wi ri)

/-- A write of BB_INBACK for bobbin `b` (R171): a rejection rejects the whole write. -/
def bbInback (q : Req) (b v : Nat) (s : State) : State :=
  if !q.voted then s.reject q
  else
    let l := BB_INBACK.LRI.of v
    let r := BB_INBACK.RRI.of v
    let ls := BB_INBACK.LSET.of v == 1
    let rs := BB_INBACK.RSET.of v == 1
    if (ls && !ackOk 32 (s.fld BB_INB.LWI b) (s.fld BB_INB.LRI b) l)
        || (rs && !ackOk 32 (s.fld BB_INB.RWI b) (s.fld BB_INB.RRI b) r) then s.flag BB_STATUS.CFGERR evBB
    else onlyIf rs (State.setFld BB_INB.RRI b r) (onlyIf ls (State.setFld BB_INB.LRI b l) s)

/-- The bobbin that a requester's BB_BOBSEL selects (00 R18). -/
def State.selBob (s : State) (q : Req) : Nat := s.fld BB_BOBSEL.BOB q.bank

/-- The holder of the lock of bobbin `b`. -/
def State.lockOf (s : State) (b : Nat) : Option LockSt := Tab.get none s.locks b

/-- The bobbin is locked by another requester (R207). -/
def State.lockedFor (s : State) (q : Req) (b : Nat) : Bool :=
  match s.lockOf b with
  | some l => l.who != q
  | none => false

/-- INBACK (R171); it waits while another requester holds the bobbin's lock (R207). -/
def execInback (q : Req) (v : Word) (s : State) : Host.Outcome State Fault Refusal :=
  asReq q s <|
  if s.lockedFor q (s.selBob q) then .next s else .next (bbInback q (s.selBob q) v.toNat s)

/-- A write of BB_ORIGIDX (R610). -/
def bbOrigidx (q : Req) (v : Nat) (s : State) : State :=
  let r := BB_ORIGIDX.RI.of v
  if q.voted && !ackOk 128 (s.fld BB_ORIGIDX.WI) (s.fld BB_ORIGIDX.RI) r then s.flag BB_STATUS.CFGERR evBB
  else writeFields q BB_ORIGIDX.fields 0 v s

/-- ORIGIN_ACK (R610). -/
def execOriginAck (q : Req) (v : Word) (s : State) : Host.Outcome State Fault Refusal :=
  asReq q s <| .next (bbOrigidx q v.toNat s)

/-- A write of GR_SHIDX (08 R313). -/
def grShidx (q : Req) (v : Nat) (s : State) : State :=
  let r := GR_SHIDX.RI.of v
  if q.voted && !ackOk 64 (s.fld GR_SHIDX.WI) (s.fld GR_SHIDX.RI) r then s.flag GR_STATUS.CFGERR evGR
  else writeFields q GR_SHIDX.fields 0 v s

/-- SHADOW_ACK (08 R313). -/
def execShadowAck (q : Req) (v : Word) (s : State) : Host.Outcome State Fault Refusal :=
  asReq q s <| .next (grShidx q v.toNat s)

/-! ### Locks (R204 to R209) -/

/-- The bobbins a requester has locked. -/
def State.heldBy (s : State) (q : Req) : List Nat :=
  s.locks.filterMap (fun p => match p.2 with | some l => if l.who = q then some p.1 else none | none => none)

/-- Lock `b` breaks the ascending order or the limit of eight (R205). -/
def State.lockBad (s : State) (q : Req) (b : Nat) : Bool :=
  (s.heldBy q).any (fun x => decide (b ≤ x)) || decide (8 ≤ (s.heldBy q).length)

/-- The request of `q` for the lock of bobbin `b` waits (R206). -/
def State.waitsLock (s : State) (q : Req) (b : Nat) : Bool := s.lockWait.any (fun w => w.who == q && w.bob == b)

/-- The request of `q` for the lock of bobbin `b` begins to wait; a wait for a lock counts as a wait (11 R445). -/
def waitLock (q : Req) (b : Nat) (s : State) : State :=
  if s.waitsLock q b then s
  else ({ s with lockWait := s.lockWait ++ [⟨q, b, s.tb⟩] } : State).countFld MI_IWAIT.WAITS (s.input q) 1

/-- The request of `q` for the lock of bobbin `b` waits no longer. -/
def unwaitLock (q : Req) (b : Nat) (s : State) : State :=
  { s with lockWait := s.lockWait.filter (fun w => !(w.who == q && w.bob == b)) }

/-- Grant the lock of bobbin `b` (BB_LOCKOWN shows the input of the holder). -/
def grantLock (q : Req) (b : Nat) (s : State) : State :=
  let s := match s.lockWait.find? (fun w => w.who == q && w.bob == b) with
    | some w => noteWait (s.input q) (s.tb - w.since) s
    | none => s
  { s with locks := Tab.set none s.locks b (some { who := q, since := s.tb }) }.setFld BB_LOCKOWN.OWNER b (s.input q)

/-- Free the lock of bobbin `b`. -/
def freeLock (b : Nat) (s : State) : State :=
  { s with locks := Tab.set none s.locks b none }.setFld BB_LOCKOWN.OWNER b 0xF

/-- What a write of BB_LOCK comes to: granted, refused with LOCKORD, or waiting for another holder (R205, R206). -/
inductive LockRes where
  | granted (s : State)
  | refused (s : State)
  | waits (s : State)

/-- The lock of bobbin `b` is not to be had by `q` now (R206): another requester holds it, or it is free and one that waits for it comes
first in the arbiter's priority order. -/
def State.lockBusy (s : State) (q : Req) (b : Nat) : Bool :=
  match s.lockOf b with
  | some l => l.who != q
  | none => s.lockWait.any (fun w => w.bob == b && w.who != q && decide (s.input q < s.input w.who))

/-- A write of BB_LOCK. An engine that has been granted the lock while it waited completes the write. -/
def bbLock (q : Req) (b : Nat) (s : State) : LockRes :=
  if s.waitsLock q b && (s.lockOf b).any (fun l => l.who == q) then .granted (unwaitLock q b s)
  else if s.lockBad q b then .refused (s.flag BB_STATUS.LOCKORD evBB)
  else if s.lockBusy q b then .waits (waitLock q b s)
  else .granted (unwaitLock q b (grantLock q b s))

/-- Requester `q` waits for a lock that it has not been granted (R206). -/
def State.waitsForLock (s : State) (q : Req) : Bool :=
  s.lockWait.any (fun w => w.who == q && (s.lockOf w.bob).all (fun l => l.who != q))

/-- A write of BB_UNLOCK: a lock not held is refused with LOCKREL. -/
def bbUnlock (q : Req) (b : Nat) (s : State) : State :=
  match s.lockOf b with
  | some l => if l.who = q then freeLock b s else s.flag BB_STATUS.LOCKREL evBB
  | none => s.flag BB_STATUS.LOCKREL evBB

/-- UNLOCK (R204): the requester releases the lock of bobbin `b`. -/
def execUnlock (q : Req) (b : BitVec 8) (s : State) : Host.Outcome State Fault Refusal :=
  asReq q s <| .next (bbUnlock q b.toNat s)

/-- The waiting request for bobbin `b` that the arbiter's priority order grants first (R206, 11 R440). -/
def State.nextWaiter (s : State) (b : Nat) : Option Req :=
  ((s.lockWait.filter (fun w => w.bob == b)).map LockReq.who).foldl (fun best q =>
    match best with
    | none => some q
    | some x => if s.input x < s.input q then some q else some x) none

/-- Every lock of a requester is released, and its waiting request withdrawn (R208, R209). -/
def dropLocks (q : Req) (s : State) : State :=
  let s := forEach (s.heldBy q) freeLock s
  { s with lockWait := s.lockWait.filter (fun w => w.who != q) }

/-- The Carrik DMA's transfer is discarded (R208, 11 Table MI-4): the frames it holds, else the dispatch of the oldest stored frame. -/
def discardTransfer (s : State) : State := if s.rxHeld.isEmpty then { s with rxq := s.rxq.tail } else { s with rxHeld := [] }

/-- LOCK_BREAK (R208, 11 R450): a host or the DMA has held a lock for LOCKMAX µs. It loses every lock; a host's
waiting access ends with the error response, cause 6, the DMA's transfer is discarded; and the interconnect watchdog masks its input. -/
def lockBreak (q : Req) (s : State) : State :=
  let first := ((s.heldBy q).filterMap (fun b => (s.lockOf b).map LockSt.since)).foldl min s.tb
  if (s.heldBy q).isEmpty then s
  else
    let s := s.advanceTo (first + s.fld BB_CTRL.LOCKMAX * 125)
    let i := s.input q
    let waits := s.waitsForLock q
    let s := (dropLocks q s).flag BB_STATUS.LOCKBRK evBB
    let s := (s.setFld MI_WDOG.INPUT 0 i).setFld MI_WDOG.CAUSE 0 2
    let s := (s.setFld MI_WDOG.BLK 0 0).setFld MI_WDTIME.TIME 0 s.nowLow
    let s := (unchoose i (s.putFbit MI_MASK.MASK 0 i true)).flag MI_STATUS.LOCKWD evMI
    match q with
    | .host p => failAccess p 6 s
    | _ => if waits then discardTransfer s else s

/-- LOCK_BREAK: `dma` the Carrik DMA, else host port `p`. -/
def execLockBreak (dma : Bool) (p : Fin 3) (s : State) : Host.Outcome State Fault Refusal :=
  .next (lockBreak (if dma then .dma else .host p) s)

/-- BB_LOCKST of a requester (Table BB-21). -/
def State.lockst (s : State) (q : Req) : Nat :=
  (s.heldBy q).foldl max 0 + (s.heldBy q).length * 256

/-! ### The command queue (R194, R195) -/

/-- A command result (R194): BB_CMDRES, and the COMMAND entry on all three host ports. -/
def cmdResult (c : Cmd) (result : Nat) (s : State) : State :=
  let s := (s.setFld BB_CMDRES.BOB 0 c.bob).setFld BB_CMDRES.CODE 0 c.code
  let s := (s.setFld BB_CMDRES.RESULT 0 result).setFld BB_CMDRES.TAG 0 c.tag
  let s := hostCommand 0 c.bob result c.tag s
  if result = 1 then s.flag BB_STATUS.CMDQ evBB else s.flag BB_STATUS.CMDDONE evBB

/-- The code names a command (Table BB-14). -/
def cmdValid (code : Nat) : Bool := (decide (1 ≤ code) && decide (code ≤ 5)) || (decide (8 ≤ code) && decide (code ≤ 11))

/-- Bobbin `b` takes commands: active, not shadow-in, and no SWITCH of it has been released (08 R327, R329). -/
def State.takesCommands (s : State) (b : Nat) : Bool :=
  let m := s.fld GR_BMODE.MODE b
  s.active b && m != 1 && !(m == 2 && (Tab.get MigSt.reset s.migs (s.fld GR_BMODE.SLOT b)).switched)

/-- A write of BB_CMDPOP (R195, Table BB-24): any voted write removes the oldest command. -/
def bbCmdpop (q : Req) (s : State) : State :=
  if !q.voted then s.reject q else { s with cmds := s.cmds.tail }

/-- CMDPOP (R195). -/
def execCmdpop (q : Req) (_v : Word) (s : State) : Host.Outcome State Fault Refusal :=
  asReq q s <| .next (bbCmdpop q s)

/-- A write of BB_CMDDONE (R195): RESULT 2, 3 or 4. -/
def bbCmddone (q : Req) (v : Nat) (s : State) : State :=
  let r := BB_CMDDONE.RESULT.of v
  if !q.voted then s.reject q
  else if 2 ≤ r ∧ r ≤ 4 then
    cmdResult { bob := BB_CMDDONE.BOB.of v, code := BB_CMDDONE.CODE.of v, tag := BB_CMDDONE.TAG.of v } r s
  else s.flag BB_STATUS.CFGERR evBB

/-- CMDDONE (R195). -/
def execCmddone (q : Req) (v : Word) (s : State) : Host.Outcome State Fault Refusal :=
  asReq q s <| .next (bbCmddone q v.toNat s)

/-- BB_CMDQ (Table BB-24). -/
def State.cmdq (s : State) : Nat :=
  match s.cmds with
  | [] => 0
  | c :: _ => c.bob + c.code * 2 ^ 8 + 2 ^ 15 + c.tag * 2 ^ 16

/-- BB_ACTIVE of word `j` (Table BB-26). -/
def State.activeWord (s : State) (j : Nat) : Nat :=
  ((List.range 32).map (fun i => bit (s.active (32 * j + i)) * 2 ^ i)).foldl (· + ·) 0

/-- A write of BB_CTRL: LOCKMAX 0 is rejected. -/
def bbCtrl (q : Req) (v : Nat) (s : State) : State :=
  if q.voted && BB_CTRL.LOCKMAX.of v == 0 then s.flag BB_STATUS.CFGERR evBB else writeFields q BB_CTRL.fields 0 v s

end Sys2Proof.Machine
end

