-- ==== Sys2Proof/Machine/Operands.lean ====
section
/-! DEFINITION. The operand forms of the Kamotte formats (Tables KM-6, KM-7): immediates, effective addresses, branch
targets, and the rule that every field an instruction does not use is 0 (09 R344). -/

namespace Sys2Proof

/-- IMM17 sign-extended, or the extension word (R351). -/
def IOp.simm (o : IOp) : Word := o.ext.getD (o.imm.signExtend 32)

/-- IMM17 zero-extended, or the extension word (R351). -/
def IOp.uimm (o : IOp) : Word := o.ext.getD (o.imm.setWidth 32)

/-- The immediate field is 0 when an extension word follows (R344). -/
def IOp.extOk (o : IOp) : Bool := o.ext.isNone || o.imm == 0#17

/-- OFF21 is 0 when an extension word follows (R344). -/
def BOp.extOk (o : BOp) : Bool := o.ext.isNone || o.off == 0#21

/-- The branch target: the branch's address plus 4 times OFF21, or the extension word (Table KM-7). -/
def BOp.target (o : BOp) (pc : Word) : Word := o.ext.getD (pc + (o.off.signExtend 32 <<< 2))

/-- Format R with D, A and B used, AUX and X 0 (R344). -/
def ROp.dab (o : ROp) : Bool := o.aux == 0#6 && !o.x

/-- Format R with D and A used. -/
def ROp.da (o : ROp) : Bool := o.b.val == 0 && o.aux == 0#6 && !o.x

/-- Format R with A and B used. -/
def ROp.ab (o : ROp) : Bool := o.d.val == 0 && o.aux == 0#6 && !o.x

/-- Format R with A used. -/
def ROp.onlyA (o : ROp) : Bool := o.d.val == 0 && o.b.val == 0 && o.aux == 0#6 && !o.x

/-- Format R with no operand used. -/
def ROp.none (o : ROp) : Bool := o.d.val == 0 && o.a.val == 0 && o.b.val == 0 && o.aux == 0#6 && !o.x

/-- Format R with D, A and AUX[4:0] used (the immediate shifts). -/
def ROp.da5 (o : ROp) : Bool := o.b.val == 0 && decide (o.aux.toNat < 32) && !o.x

/-- The profiles of Table KM-1: 0 Heartwood, 1 Sapwood, 2 Root. -/
def Eng.isProfile (e : Eng) (p : Nat) : Bool :=
  match e with
  | .se _ => p == 1
  | .root => p == 2
  | _ => p == 0

end Sys2Proof

namespace Sys2Proof.Machine

/-- The words an instruction occupies: two with an extension word (R345). -/
def wordsOf (ext : Option Word) : Nat := if ext.isSome then 2 else 1

/-- A block register number: 0, 4 or 8 (Table KM-8). -/
def blockReg (d : Fin 16) : Bool := d.val == 0 || d.val == 4 || d.val == 8

/-- An even register number of at most 12 (R372, R375). -/
def pairReg (d : Fin 16) : Bool := d.val % 2 == 0 && decide (d.val ≤ 12)

end Sys2Proof.Machine
end

