-- ==== Sys2Proof/Machine/FrontEnd.lean ====
section
/-! DEFINITION. The commands that write and read the front end's registers (02 R57 to R104): excitation, routing, control,
retirement, diagnostics, gain, test injection, the result window, and the end of a diagnostic. -/

namespace Sys2Proof.Machine

/-! ### Routing, spacing and budget (R57 to R63) -/

/-- The excitation last accepted for a system, in its FE_EXC fields: what routing, spacing and budget are checked for. -/
def State.target (s : State) (i : Nat) : Exc :=
  { mode := s.fld FE_EXC.MODE i, ipk := s.fld FE_EXC.IPK i, freq := s.fld FE_EXC.FREQ i }

/-- The excitations that system `i` has or may come to without another write: the one in force, one due, one staged, and the one in its
FE_EXC fields. R58 to R61 are checked for each of them, so that no launch or deferral brings the front end against them (DEDUCED,
assumption 163). -/
def State.excs (s : State) (i : Nat) : List Exc :=
  let x := s.sys i
  [x.exc, s.target i] ++ x.due.toList ++ x.staged.toList

/-- System `i` is not off, or may come to be without another write. -/
def State.notOff (s : State) (i : Nat) : Bool := (s.excs i).any (fun e => e.mode != 0)

/-- The field pins of a system: SENP, SENN, EXCP, EXCN. -/
def State.pins (s : State) (i : Nat) : List Nat :=
  [s.fld FE_ROUTE0.SENP i, s.fld FE_ROUTE0.SENN i, s.fld FE_ROUTE0.EXCP i, s.fld FE_ROUTE0.EXCN i]

/-- Table FE-3: the pin rule of the wiring mode; and R58 within the system: but for the pins that the table makes equal, a pin has one
role. -/
def State.wiringOk (s : State) (i : Nat) : Bool :=
  let senp := s.fld FE_ROUTE0.SENP i
  let senn := s.fld FE_ROUTE0.SENN i
  let excp := s.fld FE_ROUTE0.EXCP i
  let excn := s.fld FE_ROUTE0.EXCN i
  match s.fld FE_ROUTE1.WIRES i with
  | 0 => senp == excp && senn == excn && excp != excn
  | 1 => senn == excn && decide [senp, excp, excn].Nodup
  | 2 => decide [senp, senn, excp, excn].Nodup
  | _ => false

/-- Pair partners share the return pin EXCN. -/
def State.sharesReturn (s : State) (i : Nat) : Bool :=
  s.fld FE_ROUTE0.EXCN i == s.fld FE_ROUTE0.EXCN (partner i)

/-- The pins two systems have in common are allowed by R58: none, or between partners the shared return pin, named as return
and in the two- and three-wire modes as SENN alone. -/
def State.pinsOk (s : State) (i j : Nat) : Bool :=
  let common := (s.pins i).filter (fun p => (s.pins j).contains p)
  if j = partner i && s.sharesReturn i then
    let r := s.fld FE_ROUTE0.EXCN i
    common.all (fun p => p == r)
      && [i, j].all (fun x => s.fld FE_ROUTE0.SENP x != r && s.fld FE_ROUTE0.EXCP x != r)
  else common.isEmpty

/-- The routing of a system that is switched on keeps Table FE-3 and R58 (R60). -/
def State.routingOk (s : State) (i : Nat) : Bool :=
  s.wiringOk i && (List.range 64).all (fun j => j == i || !s.notOff j || s.pinsOk i j)

/-- Two excitations of partners on one return keep R59: one is off, or both are carriers at least 4 kHz apart. -/
def Exc.apart (e p : Exc) : Bool :=
  e.mode == 0 || p.mode == 0
    || (e.mode == 2 && p.mode == 2 && (decide (p.freq + 4 ≤ e.freq) || decide (e.freq + 4 ≤ p.freq)))

/-- Partners that share a return and are both not off run carriers at least 4 kHz apart (R59), with `e` for system `i`. -/
def State.spacingOk (s : State) (i : Nat) (e : Exc) : Bool :=
  e.mode == 0 || !s.sharesReturn i || (s.excs (partner i)).all e.apart

/-- What an excitation takes from the budget, in 62.5 µA (R63): IPK or 1 mA, whichever is larger. -/
def Exc.cost (e : Exc) : Nat := if e.mode = 0 then 0 else max e.ipk 16

/-- The most that system `j` may take from the budget as it stands: the excitation in force, one due and one staged, whichever costs
most. A reduction counts once it is in force (R63: FE_BUDGET shows the sum in force). -/
def SysSt.claim (x : SysSt) : Nat :=
  max x.exc.cost (max ((x.due.map Exc.cost).getD 0) ((x.staged.map Exc.cost).getD 0))

/-- The sum of R63 with `e` accepted for system `i`. -/
def State.budgetWith (s : State) (i : Nat) (e : Exc) : Nat :=
  ((List.range 64).map (fun j => if j = i then max (s.sys j).exc.cost e.cost else (s.sys j).claim)).foldl (· + ·) 0

/-- The sum of R63 as it stands. -/
def State.budgetNow (s : State) : Nat := ((List.range 64).map (fun j => (s.sys j).claim)).foldl (· + ·) 0

/-- The sum in force that FE_BUDGET shows (R63). -/
def State.budgetUsed (s : State) : Nat := ((List.range 64).map (fun j => (s.sys j).exc.cost)).foldl (· + ·) 0

/-! ### FE_EXC (R60, R63, R65) -/

/-- The excitation a written value names (Table FE-28). -/
def excOf (v : Nat) : Exc := { mode := FE_EXC.MODE.of v, ipk := FE_EXC.IPK.of v, freq := FE_EXC.FREQ.of v }

/-- The write breaks a span of Table FE-28, other than FREQ: rejected with CFGERR. -/
def Exc.badSpan (e : Exc) : Bool := e.mode == 3 || decide (256 < e.ipk)

/-- The write breaks FREQ's span, R59 or R63: rejected with EXCERR. -/
def State.excErr (s : State) (i : Nat) (e : Exc) : Bool :=
  e.mode != 0
    && ((e.mode == 2 && !(decide (10 ≤ e.freq) && decide (e.freq ≤ 50)))
      || !s.spacingOk i e
      || (decide (8192 < s.budgetWith i e) && decide (s.budgetNow < s.budgetWith i e)))

/-- The write switches the system on against Table FE-3 or R58: rejected with ROUTEERR. -/
def State.routeErr (s : State) (i : Nat) (e : Exc) : Bool :=
  e.mode != 0 && s.fld FE_EXC.MODE i == 0 && !s.routingOk i

/-- Accept a change: the fields read the written value; it waits for the next grid instant, or with ARM 1 for a launch. A staged change
leaves a committed one that is not in force yet, and a committed one leaves a staged one (R65). -/
def acceptExc (i : Nat) (e : Exc) (arm : Bool) (s : State) : State :=
  let s := (showExc i e s).setFld FE_EXC.ARM i (bit arm)
  s.modSys i (fun x =>
    if arm then { x with staged := some e } else { x with due := some e, dueCounted := false })

/-- A write of FE_EXC (R60, R63, R65). A write that sets MODE to off is never refused by the checks. -/
def feExc (q : Req) (i v : Nat) (s : State) : State :=
  if !q.voted then writeFields q FE_EXC.fields i v s
  else
    let e := excOf v
    if e.badSpan then s.flag FE_STATUS.CFGERR evFE
    else
      let r := s.routeErr i e
      let x := s.excErr i e
      if r || x then onlyIf x (State.flag FE_STATUS.EXCERR evFE) (onlyIf r (State.flag FE_STATUS.ROUTEERR evFE) s)
      else acceptExc i e (FE_EXC.ARM.of v == 1) s

/-- The system that a requester's FE_SYSSEL selects (R18). -/
def State.selSys (s : State) (q : Req) : Nat := s.fld FE_SYSSEL.SYS q.bank

/-- EXCITATION_WRITE (R60): a write of FE_EXC with ARM 0, for the writer's selected system. -/
def execExcitationWrite (q : Req) (v : Word) (s : State) : Host.Outcome State Fault Refusal :=
  asReq q s <|
  .next (feExc q (s.selSys q) (putBit v.toNat 24 false) s)

/-- EXCITATION_STAGE (R65): a write of FE_EXC with ARM 1. -/
def execExcitationStage (q : Req) (v : Word) (s : State) : Host.Outcome State Fault Refusal :=
  asReq q s <|
  .next (feExc q (s.selSys q) (putBit v.toNat 24 true) s)

/-! ### Routing (R61) -/

/-- A write of FE_ROUTE0 (`hi` false) or FE_ROUTE1: only while the system is off; BURN 0b11 is a value out of span. Table FE-3 says of
WIRES 0b11 that it is rejected, and not which bit shows it: ROUTEERR (DESIGN CHOICE, assumption 166). -/
def feRoute (q : Req) (hi : Bool) (i v : Nat) (s : State) : State :=
  let fs := if hi then FE_ROUTE1.fields else FE_ROUTE0.fields
  if !q.voted then writeFields q fs i v s
  else if s.notOff i then s.flag FE_STATUS.ROUTEERR evFE
  else if hi && FE_ROUTE1.WIRES.of v == 3 then s.flag FE_STATUS.ROUTEERR evFE
  else if hi && FE_ROUTE1.BURN.of v == 3 then s.flag FE_STATUS.CFGERR evFE
  else writeFields q fs i v s

/-- ROUTE_WRITE (R61). -/
def execRouteWrite (q : Req) (hi : Bool) (v : Word) (s : State) : Host.Outcome State Fault Refusal :=
  asReq q s <|
  .next (feRoute q hi (s.selSys q) v.toNat s)

/-! ### FE_CTRL (R74, R101, Table FE-6) -/

/-- Table FE-4: the notch combinations of an averaging window (bit 0: 16.7 Hz, bit 1: 50 Hz, bit 2: 60 Hz). -/
def notchOk (auxt notch : Nat) : Bool :=
  match auxt with
  | 0 => notch == 0 || notch == 2
  | 1 => notch == 0 || notch == 1 || notch == 2 || notch == 3
  | 2 => notch == 0 || notch == 2 || notch == 4 || notch == 6
  | _ => true

/-- A write of FE_CTRL: Table FE-4 and MUXSET 2 to 12, else CFGERR; a rise of RUN starts each running system's settling delay
and its comparator, a fall stops the comparators (Tables FE-6, WD-10). The budget of R63 does not depend on FE_CTRL. -/
def feCtrl (q : Req) (v : Nat) (s : State) : State :=
  if !q.voted then writeFields q FE_CTRL.fields 0 v s
  else
    let m := FE_CTRL.MUXSET.of v
    if !notchOk (FE_CTRL.AUXT.of v) (FE_CTRL.NOTCH.of v) || decide (m < 2) || decide (12 < m) then
      s.flag FE_STATUS.CFGERR evFE
    else
      let rise := !s.isSet FE_CTRL.RUN && FE_CTRL.RUN.of v == 1
      let s := writeFields q FE_CTRL.fields 0 v s
      let s := onlyIf rise (forEach ((List.range 64).filter (fun i => (s.sys i).exc.mode != 0)) startSettle) s
      forEach (List.range 64) refreshCmp s

/-- FE_CTRL_WRITE (R74). -/
def execFeCtrlWrite (q : Req) (v : Word) (s : State) : Host.Outcome State Fault Refusal :=
  asReq q s <| .next (feCtrl q v.toNat s)

/-! ### Retirement requests (R97) -/

/-- A write of FE_RETIRE: above 71 CFGERR; a slice pending or retired already: no effect. -/
def feRetire (q : Req) (v : Nat) (s : State) : State :=
  if !q.voted then s.reject q
  else
    let k := FE_RETIRE.SLICE.of v
    if 71 < k then s.flag FE_STATUS.CFGERR evFE
    else if s.slice k ≠ 0 then s
    else (s.setSlice k 1).modSys k (fun x => { x with retCounted := false })

/-- RETIREMENT_REQUEST (R97). -/
def execRetirementRequest (q : Req) (v : Word) (s : State) : Host.Outcome State Fault Refusal :=
  asReq q s <|
  .next (feRetire q v.toNat s)

/-! ### Diagnostics (R92 to R95) -/

/-- FE_DIAG shows the request (Table FE-33). -/
def showDiag (i : Nat) (s : State) : State :=
  let d := (s.sys i).diag
  let pend := match d with | some x => !x.running | none => false
  let busy := match d with | some x => x.running | none => false
  (s.setFld FE_DIAG.PEND i (bit pend)).setFld FE_DIAG.BUSY i (bit busy)

/-- A write of FE_DIAG.KIND: rejected for kinds 6 and 7, while one is pending or running, and for kind 4 without a free mux
position. Table FE-8 gives kind 0 to three- and four-wire systems; the spec does not say that a two-wire system's request is rejected,
and it is accepted (DESIGN CHOICE, assumption 136). -/
def feDiag (q : Req) (i v : Nat) (s : State) : State :=
  if !q.voted then s.reject q
  else
    let k := FE_DIAG.KIND.of v
    if decide (5 < k) || (s.sys i).diag.isSome || (k == 4 && s.freeMux.isNone) then s.flag FE_STATUS.DIAGREJ evFE
    else showDiag i (s.modSys i (fun x => { x with diag := some { kind := k, running := false, counted := false, ready := 0, pos := none } }))

/-- DIAGNOSTIC_REQUEST (R92). -/
def execDiagnosticRequest (q : Req) (v : Word) (s : State) : Host.Outcome State Fault Refusal :=
  asReq q s <|
  .next (feDiag q (s.selSys q) v.toNat s)

/-- The measured lead `v` replaces LEADR in three-wire mode with AUTO set (R82). A result outside the register's span leaves
a value that the spec does not state (assumption 46). -/
def leadReplace (i : Nat) (v : Int) (s : State) : State :=
  if s.fld FE_ROUTE1.WIRES i = 1 && s.isSet FE_LEAD.AUTO i then
    let old := s.fld FE_LEAD.LEADR i
    let p := if 0 ≤ v ∧ v < 65536 then (v.toNat, s) else s.fresh
    let new := p.1 % 65536
    let d := if old < new then new - old else old - new
    let s := (p.2.setFld FE_LEAD.LEADR i new).setFld FE_LEAD.SRC i 1
    onlyIf (decide (old < d * 10) || decide (200 < d)) (State.flag FE_STATUS.LEADJUMP evFE) s
  else s

/-! ### Gain (R76, R77) -/

/-- A request for range `r` (R76): the range pending already is no new request; the range in force cancels a pending one. -/
def requestRange (i r : Nat) (s : State) : State :=
  if r = s.fld FE_GAIN.RANGE i then (s.setFld FE_GAIN.PEND i 0).setFld FE_GAIN.PRANGE i 0
  else if s.isSet FE_GAIN.PEND i && s.fld FE_GAIN.PRANGE i == r then s
  else ((s.setFld FE_GAIN.PEND i 1).setFld FE_GAIN.PRANGE i r).modSys i (fun x => { x with rngCounted := false })

/-- A write of FE_GAIN: with AUTO clear it requests FIX. -/
def feGain (q : Req) (i v : Nat) (s : State) : State :=
  let s := writeFields q FE_GAIN.fields i v s
  if q.voted && FE_GAIN.AUTO.of v == 0 then requestRange i (FE_GAIN.FIX.of v) s else s

/-- GAIN_REQUEST (R76): a write of FE_GAIN. -/
def execGainRequest (q : Req) (v : Word) (s : State) : Host.Outcome State Fault Refusal :=
  asReq q s <|
  .next (feGain q (s.selSys q) v.toNat s)

/-! ### The other registers of a system -/

/-- A write of FE_TEST: DUR 0 is rejected (Table FE-34). -/
def feTest (q : Req) (i v : Nat) (s : State) : State :=
  if q.voted && FE_TEST.DUR.of v == 0 then s.flag FE_STATUS.CFGERR evFE else writeFields q FE_TEST.fields i v s

/-- TEST_ARM (R71): a write of FE_TEST with ARM 1. -/
def execTestArm (q : Req) (v : Word) (s : State) : Host.Outcome State Fault Refusal :=
  asReq q s <|
  .next (feTest q (s.selSys q) (putBit v.toNat 24 true) s)

/-- A write of FE_LEAD: SRC reads written (Table FE-32). -/
def feLead (q : Req) (i v : Nat) (s : State) : State :=
  let s := writeFields q FE_LEAD.fields i v s
  onlyIf q.voted (State.setFld FE_LEAD.SRC i 0) s

/-- A read of FE_RESULT (R104): the latest word of the system, its grid instant latched into the reader's FE_RESTIME. -/
def feResult (q : Req) (i : Nat) (s : State) : Nat × State :=
  (s.fld FE_RESULT.WORD i, s.setFld FE_RESTIME.TIME q.bank (s.sys i).wordTime)

/-- RESULT_READ (R104): a read of FE_RESULT by requester `q` through its own FE_SYSSEL. -/
def execResultRead (q : Req) (s : State) : Host.Outcome State Fault Refusal :=
  asReq q s <|
  .next (deliver q (feResult q (s.selSys q) s))

end Sys2Proof.Machine
end

