-- ==== Sys2Proof/Machine/CheckValue.lean ====
section
/-! DEFINITION. The check-value units CV0 to CV7 (11 R452 to R460, Tables CV-1 to CV-6), and the cyclic check values
that boot and Carrik compute with the same arithmetic. -/

namespace Sys2Proof.Machine

/-- The low `w` bits of `v` in reverse order. -/
def revBits (w v : Nat) : Nat :=
  (List.range w).foldl (fun a i => a * 2 + (v / 2 ^ i) % 2) 0

/-- One bit of the division of R452. -/
def crcBit (w poly crc : Nat) : Nat :=
  if crc.testBit (w - 1) then ((crc * 2) ^^^ poly) % 2 ^ w else crc * 2 % 2 ^ w

/-- One byte fed to the running register (R452). -/
def crcByte (w poly : Nat) (refin : Bool) (crc b : Nat) : Nat :=
  let b := if refin then revBits 8 b else b
  let c := crc ^^^ (b * 2 ^ (w - 8) % 2 ^ w)
  (List.range 8).foldl (fun a _ => crcBit w poly a) c

/-- A list of bytes fed in order. -/
def crcBytes (w poly : Nat) (refin : Bool) (crc : Nat) (l : List Byte) : Nat :=
  l.foldl (fun c b => crcByte w poly refin c b.toNat) crc

/-- CRC-32C as the image and the tables carry it: polynomial 0x1EDC6F41, reflected, all ones before and after
(16 R570). -/
def crc32c (l : List Byte) : Nat := revBits 32 (crcBytes 32 0x1EDC6F41 true 0xFFFFFFFF l) ^^^ 0xFFFFFFFF

/-- The hidden state of unit `u`. -/
def State.cv (s : State) (u : Nat) : CvUnit := Tab.get CvUnit.reset s.cvs u

/-- Change the hidden state of unit `u`. -/
def State.modCv (u : Nat) (f : CvUnit → CvUnit) (s : State) : State :=
  { s with cvs := Tab.set CvUnit.reset s.cvs u (f (s.cv u)) }

/-- The unit belongs to Carrik (R457, Table CV-1). -/
def State.cvCarrik (s : State) (u : Nat) : Bool := decide (u < 6) && s.isSet CK_CTRL.RUN

/-- The owner code of unit `u` in CV_OWNST (Table CV-3). -/
def State.cvOwnCode (s : State) (u : Nat) : Nat :=
  if s.cvCarrik u then 0xE
  else match (s.cv u).owner with
    | some q => s.input q
    | none => 0xF

/-- CV_OWNST. -/
def State.cvOwnst (s : State) : Nat := (List.range 8).foldl (fun a u => a + s.cvOwnCode u * 16 ^ u) 0

/-- The requester owns the unit (R456). -/
def State.cvOwns (s : State) (q : Req) (u : Nat) : Bool := !s.cvCarrik u && (s.cv u).owner == some q

/-- The unit absorbs every byte fed (R454). -/
def cvAbsorb (u : Nat) (s : State) : State :=
  let s := s.modCv u (fun c =>
    { c with crc := BitVec.ofNat 32 (crcBytes c.width c.poly.toNat c.refin c.crc.toNat c.bytes), bytes := [] })
  s.setFld CV_UST.BUSY u 0

/-- The result over the bytes absorbed (R452). -/
def State.cvResult (s : State) (u : Nat) : Nat :=
  let c := s.cv u
  let r := if s.isSet CV_CFG.REFOUT u then revBits c.width c.crc.toNat else c.crc.toNat
  (r ^^^ s.fld CV_XOROUT.XOROUT u) % 2 ^ c.width

/-- A write from a requester that does not own the unit (R456): no effect, OWNREJ, counted. -/
def cvNotOwner (q : Req) (s : State) : State := (s.setFld CV_STATUS.OWNREJ 0 1).reject q

/-- A rejected value (R453). -/
def cvCfgErr (s : State) : State := s.setFld CV_STATUS.CFGERR 0 1

/-- CV_CMD.INIT = 1 (R452, R453): the running register takes INIT, and WIDTH, POLY and REFIN come into force. -/
def cvInit (u : Nat) (s : State) : State :=
  let w := s.fld CV_CFG.WIDTH u
  let s := s.modCv u (fun c =>
    { c with crc := BitVec.ofNat 32 (s.fld CV_INIT.INIT u % 2 ^ w), width := w,
             poly := BitVec.ofNat 32 (s.fld CV_POLY.POLY u % 2 ^ w), refin := s.isSet CV_CFG.REFIN u })
  s.setFld CV_UST.NBYTES u 0

/-- The CV event to the unit's owner and to the Root engine (R458). -/
def cvEvent (u : Nat) (s : State) : State :=
  let s := match (s.cv u).owner with
    | some (.se k) => s.pendEng (Eng.se k).idx evCV
    | some .hw => s.toHeart (.event evCV)
    | some .splitA => s.pendEng 0 evCV
    | some .splitB => s.pendEng 1 evCV
    | _ => s
  s.pendEng 9 evCV

/-- CV_CMD.CMP = 1 (R455): the result against CV_EXPECT. -/
def cvCompare (u : Nat) (s : State) : State :=
  if s.cvResult u = s.fld CV_EXPECT.EXPECT u % 2 ^ (s.cv u).width then
    (s.setFld CV_UST.LAST u 1).putFbit CV_STATUS.MATCH 0 u true
  else
    cvEvent u ((s.setFld CV_UST.LAST u 2).putFbit CV_STATUS.MISM 0 u true)

/-- A write of CV_CMD by the owner: INIT, then CMP (Table CV-6). -/
def cvCommand (u : Nat) (init cmp : Bool) (s : State) : State :=
  onlyIf cmp (cvCompare u) (onlyIf init (cvInit u) (cvAbsorb u s))

/-- A feed of `n` bytes of `v`, lowest first (R454). -/
def cvFeed (u n v : Nat) (s : State) : State :=
  let s := cvAbsorb u s
  let bs := (List.range n).map (fun i => BitVec.ofNat 8 (v / 256 ^ i))
  let s := s.modCv u (fun c => { c with bytes := bs })
  (s.setFld CV_UST.BUSY u 1).countFld CV_UST.NBYTES u n

/-- A write of CV_CLAIM (R456, Table CV-6). -/
def cvClaim (q : Req) (u : Nat) (claim release : Bool) (s : State) : State :=
  match q with
  | .host _ => cvNotOwner q s
  | _ =>
    if claim && release then cvCfgErr s
    else if claim then
      if s.cvCarrik u then s.setFld CV_STATUS.OWNREJ 0 1
      else match (s.cv u).owner with
        | none => s.modCv u (fun c => { c with owner := some q })
        | some o => if o = q then s else s.setFld CV_STATUS.OWNREJ 0 1
    else if s.cvOwns q u then
      onlyIf release (State.modCv u (fun c => { c with owner := none })) s
    else cvNotOwner q s

/-- A value of a width-limited register (R453). -/
def cvFits (s : State) (u v : Nat) : Bool := decide (v < 2 ^ s.fld CV_CFG.WIDTH u)

/-- A write of CV_CFG: WIDTH 8 to 32, and the values held must fit it (R453). -/
def cvCfgOk (s : State) (u v : Nat) : Bool :=
  let w := CV_CFG.WIDTH.of v
  decide (8 ≤ w) && decide (w ≤ 32) && decide (s.fld CV_POLY.POLY u < 2 ^ w) && decide (s.fld CV_INIT.INIT u < 2 ^ w)
    && decide (s.fld CV_XOROUT.XOROUT u < 2 ^ w) && decide (s.fld CV_EXPECT.EXPECT u < 2 ^ w)

/-- A write to a register of the requester's selected unit, by register offset (R453 to R456). A unit that absorbs bytes
makes the write wait, so the bytes are absorbed first (R454). -/
def cvWrite (q : Req) (u off v : Nat) (s : State) : State :=
  if off = 0x12C then cvClaim q u (v.testBit 0) (v.testBit 1) (cvAbsorb u s)
  else if !s.cvOwns q u then cvNotOwner q s
  else
    let s := cvAbsorb u s
    if off = 0x100 then
      if cvCfgOk s u v then writeFields q CV_CFG.fields u v s else cvCfgErr s
    else if off = 0x104 then if cvFits s u v then s.setFld CV_POLY.POLY u v else cvCfgErr s
    else if off = 0x108 then if cvFits s u v then s.setFld CV_INIT.INIT u v else cvCfgErr s
    else if off = 0x10C then if cvFits s u v then s.setFld CV_XOROUT.XOROUT u v else cvCfgErr s
    else if off = 0x110 then cvFeed u 1 v s
    else if off = 0x114 then cvFeed u 2 v s
    else if off = 0x118 then cvFeed u 4 v s
    else if off = 0x120 then if cvFits s u v then s.setFld CV_EXPECT.EXPECT u v else cvCfgErr s
    else if off = 0x124 then cvCommand u (v.testBit 0) (v.testBit 1) s
    else s

/-- The unit the requester has selected (R18). -/
def State.cvSel (s : State) (q : Req) : Nat := s.fld CV_CVSEL.UNIT q.bank

/-- A read of CV_RESULT: it waits until every byte fed is absorbed (R454). -/
def cvReadResult (u : Nat) (s : State) : Nat × State :=
  let s := cvAbsorb u s
  let r := s.cvResult u
  (r, s.setFld CV_RESULT.RESULT u r)

/-! ### The commands -/

/-- UNIT_CLAIM: a write of CV_CLAIM.CLAIM = 1 (R456). -/
def execUnitClaim (q : Req) (s : State) : Host.Outcome State Fault Refusal :=
  asReq q s <|
  .next (cvWrite q (s.cvSel q) 0x12C 1 s)

/-- UNIT_RELEASE: a write of CV_CLAIM.RELEASE = 1 (R456). -/
def execUnitRelease (q : Req) (s : State) : Host.Outcome State Fault Refusal :=
  asReq q s <|
  .next (cvWrite q (s.cvSel q) 0x12C 2 s)

/-- CV_INIT: a write of CV_CMD.INIT = 1 (R452). -/
def execCvInit (q : Req) (s : State) : Host.Outcome State Fault Refusal :=
  asReq q s <|
  .next (cvWrite q (s.cvSel q) 0x124 1 s)

/-- CV_COMPARE: a write of CV_CMD.CMP = 1 (R455). -/
def execCvCompare (q : Req) (s : State) : Host.Outcome State Fault Refusal :=
  asReq q s <|
  .next (cvWrite q (s.cvSel q) 0x124 2 s)

/-- DATA_FEED: a write of CV_DATA8, CV_DATA16 or CV_DATA32 (R454), by `width` 0, 1 or 2. -/
def execDataFeed (q : Req) (width : Fin 3) (v : Word) (s : State) : Host.Outcome State Fault Refusal :=
  asReq q s <|
  .next (cvWrite q (s.cvSel q) (0x110 + 4 * width.val) v.toNat s)

/-- ABSORB_COMPLETE: the unit finishes absorbing (R454). -/
def execAbsorbComplete (u : Fin 8) (s : State) : Host.Outcome State Fault Refusal :=
  .next (cvAbsorb u.val s)

/-- CV_RESULT_READ: a read of CV_RESULT (R454). -/
def execCvResultRead (q : Req) (s : State) : Host.Outcome State Fault Refusal :=
  asReq q s <|
  .next (deliver q (cvReadResult (s.cvSel q) s))

end Sys2Proof.Machine
end

