-- ==== Sys2Proof/Machine/Pricking.lean ====
section
/-! DEFINITION. The pricking and the point map as tables of the image, the timing of a ring, and the checks of an image that
concern one pricking (07 R270, R278, R288, Tables CK-2, CK-9 to CK-11; 04 Table BB-3). -/

namespace Sys2Proof.Machine

/-! ### The table (Tables CK-9 to CK-11) -/

/-- A pricking read from the table at an address: the fields of Table CK-9, the position entries and the slot entries. -/
structure Prick where
  kind : Nat
  version : Nat
  ring : Nat
  npos : Nat
  nslot : Nat
  cycle : Nat
  field : Nat
  grel : Nat
  acctol : Nat
  lbase : Nat
  cslot : Nat
  intn : Nat
  rsv : Nat
  gres : Nat
  pid : Nat
  positions : List Nat
  slots : List Nat

/-- Read the pricking at address `a`. -/
def State.readPrick (s : State) (a : Nat) : Prick :=
  let n := s.rd (a + 5) 1
  let m := s.rd (a + 6) 2
  { kind := s.rd a 2, version := s.rd (a + 2) 2, ring := s.rd (a + 4) 1, npos := n, nslot := m, cycle := s.rd (a + 8) 1,
    field := s.rd (a + 9) 1, grel := s.rd (a + 0xA) 2, acctol := s.rd (a + 0xC) 2, lbase := s.rd (a + 0xE) 2,
    cslot := s.rd (a + 0x10) 4, intn := s.rd (a + 0x14) 1, rsv := s.rd (a + 0x15) 1, gres := s.rd (a + 0x16) 2,
    pid := s.rd (a + 0x18) 4, positions := (List.range n).map (fun k => s.rd (a + 0x1C + 8 * k) 8),
    slots := (List.range m).map (fun j => s.rd (a + 0x1C + 8 * n + 8 * j) 8) }

/-- A position entry's fields (Table CK-10). -/
def posNode (p : Nat) : Nat := bitsOf p 0 10
/-- Bit COLD. -/
def posCold (p : Nat) : Bool := p.testBit 10
/-- Bit BRIDGE. -/
def posBridge (p : Nat) : Bool := p.testBit 11
/-- LINKD. -/
def posLinkd (p : Nat) : Nat := bitsOf p 16 16
/-- SEED. -/
def posSeed (p : Nat) : Nat := bitsOf p 32 32

/-- A slot entry's fields (Table CK-11). -/
def slotStart (x : Nat) : Nat := bitsOf x 0 22
/-- KIND. -/
def slotKind (x : Nat) : Nat := bitsOf x 22 2
/-- OWNER. -/
def slotOwner (x : Nat) : Nat := bitsOf x 24 7
/-- LEN. -/
def slotLen (x : Nat) : Nat := bitsOf x 32 21
/-- FLEN. -/
def slotFlen (x : Nat) : Nat := bitsOf x 53 11

/-- Position `k` of a pricking. -/
def Prick.pos (p : Prick) (k : Nat) : Nat := p.positions[k]?.getD 0
/-- Slot `j` of a pricking, if it has it. -/
def Prick.slot (p : Prick) (j : Nat) : Option Nat := p.slots[j]?

/-- The cycle length in TU. -/
def Prick.len (p : Prick) : Nat := 312500 * 2 ^ p.cycle
/-- Byte time in TU (Table CK-2). -/
def Prick.byte (p : Prick) : Nat := if p.field = 1 then 100 else 1
/-- dur(FLEN). -/
def Prick.dur (p : Prick) (flen : Nat) : Nat := (flen + 20) * p.byte
/-- Relay latency. -/
def Prick.lat (p : Prick) : Nat := if p.field = 1 then 3400 else 80
/-- Relay jitter J. -/
def Prick.jit (p : Prick) : Nat := if p.field = 1 then 40 else 2
/-- Least slot length. -/
def Prick.least (p : Prick) : Nat := if p.field = 1 then 10000 else 500

/-- The links a frame of `owner` has crossed at position `n`, on the port that faces lower positions (`low`), or higher. -/
def Prick.hops (p : Prick) (owner n : Nat) (low : Bool) : Nat :=
  if p.npos = 0 then 0 else if low then (n + p.npos - owner % p.npos) % p.npos else (owner + p.npos - n % p.npos) % p.npos

/-- The arrival offset A over `h` links: the sum of LINKD and h − 1 relay latencies. -/
def Prick.offset (p : Prick) (owner n : Nat) (low : Bool) : Nat :=
  let h := p.hops owner n low
  let from_ := if low then owner else n
  ((List.range h).map (fun i => posLinkd (p.pos ((from_ + i) % p.npos)))).foldl (· + ·) 0 + (h - 1) * p.lat

/-- The links that a frame of `owner` has crossed on its way into position `n`: all of them where it returns to its owner. -/
def Prick.hopsInto (p : Prick) (owner n : Nat) (low : Bool) : Nat :=
  let h := p.hops owner n low
  if h = 0 then p.npos else h

/-- The arrival offset of a frame of `owner` at position `n`, its own return among them. -/
def Prick.offsetInto (p : Prick) (owner n : Nat) (low : Bool) : Nat :=
  let h := p.hopsInto owner n low
  let from_ := if low then owner else n
  ((List.range h).map (fun i => posLinkd (p.pos ((from_ + i) % p.npos)))).foldl (· + ·) 0 + (h - 1) * p.lat

/-- The full ring latency (R299). -/
def Prick.round (p : Prick) : Nat := (p.positions.map posLinkd).foldl (· + ·) 0 + (p.npos - 1) * p.lat

/-- The slots of a kind that a position owns, as indexes in ascending START. -/
def Prick.own (p : Prick) (n kind : Nat) : List Nat :=
  (List.range p.slots.length).filter (fun j =>
    match p.slot j with
    | some x => slotOwner x == n && slotKind x == kind
    | none => false)

/-! ### The rings of this node (R270, Table CK-20) -/

/-- The address of the pricking of ring `r` (0 home, 1 bridged). -/
def State.prickAddr (s : State) (r : Nat) : Option Nat := s.table 7 r

/-- The pricking of ring `r`. -/
def State.prick (s : State) (r : Nat) : Option Prick := (s.prickAddr r).map s.readPrick

/-- This node's position in ring `r`. -/
def State.myPos (s : State) (r : Nat) : Nat := if r = 0 then s.fld CK_RING.POS else s.fld CK_RING2.POS

/-- Ring `r` is joined. -/
def State.joined (s : State) (r : Nat) : Bool := if r = 0 then s.isSet CK_RING.VALID else s.isSet CK_RING2.VALID

/-- The cycle length of ring `r`. -/
def State.ringLen (s : State) (r : Nat) : Nat := 312500 * 2 ^ (if r = 0 then s.fld CK_RING.CYCLE else s.fld CK_RING2.CYCLE)

/-- The two ports of ring `r`: toward higher positions (T0, F0, T2) and toward lower positions (T1, F1, T3). -/
def State.ringPorts (s : State) (r : Nat) : Nat × Nat :=
  if r = 1 then (2, 3) else if s.isSet CK_RING.FIELD then (4, 5) else (0, 1)

/-- The ring that port `p` carries. -/
def State.portRing (s : State) (p : Nat) : Option Nat :=
  if s.joined 0 && ((s.ringPorts 0).1 == p || (s.ringPorts 0).2 == p) then some 0
  else if s.joined 1 && (p == 2 || p == 3) then some 1
  else none

/-- The hidden state of ring `r`. -/
def State.ring (s : State) (r : Nat) : RingSt := Tab.get RingSt.reset s.rings r

/-- Change the hidden state of ring `r`. -/
def State.modRing (r : Nat) (f : RingSt → RingSt) (s : State) : State :=
  { s with rings := Tab.set RingSt.reset s.rings r (f (s.ring r)) }

/-- The hidden state of port `p`. -/
def State.link (s : State) (p : Nat) : PortSt := Tab.get PortSt.reset s.links p

/-- Change the hidden state of port `p`. -/
def State.modLink (p : Nat) (f : PortSt → PortSt) (s : State) : State :=
  { s with links := Tab.set PortSt.reset s.links p (f (s.link p)) }

/-- CK_NODEST or CK_NODEST2. -/
def nsState (r : Nat) : Field := if r = 0 then CK_NODEST.STATE else CK_NODEST2.STATE
/-- OPEN of ring `r`. -/
def nsOpen (r : Nat) : Field := if r = 0 then CK_NODEST.OPEN else CK_NODEST2.OPEN
/-- PREF of ring `r`. -/
def nsPref (r : Nat) : Field := if r = 0 then CK_NODEST.PREF else CK_NODEST2.PREF
/-- HOPM of ring `r`. -/
def nsHopm (r : Nat) : Field := if r = 0 then CK_NODEST.HOPM else CK_NODEST2.HOPM
/-- CYC of ring `r`. -/
def nsCyc (r : Nat) : Field := if r = 0 then CK_NODEST.CYC else CK_NODEST2.CYC

/-- The node state in ring `r` (Table CK-13). -/
def State.node (s : State) (r : Nat) : Nat := s.fld (nsState r)

/-- The node enters state `v` in ring `r`: STCHG; OPEN reads 1 in a node that is not ACTIVE, and it expects no frame back (R298, R299). The
first entry of a clustered node into ACTIVE on its home ring begins its learning period (08 R336). -/
def setNode (r v : Nat) (s : State) : State :=
  if s.node r = v then s
  else
    let s := (s.setFld (nsState r) 0 v).flag CK_STATUS.STCHG evCK
    if v = 4 then
      if r = 0 && s.isSet GR_COORD.VC && s.graft.active.isNone then
        { s.setFld GR_STATUS.LEARN 0 1 with graft := { s.graft with active := some s.cycle } }
      else s
    else (s.setFld (nsOpen r) 0 1).modRing r (fun x =>
      { x with retRun := 0, rets := [], late := x.late ++ x.rets, retFail := false })

/-- Port `p` is JOINED. -/
def State.portJoined (s : State) (p : Nat) : Bool := s.fld CK_PST.PSTATE p == 2

/-- The joined ports of ring `r`. -/
def State.joinedPorts (s : State) (r : Nat) : List Nat :=
  [(s.ringPorts r).1, (s.ringPorts r).2].filter (fun p => s.portJoined p)

/-- This node's SEED in ring `r`. -/
def State.mySeed (s : State) (r : Nat) (p : Prick) : Nat := posSeed (p.pos (s.myPos r))

/-! ### The acceptance window (R288) -/

/-- The cycle, modulo 65,536, whose acceptance window of slot entry `x` holds network time `t` at position `n`, if any. -/
def Prick.windowCyc (p : Prick) (x n : Nat) (low : Bool) (eff : Nat) (t : Nat) : Option Nat :=
  let owner := slotOwner x
  let a := p.offset owner n low
  let w := eff + p.acctol + p.hops owner n low * p.jit
  let l : Int := p.len
  let d : Int := (t : Int) - (slotStart x + p.grel + a : Nat)
  let q := (2 * d + l) / (2 * l)
  if (d - q * l).natAbs ≤ w then some ((q % 65536).toNat) else none

/-! ### The point map (Table BB-3) -/

/-- The entry of point `pt`. -/
def State.pointEntry (s : State) (pt : Nat) : Nat :=
  match s.table 5 0 with
  | some a => s.rd (a + 0x10 + 8 * pt) 8
  | none => 0

/-- The bobbins of a point-map entry, in ascending field order. -/
def entryBobs (e : Nat) : List Nat :=
  (List.range 4).filterMap (fun i => if e.testBit (9 * i + 8) then some (bitsOf e (9 * i) 8) else none)

/-- NODE of an entry. -/
def entryNode (e : Nat) : Nat := bitsOf e 36 10
/-- LOCAL of an entry. -/
def entryLocal (e : Nat) : Bool := e.testBit 46
/-- HEAD of an entry. -/
def entryHead (e : Nat) : Nat := bitsOf e 47 5

/-- The LOCAL points, ascending. -/
def State.localPoints (s : State) : List Nat := (List.range 2048).filter (fun p => entryLocal (s.pointEntry p))

/-! ### Checks of one pricking (R278) -/

/-- The slots lie in order inside the cycle, with lengths that hold their frames. -/
def Prick.slotsOk (p : Prick) : Bool :=
  (List.range p.slots.length).all (fun j =>
    match p.slot j with
    | some x =>
      decide (slotKind x ≤ 1) && decide (64 ≤ slotFlen x) && decide (slotFlen x ≤ 1518) && decide (slotOwner x < p.npos)
        && decide (slotStart x + slotLen x ≤ p.len) && decide (max p.least (2 * p.grel + p.dur (slotFlen x)) ≤ slotLen x)
        && !x.testBit 31
        && (match p.slot (j + 1) with
            | some y => decide (slotStart x + slotLen x ≤ slotStart y)
            | none => true)
    | none => true)

/-- The fields of Table CK-9 lie in their spans. -/
def Prick.fieldsOk (p : Prick) : Bool :=
  p.kind == 7 && p.version == 1 && decide (p.ring ≤ 7) && decide (2 ≤ p.npos) && decide (p.npos ≤ 128)
    && decide (1 ≤ p.nslot) && decide (p.nslot ≤ 1024) && decide (p.cycle ≤ 3) && decide (p.field ≤ 1)
    && decide (1 ≤ p.lbase) && decide (p.lbase ≤ 60000) && decide (2 ≤ p.intn) && decide (p.intn ≤ 15) && p.rsv == 0
    && p.positions.all (fun x => bitsOf x 12 4 == 0) && decide (p.positions.map posNode).Nodup

/-- The arrival windows of two slots on the link direction into a position, modulo the cycle. -/
def windowsMeet (l a0 a1 b0 b1 : Int) : Bool :=
  [-1, 0, 1].any (fun k : Int => decide (a0 < b1 + k * l) && decide (b0 + k * l < a1))

/-- No two frames can occupy a link direction at once, those on their way back to their sender among them. -/
def Prick.linksOk (p : Prick) : Bool :=
  (List.range p.npos).all (fun n => [false, true].all (fun low =>
    (List.range p.slots.length).all (fun i => (List.range i).all (fun j =>
      let win (x : Nat) : Int × Int :=
        let a : Int := slotStart x + p.grel + p.offsetInto (slotOwner x) n low
        let w : Int := p.grel + p.acctol + p.hopsInto (slotOwner x) n low * p.jit
        (a - w, a + w + p.dur (slotFlen x))
      match p.slot i, p.slot j with
      | some x, some y =>
        !windowsMeet p.len (win x).1 (win x).2 (win y).1 (win y).2
      | _, _ => true))))

/-- Every frame reaches every position within 400 µs of its release by the shorter way. -/
def Prick.pathsOk (p : Prick) : Bool :=
  p.slots.all (fun x => (List.range p.npos).all (fun n =>
    n == slotOwner x
      || decide (min (p.offset (slotOwner x) n true) (p.offset (slotOwner x) n false) + p.dur (slotFlen x) ≤ 50000)))

/-- Data slots and summary slots of position `n`. BRIDGE marks a bridge on its bridged ring alone: on its home ring nothing in the pricking
tells a bridge, so of the positions without BRIDGE only this node's own, `me`, can be held to owning no summary slot, unless it joins two
rings (`two`). -/
def Prick.ownerOk (p : Prick) (me : Nat) (two : Bool) (n : Nat) : Bool :=
  let d := (p.own n 0).length
  let m := (p.own n 1).length
  decide (1 ≤ d) && decide (d ≤ 8) && decide (m ≤ 96) && (m == 0 || n != me || two || posBridge (p.pos n))

/-- Data slots and summary slots per position, the number of cold-start nodes, and of bridges, of which a ring has one at most (R300). -/
def Prick.ownersOk (p : Prick) (me : Nat) (two : Bool) : Bool :=
  (List.range p.npos).all (p.ownerOk me two) && decide ((p.positions.filter posCold).length ≤ 8)
    && decide ((p.positions.filter posBridge).length ≤ 1)

/-- The checks of R278 that this node's configuration decides on a pricking: TM guard, cold-start and listen lengths. -/
def State.prickTimesOk (s : State) (p : Prick) : Bool :=
  let far := ((List.range p.npos).flatMap (fun o => (List.range p.npos).flatMap (fun n =>
    if o = n then [0] else [p.offset o n true, p.offset o n false]))).foldl max 0
  decide (s.fld TM_GUARD.GBASE + s.fld TM_LIM.CORRLIM ≤ p.grel) && decide (2 * far + p.dur 1518 ≤ p.cslot)
    && decide (4 * s.fld TM_CTRL.ANNTO * p.len ≤ p.lbase * 125000)

/-- The master candidates in ascending rank (06 TM_MCAND0, TM_MCAND1). -/
def State.candidates (s : State) : List Nat :=
  (if s.isSet TM_MCAND0.VA then [s.fld TM_MCAND0.CANDA] else []) ++ (if s.isSet TM_MCAND0.VB then [s.fld TM_MCAND0.CANDB] else [])
    ++ (if s.isSet TM_MCAND1.VA then [s.fld TM_MCAND1.CANDA] else []) ++ (if s.isSet TM_MCAND1.VB then [s.fld TM_MCAND1.CANDB] else [])

/-- A master candidate stands in pricking `p`. -/
def State.hasCandidate (s : State) (p : Prick) : Bool := p.positions.any (fun x => s.candidates.contains (posNode x))

/-- The tree of rings, as far as ring `r` and this node's other ring show it (R278, R300): the ring of the candidates has no bridge; this
node is the bridge of the ring that its T2 and T3 join, and of no other; candidates lie on one of its rings at most. -/
def State.treeOk (s : State) (r : Nat) (p : Prick) : Bool :=
  (!s.hasCandidate p || p.positions.all (fun x => !posBridge x)) && posBridge (p.pos (s.myPos r)) == (r == 1)
    && !(s.joined 0 && s.joined 1 && s.hasCandidate p && (s.prick (1 - r)).any s.hasCandidate)

/-- The cold-start nodes of a pricking are master candidates or the ring's bridge node, and the candidates among them are numbered in
ascending order of rank (R278). -/
def State.coldOk (s : State) (p : Prick) : Bool :=
  let cold := p.positions.filter posCold
  cold.all (fun x => s.candidates.contains (posNode x) || posBridge x)
    && decide ((s.candidates.filter (fun n => cold.any (fun x => posNode x == n))).Pairwise (· < ·))

/-- The remote points of the point map lie on the home ring, in whose pricking `p` their node stands (R278, R301). -/
def State.remoteOk (s : State) (p : Prick) : Bool :=
  (List.range 2048).all (fun pt =>
    let e := s.pointEntry pt
    entryLocal e || (entryBobs e).isEmpty || p.positions.any (fun x => posNode x == entryNode e))

/-- This node is a bridge: it joins a second ring, or its position in a ring says so. -/
def State.bridges (s : State) (p : Prick) (n : Nat) : Bool := s.joined 1 || posBridge (p.pos n)

/-- The time elements that R283 reserves: 310 bytes for a master candidate or a bridge node, in both its rings. -/
def State.timeRoom (s : State) (p : Prick) (n : Nat) : Nat := if s.rank.isSome || s.bridges p n then 310 else 186

/-- The field of CK_SUMMASK for ring `r`. -/
def State.summask (s : State) (r : Nat) : Nat := if r = 0 then s.fld CK_SUMMASK.HOME else s.fld CK_SUMMASK.BRIDGED

/-- Summary entries that the train of position `n` can hold in a cycle (R303): after header, TSTAT, the time elements in the first own slot, and
the GRAFT element in the first of the train. -/
def State.trainRoom (s : State) (p : Prick) (n : Nat) : Nat :=
  let own := p.own n 1
  let first := ((List.range p.slots.length).find? (fun j => (p.slot j).any (fun x => slotOwner x == n)))
  ((own.map (fun j =>
    let used := 30 + (if some j = first then s.timeRoom p n else 12)
      + (if some j = own.head? && s.isSet GR_COORD.VC then 4 + p.gres else 0) + 4
    ((p.slot j).map (fun x => (slotFlen x - 8 - used) / 132)).getD 0))).foldl (· + ·) 0

/-- CK_SUMMASK of ring `r` (R278, R300), as far as this node's configuration decides it: a node that joins one ring summarises nothing; a bridge
names the other ring it joins and not ring `r` itself, its train holds an entry for every node of that ring, and no node but the bridge
lies in both. What lies further off in the tree is not in its image (assumption 149). -/
def State.summaryOk (s : State) (r : Nat) (p : Prick) : Bool :=
  match s.joined 0 && s.joined 1, s.prick (1 - r) with
  | true, some o =>
    let m := s.summask r
    m.testBit o.ring && !m.testBit p.ring && decide (o.npos - 1 ≤ s.trainRoom p (s.myPos r))
      && p.positions.all (fun x => posNode x == s.fld ID_NODE.NODE || o.positions.all (fun y => posNode y != posNode x))
  | _, _ => s.summask r == 0

/-- AXMIN of the point map, in mm. -/
def State.axMin (s : State) : Nat :=
  match s.table 5 0 with
  | some a => s.rd (a + 4) 2
  | none => 0

/-- E(W, p) of 04 R173 for W in TU: the larger of 1 and ceil(W × VMAXP / AXMIN). -/
def State.eventsIn (s : State) (w pt : Nat) : Nat :=
  let a := s.axMin * 1250000
  if a = 0 then 1 else max 1 ((w * bitsOf (s.pointEntry pt) 52 12 + a - 1) / a)

/-- The bytes that an own data slot must hold (R283). -/
def State.dataNeed (s : State) (p : Prick) (n : Nat) : Nat :=
  let pts := s.localPoints
  let nev := (pts.map (s.eventsIn p.len)).foldl (· + ·) 0
    + ((List.range 32).filter (fun h => s.isSet WD_HCFG.HEN h)).length
  38 + s.timeRoom p n + 132 + (4 + 4 * pts.length) + (4 + 16 * nev) + (if s.isSet GR_COORD.VC then 4 + p.gres else 0)

/-- FLEN of each own data slot holds what R283 names. -/
def State.flenOk (s : State) (p : Prick) (n : Nat) : Bool :=
  (p.own n 0).all (fun j =>
    match p.slot j with
    | some x => decide (s.dataNeed p n ≤ slotFlen x)
    | none => true)

/-- This node joins two rings. -/
def State.twoRings (s : State) : Bool := s.joined 0 && s.joined 1

/-- The item of a refused pricking (16 Table RB-15): the first position whose slots break R278, else the first own data slot too short for
R283, else 0. -/
def State.prickItem (s : State) (r : Nat) : Nat :=
  match s.prick r with
  | none => 0
  | some p =>
    match (List.range p.npos).find? (fun n => !p.ownerOk (s.myPos r) s.twoRings n) with
    | some n => n
    | none => ((p.own (s.myPos r) 0).find? (fun j => (p.slot j).any (fun x => decide (slotFlen x < s.dataNeed p (s.myPos r))))).getD 0

/-- A pricking passes the checks of R278 that concern it and this node. -/
def State.prickOk (s : State) (r : Nat) : Bool :=
  match s.prick r with
  | none => false
  | some p =>
    p.fieldsOk && p.slotsOk && p.ownersOk (s.myPos r) s.twoRings && s.treeOk r p && p.pathsOk && p.linksOk && s.prickTimesOk p && s.flenOk p (s.myPos r)
      && s.coldOk p && (r != 0 || s.remoteOk p) && s.summaryOk r p

/-- The receive ring's geometry (R304). -/
def State.rxOk (s : State) : Bool :=
  let ps := (List.range 2).filterMap (fun r => if s.joined r then s.prick r else none)
  let big := ((ps.flatMap Prick.slots).map slotFlen).foldl max 0
  let n := (ps.map Prick.nslot).foldl (· + ·) 0
  let l := s.fld CK_RXGEOM.RXBLEN
  l % 16 == 0 && decide (big + 16 ≤ l) && decide (n + 32 ≤ s.fld CK_RXGEOM.NRXB) && decide (16 ≤ s.fld CK_RXGEOM.NRXB)
    && decide (s.fld CK_RXGEOM.NRXB ≤ 1024) && s.fld CK_RXBASE.BASE % 16 == 0

end Sys2Proof.Machine
end

