-- ==== Sys2Proof/Machine/Retire.lean ====
section
/-! DEFINITION. Retirement of a Sapwood engine (15 R554, R557, 08 R317) and the placement of heads on engines (08 R308 to
R317). -/

namespace Sys2Proof.Machine

/-! ### What a bobbin knows of a point -/

/-- What bobbin `x / 2048` knows of point `x % 2048`. -/
def State.pt (s : State) (x : Nat) : PtSt := Tab.get PtSt.reset s.pts x

/-- Change it. -/
def State.modPt (x : Nat) (f : PtSt → PtSt) (s : State) : State := { s with pts := Tab.set PtSt.reset s.pts x (f (s.pt x)) }

/-- The point's head has been moved by force (R316): bit 31 of the facts to present. -/
def markMoved (x : Nat) (s : State) : State := s.modPt x (fun p => { p with acc := p.acc ||| 2 ^ 31 })

/-! ### Retirement (15 R554) -/

/-- Sapwood engine `k` is retired (Table GR-11). -/
def State.seRetired (s : State) (k : Nat) : Bool := bitsOf (s.fld GR_ENG.ST) (2 * k) 2 == 2

/-- A change of SHAD of head `k` (08 R311): a pending hand-over is cancelled, and the shadow time and the matching of the events (R314)
start anew. -/
def setShad (k v : Nat) (s : State) : State :=
  ((s.setFld GR_HPLACE.SHAD k v).setFld GR_HPLACE.PEND k 0).modHead k (fun h => { h with shadAt := s.tb, lone := [], loneShad := [], gone := h.gone.filter (· != v) })

/-- Release the latches that engine number `p` holds for head `k`; its detection program leaves the head. -/
def releaseLatches (p k : Nat) (s : State) : State :=
  dropDet p k ((s.clearLatch (3 + p) (2 * k)).clearLatch (3 + p) (2 * k + 1))

/-- Sapwood engine `k` is retired (15 R554, R557): it stops at once, its stream latches are released, every head shadowed on
it gets SHAD 7, and ENGRET is set. A second retirement has no effect. -/
def retireSapwood (k : Nat) (s : State) : State :=
  if s.seRetired k then s
  else
    let st := s.fld GR_ENG.ST
    let s := s.setFld GR_ENG.ST 0 (st - bitsOf st (2 * k) 2 * 4 ^ k + 2 * 4 ^ k)
    let s := s.modEng (3 + k) (fun e => { e with run := .stopped })
    let s := forEach (List.range 32) (releaseLatches k) s
    let s := forEach ((List.range 32).filter (fun h => s.fld GR_HPLACE.SHAD h == k)) (fun h => setShad h 7) s
    s.flag AG_STATUS.ENGRET evAG

/-- A write of AG_ENGRET (15 R554, R557): 6 and 7 set CFGERR. -/
def agEngret (q : Req) (v : Nat) (s : State) : State :=
  if !q.voted then s.reject q
  else
    let k := AG_ENGRET.ENG.of v
    if 6 ≤ k then s.flag AG_STATUS.CFGERR evAG else retireSapwood k s

/-- ENGINE_RETIREMENT (15 R554): a write of AG_ENGRET. -/
def execEngineRetirement (q : Req) (v : Word) (s : State) : Host.Outcome State Fault Refusal :=
  asReq q s <| .next (agEngret q v.toNat s)

/-- GR_ENG (Table GR-11): 0b10 retired, 0b01 the spare of GR_CTRL, 0b00 in service. -/
def State.grEng (s : State) : Nat :=
  ((List.range 6).map (fun k => (if s.seRetired k then 2 else if s.fld GR_CTRL.SPARE = k then 1 else 0) * 4 ^ k)).foldl (· + ·) 0

/-! ### Placement (R308 to R311) -/

/-- The systems an engine would hold, with head `k` placed on `prim` and `shad` (R310, 03 R112). A head with a forced move under way counts
where it stands and where it goes. -/
def State.systemsOn (s : State) (k prim shad e : Nat) : List Nat :=
  (List.range 32).flatMap (fun h =>
    let p := if h = k then prim else s.fld GR_HPLACE.PRIM h
    let d := if h = k then shad else s.fld GR_HPLACE.SHAD h
    let f := if h = k then none else (s.head h).force
    if p = e ∨ d = e ∨ f = some e then [2 * h, 2 * h + 1] else [])

/-- Steps per second of a list of systems (R310): words per second times 120 st. -/
def State.loadOf (s : State) (l : List Nat) : Nat := (l.map (fun i => 64000 / (s.rate i).1 * 120)).foldl (· + ·) 0

/-- The guaranteed rate of a Sapwood engine in steps per second (15 Table AG-1). -/
def guaranteedSe : Nat := 200000000

/-- The engine may take head `k` under the placement (R310). -/
def State.engineFits (s : State) (k prim shad e : Nat) : Bool :=
  let l := s.systemsOn k prim shad e
  !s.seRetired e && decide (l.length ≤ 16) && decide (s.loadOf l ≤ guaranteedSe)

/-- A placement of head `k` that R310 allows. -/
def State.placeOk (s : State) (k prim shad : Nat) : Bool :=
  [prim, shad].all (fun e => e == 7 || s.engineFits k prim shad e) && (prim != shad || prim == 7)

/-- A voted write of GR_HPLACE of head `k` (R310 to R312, R315, R316). -/
def placeHead (k v : Nat) (s : State) : State :=
  let shad := GR_HPLACE.SHAD.of v
  let force := GR_HPLACE.FORCE.of v == 1
  let hover := GR_HPLACE.HOVER.of v == 1
  let prim := if force then GR_HPLACE.PRIM.of v else s.fld GR_HPLACE.PRIM k
  if prim = 6 ∨ shad = 6 then s.flag GR_STATUS.CFGERR evGR
  else if !s.placeOk k prim shad || (hover && shad == 7) then s.flag GR_STATUS.PLANREJ evGR
  else
    let old := s.fld GR_HPLACE.SHAD k
    let s := if old = shad then s.modHead k (fun h => { h with gone := h.gone.filter (· != shad) }) else setShad k shad (if old < 6 then releaseLatches old k s else s)
    let s := onlyIf hover (State.setFld GR_HPLACE.PEND k 1) s
    onlyIf force (State.modHead k (fun h => { h with force := some prim })) s

/-- A write of GR_HPLACE (R315): voted; by the head's primary engine, which changes SEQ only; else rejected. -/
def grHplace (q : Req) (k v : Nat) (s : State) : State :=
  match q with
  | .hw => placeHead k v s
  | .se e => if s.fld GR_HPLACE.PRIM k = e.val then s.setFld GR_HPLACE.SEQ k (GR_HPLACE.SEQ.of v) else s.reject q
  | _ => s.reject q

/-- PLACEMENT_WRITE (R310): a write of GR_HPLACE of head `k`. -/
def execPlacementWrite (q : Req) (k : Fin 32) (v : Word) (s : State) : Host.Outcome State Fault Refusal :=
  asReq q s <|
  .next (grHplace q k.val v.toNat s)

/-- HAND_OVER_ORDER (R312): a write of GR_HPLACE with HOVER 1. -/
def execHandOverOrder (q : Req) (k : Fin 32) (v : Word) (s : State) : Host.Outcome State Fault Refusal :=
  asReq q s <|
  .next (grHplace q k.val (putBit v.toNat 8 true) s)

/-- FORCED_MOVE (R316): a write of GR_HPLACE with FORCE 1. -/
def execForcedMove (q : Req) (k : Fin 32) (v : Word) (s : State) : Host.Outcome State Fault Refusal :=
  asReq q s <|
  .next (grHplace q k.val (putBit v.toNat 9 true) s)

/-- SEQ_WRITE (R315): the head's primary engine writes GR_HPLACE. -/
def execSeqWrite (e : Fin 6) (k : Fin 32) (v : Word) (s : State) : Host.Outcome State Fault Refusal :=
  .next (grHplace (.se e) k.val v.toNat s)

/-- A write of GR_SHPASS (R313): the bits of the heads whose SHAD is the writing engine change, every other is ignored. -/
def grShpass (q : Req) (v : Nat) (s : State) : State :=
  match q with
  | .se e => forEach ((List.range 32).filter (fun k => s.fld GR_HPLACE.SHAD k == e.val))
      (fun k => State.putFbit GR_SHPASS.SPASS 0 k (v.testBit k)) s
  | _ => s

/-- SHPASS_WRITE (R313). -/
def execShpassWrite (q : Req) (v : Word) (s : State) : Host.Outcome State Fault Refusal :=
  asReq q s <| .next (grShpass q v.toNat s)

/-! ### Hand-over (R312) -/

/-- The conditions of R312 on a pending hand-over of head `k`, at a grid instant after step 3 of Table FE-11. -/
def State.handOverDue (s : State) (k : Nat) : Bool :=
  let h := s.head k
  s.isSet GR_HPLACE.PEND k && decide (h.shadAt + s.fld GR_CTRL.SHMIN * 12500000 ≤ s.tb) && decide (26 ≤ h.closedFor)
    && !s.fbit GR_SHPASS.SPASS k && !h.gone.contains (s.fld GR_HPLACE.SHAD k)

/-- The shadow of head `k` becomes its primary (R312). -/
def takeHandOver (k : Nat) (s : State) : State :=
  let old := s.fld GR_HPLACE.PRIM k
  let s := s.setFld GR_HPLACE.PRIM k (s.fld GR_HPLACE.SHAD k)
  let s := setShad k 7 s
  (if old < 6 then releaseLatches old k s else s).flag GR_STATUS.HOVER evGR

/-- A forced move of head `k` takes effect (R316, R317): the head is reset as for a change of HEN, and its point presents LOST,
NOTCLEAN and REGAIN. -/
def takeForce (k p : Nat) (s : State) : State :=
  let old := s.fld GR_HPLACE.PRIM k
  let s := s.modHead k (fun h => { h with force := none, gone := h.gone.filter (· != p) })
  if p < 6 && s.seRetired p then s.flag GR_STATUS.PLANREJ evGR
  else
    let s := if old < 6 && old != p then releaseLatches old k s else s
    let s := resetHead k 2 (s.setFld GR_HPLACE.PRIM k p)
    let pt := s.fld WD_HCFG.POINT k
    let s := forEach (entryBobs (s.pointEntry pt)) (fun b => markMoved (b * 2048 + pt)) s
    let s := onlyIf (p == 7 && s.isSet WD_HCFG.HEN k) (State.flag GR_STATUS.UNPLACED evGR) s
    s.flag GR_STATUS.FORCED evGR

end Sys2Proof.Machine
end

