-- ==== Sys2Proof/Machine/Generators.lean ====
section
/-! DEFINITION. The pulse generators PG0 to PG3 and the registers of the power pages (14 R518 to R528, R534). Resets, dips and the
power-up sequence are in `Machine/Power.lean`. -/

namespace Sys2Proof.Machine

/-- Change the keeper and the reset logic. -/
def State.modKeeper (f : Keeper → Keeper) (s : State) : State := { s with keeper := f s.keeper }

/-- Generator `g`. -/
def State.pg (s : State) (g : Nat) : PgSt := Tab.get PgSt.reset s.pgs g

/-- Change generator `g`. -/
def State.modPg (g : Nat) (f : PgSt → PgSt) (s : State) : State := { s with pgs := Tab.set PgSt.reset s.pgs g (f (s.pg g)) }

/-- Phase `x`: 0 PG0A, 1 PG0B, 2 PG1, 3 PG2, 4 PG3. -/
def State.phase (s : State) (x : Nat) : PhaseSt := Tab.get PhaseSt.reset s.phases x

/-- Change phase `x`. -/
def State.modPhase (x : Nat) (f : PhaseSt → PhaseSt) (s : State) : State :=
  { s with phases := Tab.set PhaseSt.reset s.phases x (f (s.phase x)) }

/-- The generator of a phase. -/
def genOf (x : Nat) : Nat := x - 1

/-- PW_PGST.STATE of generator `g` (Table PW-8). -/
def State.pgState (s : State) (g : Nat) : Nat := s.fld PW_PGST.STATE g

/-- The generator switches its rail: PG0 to PG2 while the rails are up or a power-up sequence runs; PG3 from its soft-start until it
stops. -/
def State.pgRuns (s : State) (g : Nat) : Bool :=
  if g < 3 then
    match s.keeper.power with
    | .up => true
    | .ballLow => true
    | .sequence _ => true
    | _ => false
  else decide (1 ≤ s.pgState 3) && decide (s.pgState 3 ≤ 3)

/-! ### The setpoint in force (R522) -/

/-- The setpoint in force of generator `g` now, in mV: from 0 to SETPT over 1 ms in a soft-start, else towards SETPT at CSLEW × 0.1
mV/µs. -/
def State.actNow (s : State) (g : Nat) : Nat :=
  let p := s.pg g
  let t := s.tb - p.since
  let target := s.fld PW_PGSET.SETPT g
  if s.pgState g = 1 then min target (target * t / 125000)
  else
    let d := s.fld PW_CTRL.CSLEW * t / 1250
    if p.base ≤ target then min target (p.base + d) else max target (p.base - d)

/-- PW_PGSET.ACT takes the setpoint in force, from which a slew goes on. -/
def rebase (g : Nat) (s : State) : State :=
  let a := s.actNow g
  let t := s.tb
  let s := s.setFld PW_PGSET.ACT g a
  if s.pgState g = 1 then s else s.modPg g (fun p => { p with base := a, since := t })

/-- A new setpoint: ACT goes on from where it is. -/
def newSetpoint (g mv : Nat) (s : State) : State := (rebase g s).setFld PW_PGSET.SETPT g mv

/-- VSET (09 R376, R522): the core setpoint. -/
def vsetRequest (mv : Nat) (s : State) : State := newSetpoint 0 mv s

/-- PG0's setpoint in force is moving. -/
def State.coreSlews (s : State) : Bool := s.actNow 0 != s.fld PW_PGSET.SETPT 0

/-! ### Starting and stopping -/

/-- The excitation rail is usable (R517): WC24 within its window and PG3 running. -/
def showExcok (s : State) : State :=
  s.setFld PW_STATUS.EXCOK 0 (bit (s.fld PW_WCST.STATE 24 == 1 && s.pgRuns 3))

/-- Generator `g` soft-starts over 1 ms; `first` as part of a power-up sequence. -/
def softStart (g : Nat) (first : Bool) (s : State) : State :=
  let t := s.tb
  let s := (s.setFld PW_PGST.STATE g 1).setFld PW_PGSET.ACT g 0
  s.modPg g (fun _ => { integ := 0, th := 0, limRun := 0, base := 0, since := t, first := first })

/-- PG3 stops with both gates low: `st` 0 off, 4 fault (R521, R526). -/
def stopExcitation (st : Nat) (s : State) : State :=
  let t := s.tb
  let s := (s.setFld PW_PGST.STATE 3 st).setFld PW_PGSET.ACT 3 0
  let s := s.modPg 3 (fun _ => { PgSt.reset with since := t })
  showExcok (s.modPhase 4 (fun _ => PhaseSt.reset))

/-- The setpoint of a generator's fuse defaults, in mV: the core rail 950 (Table PW-2); the other rails their nominal voltages
(DEDUCED, assumption 82). -/
def fuseSetpoint (g : Nat) : Nat :=
  match g with
  | 0 => 950
  | 1 => 3300
  | 2 => 1800
  | _ => 12000

/-- The rails run on their fuse defaults until the image sets them (before R516). -/
def fuseSetpoints (s : State) : State :=
  forEach [0, 1, 2] (fun g => State.setFld PW_PGSET.SETPT g (fuseSetpoint g)) s

/-- The three rails have soft-started in the power-up sequence (Table PW-2). -/
def railsStarted (s : State) : State :=
  let t := s.tb
  forEach [0, 1, 2] (fun g u =>
    ((u.setFld PW_PGST.STATE g 2).setFld PW_PGSET.ACT g (fuseSetpoint g)).modPg g
      (fun _ => { PgSt.reset with base := fuseSetpoint g, since := t })) s

/-- The generators over a device reset, in which the rails stay up and the time base starts anew (16 R559): PG0 to PG2 run on, PG3 stops
(17 Table EL-3). -/
def keepRails (s : State) : State :=
  let s := forEach [0, 1, 2] rebase (stopExcitation 0 s)
  { s with pgs := (s.pgs.map (fun p => (p.1, { p.2 with since := 0 }))).filter (fun p => p.2 != PgSt.reset),
           phases := (s.phases.map (fun p => (p.1, { p.2 with start := 0, fall := 0 }))).filter (fun p => p.2 != PhaseSt.reset) }

/-- The setpoints of the image take over: the setpoint in force of a generator that regulates slews from where it stands. -/
def resumeRails (s : State) : State :=
  let t := s.tb
  forEach [0, 1, 2, 3] (fun g u => if u.pgState g = 1 then u else u.modPg g (fun p => { p with since := t })) s

/-! ### A period (R518 to R521) -/

/-- The clamp of the voltage loop: ILIM; for PG2, which sets a duty in 1/4,096, DMAX (R520). -/
def State.loopTop (s : State) (g : Nat) : Nat :=
  if g = 2 then s.fld PW_PGCFG.DMAX g * 32 else s.fld PW_PGLOOP.ILIM g

/-- The voltage loop at a period start (R520), on the measured rail in mV. -/
def voltageLoop (g mv : Nat) (s : State) : State :=
  let e : Int := (s.fld PW_PGSET.ACT g : Nat) - (mv : Nat)
  let top : Int := (s.loopTop g : Nat)
  let i := max 0 (min top (((s.pg g).integ : Nat) + (s.fld PW_PGLOOP.KI g : Nat) * e / 256))
  let th := max 0 (min top ((s.fld PW_PGLOOP.KP g : Nat) * e / 16 + i))
  s.modPg g (fun p => { p with integ := i.toNat, th := th.toNat })

/-- The trip level is the THI of the phase's current comparator (R520, Table PW-4). -/
def showTrip (g : Nat) (s : State) : State :=
  let th := (s.pg g).th
  match g with
  | 0 => (s.setFld PW_WCCFG.THI 0 th).setFld PW_WCCFG.THI 1 th
  | 1 => s.setFld PW_WCCFG.THI 2 th
  | 2 => s
  | _ => s.setFld PW_WCCFG.THI 3 th

/-- The soft-start of generator `g` is over: the setpoint in force slews from here on (R522). -/
def endSoftStart (g : Nat) (s : State) : State :=
  let a := s.fld PW_PGSET.ACT g
  let t := s.tb
  s.modPg g (fun p => { p with base := a, since := t })

/-- PW_PGST at a period start (R521, Table PW-8): soft-start over, periods at ILIM. -/
def showPg (g : Nat) (s : State) : State :=
  let p := s.pg g
  let soft := s.pgState g = 1 && decide (s.tb < p.since + 125000)
  let atLim := g != 2 && p.th == s.fld PW_PGLOOP.ILIM g
  let s := onlyIf (s.pgState g == 1 && !soft) (endSoftStart g) s
  let s := s.setFld PW_PGST.STATE g (if soft then 1 else if atLim then 3 else 2)
  if atLim then (s.countFld PW_PGST.LIMP g 1).modPg g (fun p => { p with limRun := min 1024 (p.limRun + 1) })
  else s.modPg g (fun p => { p with limRun := 0 })

/-- When the next period of phase `x` starts: PERIOD after the last start; phase B of PG0 half a PERIOD after phase A. -/
def State.nextPeriod (s : State) (x : Nat) : Nat :=
  if x = 1 then (s.phase 0).start + (s.phase 0).period / 2 else (s.phase x).start + (s.phase x).period

/-- PERIOD_START (R518): a phase starts its period; the voltage loop samples the rail as `mv`. -/
def execPeriodStart (x : Fin 5) (mv : BitVec 16) (s : State) : Host.Outcome State Fault Refusal :=
  let x := x.val
  let g := genOf x
  if !s.pgRuns g then .next s
  else
    let s := s.advanceTo (s.nextPeriod x)
    let t := s.tb
    let period := s.fld PW_PGCFG.PERIOD g
    let s := s.modPhase x (fun _ => { high := true, start := t, period := period, fall := 0 })
    if x = 1 then .next s else .next (showPg g (showTrip g (voltageLoop g mv.toNat (rebase g s))))

/-- The high-side gate of phase `x` turns off. -/
def gateOff (x : Nat) (s : State) : State :=
  let t := s.tb
  s.modPhase x (fun p => { p with high := false, fall := t })

/-- The low-side gate of phase `x` is on (R518): from 16 ns, 2 TU, after the high-side gate fell to 16 ns before its next period start,
while the generator runs. -/
def State.lowSide (s : State) (x : Nat) : Bool :=
  let p := s.phase x
  s.pgRuns (genOf x) && !p.high && decide (p.fall + 2 ≤ s.tb) && decide (s.tb + 2 < p.start + p.period)

/-- The ramp of phase `x` now (R519): SLOPE × 0.1 mV/µs from the end of its blanking window, in 1/625 of the trip level's 0.5 mV. -/
def State.ramp (s : State) (x : Nat) : Nat :=
  s.fld PW_PGRAMP.SLOPE (genOf x) * (s.tb - ((s.phase x).start + s.fld PW_PGCFG.BLANK (genOf x)))

/-- The current comparator of phase `x` trips (R518): the sensed signal, in 0.5 mV, plus the ramp reaches the trip level. -/
def State.trips (s : State) (x sense : Nat) : Bool := decide ((s.pg (genOf x)).th * 625 ≤ sense * 625 + s.ramp x)

/-- TRIP (R518, R519): the current comparator of a phase sees the sensed signal, after the blanking window. PG2 has none. -/
def execTrip (x : TripIn) (s : State) : Host.Outcome State Fault Refusal :=
  let k := x.phase.val
  let p := s.phase k
  if p.high && k != 3 then
    let t := s.advanceTo (p.start + s.fld PW_PGCFG.BLANK (genOf k))
    if t.trips k x.sense.toNat then .next (gateOff k t) else .next s
  else .next s

/-- The longest on-time of a phase: DMAX × PERIOD / 128; for PG2 the duty that the loop has set. -/
def State.onLimit (s : State) (x : Nat) : Nat :=
  let p := s.phase x
  if x = 3 then (s.pg 2).th * p.period / 4096 else s.fld PW_PGCFG.DMAX (genOf x) * p.period / 128

/-- DUTY_LIMIT (R518): a phase that has not tripped turns off. -/
def execDutyLimit (x : Fin 5) (s : State) : Host.Outcome State Fault Refusal :=
  let p := s.phase x.val
  if p.high then .next (gateOff x.val (s.advanceTo (p.start + s.onLimit x.val))) else .next s

/-! ### Register writes (R522, R524, R528, R534) -/

/-- The generator and comparator a requester selects. -/
def State.selPg (s : State) (q : Req) : Nat := s.fld PW_PGSEL.PG q.bank

/-- A write of PW_PGCFG (Table PW-7, R521). -/
def pwPgcfg (q : Req) (g v : Nat) (s : State) : State :=
  let p := PW_PGCFG.PERIOD.of v
  let d := PW_PGCFG.DMAX.of v
  let en := PW_PGCFG.EN.of v
  let ok := decide (50 ≤ p) && decide (p ≤ 1250) && decide (2 ≤ PW_PGCFG.BLANK.of v) && decide (16 ≤ d) && decide (d ≤ 120)
    && (en == 1 || g == 3)
  if !q.voted then writeFields q PW_PGCFG.fields g v s
  else if !ok then s.flag PW_STATUS.CFGERR evPW
  else
    let s := writeFields q PW_PGCFG.fields g v s
    if g ≠ 3 then s
    else if en = 0 then (if s.pgState 3 = 0 then s else stopExcitation 0 s)
    else if s.pgState 3 = 0 then softStart 3 false s
    else s

/-- The setpoint span of a generator (Table PW-3). -/
def setptOk (g mv : Nat) : Bool :=
  match g with
  | 1 => decide (3200 ≤ mv) && decide (mv ≤ 3400)
  | 2 => decide (1750 ≤ mv) && decide (mv ≤ 1850)
  | 3 => decide (11500 ≤ mv) && decide (mv ≤ 12500)
  | _ => false

/-- A write of PW_PGSET: never for PG0 (R522). -/
def pwPgset (q : Req) (g v : Nat) (s : State) : State :=
  let mv := PW_PGSET.SETPT.of v
  if g = 0 then (if q.voted then s else writeFields q PW_PGSET.fields g v s).flag PW_STATUS.CFGERR evPW
  else if !q.voted then writeFields q PW_PGSET.fields g v s
  else if setptOk g mv then newSetpoint g mv s
  else s.flag PW_STATUS.CFGERR evPW

/-- A write of PW_PGLOOP: ILIM 1 to 4,095. -/
def pwPgloop (q : Req) (g v : Nat) (s : State) : State :=
  if q.voted && g != 2 && PW_PGLOOP.ILIM.of v == 0 then s.flag PW_STATUS.CFGERR evPW else writeFields q PW_PGLOOP.fields g v s

/-- The thresholds of comparator `w` are fixed (Table PW-4). -/
def wcFixed (w : Nat) : Bool := decide (w < 4) || (decide (8 ≤ w) && decide (w < 24))

/-- A write of PW_WCCFG (R524, R528, Table PW-9). -/
def pwWccfg (q : Req) (w v : Nat) (s : State) : State :=
  let lo := PW_WCCFG.TLO.of v
  let hi := PW_WCCFG.THI.of v
  let ok := decide (lo < hi)
    && (w != 7 || (decide (560 ≤ lo) && decide (lo ≤ 760) && decide (lo + 40 ≤ hi) && decide (hi ≤ 790)))
  if q.voted && (wcFixed w || !ok) then s.flag PW_STATUS.CFGERR evPW else writeFields q PW_WCCFG.fields w v s

/-- A write of PW_WCFILT (R524). -/
def pwWcfilt (q : Req) (w v : Nat) (s : State) : State :=
  if q.voted && (wcFixed w || w == 7) then s.flag PW_STATUS.CFGERR evPW else writeFields q PW_WCFILT.fields w v s

/-- A write of PW_CTRL (Table PW-10); slews in progress go on at the new rate. -/
def pwCtrl (q : Req) (v : Nat) (s : State) : State :=
  let c := PW_CTRL.CSLEW.of v
  if !q.voted then writeFields q PW_CTRL.fields 0 v s
  else if PW_CTRL.DIPCLR.of v = 0 || c == 0 || decide (100 < c) then s.flag PW_STATUS.CFGERR evPW
  else writeFields q PW_CTRL.fields 0 v (forEach [0, 1, 2, 3] rebase s)

/-- PW_WCOUT (Table PW-6). -/
def State.wcOut (s : State) : Nat :=
  (((List.range 32).filter (fun w => 4 ≤ w && s.fld PW_WCST.STATE w != 1)).map (fun w => 2 ^ w)).foldl (· + ·) 0

end Sys2Proof.Machine
end

