-- ==== Sys2Proof/Machine/Safe.lean ====
section
/-! DEFINITION. The safe state (10 R418) and the record of a mismatch (Table HW-11, HW-12). -/

namespace Sys2Proof.Machine

/-- The record of a mismatch in HW_MIS, HW_MISADDR and HW_MISTIME (R400); the address is 0 for KIND 3, 4, 6 and 7. -/
def recordMis (kind core addr : Nat) (inj : Bool) (s : State) : State :=
  let s := (s.setFld HW_MIS.KIND 0 kind).setFld HW_MIS.CORE 0 core
  let s := (s.setFld HW_MIS.PHASE 0 (s.fld HW_PHASE.PHASE)).setFld HW_MIS.INJ 0 (bit inj)
  let a := if kind = 3 ∨ kind = 4 ∨ kind = 6 ∨ kind = 7 then 0 else addr
  (s.setFld HW_MISADDR.ADDR 0 a).setFld HW_MISTIME.TIME 0 s.nowLow

/-- The vital outputs lose their tokens and stop (R418, 13 R504): HW_STATUS.SAFE ends their run condition. -/
def safeOutputs (s : State) : State :=
  refreshVos (forEach (List.range 16) (fun n => State.modVo n (fun v => { v with live := 0 })) s)

/-- Every armed launch channel with ACTION OUTPUT is disarmed and reads dropped (R418, Table TM-20). -/
def safeLaunches (s : State) : State :=
  forEach ((List.range 16).filter (fun c => s.lbusy c && s.fld TM_LCFG.ACTION c == 4)) (fun c => setSt c 5) s

/-- No transmit buffer is marked ready (R418). -/
def safeTransmit (s : State) : State := { s with ready := [] }

/-- The TX256 enters the safe state (R418): the cores stop, the outputs, output launches and transmit buffers are dropped,
HW_STATUS.SAFE reads 1, and the Root engine receives event 6. Only a device reset leaves it (R419). -/
def safeState (kind addr : Nat) (s : State) : State :=
  if s.isSafe then s
  else
    let s := recordMis kind 3 addr false s
    let s := forEach [0, 1, 2] (fun c => State.modEng c (fun e => { e with run := .stopped })) s
    let s := safeTransmit (safeLaunches (safeOutputs (s.setFld HW_STATUS.SAFE 0 1)))
    let s := forEach [0, 1, 2] (fun p => State.modPort p (fun x => { x with props := [] })) s
    hostDevice 5 0 (s.pendEng 9 evHW)

end Sys2Proof.Machine
end

