-- ==== Sys2Proof/Machine/Voter.lean ====
section
/-! DEFINITION. The voter (10 R380 to R414): commit groups, fencing, the state sweep, signals at the agreed retire index,
self-test, copy and rejoining, the voter proof, and the mode hand-overs. What a landed group writes is in
`Machine/Commit.lean`. -/

namespace Sys2Proof.Machine

/-! ### State signatures (R397, R398, R414) -/

/-- The HW_TEST proof is armed for the next group or signature of core `c` with kind `kind` and not yet caught (R414). -/
def State.proofArmed (s : State) (c kind : Nat) : Bool :=
  match s.heart.test with
  | some p => p.core == c && p.kind == kind && p.skip == 0 && !p.caught
  | none => false

/-- The bytes of core `c`'s copy of Heartwood RAM that are not 0. -/
def State.coreRam (s : State) (c : Nat) : List (Nat × Byte) :=
  (s.mem.filter (fun p => p.1 / 2 ^ 32 == 1 + c)).map (fun p => (p.1 % 2 ^ 32, p.2))

/-- The architectural state a signature covers (R397): W0 to W15, PC, FLG, CAUSE, EVP and the retire index. -/
def Engine.arch (e : Engine) : List Nat :=
  e.w.toList.map BitVec.toNat ++
    [e.pc.toNat, e.flg.toNat, e.code.toNat, e.detail.toNat, e.pend.toNat, e.evp.toNat, e.retire]

/-- What core `c` gives to a sweep now. -/
def State.markSig (s : State) (c : Nat) : MarkSig :=
  { arch := (s.eng c).arch, ram := s.coreRam c, diff := (s.core c).sigDiff }

/-- The block at address `a` of the Heartwood RAM that a core gave. -/
def MarkSig.block (m : MarkSig) (a : Nat) : Block :=
  BitVec.ofNat 128 (((m.ram.filter (fun p => p.1 / 16 * 16 == a)).map (fun p => p.2.toNat * 256 ^ (p.1 % 16))).foldl (· + ·) 0)

/-- The RAM signature (R398): the XOR of the hashes of every block of the 1 MiB. -/
def MarkSig.ramSig (m : MarkSig) : Block :=
  (List.range 65536).foldl (fun h j => h ^^^ Config.blockHash (0x10000000 + 16 * j) (m.block (0x10000000 + 16 * j))) 0#128

/-- The signature of what a core gave (R397). -/
def MarkSig.sig (m : MarkSig) : Block := Config.stateSig (m.arch ++ [m.ramSig.toNat])

/-- Two signatures agree: equal states have equal signatures; different states agree where the hash does. A core that
the scrubber or HW_TEST of KIND 1 has marked differs (R398, R414). -/
def MarkSig.agrees (a b : MarkSig) : Bool :=
  !a.diff && !b.diff && ((a.arch == b.arch && a.ram == b.ram) || a.sig == b.sig)

/-- The signature compared for core `c`: KIND 1 of HW_TEST inverts it (R414). -/
def State.sweepSig (s : State) (c : Nat) (m : MarkSig) : MarkSig := { m with diff := m.diff || s.proofArmed c 1 }

/-! ### Outcomes (R400 to R403) -/

/-- The FHA, FHB and FHC fields of HW_COUNT. -/
def countField (c : Nat) : Field :=
  match c with
  | 0 => HW_COUNT.FHA | 1 => HW_COUNT.FHB | _ => HW_COUNT.FHC

/-- HW_COUNT shows the fencings of core `c` in the last 24 h (Table HW-13). -/
def showFences (c : Nat) (s : State) : State :=
  s.setFld (countField c) 0 (min 255 (s.core c).fenceTimes.length)

/-- Core `c` leaves every unfinished exchange with the voter and the agreement unit (R382). A read that every remaining voting core has
taken, or that none of them has asked for, is over. -/
def dropCore (c : Nat) (s : State) : State :=
  let s := s.modCore c (fun k => { k with openG := [], closed := [], expect := [], sigs := [], marked := none, swept := none })
  let vs := s.voting.filter (fun x => x != c)
  s.modHeart (fun h => { h with
    stops := h.stops.filter (fun p => p.1 != c),
    reads := (h.reads.map (fun r =>
      { r with reqs := r.reqs.filter (fun x => x.1 != c), taken := r.taken.filter (fun x => x != c) })).filter (fun r =>
        !r.reqs.isEmpty && !vs.all (fun x => r.taken.contains x)) })

/-- What is left of a comparison when a core has left the voting set (R399, R401): the two that remain are compared as a pair once both have
given what `get` reads; `clr` takes it back. -/
def settlePair (get : Core → Option MarkSig) (clr : Core → Core) (s : State) : State :=
  match s.voting with
  | [a, b] =>
    match get (s.core a), get (s.core b) with
    | some x, some y =>
      let s := (s.modCore a clr).modCore b clr
      if x.agrees y then s else safeState 5 0 s
    | _, _ => s
  | _ => s

/-- Core `c` is fenced (R403, R412): in SERVICE it enters SELFTEST; in the other phases COPY, unless it has been fenced
more than RSLIM times in the phase. Fencings caused by HW_TEST are not counted. -/
def fence (c kind addr : Nat) (inj : Bool) (s : State) : State :=
  let s := recordMis kind c addr inj s
  let n := (s.core c).phaseFences + 1
  let next := if s.fld HW_PHASE.PHASE = 1 ∨ s.fld HW_CTRL.RSLIM < n then 1 else 2
  let s := s.setFld (coreField c) 0 next
  let s := dropCore c s
  let s := s.modCore c (fun k =>
    { k with phaseFences := n, counted := !inj, fenceTimes := if inj then k.fenceTimes else k.fenceTimes ++ [s.tb] })
  let s := settlePair Core.marked (fun k => { k with marked := none, sigDiff := false }) (showFences c s)
  let s := settlePair Core.swept (fun k => { k with swept := none }) s
  let s := onlyIf inj (State.modHeart (fun h => { h with test := h.test.map (fun p => { p with caught := true }) })) s
  s.flag HW_STATUS.FENCE evHW

/-- A mismatch that names the odd core `c` (Table HW-2): fenced out of three; with two cores in RUN, the safe state. -/
def oddCore (c kind addr : Nat) (inj : Bool) (s : State) : State :=
  if s.voting.length = 3 then fence c kind addr inj s else safeState (if kind = 4 then 4 else 5) addr s

/-! ### Commit groups (R384 to R389) -/

/-- The copy of a group that the voter compares for core `c`: HW_TEST of KIND 0 inverts bit 0 of its first write (R414). -/
def State.presented (s : State) (c : Nat) (g : List GWrite) : List GWrite :=
  if s.proofArmed c 0 then
    match g with
    | w :: t => { w with img := w.img ^^^ 1#128 } :: t
    | [] => []
  else g

/-- The block address of the first write in which two copies differ. -/
def diffAddr : List GWrite → List GWrite → Nat
  | a :: x, b :: y => if a = b then diffAddr x y else a.blk
  | a :: _, [] => a.blk
  | [], b :: _ => b.blk
  | [], [] => 0

/-- The lag window in TU, LAG in 100 ns units of 12.5 TU, rounded up (Table HW-5). -/
def State.lagTu (s : State) : Nat := (s.fld HW_CTRL.LAG * 25 + 1) / 2

/-- The stall limit in TU (Table HW-5). -/
def State.stallTu (s : State) : Nat := s.fld HW_CTRL.STALLT * 12500

/-- How many closed groups core `c` stands ahead of the landed ones, or, where negative, behind them. -/
def State.groupPos (s : State) (c : Nat) : Int := (s.core c).closed.length - (s.core c).expect.length

/-- The voter closes a group: the first core to close it sets the bits and counters of R388 and R389. -/
def noteClose (c : Nat) (why : CloseWhy) (s : State) : State :=
  if s.voting.all (fun d => decide (s.groupPos d ≤ s.groupPos c)) then
    match why with
    | .plain => s
    | .split => (s.countFld HW_GRP.SPLITN 0 1).flag HW_STATUS.GRPSPLIT evHW
    | .span => (s.countFld HW_GRP.SPANN 0 1).flag HW_STATUS.GRPSPAN evHW
  else s

/-- A copy of core `c` up to the group of the HW_TEST write has been delivered (R414). -/
def passProof (c : Nat) (s : State) : State :=
  s.modHeart (fun h => { h with test := h.test.map (fun p => if p.core = c then { p with skip := p.skip - 1 } else p) })

/-- Core `c` closes its open group (R384). Where the other two cores' copies have landed already, this copy is the third
and is compared (R385); else it waits at the voter. -/
def closeGroup (c : Nat) (why : CloseWhy) (s : State) : State :=
  let k := s.core c
  match k.openG with
  | [] => s
  | g =>
    let s := (noteClose c why s).modCore c (fun k => { k with openG := [] })
    match k.expect with
    | [] => s.modCore c (fun k => { k with closed := k.closed ++ [{ writes := g, why := why, time := s.tb }] })
    | e :: rest =>
      let p := s.presented c g
      if e.time + s.lagTu < s.tb then oddCore c 1 (diffAddr e.writes []) (s.proofArmed c 0) s
      else if p = e.writes then passProof c (s.modCore c (fun k => { k with expect := rest }))
      else oddCore c 0 (diffAddr p e.writes) (s.proofArmed c 0) s

/-- Core `c` makes a voted write (R388): a 129th write closes the group before it. -/
def pushWrite (c : Nat) (w : GWrite) (s : State) : State :=
  let s := onlyIf (decide (128 ≤ (s.core c).openG.length)) (closeGroup c .split) s
  s.modCore c (fun k => { k with openG := k.openG ++ [w] })

/-- The group write of `n` bytes of `v` at address `a` (before R384). -/
def mkWrite (a n v : Nat) : GWrite :=
  { blk := a / 16 * 16, mask := BitVec.ofNat 16 ((2 ^ n - 1) * 2 ^ (a % 16)),
    img := BitVec.ofNat 128 (v % 256 ^ n * 256 ^ (a % 16)) }

/-! ### The sweep (R397 to R399) -/

/-- The comparison of the signatures of the voting cores (R399, Table HW-2). -/
def sweepCompare (l : List (Nat × MarkSig)) (s : State) : State :=
  let l := l.map (fun p => (p.1, s.sweepSig p.1 p.2))
  match l with
  | [(a, x), (b, y), (c, z)] =>
    if x.agrees y && y.agrees z && x.agrees z then s
    else if x.agrees y then oddCore c 3 0 (s.proofArmed c 1) s
    else if x.agrees z then oddCore b 3 0 (s.proofArmed b 1) s
    else if y.agrees z then oddCore a 3 0 (s.proofArmed a 1) s
    else safeState 5 0 s
  | [(_, x), (_, y)] => if x.agrees y then s else safeState 5 0 s
  | _ => s

/-! ### Retirement, self-test, copy, rejoining (R404 to R411) -/

/-- Core `c` is retired (R405, R406): powered down, recorded by the keeper, HWMODE 0b01 from the next boundary. -/
def retireCore (c : Nat) (stfail : Bool) (s : State) : State :=
  let s := s.setFld (coreField c) 0 4
  let s := s.modEng c (fun e => { e with run := .stopped })
  let s := s.modKeeper (fun k => { k with retired := k.retired ||| 2 ^ c })
  let s := s.modHeart (fun h => { h with modeNext := if s.fld ID_BOOT.HWMODE = 0 then some 1 else h.modeNext })
  let s := onlyIf stfail (State.flag HW_STATUS.STFAIL evHW) s
  s.flag HW_STATUS.RETIRE evHW

/-- The self-test has destroyed the content of core `c`'s Heartwood RAM (R404): every byte is a free value, in valid check bits
(assumption 86). -/
def destroyRam (c : Nat) (s : State) : State :=
  let cell (i : Nat) : Option (Nat × Byte) :=
    let b := BitVec.ofNat 8 (Config.freeValue (s.free + i))
    if b = 0#8 then none else some (memKey (1 + c) (0x10000000 + i), b)
  State.putSpace (1 + c) ((List.range 0x100000).filterMap cell)
    { s with free := s.free + 0x100000, errs := s.errs.filter (fun p => p.1 * 16 / 2 ^ 32 != 1 + c) }

/-- SELFTEST_COMPLETE (R404, R405, R426): the self-test of core `c` ends, passed or not. A core that passes is retired where this fencing
has raised its count above MISMAX. In the hand-over to voted mode HC's result waits for the boundary. -/
def execSelftestComplete (c : Fin 3) (pass : Bool) (s : State) : Host.Outcome State Fault Refusal :=
  let c := c.val
  if s.coreState c ≠ 1 || s.isSafe then .next s
  else
  let s := destroyRam c s
  if s.isSplit then .next (s.modHeart (fun h => { h with hcTest := some pass }))
  else if !pass then .next (retireCore c true s)
  else if (s.core c).counted && decide (s.fld HW_CTRL.MISMAX < (s.core c).fenceTimes.length) then .next (retireCore c false s)
  else .next (s.setFld (coreField c) 0 2)

/-- Copy the Heartwood RAM of core `a` into core `b`. -/
def copyRam (a b : Nat) (s : State) : State :=
  let src := s.mem.filter (fun p => p.1 / 2 ^ 32 == 1 + a)
  State.putSpace (1 + b) (src.map (fun p => (memKey (1 + b) (p.1 % 2 ^ 32), p.2)))
    { s with errs := s.errs.filter (fun p => p.1 * 16 / 2 ^ 32 != 1 + b) }

/-- The blocks of Heartwood RAM in which the copies of cores `a` and `b` hold a byte that is not 0, ascending. -/
def State.ramBlocks (s : State) (a b : Nat) : List Nat :=
  ((s.coreRam a ++ s.coreRam b).map (fun p => p.1 / 16 * 16)).eraseDups.mergeSort (fun x y => decide (x ≤ y))

/-- The block at address `x` of the copies of Heartwood RAM of cores `a` and `b` is the same. -/
def State.sameBlock (s : State) (a b x : Nat) : Bool := s.rd (memKey (1 + a) x) 16 == s.rd (memKey (1 + b) x) 16

/-- COPY_COMPLETE (R408, R409): the copier ends for core `c`; `bad` is an uncorrectable block in the fenced core's copy. The copier reads each
block from both voting cores at one retire index: while they stand at different ones their stores have not met, and it cannot tell a
difference from one core's lead, so it goes on (DEDUCED, assumption 182). It then moves the blocks in ascending order and stops at the first that
differs: the pair has diverged. -/
def execCopyComplete (c : Fin 3) (bad : Bool) (s : State) : Host.Outcome State Fault Refusal :=
  let c := c.val
  if s.coreState c ≠ 2 || s.isSafe then .next s
  else match s.voting with
    | [a, b] =>
      match (s.ramBlocks a b).find? (fun x => !s.sameBlock a b x) with
      | some _ => .next (if (s.eng a).retire = (s.eng b).retire then safeState 5 0 s else s)
      | none =>
        if bad then .next (retireCore c true s)
        else .next ((copyRam a c (s.modCore c (fun k => { k with sigDiff := false, silent := [] }))).setFld (coreField c) 0 3)
    | _ => .next s

/-- The core in JOIN takes over the state of voting core `a`, which stands at the mark, and enters RUN (R410, R411). A voter proof that fenced
it is complete (R414). -/
def rejoin (a c : Nat) (s : State) : State :=
  let s := copyRam a c s
  let e := s.eng a
  let s := s.modEng c (fun _ => e)
  let s := s.modCore c (fun k => { Core.reset with phaseFences := k.phaseFences, fenceTimes := k.fenceTimes })
  let s := s.modCore c (fun k => { k with sigs := (s.core a).sigs, closed := (s.core a).closed, expect := (s.core a).expect,
                                          openG := (s.core a).openG })
  let s := (s.setFld (coreField c) 0 0).countFld HW_COUNT.REJOINN 0 1
  let s := s.flag HW_STATUS.REJOIN evHW
  match s.heart.test with
  | some p =>
    if p.core = c && p.caught then
      (s.modHeart (fun h => { h with test := none })).flag HW_STATUS.TESTDONE evHW
    else s
  | none => s

/-! ### Boundary marks and signals (R393 to R396) -/

/-- Split mode begins (R425): HC enters OFF, HA and HB go on from the same state, unvoted. -/
def splitHandover (s : State) : State :=
  let s := s.setFld HW_CORE.HC 0 5
  let s := s.modEng 2 (fun e => { e with run := .stopped })
  let pendOf (c : Nat) (t : State) : State := forEach (t.core c).sigs (fun p u =>
    match p.1 with
    | .event e => u.pendEng c e
    | _ => u) t
  let s := pendOf 1 (pendOf 0 s)
  let s := forEach [0, 1, 2] dropCore s
  let s := s.setFld ID_BOOT.HWMODE 0 2
  let s := s.modHeart (fun h => { h with splitDue := false })
  hostDevice 4 0 (s.flag HW_STATUS.MODECHG evHW)

/-- Every voting core has taken the boundary mark, core `d` as the last: the sweep (R397), then a core in JOIN rejoins with the state of `d`,
which stands as it does after the mark (R410), then an accepted split request takes effect (R425). -/
def markComplete (d : Nat) (s : State) : State :=
  let vs := s.voting
  let l := vs.filterMap (fun c => (s.core c).marked.map (fun m => (c, m)))
  if l.length = vs.length && vs.length ≠ 0 then
    let s := forEach vs (fun c => State.modCore c (fun k => { k with marked := none, sigDiff := false })) s
    let s := sweepCompare l s
    if s.isSafe then s
    else
      let s := match s.voting with
        | [_, _] => forEach ([0, 1, 2].filter (fun c => s.coreState c == 3)) (rejoin d) s
        | _ => s
      onlyIf (s.heart.splitDue && s.coreState 0 == 0 && s.coreState 1 == 0) splitHandover s
  else s

/-- Every voting core has given the signature of a SWEEP: the comparison (R397). -/
def sweepComplete (s : State) : State :=
  let vs := s.voting
  let l := vs.filterMap (fun c => (s.core c).swept.map (fun m => (c, m)))
  if l.length = vs.length then
    sweepCompare l (forEach vs (fun c => State.modCore c (fun k => { k with swept := none })) s)
  else s

/-- Core `c` reaches delivery index `d`: a core that waits in WAIT retires the WAIT at that point (R393). The delivery is a happening of
the trace unit (16 R586). -/
def reachIndex (c d : Nat) (s : State) : State :=
  traceHap 2 (s.modEng c (fun e => { e with retire := max e.retire d }))

/-- Core `c` carries out the boundary mark (R389, R396): its open group is closed and landed before the signature is
taken, STEP returns to 0, BUDGET may be signalled afresh. -/
def takeMark (c d : Nat) (s : State) : State :=
  let s := closeGroup c .span s
  if (s.core c).closed ≠ [] || s.coreState c ≠ 0 || s.isSafe then s
  else
    let s := (reachIndex c d s).modEng c (fun e => { e with step := 0#32, budgeted := false })
    let m := s.markSig c
    let s := s.modCore c (fun k => { k with marked := some m, sigs := k.sigs.tail })
    markComplete c s

/-- Core `c` takes the sweep signal: with its groups landed, it gives its signature (R397). A sweep before it is compared first. -/
def takeSweep (c d : Nat) (s : State) : State :=
  let s := closeGroup c .plain s
  if (s.core c).closed ≠ [] || s.coreState c ≠ 0 || s.isSafe || (s.core c).swept.isSome then s
  else
    let s := reachIndex c d s
    let m := s.markSig c
    sweepComplete (s.modCore c (fun k => { k with swept := some m, sigs := k.sigs.tail }))

/-- An engine halts for the debugger at its next instruction boundary (R428, 16 R585): after the instruction that it is in the middle of; one
that waits in WAIT goes on waiting after its resume. -/
def haltEngine (i : Nat) (s : State) : State :=
  match (s.eng i).run with
  | .running =>
    if (s.eng i).midway then s.modHeart (fun h => { h with stepping := h.stepping.filter (· != i) ++ [i] })
    else s.modEng i (fun e => { e with run := .halted })
  | .waiting => (s.modEng i (fun e => { e with run := .halted })).modHeart (fun h => { h with parked := h.parked ++ [i] })
  | _ => s

/-- The engine waits in WAIT, and no enabled event has ended the wait (09 R362). -/
def Engine.waits (x : Engine) : Bool := x.run == .waiting && !x.wakes

/-- Core `c` takes the first signal waiting for it, when its retire index has reached the delivery index, or when it
waits in WAIT and so retires the WAIT at that point (R393, R394). -/
def takeSignal (c : Nat) (s : State) : State :=
  match (s.core c).sigs with
  | [] => s
  | (g, d) :: rest =>
    let e := s.eng c
    if s.coreState c ≠ 0 || s.isSafe || !(decide (d ≤ e.retire) || e.waits) then s
    else match g with
      | .event ev => ((reachIndex c d s).modCore c (fun k => { k with sigs := rest })).pendEng c ev
      | .halt =>
        if (s.core c).closed = [] then haltEngine c ((reachIndex c d s).modCore c (fun k => { k with sigs := rest })) else s
      | .mark => takeMark c d s
      | .sweep _ => takeSweep c d s

/-- SIGNAL_DELIVERY (R393): core `c` takes the signal at its delivery index. -/
def execSignalDelivery (c : Fin 3) (s : State) : Host.Outcome State Fault Refusal := .next (takeSignal c.val s)

/-- The voted hand-over (R426): HA's state and RAM go to HB and, if HC passed its self-test, to HC; the cores go on from
HA's next instruction as a voted triplet, or as a pair with HC retired. -/
def votedHandover (pass : Bool) (s : State) : State :=
  let s := copyRam 0 1 s
  let e := s.eng 0
  let s := s.modEng 1 (fun _ => e)
  let s := if pass then ((copyRam 0 2 s).modEng 2 (fun _ => e)).setFld HW_CORE.HC 0 0 else retireCore 2 true s
  let s := forEach [0, 1, 2] (fun c => State.modCore c (fun k => { Core.reset with fenceTimes := k.fenceTimes })) s
  let s := (s.setFld HW_PHASE.PHASE 0 0).setFld HW_PHASE.REQ 0 0
  let s := s.modHeart (fun h => { h with reqA := none, reqB := none, hcTest := none, modeNext := none })
  let s := (s.setFld ID_BOOT.HWMODE 0 (if pass then 0 else 1)).modKeeper (fun k => { k with serviceAt := none })
  hostDevice 4 0 (s.flag HW_STATUS.MODECHG evHW)

/-- The boundary mark of a cycle boundary (R396): a signal to each voting core, taken at once by one that waits in WAIT;
merged into one while the cores are halted (R430). In split mode each core returns STEP to 0, and a due hand-over takes
place (R426). A mode held for the boundary takes effect first (R49). -/
def heartBoundary (s : State) : State :=
  let s := match s.heart.modeNext with
    | some m => hostDevice 4 0 ((s.setFld ID_BOOT.HWMODE 0 m).modHeart (fun h => { h with modeNext := none }))
    | none => s
  if s.isSplit then
    let s := forEach [0, 1] (fun c => State.modEng c (fun e => { e with step := 0#32, budgeted := false })) s
    match s.heart.reqA, s.heart.reqB, s.heart.hcTest with
    | some a, some b, some pass => if max a b + 4 * s.cycleLen ≤ s.tb then votedHandover pass s else s
    | _, _, _ => s
  else if s.voting.any (fun c => (s.eng c).run == .halted) then s.modHeart (fun h => { h with merged := true })
  else
    let vs := s.voting
    let s := s.toHeart .mark
    forEach vs (fun c t =>
      if (t.eng c).waits && (t.core c).sigs.length == 1 then takeSignal c t else t) s

/-! ### Requests of the software (R412, R414, R425 to R427) -/

/-- A write of HW_PHASE (R412): 0 is rejected; a new phase restarts the RSLIM count. -/
def hwPhase (q : Req) (v : Nat) (s : State) : State :=
  if !q.voted then writeFields q HW_PHASE.fields 0 v s
  else if v % 4 = 0 then s.flag HW_STATUS.CFGERR evHW
  else forEach [0, 1, 2] (fun c => State.modCore c (fun k => { k with phaseFences := 0 })) (s.setFld HW_PHASE.PHASE 0 v)

/-- A write of HW_TEST (R414): in PHASE TEST, with all cores in RUN and no proof under way. The named core may have the group of this very write
still to deliver, as the third. -/
def hwTest (q : Req) (core kind : Nat) (s : State) : State :=
  if !q.voted then s.reject q
  else if s.fld HW_PHASE.PHASE = 2 && s.voting.length = 3 && s.heart.test.isNone && core ≠ 3 then
    s.modHeart (fun h => { h with test := some { core := core, kind := kind, skip := if kind = 0 then (s.core core).expect.length else 0, caught := false } })
  else s.flag HW_STATUS.CFGERR evHW

/-- COMMIT_PROOF (R414): HW_TEST with KIND 0. -/
def execCommitProof (q : Req) (core : BitVec 2) (s : State) : Host.Outcome State Fault Refusal :=
  asReq q s <|
  .next (hwTest q core.toNat 0 s)

/-- SWEEP_PROOF (R414): HW_TEST with KIND 1. -/
def execSweepProof (q : Req) (core : BitVec 2) (s : State) : Host.Outcome State Fault Refusal :=
  asReq q s <|
  .next (hwTest q core.toNat 1 s)

/-- A split request is accepted (R425): all cores in RUN, no bobbin active, no vital output running, no launch armed. -/
def State.splitOk (s : State) : Bool :=
  s.voting.length == 3
    && (List.range 256).all (fun b => s.fld BB_CFG.ACTIVE b == 0)
    && s.fld PW_VORUN.RUN == 0
    && (List.range 16).all (fun c => s.fld TM_LCFG.ARM c == 0)

/-- A single request for voted mode that is more than 2 cycles old has been dropped (R426). -/
def dropStale (s : State) : State :=
  let old (r : Option Nat) : Bool := match r with
    | some t => decide (t + 2 * s.cycleLen < s.tb)
    | none => false
  let h := s.heart
  if h.reqA.isSome && h.reqB.isSome || !(old h.reqA || old h.reqB) then s
  else (s.modHeart (fun h => { h with reqA := none, reqB := none })).flag HW_STATUS.MODEREF evHW

/-- A request for voted mode by HA (`second` false) or HB (R426): with both within 2 cycles HC runs its self-test. -/
def votedRequest (second : Bool) (s : State) : State :=
  let s := dropStale s
  let s := s.modHeart (fun h => if second then { h with reqB := some s.tb } else { h with reqA := some s.tb })
  let s := s.setFld HW_PHASE.REQ 0 (bit s.heart.reqA.isSome + 2 * bit s.heart.reqB.isSome)
  match s.heart.reqA, s.heart.reqB with
  | some a, some b =>
    if max a b ≤ min a b + 2 * s.cycleLen then
      if s.coreState 2 = 4 then s.modHeart (fun h => { h with hcTest := some false })
      else s.setFld HW_CORE.HC 0 1
    else s
  | _, _ => s

/-- A write of HW_MODEREQ (R425 to R427). -/
def hwModeReq (q : Req) (mode : Nat) (s : State) : State :=
  let m := mode % 4
  if !q.trains then s.reject q
  else if m = 0 || m = 3 || (m == 1 && !s.isSplit) || (m == 2 && s.isSplit) then s.flag HW_STATUS.CFGERR evHW
  else match q with
    | .hw =>
      if m = 2 then
        if s.splitOk then s.modHeart (fun h => { h with splitDue := true }) else s.flag HW_STATUS.MODEREF evHW
      else s.reject q
    | .splitA => if m = 1 then votedRequest false s else s.reject q
    | _ => if m = 1 then votedRequest true s else s.reject q

/-- SPLIT_REQUEST (R425): HW_MODEREQ with MODE 2. -/
def execSplitRequest (q : Req) (s : State) : Host.Outcome State Fault Refusal :=
  asReq q s <| .next (hwModeReq q 2 s)

/-- VOTED_REQUEST (R426): HW_MODEREQ with MODE 1. -/
def execVotedRequest (q : Req) (s : State) : Host.Outcome State Fault Refusal :=
  asReq q s <| .next (hwModeReq q 1 s)

/-- REQUEST_DROP (R426): a single request not matched within 2 cycles is dropped. -/
def execRequestDrop (s : State) : Host.Outcome State Fault Refusal :=
  let drop (t : State) : State :=
    ((t.modHeart (fun h => { h with reqA := none, reqB := none })).setFld HW_PHASE.REQ 0 0).flag HW_STATUS.MODEREF evHW
  match s.heart.reqA, s.heart.reqB with
  | some a, none => .next (if a + 2 * s.cycleLen < s.tb then drop s else s)
  | none, some b => .next (if b + 2 * s.cycleLen < s.tb then drop s else s)
  | _, _ => .next s

/-! ### Time limits and faults of the voter (R385, R387, R391, R405, R416) -/

/-- A performed agreed read that core `c` has not asked for (R391). -/
def State.lateRead (s : State) (c : Nat) : Option AgreedRead :=
  s.heart.reads.find? (fun r => r.val.isSome && !(r.reqs.any (fun x => x.1 == c)))

/-- What core `c` owes within LAG: the end of the window, the KIND that its lapse has, and the address (Table HW-2): its copy of a landed group,
its request of a performed read, the others' stops after its own. -/
def State.lagItems (s : State) (c : Nat) : List (Nat × Nat × Nat) :=
  let g := (s.core c).expect.head?.map (fun e => (e.time + s.lagTu, 1, diffAddr e.writes []))
  let r := (s.lateRead c).map (fun r => (r.time + s.lagTu, 2, (r.reqs.head?.map (fun x => x.2.1)).getD 0 / 16 * 16))
  let d := (s.heart.stops.find? (fun p => p.1 == c)).map (fun p => (p.2 + s.lagTu, 4, 0))
  g.toList ++ r.toList ++ d.toList

/-- The item whose window ends first. -/
def firstDue (l : List (Nat × Nat × Nat)) : Option (Nat × Nat × Nat) :=
  l.foldl (fun b x => match b with
    | none => some x
    | some y => if x.1 < y.1 then some x else some y) none

/-- LAG_EXPIRY (R385, R391, R400): core `c` has not delivered its copy, or its request, within LAG; or it has stopped in a
double fault and the others have not. Of several windows, the one that ends first. -/
def execLagExpiry (c : Fin 3) (s : State) : Host.Outcome State Fault Refusal :=
  let c := c.val
  if s.coreState c ≠ 0 || s.isSafe || s.isSplit then .next s
  else match firstDue (s.lagItems c) with
    | some (t, kind, addr) =>
      let s := s.advanceTo t
      .next (oddCore c kind addr (kind == 1 && s.proofArmed c 0) s)
    | none => .next s

/-- The groups that wait at the voter, the oldest of each voting core. -/
def State.firstCopies (s : State) : List (Nat × Group) :=
  s.voting.filterMap (fun c => (s.core c).closed.head?.map (fun g => (c, g)))

/-- Two of the waiting copies agree. -/
def State.twoAgree (s : State) : Bool :=
  let l := s.firstCopies
  l.any (fun x => l.any (fun y => x.1 != y.1 && s.presented x.1 x.2.writes == s.presented y.1 y.2.writes))

/-- STALL (R387, R391): fewer than two agreeing copies of a group STALLT after the first arrived, or a pair's second read
request not arrived within STALLT: the safe state. -/
def execStall (s : State) : Host.Outcome State Fault Refusal :=
  if s.isSafe || s.isSplit then .next s
  else match s.firstCopies with
    | (_, g) :: t =>
      if s.twoAgree then .next s
      else
        let first := t.foldl (fun m p => min m p.2.time) g.time
        .next (safeState 7 0 (s.advanceTo (first + s.stallTu)))
    | [] =>
      match s.heart.reads.find? (fun r => r.val.isNone && r.reqs.length == 1), s.voting.length with
      | some r, 2 => .next (safeState 7 0 (s.advanceTo (r.time + s.stallTu)))
      | _, _ => .next s

/-- VOTER_FAULT (R416). -/
def execVoterFault (s : State) : Host.Outcome State Fault Refusal := .next (safeState 6 0 s)

/-- FENCING_AGE_OUT (R405): the oldest fencing of core `c` falls out of the last 24 h of time-base time. -/
def execFencingAgeOut (c : Fin 3) (s : State) : Host.Outcome State Fault Refusal :=
  let c := c.val
  match (s.core c).fenceTimes with
  | [] => .next s
  | t :: rest =>
    let s := s.advanceTo (t + 10800000000000)
    .next (showFences c (s.modCore c (fun k => { k with fenceTimes := rest })))

/-- Store a block at a key. -/
def State.setBlock (k : Nat) (v : Block) (s : State) : State := s.wr k 16 v.toNat

/-- RAM_SCRUB (R398): the Heartwood scrubber finishes a pass, 2^SCRUB cycles after the last. `found` are blocks with wrong bits, by key; `changed` are
blocks whose content the cells changed without the code noticing (R432), by key. A recomputed signature that differs
marks the core's next state signature. Signature checks are inactive in split mode (R421). -/
def execRamScrub (found : List (Nat × Nat)) (changed : List (Nat × Block)) (s : State) : Host.Outcome State Fault Refusal :=
  let s := passEnd 1 (2 ^ s.fld HW_CTRL.SCRUB * s.cycleLen) s
  let s := upset (found.filter (fun p => kindOfKey p.1 == 1)) s
  let s := forEach ((s.errs.map (fun p => p.1 * 16)).filter (fun k => kindOfKey k == 1)) scrubBlock s
  let s := forEach (changed.filter (fun p => kindOfKey p.1 == 1)) (fun p t =>
    let c := p.1 / 2 ^ 32 - 1
    let k := p.1 / 16 * 16
    let old := BitVec.ofNat 128 (t.rd k 16)
    let t := if Config.blockHash (k % 2 ^ 32) old = Config.blockHash (k % 2 ^ 32) p.2 then t
      else t.modCore c (fun x => { x with silent := x.silent ++ [k] })
    t.setBlock k p.2) s
  let s := onlyIf (!s.isSplit) (forEach [0, 1, 2] (fun c => State.modCore c (fun x =>
    { x with sigDiff := x.sigDiff || !x.silent.isEmpty }))) s
  .next (s.countFld MI_UE.PASSN 1 1)

/-- A write of HW_CTRL (Table HW-5): spans LAG 5–80, STALLT 1–100, MISMAX 1–15, RSLIM 1–15, SCRUB 4–10 (R431). -/
def hwCtrl (q : Req) (v : Nat) (s : State) : State :=
  let lag := HW_CTRL.LAG.of v
  let st := HW_CTRL.STALLT.of v
  let sc := HW_CTRL.SCRUB.of v
  let ok := decide (5 ≤ lag) && decide (lag ≤ 80) && decide (1 ≤ st) && decide (st ≤ 100) && HW_CTRL.MISMAX.of v != 0
    && HW_CTRL.RSLIM.of v != 0 && decide (4 ≤ sc) && decide (sc ≤ 10)
  if q.voted && !ok then s.flag HW_STATUS.CFGERR evHW else writeFields q HW_CTRL.fields 0 v s

end Sys2Proof.Machine
end

