-- ==== Sys2Proof/Machine/Exception.lean ====
section
/-! DEFINITION. Taking a trap, an event or a fault on a Kamotte engine, and the return from one (09 R356 to R364): ONE entry
for all three kinds, and the frame in which every instruction runs: when an engine may start one, the fetch check, the
steps, the budget, the faults. -/

namespace Sys2Proof.Machine

/-! ### Memory as an engine reaches it -/

/-- The instruction memory of an engine (Table KM-1). -/
def inInstrMem (e : Eng) (a : Nat) : Bool :=
  match regionOf a, e with
  | .flash, _ => true
  | .hwram, .ha => true
  | .hwram, .hb => true
  | .hwram, .hc => true
  | .lram, .se _ => true
  | .lram, .root => decide (a < 0x40010000)
  | _, _ => false

/-- Engine `e` writes through the voter: a Heartwood core in voted operation (R30). -/
def State.votes (s : State) (e : Eng) : Bool := decide (e.idx < 3) && !s.isSplit

/-- The range passes the arbiter (Table AR-3). -/
def Region.arbitrated : Region → Bool
  | .shared => true
  | .canopy => true
  | .mirrorSrc => true
  | .bobbin => true
  | .dev => true
  | .diag => true
  | _ => false

/-- Store a whole block at key `k`: it replaces the block and its check bits (R435). -/
def putBlock (k v : Nat) (s : State) : State := (s.wr k 16 v).setBad k 0

/-- The block at an address is writable by the engine (R357): in its own RAM or in shared memory it may write. -/
def State.blockWritable (s : State) (e : Eng) (a : Nat) : Bool :=
  match regionOf a with
  | .dev => false
  | .bobbin => s.votes e
  | _ => engPerm e (s.votes e) a true == .ok

/-- Store the dispatch block (R357): a voted write where it leaves the core sphere. -/
def storeStack (e : Eng) (a v : Nat) (s : State) : State :=
  if s.votes e && regionOf a != .hwram then pushWrite e.idx (mkWrite a 16 v) s
  else putBlock (engKey e a) v s

/-! ### Dispatch (R357 to R361) -/

/-- The cores that stopped in a double fault more than LAG ago, while others had not, are fenced; of a pair, the safe state (R400, KIND 4). -/
def lateStops (s : State) : State :=
  forEach s.heart.stops (fun p t =>
    if t.heart.stops.contains p && !t.isSafe && decide (p.2 + t.lagTu < t.tb) then oddCore p.1 4 0 false t else t) s

/-- A double fault (R360): the engine stops and fetches no further instruction. A Sapwood engine is retired; a
voted core's stop is the voter's matter (R400, KIND 4): once every voting core has stopped within LAG of the first, the safe state; until then
LAG runs. -/
def doubleFault (e : Eng) (s : State) : State :=
  let s := s.modEng e.idx (fun x => { x with run := .stopped, midway := false })
  match e with
  | .se k => retireSapwood k.val (s.modPlan (fun p => { p with faults := p.faults ++ [k.val] }))
  | .root => s
  | _ =>
    if s.isSplit then s
    else
      let s := lateStops s
      let s := s.modHeart (fun h => { h with stops := h.stops ++ [(e.idx, s.tb)] })
      if s.voting.all (fun c => (s.eng c).run == .stopped) then safeState 4 0 s else s

/-- EVP with bits [3:0] 0, as they read (Table KM-2). -/
def evpBits (v : Word) : Word := v &&& 0xFFFFFFF0#32

/-- FLG with the reserved bits 0 (Table KM-3). -/
def flgWritable (v : Word) : Word := v &&& 0xFFFF007F#32

/-- The step budget of an engine per cycle (Table KM-9). -/
def State.stepBudget (s : State) (i : Nat) : Nat :=
  (if i < 3 then 450000 else 500000) * 2 ^ s.fld CK_RING.CYCLE

/-- STEP advances by `n` (R346), and the BUDGET event is signalled when it first passes the budget in the cycle (R348). -/
def addSteps (e : Eng) (n : Nat) (s : State) : State :=
  let i := e.idx
  let st := satAdd 0xFFFFFFFF (s.eng i).step.toNat n
  let s := s.modEng i (fun x => { x with step := BitVec.ofNat 32 st })
  let s := { s with steps := Tab.set 0 s.steps i (Tab.get 0 s.steps i + n) }
  if decide (s.stepBudget i < st) && !(s.eng i).budgeted then
    if s.votes e then
      let s := forEach s.voting (fun c => State.modEng c (fun x => { x with budgeted := true })) s
      s.toHeart (.event evBUDGET)
    else (s.modEng i (fun x => { x with budgeted := true })).pendEng i evBUDGET
  else s

/-- Dispatch entry (R357): vector slot `slot`, cause `code` and `detail`, return PC and ADDR. The four words FLG, return
PC, ADDR and CAUSE go to the block below W14; EI is cleared, DSP set, and PC is EVP plus the slot. -/
def dispatchEntry (e : Eng) (slot code detail retPc addr : Nat) (s : State) : State :=
  let i := e.idx
  let x := s.eng i
  let sp := x.w[14].toNat - 16
  if x.w[14].toNat % 16 ≠ 0 || x.w[14].toNat < 16 || !s.blockWritable e sp then doubleFault e s
  else
    let cause := code + 256 * detail + 65536 * x.pend.toNat
    let blk := x.flg.toNat + 2 ^ 32 * retPc + 2 ^ 64 * addr + 2 ^ 96 * cause
    let s := storeStack e sp blk s
    let s := s.modEng i (fun y =>
      { y with w := y.w.set 14 (BitVec.ofNat 32 sp), code := BitVec.ofNat 8 code, detail := BitVec.ofNat 8 detail,
               flg := setFlag (setFlag y.flg 5 false) 6 true, pc := evpBits y.evp + BitVec.ofNat 32 slot,
               run := if y.run = .waiting then .running else y.run, midway := false })
    addSteps e 6 s

/-- A fault of the current instruction (R357, R359, R360): a double fault while DSP is 1. -/
def takeFault (e : Eng) (code detail addr : Nat) (s : State) : State :=
  let x := s.eng e.idx
  if flgDSP x.flg then doubleFault e s else dispatchEntry e 0xC code detail x.pc.toNat addr s

/-- A trap with number `n` (R363): a double fault while DSP is 1. -/
def takeTrap (e : Eng) (n retPc : Nat) (s : State) : State :=
  if flgDSP (s.eng e.idx).flg then doubleFault e s else dispatchEntry e 0x4 0x80 n retPc 0 s

/-- The lowest event that qualifies for dispatch (R361): enabled, pending, with EI 1 and DSP 0. -/
def Engine.qualify (x : Engine) : Option Nat :=
  if flgEI x.flg && !flgDSP x.flg then
    (List.range 16).find? (fun e => x.pend.getLsbD e && (flgMask x.flg).getLsbD e)
  else none

/-- Dispatch of an event that qualifies (R361): its PEND bit is cleared, the return PC is the instruction not yet run. -/
def takeEvent (e : Eng) (s : State) : State :=
  let i := e.idx
  match (s.eng i).qualify with
  | none => s
  | some ev =>
    let s := s.modEng i (fun x => { x with pend := x.pend &&& ~~~(1#16 <<< ev) })
    dispatchEntry e 0x8 (0x40 + ev) 0 (s.eng i).pc.toNat 0 s

/-! ### Running one instruction -/

/-- A signal's delivery index has been reached by core `c` (R393). -/
def State.signalDue (s : State) (c : Nat) : Bool :=
  match (s.core c).sigs with
  | (_, d) :: _ => decide (d ≤ (s.eng c).retire)
  | [] => false

/-- The engine stalls on a bobbin lock that it has asked for and not been granted (04 R206). -/
def State.stalled (s : State) (e : Eng) : Bool :=
  let q := s.reqOf e
  s.lockWait.any (fun w => w.who == q && (Tab.get none s.locks w.bob).all (fun l => l.who != q))

/-- The engine can advance: it runs, or an enabled event ends its WAIT, and it does not wait for a lock; a Heartwood core is in RUN with
no signal due, and does not stand at the mark at which split mode begins (10 R425). -/
def State.alive (s : State) (e : Eng) : Bool :=
  let x := s.eng e.idx
  (x.run == .running || (x.run == .waiting && x.wakes)) && !s.stalled e
    && (decide (3 ≤ e.idx) || (s.coreState e.idx == 0 && !s.signalDue e.idx && !(s.heart.splitDue && (s.core e.idx).marked.isSome)))

/-- The engine may start an instruction, or complete the one that it is in the middle of: no event is to be dispatched first (R361, R362,
R364). -/
def State.mayStart (s : State) (e : Eng) : Bool := s.alive e && ((s.eng e.idx).midway || (s.eng e.idx).qualify.isNone)

/-- The engine can advance and stands between two instructions (R361). -/
def State.between (s : State) (e : Eng) : Bool := s.alive e && !(s.eng e.idx).midway

/-- EVENT_DISPATCH (R361): between instructions, the lowest enabled pending event. -/
def execEventDispatch (e : Eng) (s : State) : Host.Outcome State Fault Refusal :=
  if s.between e then .next (takeEvent e s) else .next s

/-- The engine is in the middle of its instruction, which waits (R362). -/
def midway (e : Eng) (s : State) : State := s.modEng e.idx (fun x => { x with midway := true })

/-- What an instruction's body comes to: it completes and goes on with the next instruction; it completes and jumps; it
faults, with the state holding at most the memory's own error records (R359); it waits, and goes on when it is issued again; or it has not begun, since
SIN has no word to take (R372) or its store has reset the device. -/
inductive Res where
  | done (s : State)
  | jump (pc : Word) (s : State)
  | fault (code detail addr : Nat) (s : State)
  | wait (s : State)
  | over (s : State)

/-- An instruction of engine `e` completes (R346): PC moves on, STEP advances, the retire index counts, and a single step
halts the core again (R430). A core that the safe state has stopped meanwhile stays stopped (10 R418). -/
def finish (e : Eng) (cost : Nat) (pc : Word) (s : State) : State :=
  let i := e.idx
  let s := s.modEng i (fun x =>
    { x with pc := pc, retire := x.retire + 1, midway := false,
             run := if x.run = .stopped then .stopped else if s.heart.stepping.contains i then .halted else .running })
  let s := onlyIf (s.heart.stepping.contains i) (State.modHeart (fun h => { h with stepping := h.stepping.filter (fun c => c != i) })) s
  addSteps e cost s

/-- The input that an uncorrectable block is recorded under (11 Table MI-10). -/
def State.ueInput (s : State) (e : Eng) (a : Nat) : Nat :=
  match regionOf a with
  | .hwram => 0xD
  | .lram => 0xD
  | _ => s.input (s.reqOf e)

/-- The `words` words of the instruction at PC lie word-aligned in instruction memory, in blocks without a wrong bit: its fetch is good
and leaves no trace (R342). -/
def State.fetchOk (s : State) (e : Eng) (words : Nat := 1) : Bool :=
  (List.range words).all (fun j =>
    let a := (s.eng e.idx).pc.toNat + 4 * j
    a % 4 == 0 && inInstrMem e a && s.badBits (engKey e a) == 0)

/-- The voted Heartwood fetches from flash by one agreed read (11 R433), which the first core of the voting set makes here. -/
def State.fetchShared (s : State) (e : Eng) (a : Nat) : Bool :=
  s.votes e && regionOf a == .flash && s.voting.head? != some e.idx

/-- The fetch of the word at `a` (R342): whether it is good, and what the memory does with a wrong bit meanwhile (11 R434, R436). -/
def fetchWord (e : Eng) (a : Nat) (s : State) : Bool × State :=
  if a % 4 ≠ 0 || !inInstrMem e a then (false, s)
  else if s.fetchShared e a then (decide (s.badBits a < 3), s)
  else s.readBlock (s.ueInput e a) (engKey e a)

/-- The fetch of an instruction of `words` words at PC (R342, R345). -/
def fetchInstr (e : Eng) (words : Nat) (s : State) : Bool × State :=
  let pc := (s.eng e.idx).pc.toNat
  let r := fetchWord e pc s
  if words ≤ 1 || !r.1 then r else fetchWord e (pc + 4) r.2

/-- One instruction of `words` words and `cost` steps (R346: plus 1 with an extension word): fetch fault, illegal
instruction, or its body. -/
def runInstr (e : Eng) (cost words : Nat) (legal : Bool) (body : State → Res) (s : State) : State :=
  let x := s.eng e.idx
  let f := fetchInstr e words s
  let s := f.2
  if !f.1 then takeFault e 5 0 x.pc.toNat s
  else if !legal then takeFault e 1 0 x.pc.toNat s
  else match body s with
    | .done t => finish e (cost + words - 1) (x.pc + BitVec.ofNat 32 (4 * words)) t
    | .jump pc t => finish e (cost + words - 1) pc t
    | .fault code detail addr t => takeFault e code detail addr t
    | .wait t => midway e t
    | .over t => t

/-- The engine runs the instruction when it may start one; else the command finds no occasion. -/
def instr (e : Eng) (cost words : Nat) (legal : Bool) (body : State → Res) (s : State) :
    Host.Outcome State Fault Refusal :=
  if s.mayStart e then .next (runInstr e cost words legal body s) else .next s

/-- The value of a general register. -/
def State.reg (s : State) (e : Eng) (r : Fin 16) : Word := (s.eng e.idx).w[r]

/-- Write a general register. -/
def State.setReg (e : Eng) (r : Fin 16) (v : Word) (s : State) : State :=
  s.modEng e.idx (fun x => { x with w := x.w.set r v })

/-- FLG of an engine. -/
def State.flg (s : State) (e : Eng) : Word := (s.eng e.idx).flg

/-- Write FLG of an engine. -/
def State.setFlg (e : Eng) (v : Word) (s : State) : State := s.modEng e.idx (fun x => { x with flg := v })

/-- An access fault that a voted write brings to every voting core. -/
def heartFault (detail addr : Nat) (s : State) : State :=
  forEach s.voting (fun c => takeFault ([Eng.ha, .hb, .hc].getD c .ha) 3 detail addr) s

end Sys2Proof.Machine
end

