-- ==== Sys2Proof/Machine/Fingerprint.lean ====
section
/-! DEFINITION. Axle-spacing fingerprints (05 R212 to R229): the buffer, recording, the matcher and its commands. -/

namespace Sys2Proof.Machine

/-! ### The buffer (R212 to R217) -/

/-- The fingerprint header's first word of bobbin `b` (Table FP-2). -/
def State.fpHead (s : State) (b : Nat) : Nat := s.rdW (bobAddr b + 0x100)

/-- The SP and PIDX fields of entry record `i` (exit record where `x`). -/
def State.fpRec (s : State) (b : Nat) (x : Bool) (i : Nat) : Nat × Nat :=
  let v := s.rd (bobAddr b + (if x then 0x180 else 0x110) + 2 * i) 2
  (v % 4096, v / 4096)

/-- The list of records in force. -/
def State.fpList (s : State) (b : Nat) (x : Bool) : List (Nat × Nat) :=
  (List.range (bitsOf (s.fpHead b) (if x then 6 else 0) 6)).map (s.fpRec b x)

/-- The buffer starts again (R213), with INC at a restart: its first block is written whole. The last-match area and old records stay. -/
def fpStart (b : Nat) (inc : Bool) (epoch : Nat) (s : State) : State :=
  votedWr (bobAddr b + 0x100) 16 (bit inc * 2 ^ 15 + s.nowLow * 2 ^ 32 + epoch % 2 ^ 32 * 2 ^ 64) s

/-- The predecessor of a point (R216): time, epoch, speed, HALF, and whether its record is in the exit list. -/
structure FpEvent where
  time : Nat
  epoch : Nat
  speed : Nat
  half : Bool
  exit : Bool

/-- The spacing of a new record (R217). -/
def spacing (p : Option FpEvent) (e : FpEvent) : Nat :=
  match p with
  | none => 0xFFF
  | some p =>
    if p.exit != e.exit then 0xFFF
    else if p.epoch ≠ e.epoch || p.speed = 0 || e.speed = 0 || p.half || e.half then 0
    else if e.time ≤ p.time then 0
    else
      let v := (p.speed + e.speed) / 2
      let d := (e.time - p.time) * v / 125000000
      if 4094 < d then 0xFFF else d

/-- Append a record (R215): dropped with OVFE or OVFX when the list holds 56; TQX and RMT of the event all the same. -/
def fpAppend (b : Nat) (exit : Bool) (sp pidx : Nat) (tq remote : Bool) (s : State) : State :=
  let k := bobAddr b + 0x100
  let h := s.fpHead b
  let n := bitsOf h (if exit then 6 else 0) 6
  let h := if tq then putBit h 14 true else h
  let h := if remote then putBit h 16 true else h
  if 56 ≤ n then votedWr k 4 (putBit h (if exit then 13 else 12) true) s
  else
    let u := bitsOf h 17 7
    let h := if sp = 0 ∧ u < 127 then h + 2 ^ 17 else h
    let h := h + (if exit then 64 else 1)
    votedWr (bobAddr b + (if exit then 0x180 else 0x110) + 2 * n) 2 (sp + pidx * 4096) (votedWr k 4 h s)

/-! ### The matcher (R220 to R228) -/

/-- A tolerance set (Table FP-5). -/
def State.fpSet (s : State) (i : Nat) : Nat := s.fld FP_TOLA.SETLO i + s.fld FP_TOLB.SETHI i * 2 ^ 32

/-- How one pair compares (R222): agreed or not, whether an unknown was used, and |x − e| in 1/256 of e. -/
structure PairRes where
  ok : Bool
  unk : Bool
  worst : Nat

/-- The test of R222 under tolerance set `t`. -/
def fpAgree (t e x : Nat) : PairRes :=
  if e = 0xFFF ∨ x = 0xFFF then { ok := e == x, unk := false, worst := 0 }
  else if e = 0 ∨ x = 0 then { ok := true, unk := true, worst := 0 }
  else
    let d := if e ≤ x then x - e else e - x
    { ok := decide (d ≤ bitsOf t 16 8 + bitsOf t 8 8 * e / 256), unk := false, worst := min 255 (d * 256 / e) }

/-- The pairs compared, as results. -/
def fpPairs (t : Nat) (l : List (Nat × Nat)) : List PairRes := l.map (fun p => fpAgree t p.1 p.2)

/-- The forward pairs of two lists. -/
def fpForward (e x : List (Nat × Nat)) : List (Nat × Nat) := (e.zip x).map (fun p => (p.1.1, p.2.1))

/-- The reverse pairs: E[0] with X[0], and E[n − i] with X[i] (R222). -/
def fpReverse (e x : List (Nat × Nat)) : List (Nat × Nat) :=
  match e, x with
  | e0 :: er, x0 :: xr => (e0.1, x0.1) :: (er.reverse.zip xr).map (fun p => (p.1.1, p.2.1))
  | _, _ => []

/-- FP_DETAIL of a set of pairs (Table FP-10). -/
def fpDetail (l : List PairRes) : Nat :=
  l.length + (l.filter (fun r => !r.ok)).length * 2 ^ 8 + (l.map PairRes.worst).foldl max 0 * 2 ^ 16
    + (l.filter PairRes.unk).length * 2 ^ 24

/-- The first pair that disagrees, or the number of pairs. -/
def fpFirstBad (l : List PairRes) : Nat := (l.takeWhile PairRes.ok).length

/-- FP_RESULT without BUSY (Table FP-9). -/
def fpResult (code b pos susp alt slist : Nat) : Nat :=
  code + b * 2 ^ 4 + pos * 2 ^ 12 + susp * 2 ^ 18 + alt * 2 ^ 22 + slist * 2 ^ 26

/-- PIDX of record `i` of a list. -/
def pidxOf (l : List (Nat × Nat)) (i : Nat) : Nat := (l[i]?.map Prod.snd).getD 0

/-- SP of record `i` of a list. -/
def spOf (l : List (Nat × Nat)) (i : Nat) : Nat := (l[i]?.map Prod.fst).getD 0

/-- Time quality is below the correlation limit (06 R248). -/
def State.tqLow (s : State) : Bool := s.isSet TM_STATUS.TQLOW

/-- A clearance-mode match of bobbin `b` (R223): FP_RESULT and FP_DETAIL. -/
def clearanceMatch (b : Nat) (s : State) : Nat × Nat :=
  let h := s.fpHead b
  let tbl := bitsOf (s.rdW (bobAddr b + 0x14)) 5 3
  let t := s.fpSet tbl
  let e := s.fpList b false
  let x := s.fpList b true
  let rmt := h.testBit 16
  if !s.active b then (fpResult 9 b 0 0 0 0, 0)
  else if !t.testBit 0 || (rmt && !t.testBit 2) then (fpResult 8 b 0 0 0 0, 0)
  else if h.testBit 15 || h.testBit 12 || h.testBit 13 || e.length != x.length || decide (e.length < bitsOf t 24 6) then
    (fpResult 5 b 0 0 0 0, 0)
  else if rmt && (h.testBit 14 || s.tqLow) then (fpResult 6 b 0 0 0 0, 0)
  else
    let f := fpPairs t (fpForward e x)
    let r := fpPairs t (fpReverse e x)
    let max := bitsOf t 32 4
    let okF := f.all PairRes.ok
    let okR := t.testBit 1 && r.all PairRes.ok
    let fewF := decide ((f.filter PairRes.unk).length ≤ max)
    let fewR := decide ((r.filter PairRes.unk).length ≤ max)
    if okF && fewF then (fpResult 0 b 0 0 0 0, fpDetail f)
    else if okR && fewR then (fpResult 1 b 0 0 0 0, fpDetail r)
    else if okF || okR then (fpResult 7 b 0 0 0 0, fpDetail f)
    else
      let p := fpFirstBad f
      (fpResult 2 b p (pidxOf x p) (pidxOf e p) 0, fpDetail f)

/-- The sum a ⊕ b of two records (R226). -/
def fpSum (a b : Nat) : Nat := if a = 0xFFF ∨ b = 0xFFF then 0xFFF else if a = 0 ∨ b = 0 then 0 else a + b

/-- A localisation-mode match of bobbin `b` (R226). -/
def localisationMatch (b : Nat) (s : State) : Nat × Nat :=
  let h := s.fpHead b
  let tbl := bitsOf (s.rdW (bobAddr b + 0x14)) 5 3
  let t := s.fpSet tbl
  let e := s.fpList b false
  let x := s.fpList b true
  let rmt := h.testBit 16
  if !s.active b then (fpResult 9 b 0 0 0 0, 0)
  else if !t.testBit 0 || (rmt && !t.testBit 2) then (fpResult 8 b 0 0 0 0, 0)
  else if h.testBit 15 || h.testBit 12 || h.testBit 13 then (fpResult 5 b 0 0 0 0, 0)
  else if rmt && (h.testBit 14 || s.tqLow) then (fpResult 6 b 0 0 0 0, 0)
  else
    let f := fpPairs t (fpForward e x)
    let d := fpDetail f
    let k := fpFirstBad f
    let ne := e.length
    let nx := x.length
    if ne = nx then
      if k = ne then (fpResult 0 b 0 0 0 0, d) else (fpResult 2 b k (pidxOf x k) (pidxOf e k) 0, d)
    else if ne + 1 ≠ nx && nx + 1 ≠ ne then (fpResult 4 b 0 0 0 0, d)
    else
      let sl := if nx < ne then 1 else 0
      let sh := if nx < ne then x else e
      let lo := if nx < ne then e else x
      let agree (l r : Nat) : Bool := (fpAgree t l r).ok
      if k = sh.length then
        let susp := if sh.isEmpty then pidxOf lo k else pidxOf sh (k - 1)
        (fpResult 3 b k susp (pidxOf lo k) sl, d)
      else if agree (fpSum (spOf lo k) (spOf lo (k + 1))) (spOf sh k)
          && (List.range sh.length).all (fun j => decide (j ≤ k) || agree (spOf lo (j + 1)) (spOf sh j)) then
        (fpResult 3 b k (pidxOf sh k) (pidxOf lo (k + 1)) sl, d)
      else (fpResult 4 b 0 0 0 sl, d)

/-- A match writes its result (R220, Tables FP-9, FP-11): FP_RESULT, FP_DETAIL, the status bits and the counts. -/
def fpWrite (m : Match) (s : State) : State :=
  let code := m.result % 16
  let r := m.result
  let s := ((s.setFld FP_RESULT.CODE 0 code).setFld FP_RESULT.BOB 0 (bitsOf r 4 8)).setFld FP_RESULT.POS 0 (bitsOf r 12 6)
  let s := ((s.setFld FP_RESULT.SUSP 0 (bitsOf r 18 4)).setFld FP_RESULT.ALT 0 (bitsOf r 22 4)).setFld FP_RESULT.SLIST 0 (bitsOf r 26 1)
  let s := s.setFld FP_RESULT.BUSY 0 0
  let d := m.detail
  let s := (s.setFld FP_DETAIL.NPAIR 0 (bitsOf d 0 8)).setFld FP_DETAIL.NBAD 0 (bitsOf d 8 8)
  let s := (s.setFld FP_DETAIL.WORST 0 (bitsOf d 16 8)).setFld FP_DETAIL.NUNKU 0 (bitsOf d 24 8)
  let s := { s with fp := none }
  let s := onlyIf (decide (code ≤ 1)) (State.flag FP_STATUS.CONF evBB) s
  let s := onlyIf (code == 3) (State.flag FP_STATUS.LOC evBB) s
  let s := onlyIf (code == 2 || code == 4 || code == 7) (State.flag FP_STATUS.MISM evBB) s
  let s := onlyIf (decide (code ≤ 1) && m.mode == 0) (State.countFld FP_COUNT.NCONF 0 1) s
  onlyIf (code == 3) (State.countFld FP_COUNT.NLOC 0 1) s

/-- The match that runs completes. -/
def fpFinish (s : State) : State :=
  match s.fp with
  | some m => fpWrite m s
  | none => s

/-- The match of a bobbin in a mode, as it will complete. -/
def runMatch (b mode : Nat) (s : State) : Match :=
  let p := if mode = 0 then clearanceMatch b s else localisationMatch b s
  { result := p.1, detail := p.2, mode := mode }

/-- A write of FP_MATCH (R220): it waits for a match that runs, then starts one on the buffer as it stands. -/
def fpMatch (q : Req) (v : Nat) (s : State) : State :=
  if !q.voted then s.reject q
  else
    let s := fpFinish s
    { s with fp := some (runMatch (FP_MATCH.BOB.of v) (FP_MATCH.MODE.of v) s) }.setFld FP_RESULT.BUSY 0 1

/-- CLEARANCE_MATCH (R223): a write of FP_MATCH with MODE 0. -/
def execClearanceMatch (q : Req) (b : BitVec 8) (s : State) : Host.Outcome State Fault Refusal :=
  asReq q s <|
  .next (fpMatch q b.toNat s)

/-- LOCALISATION_MATCH (R226): a write of FP_MATCH with MODE 1. -/
def execLocalisationMatch (q : Req) (b : BitVec 8) (s : State) : Host.Outcome State Fault Refusal :=
  asReq q s <|
  .next (fpMatch q (b.toNat + 256) s)

/-- MATCH_COMPLETE (R220). -/
def execMatchComplete (s : State) : Host.Outcome State Fault Refusal := .next (fpFinish s)

/-- The last-match area, one block, takes a match (Table FP-8). -/
def fpStore (b : Nat) (m : Match) (epoch : Nat) (s : State) : State :=
  votedWr (bobAddr b + 0x1F0) 16
    (m.result % 2 ^ 32 + m.detail % 2 ^ 32 * 2 ^ 32 + s.nowLow * 2 ^ 64 + (epoch + m.mode * 16) % 2 ^ 32 * 2 ^ 96) s

end Sys2Proof.Machine
end

