-- ==== Sys2Proof/Machine/Frames.lean ====
section
/-! DEFINITION. Carrik frames as bytes: fields, elements, check values, and the checks of a received frame (07 R269 to R277,
R287, R289). -/

namespace Sys2Proof.Machine

/-! ### Bytes -/

/-- Byte `i` of a frame. -/
def fb (l : List Byte) (i : Nat) : Nat := (l[i]?.getD 0#8).toNat

/-- The little-endian number in `n` bytes from `i` (00 R7). -/
def fle (l : List Byte) (i : Nat) : Nat → Nat
  | 0 => 0
  | n + 1 => fb l i + 256 * fle l (i + 1) n

/-- The big-endian number of a list of bytes. -/
def beNat (l : List Byte) : Nat := l.foldl (fun a b => a * 256 + b.toNat) 0

/-- `n` bytes of `v`, lowest first. -/
def leBytes : Nat → Nat → List Byte
  | 0, _ => []
  | n + 1, v => BitVec.ofNat 8 v :: leBytes n (v / 256)

/-- `n` bytes of `v`, highest first. -/
def beBytes (n v : Nat) : List Byte := (leBytes n v).reverse

/-- Replace the bytes from `i` by `b`. -/
def putBytes (l : List Byte) (i : Nat) (b : List Byte) : List Byte := l.take i ++ b ++ l.drop (i + b.length)

/-! ### Header (Tables CK-2a, CK-3) -/

/-- VER. -/
def fVer (l : List Byte) : Nat := fb l 14 % 16
/-- TYPE. -/
def fType (l : List Byte) : Nat := fb l 14 / 16
/-- HOP. -/
def fHop (l : List Byte) : Nat := fb l 15
/-- SRC. -/
def fSrc (l : List Byte) : Nat := fle l 16 2 % 1024
/-- RING. -/
def fRing (l : List Byte) : Nat := fle l 16 2 / 1024 % 8
/-- SLOT. -/
def fSlot (l : List Byte) : Nat := fle l 18 2 % 1024
/-- CYC. -/
def fCyc (l : List Byte) : Nat := fle l 20 2
/-- LEN. -/
def fLen (l : List Byte) : Nat := fle l 24 2
/-- PID. -/
def fPid (l : List Byte) : Nat := fle l 26 4

/-! ### Elements (R273, R274) -/

/-- An element: TYPE, COUNT, body. -/
structure Elem where
  ty : Nat
  count : Nat
  body : List Byte

/-- The elements of an element area. -/
def elemsOf : Nat → List Byte → List Elem
  | 0, _ => []
  | n + 1, l =>
    let len := fle l 2 2
    let rest := l.drop 4
    if l.length < 4 ∨ rest.length < len then []
    else { ty := fb l 0, count := fb l 1, body := rest.take len } :: elemsOf n (rest.drop len)

/-- The elements of a frame. -/
def frameElems (l : List Byte) : List Elem := elemsOf 400 ((l.drop 30).take (min (fLen l) (l.length - 38)))

/-- The bytes of an element. -/
def elemBytes (ty count : Nat) (body : List Byte) : List Byte :=
  [BitVec.ofNat 8 ty, BitVec.ofNat 8 count] ++ leBytes 2 body.length ++ body

/-- The element carries an IEEE 1588 message. -/
def isTimeElem (ty : Nat) : Bool := decide (2 ≤ ty) && decide (ty ≤ 5)

/-- Change the correctionField (bytes 8 to 15 of the message) of the elements of an area that `p` names. -/
def mapCorr (p : Nat → Bool) (f : Nat → Nat) : Nat → List Byte → List Byte
  | 0, l => l
  | n + 1, l =>
    let len := fle l 2 2
    let rest := l.drop 4
    if l.length < 4 ∨ rest.length < len then l
    else
      let body := rest.take len
      let body := if p (fb l 0) then putBytes body 8 (beBytes 8 (f (beNat ((body.drop 8).take 8)))) else body
      l.take 4 ++ body ++ mapCorr p f n (rest.drop len)

/-- Put the correctionFields given, in order, into the PDRESP elements of an area; `none` leaves one as it is (R274). -/
def putTurns : Nat → List (Option Nat) → List Byte → List Byte
  | 0, _, l => l
  | n + 1, cs, l =>
    let len := fle l 2 2
    let rest := l.drop 4
    if l.length < 4 ∨ rest.length < len then l
    else if fb l 0 = 5 then
      let body := match cs.head?.join with
        | some c => putBytes (rest.take len) 8 (beBytes 8 c)
        | none => rest.take len
      l.take 4 ++ body ++ putTurns n (cs.drop 1) (rest.drop len)
    else l.take (4 + len) ++ putTurns n cs (rest.drop len)

/-- The frame with its correctionFields changed. -/
def frameCorr (p : Nat → Bool) (f : Nat → Nat) (l : List Byte) : List Byte :=
  let n := min (fLen l) (l.length - 38)
  l.take 30 ++ mapCorr p f 400 ((l.drop 30).take n) ++ l.drop (30 + n)

/-! ### Graft messages (08 R332, Table GR-6) -/

/-- The bytes of a Graft message. -/
def msgBytes (x : Nat × GMsg) : List Byte :=
  let m := x.2
  leBytes 12 (x.1 + m.seg.toNat * 2 ^ 8 + m.body.length * 2 ^ 16 + m.dst.toNat * 2 ^ 32 + bit m.bcast * 2 ^ 47 + m.term.toNat * 2 ^ 48
    + m.sbob.toNat * 2 ^ 56 + m.origin.toNat * 2 ^ 64) ++ m.body

/-- The order of Table GR-6. -/
def msgOrder : List Nat := [0x01, 0x0B, 0x0C, 0x09, 0x0A, 0x06, 0x07, 0x05, 0x08, 0x03, 0x04, 0x0D, 0x02]

/-- The messages in the order of Table GR-6, in arrival order within one MTYPE. -/
def sortMsgs (l : List (Nat × GMsg)) : List (Nat × GMsg) := msgOrder.flatMap (fun ty => l.filter (fun x => x.1 == ty))

/-- The first messages of a list that fit in `n` bytes. -/
def fitMsgs (n : Nat) : List (Nat × GMsg) → List (Nat × GMsg)
  | [] => []
  | x :: t => if (msgBytes x).length ≤ n then x :: fitMsgs (n - (msgBytes x).length) t else []

/-- The bytes of each message of a GRAFT body. -/
def splitMsgs : Nat → List Byte → List (List Byte)
  | 0, _ => []
  | n + 1, l =>
    let len := 12 + fle l 2 2
    if l.length < 12 ∨ l.length < len then [] else l.take len :: splitMsgs n (l.drop len)

/-! ### Check values (R276; IEEE 802.3 frame check sequence) -/

/-- SCODE over offsets 14 to FLEN − 9, with HOP and every correctionField taken as 0. -/
def scodeOf (seed : Nat) (l : List Byte) : Nat :=
  let m := putBytes (frameCorr isTimeElem (fun _ => 0) l) 15 [0#8]
  revBits 32 (crcBytes 32 0x1EDC6F41 true seed ((m.drop 14).take (l.length - 22))) ^^^ 0xFFFFFFFF

/-- The FCS over all bytes before it: the CRC-32 of IEEE 802.3 (PRESUMED, assumption 55). -/
def fcsOf (l : List Byte) : Nat :=
  revBits 32 (crcBytes 32 0x04C11DB7 true 0xFFFFFFFF (l.take (l.length - 4))) ^^^ 0xFFFFFFFF

/-- The frame with a new FCS. -/
def withFcs (v : Nat) (l : List Byte) : List Byte := putBytes l (l.length - 4) (leBytes 4 v)

/-- The frame with the SCODE of a seed and its FCS. -/
def sealFrame (seed : Nat) (l : List Byte) : List Byte :=
  let l := putBytes l (l.length - 8) (leBytes 4 (scodeOf seed l))
  withFcs (fcsOf l) l

/-! ### Received frames (R269, R277) -/

/-- R269: the port discards the frame. -/
def State.discards (s : State) (l : List Byte) : Bool :=
  let ety := fb l 12 * 256 + fb l 13
  ety != s.fld CK_CTRL.ETYPE || ety == 0x8100 || ety == 0x8808 || decide (l.length < 64) || decide (1518 < l.length)

/-- A slot kind permits a TYPE (Table CK-4). -/
def kindPermits (kind ty : Nat) : Bool := if kind = 0 then decide (ty ≤ 2) else ty == 1 || ty == 3

/-- The receiver's time state applies acceptance windows (R277). -/
def State.windowed (s : State) : Bool := [2, 3, 5].contains s.time.tq

/-- What the header checks of R277 find. -/
inductive HeadCheck where
  | ok
  | other
  | pid
  | owner
  | timing
  deriving DecidableEq, Repr

/-- The checks of R277 that can be made on the header, for a frame on port `p` of ring `r` now. -/
def State.headCheck (s : State) (r p : Nat) (k : Prick) (l : List Byte) : HeadCheck :=
  if fVer l ≠ 1 || fRing l ≠ k.ring then .other
  else if fPid l ≠ (if r = 0 then s.fld CK_PID.PID else s.fld CK_PID2.PID) then .pid
  else match k.slot (fSlot l) with
    | none => .owner
    | some x =>
      if posNode (k.pos (slotOwner x)) ≠ fSrc l || !kindPermits (slotKind x) (fType l) then .owner
      else if !s.windowed then .ok
      else if k.windowCyc x (s.myPos r) ((s.ringPorts r).2 == p) s.eff s.nowTu == some (fCyc l) then .ok
      else .timing

/-- The seed of the sender of a frame. -/
def senderSeed (k : Prick) (l : List Byte) : Nat :=
  match k.slot (fSlot l) with
  | some x => posSeed (k.pos (slotOwner x))
  | none => 0

/-- Fresh bytes: the content of an IEEE 1588 message, which the spec leaves to that standard. -/
def State.freshBytes (s : State) : Nat → List Byte × State
  | 0 => ([], s)
  | n + 1 =>
    let p := s.fresh
    let q := p.2.freshBytes n
    (BitVec.ofNat 8 p.1 :: q.1, q.2)

end Sys2Proof.Machine
end

