-- ==== Sys2Proof/Machine/Carrik.lean ====
section
/-! DEFINITION. The Carrik network (07 R268 to R306): ports, node states, reception, relaying, the receive ring and its
dispatch, transmission, the Footside, ring view and re-routes, schedule start and stop; received Announces (06 R240). -/

namespace Sys2Proof.Machine

/-! ### The diagnostics window's logs (16 R571, R583) -/

/-- Append an entry to log `n` of `size` entries from `base` (16 R583): it overwrites the oldest when full. -/
def appendLog (n base size word detail : Nat) (s : State) : State :=
  let i := Tab.get 0 s.logs n
  let k := base + i % size * 16
  let s := ((s.wrW k word).wrW (k + 4) s.nowLow).wrW (k + 8) (s.fld AG_HOURS.HOURS)
  { s.wrW (k + 12) detail with logs := Tab.set 0 s.logs n (i + 1) }

/-- A fit check fails at a stage (16 R571): RB_FIT, the fit log, and FITREF at stages 1 and 2. -/
def recordFit (code stage item kind : Nat) (s : State) : State :=
  let s := ((s.setFld RB_FIT.CODE 0 code).setFld RB_FIT.STAGE 0 stage).setFld RB_FIT.ITEM 0 item
  let s := appendLog 0 0x38000040 16 (s.readFields RB_FIT.fields 0) (kind % 65536) s
  onlyIf (stage != 0) (State.flag RB_STATUS.FITREF evRB) s

/-! ### Ring view and re-routes (R244, R299) -/

/-- Every port's measurement starts again (06 R244). -/
def remeasure (s : State) : State :=
  let s := forEach (List.range 6) (fun p t => (t.setFld TM_PDELAY.VALID p 0).setFld TM_PDELAY.NMEAS p 0) s
  (s.modTime (fun t => { t with remeasure := true })).flag TM_STATUS.REROUTE evTM

/-- A re-route (R299): reported to the time unit; a node that follows a master enters ACQUIRE (06 R244). -/
def reroute (s : State) : State :=
  let s := remeasure (s.flag CK_STATUS.REROUTE evCK)
  if s.time.follow.isSome && s.time.tq != 0 && s.time.tq != 5 then enterTq 1 s else s

/-- The master's frame of the home ring arrives on a port with HOP `h` (R299): the preferred port and HOPM follow; a change of
the preferred port is a re-route. `first` is whether this copy is the accepted one. -/
def noteHop (r : Nat) (odd : Bool) (h : Nat) (first : Bool) (s : State) : State :=
  let s := s.modRing r (fun x => if odd then { x with hopO := some (h, s.cycle) } else { x with hopE := some (h, s.cycle) })
  let x := s.ring r
  let fresh (o : Option (Nat × Nat)) : Option Nat := o.bind (fun p => if s.cycle ≤ p.2 + 1 then some p.1 else none)
  let pref := s.fld (nsPref r)
  let new := match fresh x.hopE, fresh x.hopO with
    | some a, some b => if a < b then 0 else if b < a then 1 else if first then bit odd else pref
    | some _, none => 0
    | none, some _ => 1
    | none, none => pref
  let s := s.setFld (nsPref r) 0 new
  let s := onlyIf (decide (new = bit odd)) (State.setFld (nsHopm r) 0 h) s
  if new ≠ pref then reroute s else s

/-! ### Sending (R274, R281, R282, R294) -/

/-- TSTAT of this node in ring `r` (Table CK-6). -/
def State.tstat (s : State) (r : Nat) : List Byte :=
  let ps := s.ringPorts r
  leBytes 8 (s.time.tq + bit s.belowLimit * 2 ^ 3 + s.time.epoch * 2 ^ 4 + s.fld TM_MASTER.MNODE * 2 ^ 8
    + s.fld TM_MASTER.MRANK * 2 ^ 18 + s.fld TM_MASTER.VALID * 2 ^ 20 + s.fld (nsOpen r) * 2 ^ 21
    + bit (!s.portJoined ps.1) * 2 ^ 22 + bit (!s.portJoined ps.2) * 2 ^ 23 + s.node r * 2 ^ 24 + s.est * 2 ^ 32)

/-- This node is the time master of ring `r`: the cluster master on its home ring, a time bridge on its bridged ring (06
R241). -/
def State.ringMaster (s : State) (r : Nat) : Bool :=
  if r = 0 then s.time.tq == 5 else s.isSet TM_CTRL.BRIDGEM && s.isSet TM_MASTER.VALID

/-- An IEEE 1588 message of type `ty` in `n` bytes, with what Table TM-1 fixes (06 R236): one-step, ptpTimescale false, domainNumber,
logMessageInterval 0x7F. The places of these fields in a message are the standard's (PRESUMED, assumption 150); every other byte is
free. -/
def ptpMsg (ty n : Nat) (s : State) : List Byte × State :=
  let f := s.freshBytes n
  let l := putBytes f.1 0 [BitVec.ofNat 8 (fb f.1 0 / 16 * 16 + ty)]
  let l := putBytes l 2 (beBytes 2 n ++ [BitVec.ofNat 8 (s.fld TM_PROF.DOMAIN)])
  let l := putBytes l 6 [BitVec.ofNat 8 (putBit (fb l 6) 1 false), BitVec.ofNat 8 (putBit (fb l 7) 3 false)]
  (putBytes l 33 [0x7F#8], f.2)

/-- SYNC and ANNOUNCE elements (Table CK-5). -/
def syncElems (s : State) : List Byte × State :=
  let a := ptpMsg 0 44 s
  let b := ptpMsg 0xB 64 a.2
  let t := b.2
  let ext := t.fld TM_MASTER.MNODE + t.fld TM_MASTER.MRANK * 2 ^ 10 + t.fld TM_MASTER.MEPOCH * 2 ^ 12
    + t.fld TM_MASTER.CPHASE * 2 ^ 16 + t.est * 2 ^ 32
  (elemBytes 2 1 a.1 ++ elemBytes 3 1 (b.1 ++ leBytes 8 ext), t)

/-- A PDREQ element. -/
def pdreqElem (s : State) : List Byte × State := let a := ptpMsg 2 54 s; (elemBytes 4 1 a.1, a.2)

/-- The oldest response owed on port `p` is answered: the time base at which its request arrived. -/
def answer (p : Nat) (s : State) : State := s.modLink p (fun x => { x with owed := x.owed.drop 1 })

/-- A PDRESP element for the oldest response owed on each of a list of ports, with the port and the arrival of the request. -/
def pdrespElems (ps : List Nat) (s : State) : List Byte × List (Nat × Nat) × State :=
  ps.foldl (fun acc p =>
    match (acc.2.2.link p).owed with
    | [] => acc
    | t :: _ =>
      let a := ptpMsg 3 54 acc.2.2
      (acc.1 ++ elemBytes 5 1 a.1, acc.2.1 ++ [(p, t)], answer p a.2)) ([], [], s)

/-- Slot `j` is the first of this node's slots in ring `r` (R274). -/
def State.firstOwn (s : State) (r : Nat) (k : Prick) (j : Nat) : Bool :=
  k.slots.findIdx (fun x => slotOwner x == s.myPos r) == j

/-- A frame being assembled (R281): the time elements, the requests its PDRESP elements answer, and the state after. -/
structure Parts where
  elems : List Byte
  resps : List (Nat × Nat)
  after : State

/-- The time elements of a frame (R274) of the cycle that begins at network time `b`: TSTAT, and with `first`, in the first own slot of
the cycle, the messages due; SYNC and ANNOUNCE from the boundary on at which the master's role begins (06 R239). `cold` frames carry
SYNC and ANNOUNCE always (R294). -/
def timeElems (r b : Nat) (cold first : Bool) (s : State) : Parts :=
  let head := elemBytes 1 1 (s.tstat r)
  let ps := s.ringPorts r
  let master := s.ringMaster r && (r != 0 || decide (s.time.masterFrom ≤ b))
  let x := if cold || (first && master) then syncElems s else ([], s)
  let y := if first && (x.2.ring r).pdDue then pdreqElem x.2 else ([], x.2)
  let z := if first then pdrespElems [ps.1, ps.2] y.2 else ([], [], y.2)
  { elems := head ++ x.1 ++ y.1 ++ z.1, resps := z.2.1,
    after := onlyIf first (State.modRing r (fun x => { x with pdDue := false })) z.2.2 }

/-- Assemble a frame of `flen` bytes (R272, R281): addresses, header, elements, padding, SCODE and FCS. -/
def State.frameBytes (s : State) (ring pid seed ty slot cyc flen : Nat) (elems : List Byte) : List Byte :=
  let me := s.fld ID_NODE.NODE
  let da : List Byte := [3#8, 0#8, 0#8, 0#8, 0#8, BitVec.ofNat 8 ring]
  let sa : List Byte := [2#8, 0#8, 0#8, BitVec.ofNat 8 ring] ++ beBytes 2 me
  let head := leBytes 1 (1 + ty * 16) ++ [0#8] ++ leBytes 2 (me + ring * 2 ^ 10) ++ leBytes 2 slot ++ leBytes 2 cyc
    ++ leBytes 1 s.time.epoch ++ [0#8] ++ leBytes 2 elems.length ++ leBytes 4 pid
  let body := da ++ sa ++ beBytes 2 (s.fld CK_CTRL.ETYPE) ++ head ++ elems
  sealFrame seed (body ++ List.replicate (flen - body.length) 0#8)

/-- A frame of this node in ring `r`. -/
def State.frameOf (s : State) (r : Nat) (k : Prick) (ty slot cyc flen : Nat) (elems : List Byte) : List Byte :=
  s.frameBytes k.ring k.pid (s.mySeed r k) ty slot cyc flen elems

/-- Give a frame to a list of ports. -/
def sendOn (ports : List Nat) (l : List Byte) (s : State) : State :=
  forEach ports (fun p t => { t with lines := Tab.set [] t.lines p l }) s

/-- What the egress of port `p` sends of a frame (R274): the turnaround of each PDRESP that answers a request received on `p` fills that
element's correctionField, in 2^-16 ns; its part below 1 TU is measured by the port and free here. -/
def egress (p : Nat) (resps : List (Nat × Nat)) (l : List Byte) (s : State) : List Byte × State :=
  if resps.all (fun x => x.1 != p) then (l, s)
  else
    let d := s.freshWithin 15
    let corr (x : Nat × Nat) : Option Nat :=
      if x.1 = p then some (unsgn 64 (((((s.tb - x.2) * 16 : Nat) : Int) + d.1) * 32768)) else none
    let n := min (fLen l) (l.length - 38)
    let m := l.take 30 ++ putTurns 400 (resps.map corr) ((l.drop 30).take n) ++ l.drop (30 + n)
    (withFcs (fcsOf m) m, d.2)

/-- Release a frame on a list of ports, each with its own turnaround (R274, R281). -/
def sendOwn (ports : List Nat) (resps : List (Nat × Nat)) (l : List Byte) (s : State) : State :=
  forEach ports (fun p t =>
    let e := egress p resps l t
    { e.2 with lines := Tab.set [] e.2.lines p e.1 }) s

/-- The CYC of a cycle boundary of ring `r`. -/
def State.cycOf (s : State) (r b : Nat) : Nat := b / s.ringLen r % 65536

/-- A cold-start frame of slot `j` (R294): TSTAT, SYNC, ANNOUNCE and CSTART; `first` as in `timeElems`. -/
def coldFrame (r b : Nat) (k : Prick) (j cyc flen : Nat) (first : Bool) (s : State) : TxFrame × State :=
  let a := timeElems r b true first s
  let t := a.after
  let body := t.fld ID_NODE.NODE + (t.rank.getD 0) * 2 ^ 10 + bit (posBridge (k.pos (t.myPos r))) * 2 ^ 12
    + t.fld CK_COLD.ATTEMPT * 2 ^ 16
  let el := a.elems ++ elemBytes 0x15 1 (leBytes 8 body)
  ({ ring := r, slot := j, rel := b, bytes := t.frameOf r k 2 j cyc (max flen (el.length + 38)) el, resps := a.resps, events := [],
     facts := [], msgs := [] }, t)

/-- A frame of this node goes out on its ring's joined ports (R281): it is on the line until its end, and its copies are expected back
(R292, R299). -/
def transmit (k : Prick) (f : TxFrame) (slotEnd : Option Nat) (s : State) : State :=
  let r := f.ring
  let ps := s.joinedPorts r
  let s := sendOwn ps f.resps f.bytes s
  let dur := k.dur f.bytes.length
  let ret : Ret := { slot := f.slot, cyc := fCyc f.bytes, due := s.tb + k.round + dur + k.acctol,
                     scode := fle f.bytes (f.bytes.length - 8) 4, even := false, odd := false, active := s.node r == 4 }
  s.modRing r (fun y => { y with tx := some { slot := f.slot, ends := s.tb + dur, slotEnd := slotEnd, frame := some f },
                                 rets := if ps.isEmpty then y.rets else y.rets ++ [ret] })

/-- On entering COLDSTART in ring `r`, the node sends one cold-start frame at once (R294), unless its DMA is masked (11 Table MI-4). -/
def startCold (r : Nat) (s : State) : State :=
  let s := (setNode r 2 s).countFld CK_COLD.ATTEMPT 0 1
  match (if s.masked .dma then none else s.prick r) with
  | none => s
  | some k =>
    match k.own (s.myPos r) 0 with
    | [] => s
    | j :: _ =>
      let f := coldFrame r s.nowTu k j (s.fld (nsCyc r)) (((k.slot j).map slotFlen).getD 64) false s
      transmit k f.1 none f.2

/-- The node enters LISTEN in ring `r` (R294): its listen timer starts. -/
def enterListen (r : Nat) (s : State) : State :=
  let k := s.prick r
  let d := ((k.map Prick.lbase).getD 0) * 125000 + s.fld ID_NODE.NODE * ((k.map Prick.cslot).getD 0)
  (setNode r 1 s).modRing r (fun x => { x with listenAt := some (s.tb + d), clean := 0 })

/-- The bit of CK_TXRDY for own data slot number `j` of ring `r`. -/
def readyBit (r j : Nat) : Nat := r * 8 + j

/-- The bit for the summary train of ring `r`. -/
def trainBit (r : Nat) : Nat := 16 + r

/-- The own data slots of the home ring. -/
def State.homeSlots (s : State) : Nat := match s.prick 0 with | some k => (k.own (s.myPos 0) 0).length | none => 0
/-- The own data slots of the bridged ring. -/
def State.bridgedSlots (s : State) : Nat := match s.prick 1 with | some k => (k.own (s.myPos 1) 0).length | none => 0
/-- Ring `r` holds summary slots of this node. -/
def State.hasTrain (s : State) (r : Nat) : Bool := match s.prick r with | some k => !(k.own (s.myPos r) 1).isEmpty | none => false

/-- The address of buffer `b` of ready bit `i` in the transmit area (before R280). -/
def State.txBuffer (s : State) (i b : Nat) : Nat :=
  let slot := if i < 8 then i else if i < 16 then s.homeSlots + (i - 8)
    else s.homeSlots + s.bridgedSlots + (if i = 17 && s.hasTrain 0 then 1 else 0)
  s.fld CK_TXBASE.BASE + 1536 * (2 * slot + b)

/-- The buffer that CK_TXST names for a ready bit. -/
def State.txNext (s : State) (i : Nat) : Nat :=
  if i < 8 then bit (s.fbit CK_TXST.NEXT i) else if i < 16 then bit (s.fbit CK_TXST.NEXT2 (i - 8))
  else if i = 16 then s.fld CK_TXST2.SNEXT else s.fld CK_TXST2.SNEXT2

/-- Mark the NEXT buffer of ready bit `i` ready and toggle NEXT (R280). An older mark stands beside the new one only for a close in this
very TU, which the new one does not count toward. -/
def markReady (i : Nat) (s : State) : State :=
  let b := s.txNext i
  let old := ((Tab.get [] s.ready i).filter (fun x => decide (x.2 < s.tb))).take 1
  let s := { s with ready := Tab.set [] s.ready i ((b, s.tb) :: old) }
  if i < 8 then s.putFbit CK_TXST.NEXT 0 i (b == 0) else if i < 16 then s.putFbit CK_TXST.NEXT2 0 (i - 8) (b == 0)
  else if i = 16 then s.setFld CK_TXST2.SNEXT 0 (1 - b) else s.setFld CK_TXST2.SNEXT2 0 (1 - b)

/-- At a close of ready bit `i`, the buffer marked ready most recently before this TU, and the state in which only marks of this TU wait
for the next close (R280). -/
def closeMark (i : Nat) (s : State) : Option Nat × State :=
  let l := Tab.get [] s.ready i
  ((l.find? (fun x => decide (x.2 < s.tb))).map Prod.fst,
   { s with ready := Tab.set [] s.ready i (l.filter (fun x => decide (s.tb ≤ x.2))) })

/-- A write of CK_TXRDY (R280, R303). -/
def ckTxrdy (q : Req) (v : Nat) (s : State) : State :=
  if !q.voted then s.reject q
  else
    let has (i : Nat) : Bool := if i < 8 then decide (i < s.homeSlots) else if i < 16 then decide (i - 8 < s.bridgedSlots)
      else s.hasTrain (i - 16)
    forEach ((List.range 18).filter (fun i => v.testBit i && has i)) markReady s

/-- TX_READY (R280): a write of CK_TXRDY naming own data slots. -/
def execTxReady (q : Req) (v : Word) (s : State) : Host.Outcome State Fault Refusal :=
  asReq q s <| .next (ckTxrdy q (v.toNat % 65536) s)

/-- SUMMARY_READY (R303): a write of CK_TXRDY with SUMH or SUMB. -/
def execSummaryReady (q : Req) (v : Word) (s : State) : Host.Outcome State Fault Refusal :=
  asReq q s <|
  .next (ckTxrdy q (v.toNat / 65536 % 4 * 65536) s)

/-- The content of a ready buffer that fits in `room`: none, too long or uncorrectable (R282, 11 Table MI-2). -/
inductive Content where
  | none
  | long
  | bad (s : State)
  | ok (l : List Byte) (s : State)

/-- Read the content of buffer address `a` (before R280), block by block (11 R434, R436). -/
def State.content (s : State) (a room : Nat) : Content :=
  let n := s.rd a 2
  let h := s.readBlock (s.input .dma) a
  if !h.1 then .bad h.2
  else if room < n then .long
  else
    let r := readSpan (h.2.input .dma) (a + 16) n h.2
    if r.1 then .ok (s.rdL (a + 16) n) r.2 else .bad r.2

/-- The null mark of own data slot number `j`. -/
def setNull (r j : Nat) (v : Bool) (s : State) : State :=
  s.putFbit (if r = 0 then CK_TXST.NULL else CK_TXST.NULL2) 0 j v

/-- The address of entry `n` of half `h` of the state store (R302). -/
def State.storeAt (s : State) (h n : Nat) : Nat := s.fld CK_SSBASE.BASE + 147456 * h + 144 * n

/-- The entries that ring `r`'s summary train of cycle `cyc` sends, from ORIGIN `from_` on, as (ORIGIN, 132 bytes with AGE
increased) (R303). -/
def State.summaryEntries (s : State) (r cyc from_ : Nat) : List (Nat × List Byte) :=
  let prev := (cyc + 65535) % 65536
  let half := prev % 2
  let mask := s.fld (if r = 0 then CK_SUMMASK.HOME else CK_SUMMASK.BRIDGED)
  ((List.range 1024).filter (fun n => decide (from_ ≤ n))).filterMap (fun n =>
    let a := s.storeAt half n
    let w := s.rd a 2
    if bitsOf (s.rd (a + 134) 1) 0 1 = 1 ∧ s.rd (a + 132) 2 = prev ∧ mask.testBit (bitsOf w 10 3) then
      some (n, leBytes 2 (w % 8192 + min 7 (w / 8192 + 1) * 8192) ++ s.rdL (a + 2) 130)
    else none)

/-- The cycle of ring `r` in which own slot `j` next closes a buffer: that of its next frame to be filled. -/
def State.slotCycle (s : State) (r : Nat) (k : Prick) (j : Nat) : Nat :=
  let l : Int := s.ringLen r
  let off : Int := (slotStart ((k.slot j).getD 0) + k.grel : Nat) - 2000
  (((s.nowTu : Int) - off + l - 1) / l).toNat

/-- An ACCEPT or SWITCH of this node, for a frame released in cycle `c`: it names the second boundary after its release (08 R322). -/
def stampMsg (c : Nat) (x : Nat × GMsg) : Nat × GMsg :=
  if x.1 = 0x06 then (x.1, { x.2 with body := x.2.body.take 2 ++ leBytes 2 ((c + 2) % 65536) })
  else if x.1 = 0x0B then (x.1, { x.2 with body := x.2.body.take 8 ++ leBytes 2 ((c + 2) % 65536) })
  else x

/-- The slot in which this node's migration with ROLE `role` of the source's bobbin `b` stands in STATE `st`. -/
def State.migAt (s : State) (role st b : Nat) : Option Nat :=
  (List.range 8).find? (fun i => s.fld GR_MIG.STATE i == st && s.fld GR_MIG.ROLE i == role
    && (if role = 0 then s.fld GR_MIG.BOB i else s.fld GR_MIG.PBOB i) == b)

/-- The switch that the body of a SWITCH names (08 Table GR-6). -/
def moveOf (body : List Byte) : MoveSt :=
  let v := fle body 0 10
  { sid := bitsOf v 0 17, node := bitsOf v 32 10, ring := bitsOf v 42 3, bob := bitsOf v 48 8, ch := bitsOf v 64 16 }

/-- Change a migration's hidden state. -/
def putMig (i : Nat) (f : MigSt → MigSt) (s : State) : State :=
  { s with migs := Tab.set MigSt.reset s.migs i (f (Tab.get MigSt.reset s.migs i)) }

/-- The Graft messages of a frame of the home ring released in cycle `c` have been sent (08 R322): from an ACCEPT of this node on C0 is
named, from a SWITCH on C_h, and the owner's switch is due then (08 R335). -/
def msgsSent (c : Nat) (f : TxFrame) (s : State) : State :=
  let me := s.fld ID_NODE.NODE
  forEach (f.msgs.filter (fun x => f.ring == 0 && x.2.origin.toNat == me)) (fun x s =>
    if x.1 = 0x06 then
      match s.migAt 1 1 x.2.sbob.toNat with
      | some i => putMig i (fun y => { y with c0 := c + 2 }) s
      | none => s
    else if x.1 = 0x0B then
      match s.migAt 0 5 x.2.sbob.toNat with
      | some i =>
        let s := putMig i (fun y => { y with ch := c + 2, switched := true }) s
        { s with graft := { s.graft with moves := s.graft.moves ++ [moveOf x.2.body] } }
      | none => s
    else s) s

/-- They have not been sent after all: the frame was cut off. -/
def msgsUnsent (f : TxFrame) (s : State) : State :=
  let me := s.fld ID_NODE.NODE
  forEach (f.msgs.filter (fun x => f.ring == 0 && x.2.origin.toNat == me)) (fun x s =>
    if x.1 = 0x06 then
      match s.migAt 1 1 x.2.sbob.toNat with
      | some i => putMig i (fun y => { y with c0 := 0 }) s
      | none => s
    else if x.1 = 0x0B then
      match s.migAt 0 5 x.2.sbob.toNat with
      | some i =>
        let s := putMig i (fun y => { y with ch := 0, switched := false }) s
        { s with graft := { s.graft with moves := s.graft.moves.erase (moveOf x.2.body) } }
      | none => s
    else s) s

/-- The facts of a point status (Table CK-7): BLIND, DIP, PFAIL and ORPH. -/
def statusFacts : Nat := 2 ^ 13 + 2 ^ 14 + 2 ^ 15 + 2 ^ 17

/-- The head events, facts and messages of this node that a buffer's content carries (04 R178, 08 R332). Events and facts leave by the
home ring. -/
def carriedBy (r : Nat) (l : List Byte) (s : State) : List Nat × List (Nat × Nat) × List (Nat × GMsg) :=
  let els := elemsOf 400 l
  let items (ty w : Nat) : List Nat := (els.filter (fun e => e.ty == ty && r == 0)).flatMap (fun e =>
    (List.range e.count).map (fun i => fle e.body (w * i) w))
  let msgs := (els.filter (fun e => e.ty == 0x13)).flatMap (fun e => splitMsgs 400 e.body)
  (s.txEvents.filter (items 0x12 16).contains,
   ((items 0x11 4).map (fun v => (v % 2048, Tab.get 0 s.accum (v % 2048) &&& v &&& statusFacts))).filter (fun x => x.2 != 0),
   (Tab.get [] s.gmsgs r).filter (fun x => msgs.contains (msgBytes x)))

/-- A frame takes with it what its content carries: no other frame need carry that (04 R178). -/
def loadContent (r : Nat) (l : List Byte) (f : TxFrame) (s : State) : TxFrame × State :=
  let c := carriedBy r l s
  let s := forEach c.2.1 (fun x u => { u with accum := Tab.set 0 u.accum x.1 (Tab.get 0 u.accum x.1 - x.2) }) s
  ({ f with events := c.1, facts := c.2.1, msgs := c.2.2 },
   { s with txEvents := s.txEvents.filter (fun v => !c.1.contains v),
            gmsgs := Tab.set [] s.gmsgs r ((Tab.get [] s.gmsgs r).filter (fun x => !c.2.2.contains x)) })

/-- A frame that is not sent leaves what it carries for the next one (04 R178). -/
def giveBack (f : TxFrame) (s : State) : State :=
  let s := forEach f.facts (fun x u => { u with accum := Tab.set 0 u.accum x.1 (Tab.get 0 u.accum x.1 ||| x.2) }) s
  { s with txEvents := f.events ++ s.txEvents, gmsgs := Tab.set [] s.gmsgs f.ring (f.msgs ++ Tab.get [] s.gmsgs f.ring) }

/-- The network time of the cycle boundary that starts cycle `n` of ring `r`. -/
def State.boundaryOf (s : State) (r n : Nat) : Nat := n * s.ringLen r

/-- A frame of slot `j` in cycle `n` of ring `r`, without content of this node. -/
def State.plainFrame (s : State) (r : Nat) (k : Prick) (ty j n flen : Nat) (a : Parts) (more : List Byte) : TxFrame :=
  { ring := r, slot := j, rel := 0, bytes := s.frameOf r k ty j (n % 65536) flen (a.elems ++ more), resps := a.resps, events := [],
    facts := [], msgs := [] }

/-- A data frame of slot `j` at its close (R280 to R282): the buffer marked ready, else a null frame. -/
def dataFrame (r : Nat) (k : Prick) (j num n : Nat) (s : State) : TxFrame × State :=
  let flen := ((k.slot j).map slotFlen).getD 64
  let i := readyBit r num
  let m := closeMark i s
  let a := timeElems r (s.boundaryOf r n) false (s.firstOwn r k j) m.2
  let t := a.after
  let c := match m.1 with
    | none => Content.none
    | some b => t.content (t.txBuffer i b) (flen - 38 - a.elems.length)
  let null (u : State) : TxFrame × State :=
    (u.plainFrame r k 1 j n flen a [], (setNull r num true u).countFld CK_NODECNT.NULLN 0 1)
  match c with
  | .ok l u => loadContent r l (u.plainFrame r k 0 j n flen a l) (setNull r num false u)
  | .none => null (t.flag CK_STATUS.NULLTX evCK)
  | .long => null (t.flag CK_STATUS.TXLEN evCK)
  | .bad u => null u

/-- SNONE of ring `r`: its summary train carries no GRAFT content. -/
def setNone (r : Nat) (v : Bool) (s : State) : State := s.setFld (if r = 0 then CK_TXST2.SNONE else CK_TXST2.SNONE2) 0 (bit v)

/-- A frame of a summary train (R303): in its first slot the train's content, then the entries that fit, where there is room for their
element. With content that is too long
or uncorrectable the slot sends a null frame (R282, Table CK-4, 11 Table MI-2), and its entries go to the next slot. -/
def trainFrame (r : Nat) (k : Prick) (j n : Nat) (first last : Bool) (s : State) : TxFrame × State :=
  let flen := ((k.slot j).map slotFlen).getD 64
  let i := trainBit r
  let m := if first then closeMark i s else (none, s)
  let a := timeElems r (s.boundaryOf r n) false (s.firstOwn r k j) (onlyIf first (State.modRing r (fun x => { x with train := 0 })) m.2)
  let t := a.after
  let left (rest : List (Nat × List Byte)) (u : State) : State :=
    onlyIf (last && !rest.isEmpty) (State.flag CK_STATUS.SUMOVF evCK)
      (u.modRing r (fun x => { x with train := match rest with | p :: _ => p.1 | [] => 1024 }))
  let entries (u : State) : List (Nat × List Byte) := u.summaryEntries r (n % 65536) (u.ring r).train
  let send (l : List Byte) (u : State) : TxFrame × State :=
    let all := entries u
    let room := flen - 38 - a.elems.length - l.length
    let c := (room - 4) / 132
    let now := all.take c
    let sum := if room < 4 then [] else elemBytes 0x14 now.length (now.flatMap Prod.snd)
    loadContent r l (u.plainFrame r k 3 j n flen a (l ++ sum)) (left (all.drop c) u)
  let null (u : State) : TxFrame × State :=
    (u.plainFrame r k 1 j n flen a [], left (entries u) ((setNone r true u).countFld CK_NODECNT.NULLN 0 1))
  match m.1 with
  | none => send [] (onlyIf first (setNone r true) t)
  | some b => match t.content (t.txBuffer i b) (flen - 38 - a.elems.length) with
    | .ok l u => send l (setNone r l.isEmpty u)
    | .bad u => null u
    | _ => null (t.flag CK_STATUS.TXLEN evCK)

/-- BUFFER_CLOSE (R280): 2,000 TU before the release of own slot `j` of ring `r`. A DMA that is masked sends nothing (11 Table MI-4); one that a
quiesce holds back cannot read the buffer, and its slot stays empty (11 R447; DESIGN CHOICE, assumption 181). -/
def bufferClose (r j : Nat) (s : State) : State :=
  match s.prick r with
  | none => s
  | some k =>
    match k.slot j with
    | none => s
    | some x =>
      if !s.isSet CK_CTRL.RUN || !s.joined r || slotOwner x ≠ s.myPos r then s
      else
        let off : Int := (slotStart x + k.grel : Nat) - 2000
        let l : Int := s.ringLen r
        let last : Nat := Tab.get 0 s.closes (r * 1024 + j)
        let from_ : Int := max s.nowTu last
        let n := ((from_ - off + l - 1) / l).toNat
        let close := (n * l + off).toNat
        let s := s.advanceNow close
        let s := { s with closes := Tab.set 0 s.closes (r * 1024 + j) (close + 1) }
        let mine := k.own (s.myPos r) (slotKind x)
        let num := (mine.takeWhile (fun y => y != j)).length
        let put (p : TxFrame × State) : State :=
          let old (f : TxFrame) : Bool := f.ring == r && f.slot == j
          let s := forEach (p.2.frames.filter old) giveBack p.2
          { s with frames := s.frames.filter (fun f => !old f) ++ [{ p.1 with rel := close + 2000 }] }
        let unused := if slotKind x = 0 then (closeMark (readyBit r num) s).2
          else if num = 0 then (closeMark (trainBit r) s).2 else s
        if s.arbHolds .dma then unused
        else if s.node r = 4 then
          if slotKind x = 0 then put (dataFrame r k j num n s)
          else put (trainFrame r k j n (num == 0) (num + 1 == mine.length) s)
        else if s.node r = 2 && slotKind x == 0 then
          put (coldFrame r (s.boundaryOf r n) k j (n % 65536) (slotFlen x) (s.firstOwn r k j) unused)
        else unused

/-- BUFFER_CLOSE (R280). -/
def execBufferClose (r : Fin 2) (j : BitVec 10) (s : State) : Host.Outcome State Fault Refusal :=
  .next (bufferClose r.val j.toNat s)

/-! ### The Footside (R284 to R286) -/

/-- The Footside lets an own frame of slot entry `x` start: EFF ≤ GREL and the whole frame fits the window (R284). -/
def Prick.fits (k : Prick) (x eff : Nat) : Bool :=
  decide (eff ≤ k.grel) && decide (k.grel + k.dur (slotFlen x) + eff ≤ slotLen x)

/-- The entry of slot `j` in the Footside's copy for ring `r`. -/
def State.copied (s : State) (r j : Nat) : Option Nat := ((s.ring r).copy.find? (fun x => x.1 == j)).map Prod.snd

/-- The DMA's release time and slot agree with an entry of the Footside's copy (R286). -/
def State.footAgrees (s : State) (f : TxFrame) (x : Nat) : Bool :=
  f.rel % s.ringLen f.ring == (slotStart x + (s.ring f.ring).copyRel) % s.ringLen f.ring

/-- FRAME_RELEASE (R281, R284, R286): the assembled frame of slot `j` is released at REL on both ports, as far as the Footside's copy of
the slot entries agrees with its slot and time; `bad` is a code error in that copy. A cold-start frame is permitted outside the windows
(R285). A frame for which no port is JOINED is not sent (04 R178). -/
def frameRelease (r j : Nat) (bad : Bool) (s : State) : State :=
  match s.frames.find? (fun f => f.ring == r && f.slot == j), s.prick r with
  | some f, some k =>
    let s := s.advanceNow f.rel
    let s := { s with frames := s.frames.erase f }
    if !(s.node r == 4 || s.node r == 2) || s.masked .dma then giveBack f s
    else match (s.copied r j).filter (fun x => !bad && s.footAgrees f x) with
      | none => externalFault 2 (s.ringPorts r).1 ((giveBack f s).flag CK_STATUS.FOOTCUT evCK)
      | some x =>
        let rel := (s.ring r).copyRel
        let cold := s.node r == 2
        if !cold && !({ k with grel := rel } : Prick).fits x s.eff then
          ((giveBack f s).countFld CK_NODECNT.SKIPN 0 1).flag CK_STATUS.GUARDSHUT evCK
        else if (s.joinedPorts r).isEmpty then transmit k { f with events := [], facts := [], msgs := [] } none (giveBack f s)
        else msgsSent (f.rel / s.ringLen r) f (transmit k f (if cold then none else some (f.rel - rel + slotLen x)) s)
  | _, _ => s

/-- FRAME_RELEASE. -/
def execFrameRelease (r : Fin 2) (j : BitVec 10) (bad : Bool) (s : State) : Host.Outcome State Fault Refusal :=
  .next (frameRelease r.val j.toNat bad s)

/-- A transmission on ring `r` is cut off (R284, R285): the frame ends without a valid FCS, and what it carries waits for the next one (04
R178). -/
def cutOff (r : Nat) (s : State) : State :=
  let ps := s.joinedPorts r
  let s := forEach ps (fun p t => (t.countFld CK_PCNT2.FOOTCUT p 1)) s
  let s := forEach ps (fun p t =>
    let l := Tab.get [] t.lines p
    { t with lines := Tab.set [] t.lines p (l.take (l.length - 4)) }) s
  let s := match (s.ring r).tx.bind TxRun.frame with
    | some f => giveBack f (msgsUnsent f s)
    | none => s
  (s.modRing r (fun x => { x with tx := none })).flag CK_STATUS.FOOTCUT evCK

/-- FOOTSIDE_CUTOFF (R284): the window of the transmission on ring `r` ends, at S + LEN − EFF, before the frame does. A cold-start
frame sent at once has no window (R285). -/
def execFootsideCutoff (r : Fin 2) (s : State) : Host.Outcome State Fault Refusal :=
  match (s.ring r.val).tx with
  | none => .next s
  | some t =>
    match t.slotEnd with
    | none => .next s
    | some e =>
      let s := s.advanceNow (e - s.eff)
      if s.tb < t.ends then .next (cutOff r.val s) else .next (s.modRing r.val (fun x => { x with tx := none }))

/-! ### Reception (R269 to R291, R304) -/

/-- The safety code of a frame is right. -/
def safeOk (k : Prick) (l : List Byte) : Bool := fle l (l.length - 8) 4 == scodeOf (senderSeed k l) l

/-- The FCS of a frame is right. -/
def fcsOk (l : List Byte) : Bool := fle l (l.length - 4) 4 == fcsOf l

/-- The frame of this node that `l` is a returned copy of, expected or not (R292): of its slot and CYC, the one with its safety code where
there is one. -/
def State.returned (s : State) (r : Nat) (l : List Byte) : Option Ret :=
  let same := ((s.ring r).rets ++ (s.ring r).late).filter (fun x => x.slot == fSlot l && x.cyc == fCyc l)
  (same.find? (fun x => x.scode == fle l (l.length - 8) 4)).or same.head?

/-- The own frame comes back on a port (R292, R299). -/
def ownReturn (r : Nat) (odd : Bool) (l : List Byte) (s : State) : State :=
  match s.returned r l with
  | none => s
  | some x =>
    let y := if odd then { x with odd := true } else { x with even := true }
    let back (w : Ret) : Option Ret := if w = x then (if y.even && y.odd then none else some y) else some w
    let s := s.modRing r (fun z => { z with rets := z.rets.filterMap back, late := z.late.filterMap back })
    if fle l (l.length - 8) 4 = x.scode then s else s.flag CK_STATUS.RETERR evCK

/-- The forwarded copy would overlap a window of an own slot of ring `r` (R289). -/
def State.overlapsOwn (s : State) (r : Nat) (k : Prick) (len : Nat) : Bool :=
  let l : Int := k.len
  let t : Int := (s.nowTu + k.lat) % k.len
  k.slots.any (fun x => slotOwner x == s.myPos r
    && windowsMeet l t (t + k.dur len) (slotStart x + s.eff : Nat) ((slotStart x + slotLen x : Nat) - (s.eff : Int)))

/-- What a relay adds to the correctionField of a Sync (06 R237), in 2^-16 ns: the measured residence time, within the relay
latency's tolerance, the mean link delay and the asymmetry of the arrival port. -/
def residence (p : Nat) (k : Prick) (s : State) : Int × State :=
  let d := s.freshWithin ((if k.field = 1 then 40 else 2) * 16)
  ((k.lat * 16 + d.1 + d.2.fld TM_PDELAY.DELAY p + sgn 16 (d.2.fld TM_PASYM.ASYM p)) * 32768, d.2)

/-- RELAY (R287, R289, R291): forward a frame from port `p` of ring `r` to the other port, HOP increased, Sync corrected, FCS
recomputed; a frame with a wrong FCS ends with the complement of the right one. -/
def relay (r p : Nat) (k : Prick) (l : List Byte) (s : State) : State :=
  let ps := s.ringPorts r
  let out := if p = ps.1 then ps.2 else ps.1
  if s.overlapsOwn r k l.length then (s.countFld CK_PCNT1.RLYDROP p 1).flag CK_STATUS.RLYDROP evCK
  else if !s.portJoined out then s
  else
    let c := residence p k s
    let m := frameCorr (fun t => t == 2) (fun v => unsgn 64 (sgn 64 v + c.1)) (putBytes l 15 [BitVec.ofNat 8 (fHop l + 1)])
    let v := fcsOf m
    sendOn [out] (withFcs (if fcsOk l then v else v ^^^ 0xFFFFFFFF) m) c.2

/-- A frame rejected on ownership, window or CYC. -/
def accReject (p : Nat) (s : State) : State := (s.countFld CK_PCNT1.ACCREJ p 1).flag CK_STATUS.ACCREJ evCK

/-- The receive ring is full (R304). -/
def State.rxFull (s : State) : Bool := decide (s.fld CK_RXGEOM.NRXB ≤ ringUsed 2048 (s.fld CK_RXWI.WI) (s.fld CK_RXRI.RI))

/-- The address of the next free buffer. -/
def State.rxAddr (s : State) : Nat := s.fld CK_RXBASE.BASE + s.rxNext * s.fld CK_RXGEOM.RXBLEN

/-- The DMA may store a frame of `n` bytes: it lies in the next free buffer, and that in shared RAM (01 R43, R306). -/
def State.rxFits (s : State) (n : Nat) : Bool :=
  decide (16 + n ≤ s.fld CK_RXGEOM.RXBLEN) && decide (0x20000000 ≤ s.rxAddr) && decide (s.rxAddr + 16 + n ≤ 0x20200000)

/-- The DMA would write a frame of `n` bytes outside the receive ring (R306). -/
def State.violates (s : State) (n : Nat) : Bool := !s.arbHolds .dma && !s.waitsForLock .dma && !s.rxFull && !s.rxFits n

/-- Store a valid frame that arrived at time `t` in the receive ring (R304); its head events wait for dispatch. -/
def storeFrame (p : Nat) (bridged : Bool) (t : Nat) (l : List Byte) (s : State) : State :=
  let a := s.rxAddr
  let d := leBytes 4 t ++ [BitVec.ofNat 8 p, BitVec.ofNat 8 (bit bridged)] ++ leBytes 2 l.length ++ leBytes 8 0
  let s := (writeSpan (s.input .dma) a (d ++ l) s).2.setFld CK_RXWI.WI 0 (s.fld CK_RXWI.WI + 1)
  { s with rxNext := (s.rxNext + 1) % s.fld CK_RXGEOM.NRXB, rxq := s.rxq ++ [(a, l.length)] }

/-- Write a state-store entry (R302), by voted writes: SCYC is the cycle, AGE decides between two of one cycle, and of equal AGE the later one
is kept. -/
def storeState (cyc n : Nat) (b : List Byte) (s : State) : State :=
  let a := s.storeAt (cyc % 2) n
  let old := s.rd a 2
  if bitsOf (s.rd (a + 134) 1) 0 1 = 1 ∧ s.rd (a + 132) 2 = cyc ∧ old / 8192 < fle b 0 2 / 8192 then s
  else (writeSpan 12 a (b.take 132 ++ leBytes 2 cyc ++ leBytes 10 1) s).2

/-- The latest state of node `n` has come by ring `r`. -/
def noteVia (r n : Nat) (s : State) : State := { s with graft := { s.graft with via := Tab.set 0 s.graft.via n (r + 1) } }

/-- The state-store entries of an accepted frame (R302): the sender's SSTATE, and every SUMMARY entry as received. They are voted writes
of the Heartwood. -/
def storeStates (r : Nat) (k : Prick) (l : List Byte) (s : State) : State :=
  if s.fld CK_SSBASE.BASE = 0 || !s.canVote then s
  else
    let cyc := s.fld CK_NODEST.CYC
    forEach (frameElems l) (fun e t =>
      if e.ty = 0x10 then storeState cyc (fSrc l) (leBytes 2 (fSrc l + k.ring * 2 ^ 10) ++ leBytes 2 (fCyc l) ++ e.body) (noteVia r (fSrc l) t)
      else if e.ty = 0x14 then
        forEach (List.range e.count) (fun i u =>
          let b := (e.body.drop (132 * i)).take 132
          if b.length < 132 then u else storeState cyc (fle b 0 2 % 1024) b (noteVia r (fle b 0 2 % 1024) u)) t
      else t) s

/-- What TSTAT of an accepted frame tells (06 R255, R299): a settled node that publishes the next epoch, and the followed
master's OPEN bit. -/
def takeTstat (r : Nat) (l : List Byte) (s : State) : State :=
  match (frameElems l).find? (fun e => e.ty == 1) with
  | none => s
  | some e =>
    let v := fle e.body 0 8
    let s := { s with graft := { s.graft with
      peers := Tab.set 0 s.graft.peers (fSrc l) (bitsOf v 3 1 + bitsOf v 24 3 * 2 + 16) } }
    let seen := s.time.tq == 5 && bitsOf v 0 3 == 2 && bitsOf v 4 4 == (s.time.epoch + 1) % 16
      && bitsOf v 8 10 == s.fld ID_NODE.NODE
    let s := onlyIf seen (State.modTime (fun t => { t with pubSeen := true })) s
    if r = 0 && s.time.follow == some (fSrc l) then
      let o := v.testBit 21
      let old := (s.ring 0).mOpen
      let s := s.modRing 0 (fun x => { x with mOpen := some o })
      match old with
      | some b => if b = o then s else reroute s
      | none => s
    else s

/-- The elements of unknown TYPE are counted (R273). -/
def countUnknown (l : List Byte) (s : State) : State :=
  let known (t : Nat) : Bool := (decide (1 ≤ t) && decide (t ≤ 5)) || (decide (0x10 ≤ t) && decide (t ≤ 0x15))
  s.countFld CK_EVDROP.UNKEL 0 ((frameElems l).filter (fun e => !known e.ty)).length

/-- A valid frame moves the node state (Table CK-13, R294, R295). -/
def nodeOnFrame (r : Nat) (ty : Nat) (s : State) : State :=
  let s := s.modRing r (fun x => { x with heardAt := s.tb })
  match s.node r, ty with
  | 1, 1 => enterListen r s
  | 1, _ => (setNode r 3 s).modRing r (fun x => { x with listenAt := none, clean := 0, seenMaster := false, badFrame := false })
  | 2, 0 => setNode r 4 s
  | 2, 2 => enterListen r ((s.countFld CK_COLD.COLLN 0 1).flag CK_STATUS.COLL evCK)
  | _, _ => s

/-- A valid frame of ring `r` that arrived at time `at_` reaches the receive ring, if it has room (R304) and the write lies in it (R306), and
from there the Heartwood's state store (R302). -/
def storeWhole (p r at_ : Nat) (l : List Byte) (s : State) : State :=
  if s.rxFull then s.flag CK_STATUS.RXOVF evCK
  else if !s.rxFits l.length then s.flag CK_STATUS.BUFVIOL evCK
  else
    let t := storeFrame p (r == 1) at_ l s
    match s.prick r with
    | some k => storeStates r k l t
    | none => t

/-- The DMA holds its accesses: it waits for a bobbin lock (04 R206), or a quiesce holds it back (11 R447). -/
def State.dmaHolds (s : State) : Bool := s.waitsForLock .dma || s.arbHolds .dma

/-- The frames that the DMA has held are stored, once it need not hold them (04 R206, 11 R447). -/
def flushHeld (s : State) : State :=
  if s.dmaHolds then s
  else forEach s.rxHeld (fun x t => storeWhole x.1 (bit x.2.1) x.2.2.1 x.2.2.2 t) { s with rxHeld := [] }

/-- QUIESCE_END (11 R447): a write of 0 to MI_QUIESCE.REQ. The frames that the DMA has held are stored. -/
def execQuiesceEnd (q : Req) (s : State) : Host.Outcome State Fault Refusal :=
  asReq q s <| .next (flushHeld (miQuiesce q false s))

/-- QUIESCE_TIMEOUT (11 R448): a quiesce that has lasted QMAX µs ends by itself. -/
def execQuiesceTimeout (s : State) : Host.Outcome State Fault Refusal :=
  if s.quiesced then
    let s := s.advanceTo (s.arb.quiesceAt + s.fld MI_CTRL.QMAX * 125)
    .next (flushHeld (((s.setFld MI_QUIESCE.REQ 0 0).setFld MI_STATUS.QUIESCED 0 0).flag MI_STATUS.QTO evMI))
  else .next s

/-- LOCK_GRANT (04 R206): the free lock of bobbin `b` goes to the first waiter; a host's access and the DMA's transfer complete; an
engine's write completes when the engine presents it again. -/
def execLockGrant (b : BitVec 8) (s : State) : Host.Outcome State Fault Refusal :=
  let b := b.toNat
  match s.lockOf b, s.nextWaiter b with
  | none, some q =>
    let t := grantLock q b s
    let done := unwaitLock q b t
    match q with
    | .host p => .next (done.modPort p.val (fun x => { x with acc := none }))
    | .dma => .next (flushHeld done)
    | _ => .next t
  | _, _ => .next s

/-- The first valid copy of a frame is accepted (R290, R304). What the DMA has not stored, the Heartwood does not see; a DMA that waits for a
lock or that a quiesce holds back holds the frame (04 R206, 11 R447). -/
def acceptFrame (r p : Nat) (l : List Byte) (s : State) : State :=
  let s := s.modRing r (fun x => { x with seen := x.seen ++ [(fSrc l, fSlot l, fCyc l, s.cycle)] })
  let s := s.countFld CK_PCNT0.RXOK p 1
  let s := onlyIf (s.windowed && s.time.follow == some (fSrc l)) (State.modRing r (fun x => { x with seenMaster := true })) s
  let s := takeTstat r l (countUnknown l s)
  let s := if s.masked .dma then s
    else if s.dmaHolds then { s with rxHeld := s.rxHeld ++ [(p, r == 1, s.nowLow, l)] } else storeWhole p r s.nowLow l (flushHeld s)
  nodeOnFrame r (fType l) s

/-- FRAME_RECEIVED (R277 to R292): a frame arrives on port `p` now. -/
def frameReceived (p : Nat) (l : List Byte) (s : State) : State :=
  match s.portRing p with
  | none => s
  | some r =>
    match s.prick r with
    | none => s
    | some k =>
      if !s.portJoined p || s.node r == 0 || s.discards l || fType l == 4 then s
      else
        let odd := (s.ringPorts r).2 == p
        let head := s.headCheck r p k l
        let own := fSrc l == s.fld ID_NODE.NODE
        let fcs := fcsOk l
        let s := onlyIf (!fcs) (State.countFld CK_PCNT2.FCSERR p 1) s
        let s := onlyIf (head == .pid) (State.flag CK_STATUS.PIDERR evCK) s
        let s := onlyIf (head == .timing) (State.modRing r (fun x => { x with badFrame := true })) s
        let hopOk := decide (fHop l < k.npos - 1) && decide (fType l ≤ 3)
        if own then (if fcs then ownReturn r odd l s else s)
        else if head ≠ .ok then (if fcs then accReject p s else s)
        else
          let s := if hopOk then relay r p k l s else accReject p s
          if !fcs then s
          else if !safeOk k l then (s.countFld CK_PCNT0.SCERR p 1).flag CK_STATUS.SCERR evCK
          else
            let dup := (s.ring r).seen.any (fun x => x.1 == fSrc l && x.2.1 == fSlot l && x.2.2.1 == fCyc l)
            if !dup && s.violates l.length then s.flag CK_STATUS.BUFVIOL evCK
            else
            let s := if dup then s else acceptFrame r p l s
            if s.time.follow == some (fSrc l) && r == 0 then noteHop r odd (fHop l) (!dup) s else s

/-- FRAME_RECEIVED. -/
def execFrameReceived (p : Fin 6) (l : List Byte) (s : State) : Host.Outcome State Fault Refusal :=
  .next (frameReceived p.val l s)

/-! ### Dispatch (R305) -/

/-- The head-event entries of a stored frame. -/
def frameEvents (l : List Byte) : List Nat :=
  (frameElems l).flatMap (fun e => if e.ty = 0x12 then (List.range e.count).filterMap (fun i =>
    let b := (e.body.drop (16 * i)).take 16
    if b.length < 16 then none else some (fle b 0 16)) else [])

/-- Dispatch one head event of a sender (R305). A block with SHADOW set is no push into an inbound area (03 R140): each such write is
counted as rejected (assumption 146). -/
def dispatchEvent (src v : Nat) (s : State) : State :=
  let e := s.pointEntry (v % 2048)
  match entryBobs e with
  | [] => s.countFld CK_EVDROP.NOPOINT 0 1
  | bs =>
    if entryLocal e || entryNode e ≠ src then s.countFld CK_EVDROP.WRONGSRC 0 1
    else forEach bs (fun b t => if v.testBit 127 then t.reject .dma else pushRing b true v t) s

/-- The bit of PtSt.acc by which a bobbin knows that a frame of the point's node was null, rejected or missing since its last evaluation
(R282). -/
def missedBit : Nat := 30

/-- Every bobbin that lists point `p` learns that a status of the point has not come (R282). -/
def noteMissed (p : Nat) (s : State) : State :=
  forEach (entryBobs (s.pointEntry p)) (fun b w =>
    let k := b * 2048 + p
    let y := Tab.get PtSt.reset w.pts k
    { w with pts := Tab.set PtSt.reset w.pts k { y with acc := y.acc ||| 2 ^ missedBit } }) s

/-- A null frame of node `n` (R282): the statuses of its points have not come. -/
def noteNull (n : Nat) (s : State) : State :=
  forEach ((List.range 2048).filter (fun p => let e := s.pointEntry p
    !(entryBobs e).isEmpty && !entryLocal e && entryNode e == n && (Tab.get (0, 0) s.remotes p).2 != 0)) noteMissed s

/-- The point statuses of a frame (R275, 04 R178): the latest status of each remote point its sender measures, and its facts for
every bobbin that lists the point. After a cycle without one, the missing status is noted (R282). -/
def takeStatuses (l : List Byte) (s : State) : State :=
  forEach (frameElems l) (fun e t =>
    if e.ty ≠ 0x11 then t
    else forEach (List.range e.count) (fun i u =>
      let v := fle e.body (4 * i) 4
      let x := u.pointEntry (v % 2048)
      if e.body.length < 4 * i + 4 || entryLocal x || entryNode x ≠ fSrc l || (entryBobs x).isEmpty then u
      else
        let last := (Tab.get (0, 0) u.remotes (v % 2048)).2
        let u := onlyIf (last != 0 && decide (last < u.cycle)) (noteMissed (v % 2048)) u
        let u := { u with remotes := Tab.set (0, 0) u.remotes (v % 2048) (v, u.cycle + 1) }
        let facts := v &&& (2 ^ 13 + 2 ^ 14 + 2 ^ 15 + 2 ^ 17)
        forEach (entryBobs x) (fun b w =>
          let k := b * 2048 + v % 2048
          let p := Tab.get PtSt.reset w.pts k
          { w with pts := Tab.set PtSt.reset w.pts k { p with acc := p.acc ||| facts } }) u) t) s

/-- HEVENT_DISPATCH (R305): the head events of the oldest stored frame, and its point statuses; with an uncorrectable block in its buffer they are not
dispatched (11 Table MI-2). While the DMA waits for a lock, or a quiesce holds it back, it dispatches nothing (04 R206, 11 R447). -/
def execHeventDispatch (s : State) : Host.Outcome State Fault Refusal :=
  let s := flushHeld s
  match (if s.dmaHolds && !s.masked .dma then [] else s.rxq) with
  | [] => .next s
  | (a, n) :: rest =>
    let s := { s with rxq := rest }
    let l := s.rdL (a + 16) n
    if s.masked .dma then .next s
    else
      let d := readSpan (s.input .dma) a (16 + n) s
      if !d.1 then .next (d.2.countFld CK_EVDROP.NOPOINT 0 (frameEvents l).length)
      else .next (takeStatuses l (forEach (frameEvents l) (dispatchEvent (fSrc l)) (onlyIf (fType l == 1) (noteNull (fSrc l)) d.2)))

/-- A write of CK_RXRI (R304): neither backward nor past WI. -/
def ckRxri (q : Req) (v : Nat) (s : State) : State :=
  let r := CK_RXRI.RI.of v
  if q.voted && !ackOk 2048 (s.fld CK_RXWI.WI) (s.fld CK_RXRI.RI) r then s.flag CK_STATUS.CFGERR evCK
  else writeFields q CK_RXRI.fields 0 v s

/-- RX_RELEASE (R304). -/
def execRxRelease (q : Req) (v : Word) (s : State) : Host.Outcome State Fault Refusal :=
  asReq q s <| .next (ckRxri q v.toNat s)

/-! ### Ports (R242, R293) -/

/-- The largest |DELAY − LINKD| in 1/16 TU for JOINED: ACCTOL / 2 of the port's ring (R293). -/
def State.linkTol (s : State) (p : Nat) : Nat :=
  match (s.portRing p).bind s.prick with
  | some k => k.acctol * 8
  | none => 0

/-- PORT_JOINED (R293): a training port with a valid delay enters JOINED or ERROR. -/
def settlePort (p : Nat) (s : State) : State :=
  if s.fld CK_PST.PSTATE p = 1 && s.isSet TM_PDELAY.VALID p then
    let d := s.fld TM_PDELAY.DELAY p
    let n := s.fld CK_PST.LINKD p * 16
    if (if d < n then n - d else d - n) ≤ s.linkTol p then s.setFld CK_PST.PSTATE p 2
    else ((s.setFld CK_PST.PSTATE p 3).modLink p (fun x => { x with retrainAt := s.tb + 125000000 })).flag CK_STATUS.LINKERR evCK
  else s

/-- A measured link delay (R242): the mean of the last four, in 1/16 TU, rounded down; before a fourth the register holds a
value that the spec does not state (assumption 56). -/
def pdMeasure (p d : Nat) (s : State) : State :=
  let s := s.modLink p (fun x => { x with meas := (d :: x.meas).take 4 })
  let m := (s.link p).meas
  let s := s.setFld TM_PDELAY.NMEAS p (min 7 (s.fld TM_PDELAY.NMEAS p + 1))
  let s := if m.length = 4 then s.setFld TM_PDELAY.DELAY p (m.foldl (· + ·) 0 / 4)
    else let f := s.fresh; f.2.setFld TM_PDELAY.DELAY p f.1
  let s := onlyIf (decide (4 ≤ s.fld TM_PDELAY.NMEAS p)) (State.setFld TM_PDELAY.VALID p 1) s
  let all := (List.range 6).all (fun i => s.fld CK_PST.PSTATE i == 0 || s.isSet TM_PDELAY.VALID i)
  settlePort p (onlyIf all (State.modTime (fun t => { t with remeasure := false })) s)

/-- Port `p` takes a message of domain `dom` (R236): any other domain's is discarded, and a port in DOWN has no link. -/
def State.takesMsg (s : State) (p dom : Nat) : Bool := s.fld CK_PST.PSTATE p != 0 && dom == s.fld TM_PROF.DOMAIN

/-- PDELAY_RESP (R242): a Pdelay_Resp with HOP 0 arrives, measuring a delay in 1/16 TU. -/
def execPdelayResp (p : DelayIn) (d : BitVec 16) (s : State) : Host.Outcome State Fault Refusal :=
  if s.takesMsg p.port.val p.dom.toNat then .next (pdMeasure p.port.val d.toNat s) else .next s

/-- PDELAY_REQ (R242, R274): a Pdelay_Req with HOP 0 arrives; a response is owed in the next frame of the port. -/
def execPdelayReq (p : DelayIn) (s : State) : Host.Outcome State Fault Refusal :=
  if s.takesMsg p.port.val p.dom.toNat then .next (s.modLink p.port.val (fun x => { x with owed := x.owed ++ [s.tb] })) else .next s

/-- The port enters TRAIN: its measurements start (R242, R293). -/
def enterTrain (p : Nat) (s : State) : State :=
  let s := (s.setFld CK_PST.PSTATE p 1).modLink p (fun _ => PortSt.reset)
  (s.setFld TM_PDELAY.VALID p 0).setFld TM_PDELAY.NMEAS p 0

/-- The port enters DOWN: DELAY, VALID and NMEAS read 0 (R242). -/
def enterDown (p : Nat) (s : State) : State :=
  let s := (s.setFld CK_PST.PSTATE p 0).modLink p (fun _ => PortSt.reset)
  ((s.setFld TM_PDELAY.VALID p 0).setFld TM_PDELAY.NMEAS p 0).setFld TM_PDELAY.DELAY p 0

/-- LINK_UP (R293). -/
def execLinkUp (p : Fin 6) (s : State) : Host.Outcome State Fault Refusal :=
  let s := s.setFld CK_PST.SYNC p.val 1
  if s.isSet CK_PCTRL.EN p.val && s.fld CK_PST.PSTATE p.val == 0 then .next (enterTrain p.val s) else .next s

/-- LINK_DOWN (R293). -/
def execLinkDown (p : Fin 6) (s : State) : Host.Outcome State Fault Refusal :=
  .next (enterDown p.val (s.setFld CK_PST.SYNC p.val 0))

/-- A write of CK_PCTRL (Table CK-23): AMP is 0 on trunk ports; EN moves the port. -/
def ckPctrl (q : Req) (p v : Nat) (s : State) : State :=
  if q.voted && decide (p < 4) && CK_PCTRL.AMP.of v == 1 then s.flag CK_STATUS.CFGERR evCK
  else
    let old := s.isSet CK_PCTRL.EN p
    let s := writeFields q CK_PCTRL.fields p v s
    let new := s.isSet CK_PCTRL.EN p
    if old && !new then enterDown p s
    else if !old && new && s.isSet CK_PST.SYNC p then enterTrain p s
    else s

/-- The elements of a link-training frame on port `p` (R274, R293): TSTAT, then the PDRESP owed or else a PDREQ. An element of 58 bytes
does not fit in the 14 left of 64: its body is cut to the 10 bytes that do (DESIGN CHOICE, assumption 57). -/
def trainingElems (p : Nat) (s : State) : List Byte × State :=
  let owed := !(s.link p).owed.isEmpty
  let m := ptpMsg (if owed then 3 else 2) 54 s
  (elemBytes 1 1 (s.tstat ((s.portRing p).getD 0)) ++ elemBytes (if owed then 5 else 4) 1 (m.1.take 10), answer p m.2)

/-- LINK_TRAINING (R293): a port in TRAIN sends a link-training frame of 64 bytes with PDREQ or an owed PDRESP, at most once
per ms, whether or not it carries a ring (06 R242). SLOT and CYC of such a frame are not stated: they are 0; nor are RING, PID and SEED on a
port that carries no ring: they are free (assumption 57). While the DMA is masked nothing is sent (11 Table MI-4). -/
def execLinkTraining (p : Fin 6) (s : State) : Host.Outcome State Fault Refusal :=
  let p := p.val
  if s.fld CK_PST.PSTATE p ≠ 1 || s.masked .dma then .next s
  else
    let s := match (s.link p).trainedAt with
      | some t => s.advanceTo (t + 125000)
      | none => s
    let s := s.modLink p (fun x => { x with trainedAt := some s.tb })
    let e := trainingElems p s
    match (e.2.portRing p).bind (fun r => (e.2.prick r).map (fun k => (r, k))) with
    | some (r, k) => .next (sendOn [p] (e.2.frameOf r k 4 0 0 64 e.1) e.2)
    | none =>
      let a := e.2.fresh
      let b := a.2.fresh
      let c := b.2.fresh
      .next (sendOn [p] (c.2.frameBytes (a.1 % 8) b.1 c.1 4 0 0 64 e.1) c.2)

/-- RETRAIN (R293): a port in ERROR retrains after 1 s. -/
def execRetrain (p : Fin 6) (s : State) : Host.Outcome State Fault Refusal :=
  if s.fld CK_PST.PSTATE p.val = 3 then .next (enterTrain p.val (s.advanceTo (s.link p.val).retrainAt)) else .next s

/-! ### Timers of the node states (R294, R299, Table CK-13) -/

/-- A node eligible for COLDSTART in ring `r` (R294). -/
def State.coldEligible (s : State) (r : Nat) (k : Prick) : Bool :=
  posCold (k.pos (s.myPos r)) && (if r = 1 || s.rank.isNone then s.time.tq == 2 else s.time.tq == 5)

/-- LISTEN_TIMEOUT (R294): the listen timer of ring `r` runs out. -/
def execListenTimeout (r : Fin 2) (s : State) : Host.Outcome State Fault Refusal :=
  let r := r.val
  match (s.ring r).listenAt, s.prick r with
  | some t, some k =>
    if s.node r ≠ 1 then .next s
    else
      let s := s.advanceTo t
      if s.coldEligible r k then .next (startCold r (s.modRing r (fun x => { x with listenAt := none })))
      else .next (enterListen r s)
  | _, _ => .next s

/-- INTEGRATE_TIMEOUT (Table CK-13): no valid frame for LBASE in INTEGRATE. -/
def execIntegrateTimeout (r : Fin 2) (s : State) : Host.Outcome State Fault Refusal :=
  let r := r.val
  match s.prick r with
  | some k =>
    if s.node r = 3 then .next (enterListen r (s.advanceTo ((s.ring r).heardAt + k.lbase * 125000))) else .next s
  | none => .next s

/-- RETURN_TIMEOUT (R299): the oldest own frame of ring `r` not back has failed to return. -/
def execReturnTimeout (r : Fin 2) (s : State) : Host.Outcome State Fault Refusal :=
  let r := r.val
  match (s.ring r).rets with
  | [] => .next s
  | x :: rest => .next ((s.advanceTo x.due).modRing r (fun y =>
    { y with rets := rest, late := y.late ++ [x], retFail := y.retFail || x.active }))

/-! ### Schedule (R279, R285) -/

/-- The rings this node joins. -/
def State.myRings (s : State) : List Nat := [0, 1].filter (fun r => s.joined r)

/-- The transmit area lies in shared RAM, 16-byte aligned and clear of the fixed regions of 01 Table AR-5 (R279, before R280). -/
def State.txOk (s : State) : Bool :=
  let a := s.fld CK_TXBASE.BASE
  let n := 3072 * (s.homeSlots + s.bridgedSlots + bit (s.hasTrain 0) + bit (s.hasTrain 1))
  a % 16 == 0 && decide (0x20000000 ≤ a) && decide (a + n ≤ 0x20100000 ∨ (0x20180000 ≤ a ∧ a + n ≤ 0x201FC000))

/-- The Footside loads its own copy of the slot entries of ring `r` (R279). -/
def loadCopy (r : Nat) (s : State) : State :=
  match s.prick r with
  | none => s
  | some k =>
    let own := (List.range k.slots.length).filterMap (fun j =>
      ((k.slot j).filter (fun x => slotOwner x == s.myPos r)).map (fun x => (j, x)))
    s.modRing r (fun y => { y with copy := own, copyRel := k.grel })

/-- SCHEDULE_START (R279): stage-2 fit checks, the Footside's copy, then LISTEN in each ring; CV0 to CV5 go to Carrik (11 R457). A
transmit area that fails is recorded under code 11, of the codes of stage 2 the one that names the frames' room (assumption 151). -/
def scheduleStart (s : State) : State :=
  if !(s.myRings.all (fun r => s.prickOk r) && s.txOk) then
    let bad := (s.myRings.find? (fun r => !s.prickOk r)).getD 0
    recordFit 11 2 (s.prickItem bad) 7 (s.flag CK_STATUS.FITERR evCK)
  else if !s.rxOk then recordFit 12 2 0 0 (s.flag CK_STATUS.FITERR evCK)
  else
    let claimed := (List.range 6).filter (fun u => (s.cv u).owner.isSome)
    let s := forEach (List.range 6) (fun u => State.modCv u (fun _ => CvUnit.reset)) (s.setFld CK_CTRL.RUN 0 1)
    let s := onlyIf (!claimed.isEmpty) (State.setFld CV_STATUS.OWNBRK 0 1) s
    forEach s.myRings (fun r t => enterListen r (loadCopy r t)) (s.setFld CK_COLD.ATTEMPT 0 0)

/-- SCHEDULE_STOP (R285): every window closes at once, a frame in progress is cut off, and the node state is OFF. -/
def scheduleStop (s : State) : State :=
  let s := forEach [0, 1] (fun r t => if (t.ring r).tx.any (fun x => decide (t.tb < x.ends)) then cutOff r t else t) s
  let s := forEach s.frames giveBack s
  let s := { s.setFld CK_CTRL.RUN 0 0 with frames := [] }
  forEach [0, 1] (fun r t => (setNode r 0 t).modRing r (fun x => { x with listenAt := none, tx := none })) s

/-- A write of CK_CTRL (Table CK-17): ETYPE below 0x0600, or a new ETYPE while RUN is 1, is rejected. -/
def ckCtrl (q : Req) (v : Nat) (s : State) : State :=
  if !q.voted then writeFields q CK_CTRL.fields 0 v s
  else
    let e := CK_CTRL.ETYPE.of v
    let run := s.isSet CK_CTRL.RUN
    if e < 0x600 || (run && e != s.fld CK_CTRL.ETYPE) then s.flag CK_STATUS.CFGERR evCK
    else
      let s := s.setFld CK_CTRL.ETYPE 0 e
      if CK_CTRL.RUN.of v = 1 then (if run then s else scheduleStart s) else (if run then scheduleStop s else s)

/-- SCHEDULE_START (R279): a write of CK_CTRL with RUN 1. -/
def execScheduleStart (q : Req) (v : Word) (s : State) : Host.Outcome State Fault Refusal :=
  asReq q s <|
  .next (ckCtrl q (putBit v.toNat 0 true) s)

/-- SCHEDULE_STOP (R285): a write of CK_CTRL with RUN 0. -/
def execScheduleStop (q : Req) (v : Word) (s : State) : Host.Outcome State Fault Refusal :=
  asReq q s <|
  .next (ckCtrl q (putBit v.toNat 0 false) s)

/-! ### The cycle boundary of a ring (R297 to R299, R242) -/

/-- The work of ring `r` at its cycle boundary `b`. -/
def ringBoundary (r b : Nat) (s : State) : State :=
  let s := s.setFld (nsCyc r) 0 (s.cycOf r b)
  match s.prick r with
  | none => s
  | some k =>
    let x := s.ring r
    let clean := if x.seenMaster && !x.badFrame then x.clean + 1 else 0
    let pd := s.time.remeasure || s.cycle % 2 ^ s.fld TM_CTRL.PDEXP == 0
    let s := s.modRing r (fun y =>
      { y with clean := clean, seenMaster := false, badFrame := false, pdDue := y.pdDue || pd,
               late := y.late.filter (fun x => decide (s.tb ≤ x.due + 2 * k.len)),
               seen := y.seen.filter (fun z => decide (s.cycle ≤ z.2.2.2 + 2)) })
    let st := s.node r
    let s :=
      if (st = 3 ∨ st = 5) ∧ (s.time.tq = 2 ∨ s.time.tq = 5) ∧ k.intn ≤ clean then setNode r 4 s
      else if st = 4 ∧ ((s.time.tq = 6 ∨ s.time.tq = 4 ∨ s.time.tq = 0) ∨ s.joinedPorts r = []) then setNode r 5 s
      else s
    if s.node r = 4 && st == 4 then
      let fail := (s.ring r).retFail
      let run := if fail then 0 else (s.ring r).retRun + 1
      let was := s.isSet (nsOpen r)
      let opens := if fail then true else if k.intn ≤ run then false else was
      let s := (s.modRing r (fun y => { y with retFail := false, retRun := run })).setFld (nsOpen r) 0 (bit opens)
      if opens ≠ was then reroute s else s
    else s

/-! ### Syncs (06 R238, R245) -/

/-- The pricking of the home ring gives slot `j` to node `src` (R277, 06 R238). -/
def State.ownsSlot (s : State) (j src : Nat) : Bool :=
  match s.prick 0 with
  | some k => (k.slot j).any (fun x => posNode (k.pos (slotOwner x)) == src)
  | none => false

/-- A Sync from node `src` on port `p` in domain `dom` and slot `j` is valid (06 R236, R238, R299); `safe` is whether its frame passes the
safety code. -/
def State.syncValid (s : State) (src p dom j : Nat) (safe : Bool) : Bool :=
  s.time.follow == some src && s.ownsSlot j src && safe && dom == s.fld TM_PROF.DOMAIN && s.isSet TM_PDELAY.VALID p && p == s.prefPort

/-- SYNC_RECEIVED (06 R245): a Sync from `src` on port `p`. -/
def execSyncReceived (src : BitVec 10) (p : Fin 6) (dom : BitVec 8) (o : SyncIn) (s : State) : Host.Outcome State Fault Refusal :=
  if s.syncValid src.toNat p.val dom.toNat o.slot.toNat o.safe && s.time.tq != 5 then
    .next (syncState o.off (countRuns o.off (servoSync o.off s)))
  else .next s

/-! ### Announces (06 R240, R296) -/

/-- ANNOUNCE_RECEIVED (06 R240, R296): a valid Announce sent by `src`, for master `node` of rank `rank`. -/
def execAnnounceReceived (src node : BitVec 10) (dom : BitVec 8) (rank : Fin 4) (epoch : BitVec 4) (phase : BitVec 14)
    (est : BitVec 16) (s : State) : Host.Outcome State Fault Refusal :=
  if dom.toNat ≠ s.fld TM_PROF.DOMAIN then .next s
  else if s.time.tq = 5 then
    let mine := s.fld TM_MASTER.MRANK
    let st := s.node 0
    if rank.val < mine then
      if st = 4 then
        .next (s.modTime (fun t =>
          { t with yields := some [src.toNat, node.toNat, rank.val, epoch.toNat, phase.toNat, est.toNat] }))
      else
        let s := s.modTime (fun t => { t with lastAnn := s.cycle, lockRun := 0, offRun := 0, stepRun := 0 })
        .next (followMaster src.toNat node.toNat rank.val epoch.toNat phase.toNat est.toNat (enterTq 0 s))
    else if mine < rank.val && (st == 1 || st == 3 || st == 5) then .next (startCold 0 s)
    else .next s
  else
    let s := s.modTime (fun t => { t with lastAnn := s.cycle })
    if s.takesAnnounce src.toNat node.toNat then
      .next (followMaster src.toNat node.toNat rank.val epoch.toNat phase.toNat est.toNat s)
    else .next s

end Sys2Proof.Machine
end

