-- ==== Sys2Proof/Machine/Canopy.lean ====
section
/-! DEFINITION. The mirror's words (12 R477 to R480) and the Canopy directory: endpoints, the sweep, switches of an owner (08 R333
to R335). -/

namespace Sys2Proof.Machine

/-! ### The mirror (01 R34, 12 R477) -/

/-- A voted write of the mirror word at offset `x`: the mirror source, and where that write is performed its copy in the mirror memory. -/
def mirrorWrite (x v : Nat) (s : State) : State :=
  let r := writeSpan 12 (0x201FC000 + x) (bytesOf 4 v) s
  if r.1 then votedWr (memKey 11 x) 4 v r.2 else r.2

/-- The mirror word at offset `x`. -/
def State.mirror (s : State) (x : Nat) : Nat := s.rdW (0x201FC000 + x)

/-- The first mirror write of a commit that writes several mirror words: MIRSEQ becomes odd (12 R479). At reset it holds 0xFFFF_FFFF, which
is odd already: it then goes on to the next odd value (DEDUCED, assumption 119). -/
def openMirror (s : State) : State :=
  let m := s.mirror 0x14
  mirrorWrite 0x14 ((m + 1 + m % 2) % 2 ^ 32) s

/-- The last mirror write of such a commit: MIRSEQ becomes even (12 R479). -/
def bumpMirseq (s : State) : State := mirrorWrite 0x14 ((s.mirror 0x14 + 1) % 2 ^ 32) s

/-! ### Endpoints (R333, Table GR-7) -/

/-- The address of endpoint `e`. -/
def canopyAddr (e : Nat) : Nat := 0x20100000 + 4 * e

/-- The word of endpoint `e`. -/
def State.endpoint (s : State) (e : Nat) : Nat := s.rdW (canopyAddr e)

/-- STATE of an endpoint word. -/
def epState (w : Nat) : Nat := w % 16
/-- BOB. -/
def epBob (w : Nat) : Nat := bitsOf w 4 8
/-- NODE. -/
def epNode (w : Nat) : Nat := bitsOf w 12 10
/-- RING. -/
def epRing (w : Nat) : Nat := bitsOf w 22 3
/-- VALID. -/
def epValid (w : Nat) : Bool := w.testBit 25
/-- MIG. -/
def epMig (w : Nat) : Bool := w.testBit 26
/-- STALE. -/
def epStale (w : Nat) : Bool := w.testBit 27

/-- An endpoint word. -/
def epWord (state bob node ring : Nat) (valid mig stale : Bool) (age : Nat) : Nat :=
  state % 16 + bob % 256 * 2 ^ 4 + node % 1024 * 2 ^ 12 + ring % 8 * 2 ^ 22 + bit valid * 2 ^ 25 + bit mig * 2 ^ 26
    + bit stale * 2 ^ 27 + age % 8 * 2 ^ 28

/-- Endpoint `e` names a new owner (R335, R336). -/
def setOwner (e node ring bob : Nat) (mig : Bool) (s : State) : State :=
  let w := s.endpoint e
  votedWr (canopyAddr e) 4 (epWord (epState w) bob node ring (epValid w) mig (epStale w) (bitsOf w 28 3)) s

/-- The summary code of group `g` (12 R480). -/
def State.groupCode (s : State) (g : Nat) : Nat :=
  let l := ((List.range 16).map (fun i => s.endpoint (16 * g + i))).filter epValid
  if l.isEmpty then 2
  else if l.any (fun w => epState w == 15 || epStale w) then 3
  else if l.any (fun w => epState w != 0) then 1 else 0

/-- The summary word that holds group `g` is rewritten (12 R480). -/
def writeSummary (g : Nat) (s : State) : State :=
  let x := 0x2800 + 4 * (g / 16)
  let w := s.mirror x
  let p := 4 ^ (g % 16)
  mirrorWrite x (w - bitsOf w (2 * (g % 16)) 2 * p + s.groupCode g * p) s

/-- The endpoint of bobbin `b` is written with its report (R192, R335); a bobbin without a valid GR_BSID writes none. -/
def writeOwn (b report : Nat) (s : State) : State :=
  let e := s.fld GR_BSID.SID b
  if s.isSet GR_BSID.VALID b && decide (e < s.fld GR_CANOPY.NEND) then
    let ring := match s.prick 0 with
      | some k => k.ring
      | none => 0
    writeSummary (e / 16) (votedWr (canopyAddr e) 4
      (epWord report b (s.fld ID_NODE.NODE) ring true (epMig (s.endpoint e)) false 0) s)
  else s

/-! ### The state store and the sweep (R335, 07 R302) -/

/-- The newer VALID entry of node `n` in the state store: its address, and the cycles since its SCYC (07 R302). -/
def State.newer (s : State) (n : Nat) : Option (Nat × Nat) :=
  let cyc := s.fld CK_NODEST.CYC
  let one (h : Nat) : Option (Nat × Nat) :=
    let a := s.storeAt h n
    if s.fld CK_SSBASE.BASE ≠ 0 && bitsOf (s.rd (a + 134) 1) 0 1 = 1 then
      some (a, (cyc + 65536 - s.rd (a + 132) 2) % 65536) else none
  match one 0, one 1 with
  | some x, some y => if x.2 ≤ y.2 then some x else some y
  | some x, none => some x
  | none, y => y

/-- The published state of bobbin `b` in a state-store entry. -/
def State.storedState (s : State) (a b : Nat) : Nat := bitsOf (s.rd (a + 4 + b / 2) 1) (4 * (b % 2)) 4

/-- A state from cycle `cyc` is one of the new owner's since the switch of endpoint `e` (R335). -/
def State.sinceSwitch (s : State) (e cyc : Nat) : Bool :=
  let ch := Tab.get 0 s.graft.chs e
  decide (0 < ch) && decide ((cyc + 65536 - (ch - 1) % 65536) % 65536 < 32768)

/-- Endpoint `e` is no longer switching. -/
def endSwitch (e : Nat) (s : State) : State := { s with graft := { s.graft with chs := Tab.set 0 s.graft.chs e 0 } }

/-- The sweep of one endpoint (R335). Of this node's own, whose STATE its commits write, only MIG returns to 0, at the first state of the
node's own entry in the state store from a cycle at or after C_h, or by the node's cycle where it keeps no state store. -/
def sweepOne (e : Nat) (s : State) : State :=
  let w := s.endpoint e
  let put (state : Nat) (mig stale : Bool) (age : Nat) (t : State) : State :=
    votedWr (canopyAddr e) 4 (epWord state (epBob w) (epNode w) (epRing w) true mig stale age) t
  if !epValid w then s
  else if epNode w = s.fld ID_NODE.NODE then
    let cyc := match s.newer (epNode w) with
      | some (a, _) => s.rd (a + 2) 2
      | none => s.fld CK_NODEST.CYC
    if epMig w && s.sinceSwitch e cyc then put (epState w) false (epStale w) (bitsOf w 28 3) (endSwitch e s) else s
  else
    match s.newer (epNode w) with
    | none => put 15 (epMig w) true (bitsOf w 28 3) s
    | some (a, old) =>
      let r := readSpan 12 a 136 s
      let age := bitsOf (s.rd a 2) 13 3
      if !r.1 || decide (s.fld GR_CTRL.STALEC < old) then put 15 (epMig w) true age r.2
      else if epMig w && !s.sinceSwitch e (s.rd (a + 2) 2) then put 5 true false age r.2
      else put (s.storedState a (epBob w)) false false age (endSwitch e r.2)

/-- A switch of an owner is applied (R335): the endpoint names the new owner, MIG 1. A section beyond the NEND endpoints has none. -/
def applyMove (m : MoveSt) (s : State) : State :=
  if s.fld GR_CANOPY.NEND ≤ m.sid then s else
  let s := setOwner m.sid m.node m.ring m.bob true s
  { s with graft := { s.graft with chs := Tab.set 0 s.graft.chs m.sid (m.ch + 1) } }

/-- CYC `c` has come by CYC `now`, modulo 65,536. -/
def cycReached (c now : Nat) : Bool := decide ((now + 65536 - c % 65536) % 65536 < 32768)

/-- The Canopy work of a cycle (R335): the switches due, then SWEEPN × 1,024 endpoints in ascending order, and in the same commit the summary
words of the groups swept (12 R480). -/
def canopySweep (s : State) : State :=
  let cyc := s.fld CK_NODEST.CYC
  let due := s.graft.moves.filter (fun m => cycReached m.ch cyc)
  let s := forEach due applyMove s
  let s := { s with graft := { s.graft with moves := s.graft.moves.filter (fun m => !cycReached m.ch cyc) } }
  let n := s.fld GR_CANOPY.NEND
  if n = 0 then s
  else
    let k := min n (s.fld GR_CTRL.SWEEPN * 1024)
    let at_ := s.graft.sweepAt
    let es := (List.range k).map (fun i => (at_ + i) % n)
    let gs := (List.range ((n + 15) / 16)).filter (fun g => (List.range 16).any (fun i => decide (16 * g + i < n)
      && decide ((16 * g + i + n - at_) % n < k)))
    let several := gs.any (fun g => g / 16 != (gs.head?.getD 0) / 16)
    let s := onlyIf several openMirror (forEach es sweepOne s)
    let s := onlyIf several bumpMirseq (forEach gs writeSummary s)
    { s with graft := { s.graft with sweepAt := (at_ + k) % n } }

end Sys2Proof.Machine
end

