-- ==== Sys2Proof/Machine/Graft.lean ====
section
/-! DEFINITION. Graft between devices (08 R318 to R332, R336): the coordinator, orders, the messages, live migration, evacuation
and the learning period. -/

namespace Sys2Proof.Machine

/-! ### Cycles and messages -/

/-- Change the Graft program's state. -/
def State.modGraft (f : GraftSt → GraftSt) (s : State) : State := { s with graft := f s.graft }

/-- The node is clustered (R318). -/
def State.clustered (s : State) : Bool := s.isSet GR_COORD.VC

/-- This node. -/
def State.me (s : State) : Nat := s.fld ID_NODE.NODE

/-- The cycle number of the home ring now. -/
def State.homeCyc (s : State) : Nat := s.nowTu / s.ringLen 0

/-- The cycle in which the next own data frame of the home ring is released: of a slot whose buffer is still open. -/
def State.relCycle (s : State) : Nat :=
  match s.prick 0 with
  | none => s.homeCyc
  | some k =>
    let l : Int := s.ringLen 0
    let cs := (k.own (s.myPos 0) 0).map (fun j =>
      let off : Int := (slotStart ((k.slot j).getD 0) + k.grel : Nat) - 2000
      (((s.nowTu : Int) - off + l - 1) / l).toNat)
    cs.foldl min (s.homeCyc + 1)

/-- The cycle number that a CYC names, near the present one. -/
def State.cycNear (s : State) (c : Nat) : Nat :=
  let n := s.homeCyc
  let d := (c + 65536 - n % 65536) % 65536
  if d < 32768 then n + d else n + d - 65536

/-- The nodes of ring `r`. -/
def State.ringNodes (s : State) (r : Nat) : List Nat := match s.prick r with
  | some k => k.positions.map posNode
  | none => []

/-- Queue a message on ring `r`. -/
def queueMsg (r ty : Nat) (m : GMsg) (s : State) : State :=
  { s with gmsgs := Tab.set [] s.gmsgs r (Tab.get [] s.gmsgs r ++ [(ty, m)]) }

/-- The message crosses the bridge between its ring `r` and the other ring (R332): it is for all, or its DST lies across this bridge: on the
other ring, or beyond it, where the latest state of that node came by the other ring (DEDUCED, assumption 176). -/
def State.crosses (s : State) (r : Nat) (m : GMsg) : Bool :=
  let n := m.dst.toNat
  s.joined 0 && s.joined 1 && (m.bcast
    || (!(s.ringNodes r).contains n && ((s.ringNodes (1 - r)).contains n || Tab.get 0 s.graft.via n == 2 - r)))

/-- Send a message of this node (R332): on its home ring, and across its own bridge where the message goes there. -/
def sendMsg (ty : Nat) (dst : Option Nat) (seg sbob : Nat) (body : List Byte) (s : State) : State :=
  if !s.clustered then s
  else
    let m : GMsg := { seg := BitVec.ofNat 8 seg, dst := BitVec.ofNat 10 (dst.getD 0), bcast := dst.isNone,
                      term := BitVec.ofNat 6 (s.fld GR_COORDST.TERM), sbob := BitVec.ofNat 8 sbob,
                      origin := BitVec.ofNat 10 s.me, body := body }
    let s := queueMsg 0 ty m s
    if s.crosses 0 m then queueMsg 1 ty m s else s

/-- A message taken from a frame of ring `r` (R332): a bridge copies it where it crosses, and the node acts on it when it is
addressed to it. Graft between devices is the Heartwood's work by voted writes (R323, R335, R419): without a Heartwood that votes it
takes no message, as it does no other work (DEDUCED, assumption 175). -/
def takeMsg (ty r : Nat) (m : GMsg) (f : State → State) (s : State) : Host.Outcome State Fault Refusal :=
  if !s.clustered || !s.canVote || m.origin.toNat == s.me then .next s
  else
    let s := if s.crosses r m then queueMsg (1 - r) ty m s else s
    if m.bcast || m.dst.toNat == s.me then .next (f s) else .next s

/-! ### The coordinator (R318, R319) -/

/-- The node obeys the sender of the highest TERM heard within the last CTO cycles (R318). -/
def refreshCoord (s : State) : State :=
  let live := s.graft.heard.filter (fun x => decide (s.cycle < x.2.2 + s.fld GR_CTRL.CTO))
  let best := live.foldl (fun a x => match a with
    | none => some x
    | some y => if y.2.1 < x.2.1 then some x else some y) (none : Option (Nat × Nat × Nat))
  match best with
  | none =>
    if s.isSet GR_COORDST.VALID then (s.setFld GR_COORDST.VALID 0 0).flag GR_STATUS.COORDCHG evGR else s
  | some (n, t, _) =>
    let new := !s.isSet GR_COORDST.VALID || s.fld GR_COORDST.CUR != n
    let s := ((s.setFld GR_COORDST.CUR 0 n).setFld GR_COORDST.TERM 0 t).setFld GR_COORDST.VALID 0 1
    onlyIf new (State.flag GR_STATUS.COORDCHG evGR) s

/-- An ALIVE of node `n` with TERM `t` has been heard in this cycle. -/
def hear (n t : Nat) (s : State) : State :=
  refreshCoord (s.modGraft (fun g => { g with heard := g.heard.filter (fun x => x.1 != n) ++ [(n, t, s.cycle)] }))

/-- The TERM of node `n` as last heard. -/
def State.termOf (s : State) (n : Nat) : Nat := match s.graft.heard.find? (fun x => x.1 == n) with
  | some x => x.2.1
  | none => 0

/-- ALIVE (R318): a coordinator that hears a higher TERM becomes standby. -/
def execAlive (r : Fin 2) (m : GMsg) (s : State) : Host.Outcome State Fault Refusal :=
  takeMsg 0x01 r.val m (fun s =>
    let gives := s.fld GR_COORDST.ROLE == 1 && decide (s.termOf s.me < m.term.toNat)
    let s := if gives then (s.setFld GR_COORDST.ROLE 0 2).modGraft (fun g => { g with heard := g.heard.filter (fun x => x.1 != s.me) })
      else s
    hear m.origin.toNat m.term.toNat s) s

/-- COORDINATOR_TAKEOVER (R318): the standby has received no ALIVE for CTO cycles. -/
def execCoordinatorTakeover (s : State) : Host.Outcome State Fault Refusal :=
  let quiet := s.graft.heard.all (fun x => decide (x.2.2 + s.fld GR_CTRL.CTO ≤ s.cycle))
  if s.fld GR_COORDST.ROLE = 2 && s.canVote && quiet && decide (s.fld GR_CTRL.CTO ≤ s.cycle) then
    let t := (s.fld GR_COORDST.TERM + 1) % 64
    .next (hear s.me t (s.setFld GR_COORDST.ROLE 0 1))
  else .next s

/-- A bobbin that a migration may take: inactive, in no migration, without a section of its own (assumption 60). -/
def State.freeBob (s : State) (b : Nat) : Bool :=
  !s.active b && s.fld GR_BMODE.MODE b == 0 && !s.isSet GR_BSID.VALID b
    && (List.range 8).all (fun x => s.fld GR_MIG.STATE x == 0 || s.fld GR_MIG.BOB x != b)

/-- The body of this node's LOAD (Table GR-6). -/
def State.loadBody (s : State) : Nat :=
  ((List.range 256).filter s.freeBob).length + s.fld GR_STATUS.EVAC * 2 ^ 9 + s.fld AG_PLAN.MAINT * 2 ^ 10
    + s.fld TM_STATUS.TQLOW * 2 ^ 11

/-- The LOAD of a node is recorded. -/
def noteLoad (n v : Nat) (s : State) : State := s.modGraft (fun g => { g with loads := Tab.set 0 g.loads n (v + 65536) })

/-- LOAD (R319): a coordinator records it. -/
def execLoad (r : Fin 2) (m : GMsg) (s : State) : Host.Outcome State Fault Refusal :=
  takeMsg 0x02 r.val m (fun s => if s.fld GR_COORDST.ROLE = 1 then noteLoad m.origin.toNat (fle m.body 0 2 % 4096) s else s) s

/-- The home ring and the freshness of node `n`, as the state store shows them: a node that publishes is ACTIVE (assumption 61). -/
def State.homeRing (s : State) (n : Nat) : Option Nat :=
  if n = s.me then (s.prick 0).map Prick.ring
  else match s.newer n with
    | some (a, old) => if old ≤ s.fld GR_CTRL.STALEC then some (bitsOf (s.rd a 2) 10 3) else none
    | none => none

/-- The plans of the present search for a target of a bobbin, each of which its node has refused when the source asks again (R319). A REQ
carries no result: one that comes more than CTO + 4 cycles after the last plan begins a search of its own (DESIGN CHOICE, assumption
177). -/
def State.tried (s : State) (src b : Nat) : List (Nat × Nat × Nat × Nat) :=
  let l := s.graft.plans.filter (fun p => p.1 == src && p.2.1 == b)
  if l.any (fun p => decide (s.cycle ≤ p.2.2.2 + s.fld GR_CTRL.CTO + 4)) then l else []

/-- A search for a target of bobbin `b` of node `src` is over. -/
def endSearch (src b : Nat) (s : State) : State :=
  s.modGraft (fun g => { g with plans := g.plans.filter (fun p => !(p.1 == src && p.2.1 == b)) })

/-- Node `n` is planned for bobbin `b` of node `src`. -/
def planTarget (src b n : Nat) (s : State) : State :=
  let l := s.tried src b
  (endSearch src b s).modGraft (fun g => { g with plans := g.plans ++ l ++ [(src, b, n, s.cycle)] })

/-- The target that the coordinator chooses for a bobbin of node `src` (R319), among the nodes that have not refused it. -/
def State.chooseTarget (s : State) (src b : Nat) : Option Nat :=
  let tried := s.tried src b
  let ring := s.homeRing src
  let ok (n : Nat) : Bool :=
    let v := Tab.get 0 s.graft.loads n
    n != src && v.testBit 16 && decide (0 < v % 512) && bitsOf v 9 3 == 0 && !tried.any (fun p => p.2.2.1 == n)
      && (s.homeRing n).isSome && s.homeRing n == ring
  if 3 ≤ tried.length then none
  else (((List.range 1024).filter ok).foldl (fun a n => match a with
    | none => some n
    | some x => if Tab.get 0 s.graft.loads x % 512 < Tab.get 0 s.graft.loads n % 512 then some n else some x) none)

/-! ### Results (R320) -/

/-- A result of an order (R320): GR_CMDRES, the command event on all three host ports, CMDDONE. -/
def orderResult (bob code result reason tag : Nat) (s : State) : State :=
  let s := ((s.setFld GR_CMDRES.BOB 0 bob).setFld GR_CMDRES.CODE 0 code).setFld GR_CMDRES.RESULT 0 result
  let s := (s.setFld GR_CMDRES.REASON 0 reason).setFld GR_CMDRES.TAG 0 tag
  (hostCommand 1 bob result tag s).flag GR_STATUS.CMDDONE evGR

/-! ### Slots and the point map (R322, R323) -/

/-- The migration in slot `x`. -/
def State.mig (s : State) (x : Nat) : MigSt := Tab.get MigSt.reset s.migs x

/-- Change it. -/
def State.modMig (x : Nat) (f : MigSt → MigSt) (s : State) : State := { s with migs := Tab.set MigSt.reset s.migs x (f (s.mig x)) }

/-- STATE of slot `x`. -/
def State.migState (s : State) (x : Nat) : Nat := s.fld GR_MIG.STATE x

/-- The slot in which bobbin `b` migrates with ROLE `role`. -/
def State.slotOf (s : State) (role b : Nat) : Option Nat :=
  (List.range 8).find? (fun x => s.migState x != 0 && s.fld GR_MIG.ROLE x == role && s.fld GR_MIG.BOB x == b)

/-- The slot that a message from node `peer` about the source's bobbin `b` concerns. -/
def State.slotFor (s : State) (role b peer : Nat) : Option Nat :=
  (List.range 8).find? (fun x => s.migState x != 0 && s.fld GR_MIG.ROLE x == role && s.fld GR_MIG.PEER x == peer
    && (if role = 0 then s.fld GR_MIG.BOB x else s.fld GR_MIG.PBOB x) == b)

/-- A free slot. -/
def State.freeSlot (s : State) : Option Nat := (List.range 8).find? (fun x => s.migState x == 0)

/-- Slot `x` becomes free. -/
def clearSlot (x : Nat) (s : State) : State :=
  let s := ((s.setFld GR_MIG.BOB x 0).setFld GR_MIG.PBOB x 0).setFld GR_MIG.PEER x 0
  (((s.setFld GR_MIG.STATE x 0).setFld GR_MIG.ROLE x 0)).modMig x (fun _ => MigSt.reset)

/-- GR_BMODE of bobbin `b`. -/
def setMode (b mode x : Nat) (s : State) : State := (s.setFld GR_BMODE.MODE b mode).setFld GR_BMODE.SLOT b x

/-- Write the point map's entry of point `p`, and its CHECK (R323). -/
def writePoint (p v : Nat) (s : State) : State :=
  match s.table 5 0 with
  | none => s
  | some a =>
    let s := votedWr (a + 0x10 + 8 * p) 8 v s
    votedWr (a + 0x4010) 4 (crc32c (s.rdL a 0x4010)) s

/-- An entry without bobbin `b`. -/
def entryWithout (e b : Nat) : Nat :=
  (List.range 4).foldl (fun v i => if v.testBit (9 * i + 8) && bitsOf v (9 * i) 8 == b then v - bitsOf v (9 * i) 9 * 2 ^ (9 * i) else v) e

/-- An entry with bobbin `b` in its first free field. -/
def entryWith (e b : Nat) : Nat :=
  match (List.range 4).find? (fun i => !e.testBit (9 * i + 8)) with
  | some i => e - bitsOf e (9 * i) 9 * 2 ^ (9 * i) + (256 + b) * 2 ^ (9 * i)
  | none => e

/-- The local head that measures point `p` (R323). -/
def State.headOf (s : State) (p : Nat) : Option Nat := (List.range 32).find? (fun k => s.fld WD_HCFG.POINT k == p)

/-- The point list of bobbin `b`, as entry words. -/
def State.pointList (s : State) (b : Nat) : List Nat :=
  (List.range (min 16 (s.rd (bobAddr b + 0x14) 1 % 32))).map (fun i => s.rdW (bobAddr b + 0x40 + 4 * i))

/-- POINT of a point-list entry. -/
def plPoint (w : Nat) : Nat := w % 2048

/-- A bobbin leaves the point map: the fields of its points that name it are cleared (R323). -/
def leaveMap (b : Nat) (pts : List Nat) (s : State) : State :=
  forEach pts (fun p t => writePoint p (entryWithout (t.pointEntry p) b) t) s

/-- K of Table GR-4 for a HOLDT in 0.5 ms. -/
def State.migK (s : State) (holdt : Nat) : Nat :=
  let w := holdt * 62500 + s.fld WD_CTRL.AGE * 125000 + 250000
  (w + s.ringLen 0 - 1) / s.ringLen 0 + 1

/-! ### Orders (R320, R322, R328, R330) -/

/-- The OFFER of the bobbin in slot `x` (Table GR-6). -/
def sendOffer (x : Nat) (s : State) : State :=
  let b := s.fld GR_MIG.BOB x
  let l := s.pointList b
  let w := s.rdW (bobAddr b + 0x14)
  let head := s.fld GR_BSID.SID b + bitsOf w 5 3 * 2 ^ 17 + l.length * 2 ^ 20 + bitsOf w 8 8 * 2 ^ 32
  let ents := l.flatMap (fun e => let p := s.pointEntry (plPoint e)
    leBytes 4 e ++ leBytes 4 (entryNode p + bitsOf p 52 12 * 2 ^ 16))
  sendMsg 0x05 (some (s.fld GR_MIG.PEER x)) 0 b (leBytes 5 head ++ ents)
    (s.modMig x (fun y => { y with waits := false, last := s.cycle, holdt := bitsOf w 8 8 }))

/-- EMPTY when evacuation has left no active bobbin (R330, 12 Table HP-8). -/
def checkEmpty (s : State) : State :=
  if s.isSet GR_STATUS.EVAC && (List.range 256).all (fun b => !s.active b) && !s.isSet GR_STATUS.EMPTY then
    hostDevice 7 0 (s.flag GR_STATUS.EMPTY evGR)
  else s

/-- The messages of this node about the source's bobbin `b` that no frame has carried yet are dropped (R328): no SWITCH follows an abort. -/
def dropMsgs (b : Nat) (s : State) : State :=
  forEach [0, 1] (fun r t => { t with gmsgs := Tab.set [] t.gmsgs r ((Tab.get [] t.gmsgs r).filter (fun x =>
    !(x.2.origin.toNat == t.me && x.2.sbob.toNat == b && [0x0B, 0x09, 0x0A, 0x06, 0x05, 0x08, 0x03].contains x.1))) }) s

/-- A migration ends before its switch (R319, R328): result 3 for an abort, 4 for a refusal. -/
def endMig (x result reason : Nat) (tell : Bool) (s : State) : State :=
  let y := s.mig x
  let b := s.fld GR_MIG.BOB x
  let src := s.fld GR_MIG.ROLE x == 0
  let sb := if src then b else s.fld GR_MIG.PBOB x
  let s := dropMsgs sb s
  let s := onlyIf tell (sendMsg 0x0C (some (s.fld GR_MIG.PEER x)) 0 sb (leBytes 1 reason)) s
  let s := if src then
      let s := onlyIf (y.code != 0) (orderResult b y.code result reason y.tag) s
      onlyIf (y.code == 3) (State.modGraft (fun g => { g with retry := g.retry ++ [(b, s.cycle + 16)] })) s
    else if s.migState x = 1 then s
    else
      let s := leaveMap b (y.entries.map (fun e => plPoint e.1)) (s.setFld BB_CFG.ACTIVE b 0)
      checkEmpty ((s.setFld GR_BSID.VALID b 0).setFld GR_BSID.SID b 0)
  (clearSlot x (setMode b 0 0 s)).flag GR_STATUS.MIGABORT evGR

/-- The request for a target goes to the coordinator (R319), or the coordinator, this node, plans it. -/
def askTarget (x : Nat) (s : State) : State :=
  let b := s.fld GR_MIG.BOB x
  if !s.isSet GR_COORDST.VALID then endMig x 4 12 false s
  else if s.fld GR_COORDST.ROLE = 1 then
    match s.chooseTarget s.me b with
    | none => endMig x 4 12 false s
    | some n =>
      sendOffer x ((planTarget s.me b n s).setFld GR_MIG.PEER x n)
  else sendMsg 0x03 (some (s.fld GR_COORDST.CUR)) 0 b [] (s.modMig x (fun y => { y with waits := true, last := s.cycle }))

/-- A migration of active bobbin `b` starts in slot `x` (R322): shadow-out, MIGSTART. -/
def startMig (x b code tag : Nat) (target : Option Nat) (s : State) : State :=
  let s := ((s.setFld GR_MIG.BOB x b).setFld GR_MIG.STATE x 1).setFld GR_MIG.ROLE x 0
  let s := s.modMig x (fun _ => { MigSt.reset with code := code, tag := tag, last := s.cycle })
  let s := endSearch s.me b ((setMode b 2 x s).flag GR_STATUS.MIGSTART evGR)
  match target with
  | some n => sendOffer x (s.setFld GR_MIG.PEER x n)
  | none => askTarget x s

/-- Evacuation starts what it may (R330): active bobbins in no migration and not waiting for a retry, in ascending order. -/
def evacStep (s : State) : State :=
  if !s.isSet GR_STATUS.EVAC then s
  else
    forEach ((List.range 256).filter (fun b => s.active b && s.fld GR_BMODE.MODE b == 0 && !s.graft.retry.any (fun r => r.1 == b)))
      (fun b t => match t.freeSlot with
        | some x => startMig x b 3 t.graft.evacTag none t
        | none => t) s

/-- An agreed order (R320, Tables GR-1, GR-2). The order of the checks is that of R194. -/
def takeOrder (v : Nat) (s : State) : State :=
  let b := GR_CMD.BOB.of v
  let code := GR_CMD.CODE.of v
  let tag := GR_CMD.TAG.of v
  let here := s.active b && s.fld GR_BMODE.MODE b != 1
  match code with
  | 3 =>
    let s := (s.setFld GR_STATUS.EVAC 0 1).modGraft (fun g => { g with evacTag := tag, retry := [] })
    checkEmpty (evacStep (orderResult b 3 2 0 tag s))
  | 4 => orderResult b 4 2 0 tag ((s.setFld GR_STATUS.EVAC 0 0).modGraft (fun g => { g with retry := [] }))
  | 5 =>
    if !here then orderResult b 5 6 0 tag s
    else match s.slotOf 0 b with
      | some x => if (s.mig x).switched then orderResult b 5 6 0 tag s else orderResult b 5 2 0 tag (endMig x 3 11 true s)
      | none => orderResult b 5 2 0 tag s
  | 1 =>
    if !here then orderResult b 1 6 0 tag s
    else if (s.slotOf 0 b).any (fun x => (s.mig x).switched) then orderResult b 1 6 0 tag s
    else match s.slotOf 0 b, s.freeSlot with
      | none, some x =>
        if s.isSet GR_STATUS.EVAC then orderResult b 1 5 0 tag s
        else startMig x b 1 tag (some (GR_CMD.TNODE.of v)) (orderResult b 1 1 0 tag s)
      | _, _ => orderResult b 1 5 0 tag s
  | 2 =>
    if !here then orderResult b 2 6 0 tag s
    else if (s.slotOf 0 b).any (fun x => (s.mig x).switched) then orderResult b 2 6 0 tag s
    else match s.slotOf 0 b, s.freeSlot with
      | none, some x =>
        if s.isSet GR_STATUS.EVAC then orderResult b 2 5 0 tag s
        else if !s.isSet GR_COORDST.VALID then (orderResult b 2 4 12 tag s).flag GR_STATUS.MIGABORT evGR
        else startMig x b 2 tag none (orderResult b 2 1 0 tag s)
      | _, _ => orderResult b 2 5 0 tag s
  | _ => orderResult b code 7 0 tag s

/-- The agreed value of GR_CMD that has agreed first takes its effect, when its code is the command's (12 R471) and the Heartwood votes
(assumption 175). -/
def agreedOrder (codeOk : Nat → Bool) (s : State) : State :=
  match (if s.canVote then s.agreed.find? (fun p => p.1 == GR_CMD.addr) else none) with
  | none => s
  | some p => if codeOk (GR_CMD.CODE.of p.2) then takeOrder p.2 { s with agreed := s.agreed.erase p } else s

/-- MIGRATE (R322): code 1. -/
def execMigrate (s : State) : Host.Outcome State Fault Refusal := .next (agreedOrder (fun c => c == 1) s)
/-- MIGRATEANY (R319): code 2. -/
def execMigrateAny (s : State) : Host.Outcome State Fault Refusal := .next (agreedOrder (fun c => c == 2) s)
/-- RESUME (R330): code 4. -/
def execResume (s : State) : Host.Outcome State Fault Refusal := .next (agreedOrder (fun c => c == 4) s)
/-- CANCEL (R328): code 5. -/
def execCancel (s : State) : Host.Outcome State Fault Refusal := .next (agreedOrder (fun c => c == 5) s)
/-- INVALID_ORDER (R320): any other code. -/
def execInvalidOrder (s : State) : Host.Outcome State Fault Refusal :=
  .next (agreedOrder (fun c => c == 0 || decide (6 ≤ c)) s)

/-- EVACUATION_RETRY (R330): an aborted migration is requested again after 16 cycles. -/
def execEvacuationRetry (b : BitVec 8) (s : State) : Host.Outcome State Fault Refusal :=
  match s.graft.retry.find? (fun r => r.1 == b.toNat && s.canVote && decide (r.2 ≤ s.cycle)) with
  | none => .next s
  | some r => .next (evacStep (s.modGraft (fun g => { g with retry := g.retry.erase r })))

/-! ### The target's checks (R321) -/

/-- An OFFER read from its body (Table GR-6): SID, TABLE, HOLDT, and the points with NODE and VMAXP. -/
def offerOf (l : List Byte) : Nat × Nat × Nat × List (Nat × Nat) :=
  let h := fle l 0 5
  let n := bitsOf h 20 5
  (bitsOf h 0 17, bitsOf h 17 3, bitsOf h 32 8, (List.range (min n 16)).map (fun i => (fle l (5 + 8 * i) 4, fle l (9 + 8 * i) 4)))

/-- E(W, p) for a VMAXP (04 R173). -/
def State.eventsFor (s : State) (w vmax : Nat) : Nat :=
  let a := s.axMin * 1250000
  if a = 0 then 1 else max 1 ((w * vmax + a - 1) / a)

/-- NODE and VMAXP that the target's map would hold for an offered point (R323). -/
def State.offered (s : State) (e : Nat × Nat) : Nat × Nat :=
  let x := s.pointEntry (plPoint e.1)
  if (entryBobs x).isEmpty then (bitsOf e.2 0 10, bitsOf e.2 16 12) else (entryNode x, bitsOf x 52 12)

/-- The reason to refuse an OFFER, 0 for none (R321, Table GR-3). -/
def State.offerReason (s : State) (r src : Nat) (o : Nat × Nat × Nat × List (Nat × Nat)) : Nat :=
  let holdt := o.2.2.1
  let pts := o.2.2.2.map s.offered
  let cyc := s.ringLen 0
  let sum (w : Nat) (l : List (Nat × Nat)) : Nat := (l.map (fun p => s.eventsFor w p.2)).foldl (· + ·) 0
  let loc := pts.filter (fun p => p.1 == s.me)
  let rem := pts.filter (fun p => p.1 != s.me)
  if s.node 0 ≠ 4 || s.isSet GR_STATUS.EVAC || s.isSet TM_STATUS.TQLOW then 6
  else if r ≠ 0 || !(s.ringNodes 0).contains src then 2
  else if s.freeSlot.isNone || (List.range 256).all (fun b => !s.freeBob b) then 1
  else if o.2.2.2.any (fun e => decide (4 ≤ (entryBobs (s.pointEntry (plPoint e.1))).length)) then 3
  else if 16 < sum 125000 loc || 16 < sum (cyc + 125000) rem
      || 64 < sum (holdt * 62500 + s.fld WD_CTRL.AGE * 125000 + 250000) pts then 4
  else if !rem.isEmpty && decide (holdt * 62500 < cyc + 250000) then 5
  else 0

/-- OFFER (R321, R322): the target answers ACCEPT or REFUSE. ACCEPT names C0, the second boundary after its release, when the frame that
carries it is filled and released. -/
def execOffer (r : Fin 2) (m : GMsg) (s : State) : Host.Outcome State Fault Refusal :=
  takeMsg 0x05 r.val m (fun s =>
    let o := offerOf m.body
    let reason := s.offerReason r.val m.origin.toNat o
    match reason, s.freeSlot, (List.range 256).find? s.freeBob with
    | 0, some x, some t =>
      let s := ((s.setFld GR_MIG.BOB x t).setFld GR_MIG.PBOB x m.sbob.toNat).setFld GR_MIG.PEER x m.origin.toNat
      let s := (s.setFld GR_MIG.STATE x 1).setFld GR_MIG.ROLE x 1
      let s := s.modMig x (fun _ => { MigSt.reset with sid := o.1, table := o.2.1, holdt := o.2.2.1, entries := o.2.2.2,
                                                       last := s.cycle })
      sendMsg 0x06 (some m.origin.toNat) 0 m.sbob.toNat (leBytes 2 t ++ leBytes 2 0) (s.flag GR_STATUS.MIGSTART evGR)
    | n, _, _ => sendMsg 0x07 (some m.origin.toNat) 0 m.sbob.toNat (leBytes 1 (max 1 n)) s) s

/-- ACCEPT (R322): the source records the target's bobbin and C0. -/
def execAccept (r : Fin 2) (m : GMsg) (s : State) : Host.Outcome State Fault Refusal :=
  takeMsg 0x06 r.val m (fun s =>
    match s.slotFor 0 m.sbob.toNat m.origin.toNat with
    | some x =>
      if s.migState x = 1 && (s.mig x).c0 == 0 && !(s.mig x).waits then
        let c0 := s.cycNear (fle m.body 2 2)
        (s.setFld GR_MIG.PBOB x (fle m.body 0 1)).modMig x (fun y => { y with c0 := c0, last := s.cycle })
      else s
    | none => s) s

/-- REFUSE (R319): with a named target the migration ends; else the coordinator is asked for another, up to three refusals. -/
def execRefuse (r : Fin 2) (m : GMsg) (s : State) : Host.Outcome State Fault Refusal :=
  takeMsg 0x07 r.val m (fun s =>
    let b := m.sbob.toNat
    let reason := fle m.body 0 1 % 16
    match s.slotOf 0 b with
    | none => s
    | some x =>
      let y := s.mig x
      if y.waits && m.origin.toNat == s.fld GR_COORDST.CUR then endMig x 4 reason false s
      else if s.fld GR_MIG.PEER x ≠ m.origin.toNat || s.migState x ≠ 1 then s
      else if y.code = 1 then endMig x 4 reason false s
      else if 3 ≤ y.refused + 1 then endMig x 4 12 false s
      else askTarget x (s.modMig x (fun z => { z with refused := z.refused + 1, c0 := 0 }))) s

/-- REQ (R319): the coordinator chooses a target and sends PLAN, or refuses with REASON 12. -/
def execReq (r : Fin 2) (m : GMsg) (s : State) : Host.Outcome State Fault Refusal :=
  takeMsg 0x03 r.val m (fun s =>
    if s.fld GR_COORDST.ROLE ≠ 1 then s
    else
      let src := m.origin.toNat
      let b := m.sbob.toNat
      match s.chooseTarget src b with
      | some n =>
        sendMsg 0x04 (some src) 0 b (leBytes 2 n) (planTarget src b n s)
      | none => sendMsg 0x07 (some src) 0 b (leBytes 1 12) s) s

/-- PLAN (R319, R318): from the coordinator obeyed, for a migration that waits for it. -/
def execPlan (r : Fin 2) (m : GMsg) (s : State) : Host.Outcome State Fault Refusal :=
  takeMsg 0x04 r.val m (fun s =>
    let from_ := s.isSet GR_COORDST.VALID && s.fld GR_COORDST.CUR == m.origin.toNat
    match s.slotOf 0 m.sbob.toNat with
    | some x => if from_ && (s.mig x).waits then sendOffer x (s.setFld GR_MIG.PEER x (fle m.body 0 2 % 1024)) else s
    | none => s) s

/-! ### Collect, snapshot, install (R323 to R325) -/

/-- MIGRATION_COLLECT (R323): at C0, once ACCEPT has been released, the target adds its bobbin to its point map and activates it shadow-in. -/
def execMigrationCollect (x : Fin 8) (s : State) : Host.Outcome State Fault Refusal :=
  let x := x.val
  if s.migState x ≠ 1 || s.fld GR_MIG.ROLE x ≠ 1 || (s.mig x).c0 = 0 || !s.canVote then .next s
  else
    let y := s.mig x
    let t := s.fld GR_MIG.BOB x
    let s := s.advanceNow (y.c0 * s.ringLen 0)
    let s := forEach y.entries (fun e u =>
      let p := plPoint e.1
      let v := u.pointEntry p
      let node := bitsOf e.2 0 10
      let v := if (entryBobs v).isEmpty then
          node * 2 ^ 36 + bit (node == u.me) * 2 ^ 46 + (if node = u.me then (u.headOf p).getD 0 else 0) * 2 ^ 47
            + bitsOf e.2 16 12 * 2 ^ 52
        else v
      writePoint p (entryWith v t) u) s
    let s := ((s.setFld GR_BSID.SID t y.sid).setFld GR_BSID.VALID t 1).setFld BB_CFG.ACTIVE t 1
    let new : SecSt := { SecSt.reset with started := true, memerr := (Tab.get SecSt.reset s.secs t).memerr }
    let s := { s with secs := Tab.set SecSt.reset s.secs t new }
    .next (((setMode t 1 x s).setFld GR_MIG.STATE x 2).modMig x (fun z => { z with epoch0 := s.time.epoch }))

/-- The snapshot of bobbin `b` (R324). -/
def State.snapshot (s : State) (b : Nat) : List Byte :=
  let l := s.pointList b
  let sec := Tab.get SecSt.reset s.secs b
  let key (w : Nat) : Nat := b * 2048 + plPoint w
  let lost := ((List.range l.length).map (fun i => bit (s.pt (key (l[i]?.getD 0))).lost * 2 ^ i)).foldl (· + ·) 0
  let exps := ((List.range l.length).map (fun i => ((s.pt (key (l[i]?.getD 0))).exp.getD 0) * 2 ^ (4 * i))).foldl (· + ·) 0
  let rel := match sec.rel with
    | some (p, t, e) => (t % 2 ^ 32, e + p * 2 ^ 4 + 2 ^ 15)
    | none => (0, 0)
  s.rdL (bobAddr b) 512 ++ leBytes 4 rel.1 ++ leBytes 2 rel.2 ++ leBytes 2 lost ++ leBytes 8 exps

/-- The bytes of a SNAP segment (Table GR-6). -/
def State.segLen (s : State) : Nat := ((s.prick 0).map Prick.gres).getD 0 - 16

/-- Segment `i` of the snapshot in slot `x` is queued. -/
def sendSeg (x i : Nat) (s : State) : State :=
  let n := s.segLen
  let b := ((s.mig x).bytes.drop (i * n)).take n
  sendMsg 0x08 (some (s.fld GR_MIG.PEER x)) i (s.fld GR_MIG.BOB x) b (s.modMig x (fun y => { y with seg := i + 1 }))

/-- MIGRATION_SNAPSHOT (R324): at C1 = C0 + K the source takes the snapshot and starts sending it. -/
def execMigrationSnapshot (x : Fin 8) (s : State) : Host.Outcome State Fault Refusal :=
  let x := x.val
  let y := s.mig x
  if s.migState x ≠ 1 || s.fld GR_MIG.ROLE x ≠ 0 || y.c0 = 0 || !s.canVote then .next s
  else
    let s := s.advanceNow ((y.c0 + s.migK y.holdt) * s.ringLen 0)
    let b := s.snapshot (s.fld GR_MIG.BOB x)
    .next (sendSeg x 0 ((s.setFld GR_MIG.STATE x 3).modMig x (fun z => { z with bytes := b, last := s.cycle })))

/-- SNAP (R324): the target takes a segment, in its place. -/
def execSnap (r : Fin 2) (m : GMsg) (s : State) : Host.Outcome State Fault Refusal :=
  takeMsg 0x08 r.val m (fun s =>
    match s.slotFor 1 m.sbob.toNat m.origin.toNat with
    | some x =>
      let y := s.mig x
      if s.migState x = 2 && m.seg.toNat == y.seg then
        s.modMig x (fun z => { z with bytes := z.bytes ++ m.body, seg := z.seg + 1, last := s.cycle })
      else s
    | none => s) s

/-- TIME of a head event. -/
def evTime (e : Nat) : Nat := bitsOf e 17 64
/-- POINT. -/
def evPoint (e : Nat) : Nat := bitsOf e 0 11
/-- DIR. -/
def evDir (e : Nat) : Nat := bitsOf e 11 2
/-- EPOCH. -/
def evEpoch (e : Nat) : Nat := bitsOf e 13 4
/-- SEQ. -/
def evSeq (e : Nat) : Nat := bitsOf e 120 4

/-- The order of release (04 R174, 06 R232, R234): among events of one epoch TIME, by the signed difference of the low 32 bits, then
POINT; the older epoch first. -/
def evBefore (a b : Nat) : Bool :=
  if evEpoch a = evEpoch b then
    let d := tdiff (evTime a) (evTime b)
    decide (d < 0) || (d == 0 && decide (evPoint a < evPoint b))
  else olderEpoch (evEpoch a) (evEpoch b)

/-- Insert an event into a list in release order. -/
def evInsert (e : Nat) : List Nat → List Nat
  | [] => [e]
  | x :: t => if evBefore e x then e :: x :: t else x :: evInsert e t

/-- The d of an event at a point with a SIGN (04 R179): true for an axle that leaves. -/
def evExit (e : Nat) (sign : Bool) : Bool := if evDir e = 1 then sign else !sign

/-- A predecessor of the event (05 R216). -/
def predOf (e : Nat) (sign : Bool) : Pred :=
  { point := evPoint e, time := evTime e, epoch := evEpoch e, speed := bitsOf e 81 16, half := e.testBit 110, exit := evExit e sign }

/-- The predecessors with one more. -/
def putPred (p : Pred) (l : List Pred) : List Pred := l.filter (fun q => q.point != p.point) ++ [p]

/-- SIGN of the point of an event in a point list. -/
def signOf (l : List Nat) (p : Nat) : Bool := match l.find? (fun w => plPoint w == p) with
  | some w => w.testBit 11
  | none => false

/-- The final result of a local event, by POINT, SEQ and TIME (04 R182). -/
def State.claimCodeOf (s : State) (ev : Nat) : Option Nat :=
  (s.claims.reverse.find? (fun c => evPoint c.ev == evPoint ev && evSeq c.ev == evSeq ev && evTime c.ev == evTime ev)).bind Claimed.code

/-- A held event counts when it is released (04 Table BB-5): a wheel event of known direction, whose claim was matched or resolved, as the
flags of a remote event tell. -/
def State.countsHeld (s : State) (h : Held) : Bool :=
  (evDir h.ev == 1 || evDir h.ev == 2)
    && (if h.remote then h.ev.testBit 119 && !h.ev.testBit 118 else ((s.claimCodeOf h.ev).getD 2) ≤ 1)

/-- The event is not later in release order than the last one the source released, or is of an older epoch (R325). -/
def heldOld (e rele relt relp : Nat) : Bool :=
  olderEpoch (evEpoch e) rele
    || (evEpoch e == rele && (decide (tdiff (evTime e) relt < 0) || (tdiff (evTime e) relt == 0 && decide (evPoint e ≤ relp))))

/-- The snapshot is installed in the bobbin of slot `x` (R325), by whole blocks. The predecessors come from the discarded events, which the
source has released, and of them from those that count (05 R215, R216): an event that stays held is no predecessor until it is
released (DEDUCED, assumption 152). -/
def installSnap (x : Nat) (s : State) : State :=
  let y := s.mig x
  let t := s.fld GR_MIG.BOB x
  let l := y.bytes
  let k := bobAddr t
  let s := (writeSpan 12 k (l.take 512) s).2
  let pl := s.pointList t
  let fix (i : Nat) (u : State) : State :=
    let w := pl[i]?.getD 0
    votedWr (k + 0x40 + 4 * i) 4 (putBit w 12 (!entryLocal (u.pointEntry (plPoint w)))) u
  let s := forEach (List.range pl.length) fix s
  let relt := fle l 512 4
  let info := fle l 516 2
  let some_ := info.testBit 15
  let exps := fle l 520 8
  let sec := Tab.get SecSt.reset s.secs t
  let old (h : Held) : Bool := some_ && heldOld h.ev (info % 16) relt (bitsOf info 4 11)
  let preds := ((((sec.hold.filter old).filter s.countsHeld).map Held.ev).foldr evInsert []).foldl (fun a e =>
    putPred (predOf e (signOf pl (evPoint e))) a) []
  let new : SecSt := { sec with hold := sec.hold.filter (fun h => !old h), preds := preds,
                                rel := if some_ then some (bitsOf info 4 11, relt, info % 16) else none }
  let s := { s with secs := Tab.set SecSt.reset s.secs t new }
  let point (i : Nat) (u : State) : State :=
    let lost := l[518 + i / 8]?.any (fun b => b.toNat.testBit (i % 8))
    u.modPt (t * 2048 + plPoint (pl[i]?.getD 0)) (fun p =>
      { p with lost := lost, exp := some (p.exp.getD (bitsOf exps (4 * i) 4)), since := s.cycle })
  let s := forEach (List.range pl.length) point s
  let h := s.fpHead t
  let starte := s.rdW (k + 0x108) % 16
  let before := olderEpoch starte y.epoch0 || (starte == y.epoch0 && decide (tdiff (s.rdW (k + 0x104)) (y.c0 * s.ringLen 0) < 0))
  let s := if before && bitsOf h 0 12 != 0 then votedWr (k + 0x100) 4 (putBit h 15 true) s else s
  (s.setFld GR_MIG.STATE x 4).modMig x (fun z => { z with inst := some s.cycle, last := s.cycle })

/-- INSTALL (R325): the snapshot is complete. It waits while another requester holds the bobbin's lock (04 R207), and for a Heartwood that
votes (04 R167). -/
def execInstall (x : Fin 8) (s : State) : Host.Outcome State Fault Refusal :=
  let x := x.val
  if s.migState x = 2 && s.fld GR_MIG.ROLE x == 1 && decide (528 ≤ (s.mig x).bytes.length)
      && s.canVote && !s.lockedFor .hw (s.fld GR_MIG.BOB x) then .next (installSnap x s) else .next s

/-! ### Shadow and switch (R326, R327) -/

/-- The digest of a bobbin (R326). -/
def State.digest (s : State) (b : Nat) : Nat × Nat × Nat :=
  let k := bobAddr b
  (s.rdW k % 8192, s.rdW (k + 4), s.rdW (k + 0x18))

/-- DIGEST (R326): the target compares the source's digest with its own. The count runs over consecutive cycles: one in which they differ,
in which a node had TQLOW set or whose DIGEST has not come starts it anew. After MIGMIN agreeing cycles the target sends READY. -/
def execDigest (r : Fin 2) (m : GMsg) (s : State) : Host.Outcome State Fault Refusal :=
  takeMsg 0x09 r.val m (fun s =>
    match s.slotFor 1 m.sbob.toNat m.origin.toNat with
    | none => s
    | some x =>
      if s.migState x ≠ 4 then s
      else
        let v := fle m.body 0 16
        let cyc := s.cycNear (v % 65536)
        let low := (Tab.get 0 s.graft.peers m.origin.toNat).testBit 0
        let mine := ((s.mig x).own.find? (fun o => o.1 == cyc)).bind Prod.snd
        let ok := !low && mine == some (bitsOf v 32 13, bitsOf v 64 32, bitsOf v 96 32)
        let n := if !ok then 0 else if (s.mig x).agreeAt = cyc then (s.mig x).agree + 1 else 1
        let s := s.modMig x (fun y => { y with agree := n, agreeAt := cyc + 1, last := s.cycle })
        if s.fld GR_CTRL.MIGMIN ≤ n && !(s.mig x).ready then
          sendMsg 0x0A (some m.origin.toNat) 0 m.sbob.toNat [] (s.modMig x (fun y => { y with ready := true }))
        else s) s

/-- READY (R322): the source sends SWITCH to all nodes. It names C_h, the second boundary after its release, when the frame that carries it
is filled and released; from the release on the switch waits for C_h. -/
def execReady (r : Fin 2) (m : GMsg) (s : State) : Host.Outcome State Fault Refusal :=
  takeMsg 0x0A r.val m (fun s =>
    match s.slotFor 0 m.sbob.toNat m.origin.toNat with
    | none => s
    | some x =>
      if s.migState x ≠ 3 then s
      else
        let b := s.fld GR_MIG.BOB x
        let ring := ((s.prick 0).map Prick.ring).getD 0
        let body := s.fld GR_BSID.SID b + s.fld GR_MIG.PEER x * 2 ^ 32 + ring * 2 ^ 42 + s.fld GR_MIG.PBOB x * 2 ^ 48
        sendMsg 0x0B none 0 b (leBytes 10 body) ((s.setFld GR_MIG.STATE x 5).modMig x (fun y => { y with ready := true }))) s

/-- SWITCH (R335, R327): the endpoint's owner changes at C_h, on receipt outside the source's ring; the target knows C_h. -/
def execSwitch (r : Fin 2) (m : GMsg) (s : State) : Host.Outcome State Fault Refusal :=
  takeMsg 0x0B r.val m (fun s =>
    let mv := moveOf m.body
    let s := endSearch m.origin.toNat m.sbob.toNat s
    let s := match s.slotFor 1 m.sbob.toNat m.origin.toNat with
      | some x => s.modMig x (fun y => { y with ch := s.cycNear mv.ch, switched := true })
      | none => s
    if r.val = 0 && (s.ringNodes 0).contains m.origin.toNat then s.modGraft (fun g => { g with moves := g.moves ++ [mv] })
    else applyMove mv s) s

/-- OWNERSHIP_SWITCH (R327): at C_h the source makes its bobbin inactive, the target takes its bobbin into normal mode. -/
def ownershipSwitch (x : Nat) (s : State) : State :=
  let y := s.mig x
  if y.ch = 0 || s.migState x = 0 || !y.switched || !s.canVote then s
  else
    let s := s.advanceNow (y.ch * s.ringLen 0)
    let b := s.fld GR_MIG.BOB x
    if s.fld GR_MIG.ROLE x = 1 then (clearSlot x (setMode b 0 0 s)).flag GR_STATUS.MIGDONE evGR
    else
      let pts := (s.pointList b).map plPoint
      let s := leaveMap b pts (((s.setFld BB_CFG.ACTIVE b 0).setFld GR_BSID.VALID b 0))
      let s := match s.cmds.find? (fun c => c.bob == b) with
        | some c => cmdResult c 6 { s with cmds := s.cmds.erase c }
        | none => s
      let s := orderResult b y.code 2 0 y.tag s
      checkEmpty ((clearSlot x (setMode b 0 0 s)).flag GR_STATUS.MIGDONE evGR)

/-- ABORT (R328): the peer has aborted; the bobbin returns to normal mode. -/
def execAbort (r : Fin 2) (m : GMsg) (s : State) : Host.Outcome State Fault Refusal :=
  takeMsg 0x0C r.val m (fun s =>
    let reason := fle m.body 0 1 % 16
    match s.slotFor 0 m.sbob.toNat m.origin.toNat, s.slotFor 1 m.sbob.toNat m.origin.toNat with
    | some x, _ => if (s.mig x).switched then s else endMig x 3 reason false s
    | none, some x => if (s.mig x).switched then s else endMig x 3 reason false s
    | none, none => s) s

/-- The reason for which the migration in slot `x` times out now, if it does (R328, Table GR-3). -/
def State.migLate (s : State) (x : Nat) : Option Nat :=
  let y := s.mig x
  let peer := Tab.get 0 s.graft.peers (s.fld GR_MIG.PEER x)
  let cto := s.fld GR_CTRL.CTO
  if s.migState x = 0 || y.switched then none
  else if peer.testBit 4 && bitsOf peer 1 3 != 4 && !y.waits then some 10
  else match y.inst with
    | some c =>
      if c + s.fld GR_CTRL.MIGTRY ≤ s.cycle then some 8
      else if y.last + 2 ≤ s.cycle then some 7 else none
    | none =>
      if s.fld GR_MIG.ROLE x = 0 && s.migState x = 3 then
        (if y.last + s.fld GR_CTRL.MIGTRY + y.bytes.length / max 1 s.segLen + 2 ≤ s.cycle then some 8 else none)
      else if s.migState x = 1 && s.fld GR_MIG.ROLE x = 0 && y.c0 ≠ 0 then none
      else
        let more := if s.fld GR_MIG.ROLE x = 1 then s.migK y.holdt + 2 else 0
        if y.last + cto + more ≤ s.cycle then some 7 else none

/-- MIGRATION_TIMEOUT (R328): a reply, a DIGEST or READY is missing, or the peer has left ACTIVE. -/
def execMigrationTimeout (x : Fin 8) (s : State) : Host.Outcome State Fault Refusal :=
  match (if s.canVote then s.migLate x.val else none) with
  | some reason => .next (endMig x.val 3 reason true s)
  | none => .next s

/-! ### OWN and the learning period (R336) -/

/-- OWN (R336): during learning, each entry rewrites NODE, RING and BOB of the endpoint it names. -/
def execOwn (r : Fin 2) (m : GMsg) (s : State) : Host.Outcome State Fault Refusal :=
  takeMsg 0x0D r.val m (fun s =>
    if !s.isSet GR_STATUS.LEARN then s
    else
      let src := m.origin.toNat
      let ring := match s.prick r.val with
        | some k => if (s.ringNodes r.val).contains src then k.ring else (s.homeRing src).getD k.ring
        | none => (s.homeRing src).getD 0
      forEach (List.range (min 16 (m.body.length / 4))) (fun i t =>
        let v := fle m.body (4 * i) 4
        let e := bitsOf v 8 17
        if e < t.fld GR_CANOPY.NEND then setOwner e src ring (v % 256) (epMig (t.endpoint e)) t else t) s) s

/-- LEARNING_END (R336): 40 cycles after the first entry into ACTIVE, the node activates each bobbin whose endpoint names it. -/
def execLearningEnd (s : State) : Host.Outcome State Fault Refusal :=
  match s.graft.active with
  | none => .next s
  | some c =>
    if s.graft.learned || !s.clustered || !s.canVote || s.cycle < c + 40 then .next s
    else
      let s := (s.setFld GR_STATUS.LEARN 0 0).modGraft (fun g => { g with learned := true })
      let mine (b : Nat) : Bool :=
        let w := s.endpoint (s.fld GR_BSID.SID b)
        s.isSet GR_BSID.VALID b && epNode w == s.me && epBob w == b && !s.active b
      .next (forEach ((List.range 256).filter mine) (fun b t =>
        let t := t.setFld BB_CFG.ACTIVE b 1
        { t with secs := Tab.set SecSt.reset t.secs b { SecSt.reset with memerr := (Tab.get SecSt.reset t.secs b).memerr } }) s)

/-! ### The cycle boundary -/

/-- The next 16 bobbins of the OWN list (R332): active, neither shadow-in nor shadow-out. -/
def State.ownEntries (s : State) : List Nat :=
  let mine := (List.range 256).filter (fun b => s.active b && s.fld GR_BMODE.MODE b == 0)
  let rest := mine.filter (fun b => decide (s.graft.ownNext ≤ b))
  (if rest.isEmpty then mine else rest).take 16

/-- The digests of boundary `c`: a source whose snapshot has been sent queues a DIGEST, a target notes its own (R326). -/
def digestSlot (c x : Nat) (s : State) : State :=
  let y := s.mig x
  let b := s.fld GR_MIG.BOB x
  let d := s.digest b
  let src := s.fld GR_MIG.ROLE x == 0
  if src && s.migState x == 3 && decide (y.bytes.length ≤ y.seg * s.segLen) && decide (y.last < s.cycle) then
    let v := c % 65536 + d.1 * 2 ^ 32 + d.2.1 * 2 ^ 64 + d.2.2 * 2 ^ 96
    sendMsg 0x09 (some (s.fld GR_MIG.PEER x)) 0 b (leBytes 16 v) s
  else if !src && s.migState x == 4 then
    let e := (c, if s.isSet TM_STATUS.TQLOW then none else some d)
    s.modMig x (fun z => { z with own := (z.own ++ [e]).drop (z.own.length - 3) })
  else s

/-- Graft's work at a boundary of the home ring: roles, ALIVE, OWN, LOAD, digests, evacuation (R318, R319, R326, R330, R332). -/
def graftBoundary (c : Nat) (s : State) : State :=
  if !s.clustered then s
  else
    let first := s.graft.active.isNone && s.node 0 == 4
    let s := if first then (s.setFld GR_STATUS.LEARN 0 1).modGraft (fun g => { g with active := some s.cycle }) else s
    let s := if s.fld GR_COORDST.ROLE ≠ 0 || s.node 0 ≠ 4 then s
      else if s.fld GR_COORD.CNODE = s.me then s.setFld GR_COORDST.ROLE 0 1
      else if s.fld GR_COORD.SNODE = s.me then s.setFld GR_COORDST.ROLE 0 2 else s
    let s := if s.fld GR_COORDST.ROLE = 1 then hear s.me (s.termOf s.me) s else refreshCoord s
    let s := s.modGraft (fun g => { g with plans := g.plans.filter (fun p => !(s.tried p.1 p.2.1).isEmpty) })
    let s := forEach (List.range 8) (digestSlot c) s
    if s.node 0 ≠ 4 then s
    else
      let s := if s.fld GR_COORDST.ROLE = 1 then sendMsg 0x01 none 0 0 [] s else s
      let own := s.ownEntries
      let s := if own.isEmpty then s
        else sendMsg 0x0D none 0 0 (own.flatMap (fun b => leBytes 4 (b + s.fld GR_BSID.SID b * 2 ^ 8))) s
      let s := s.modGraft (fun g => { g with ownNext := (own.getLast?.map (· + 1)).getD 0 })
      let s := if s.cycle % 16 ≠ 0 then s
        else if s.fld GR_COORDST.ROLE = 1 then noteLoad s.me s.loadBody s
        else if s.isSet GR_COORDST.VALID then sendMsg 0x02 (some (s.fld GR_COORDST.CUR)) 0 0 (leBytes 2 s.loadBody) s else s
      evacStep s

end Sys2Proof.Machine
end

