-- ==== Sys2Proof/Machine/Rings.lean ====
section
/-! DEFINITION. The growth-ring monitors, the measured step rates and the operating hours (15 R538 to R558). The margin program
stands in `Machine/Margin.lean`. -/

namespace Sys2Proof.Machine

/-- The margin program runs: the device is up on an image, whose TRIMT lies in its span, and the Root engine is not stopped. -/
def State.marginRuns (s : State) : Bool :=
  let r := (s.eng 9).run
  (r == .running || r == .waiting) && decide (10 ≤ s.fld AG_CTRL.TRIMT)

/-! ### Monitors (R537 to R540) -/

/-- The kind of monitor `i` (Table AG-2). -/
def monKind (i : Nat) : Nat :=
  if i < 20 then i % 2 else if i < 22 then 1 else if i < 24 then 0 else if i < 37 then 2 else if i < 47 then 3 else 4

/-- A reading in the format of Table AG-3. -/
def monReading (i margin temp : Nat) (fault slew : Bool) : Nat :=
  margin % 65536 + monKind i * 2 ^ 16 + temp % 256 * 2 ^ 20 + bit (!fault) * 2 ^ 28 + bit fault * 2 ^ 29 + bit slew * 2 ^ 30

/-- The reading of monitor `i` is valid. -/
def State.monValid (s : State) (i : Nat) : Bool := (s.fld AG_MON.READING i).testBit 28

/-- The present MARGIN of monitor `i`. -/
def State.margin (s : State) (i : Nat) : Int := sgn 16 (s.fld AG_MON.READING i)

/-- The monitor with the least MARGIN among the valid readings of kinds 0 to 2, the lowest-numbered of equals. -/
def State.worstMon (s : State) : Option Nat :=
  (List.range 37).foldl (fun m i =>
    if !s.monValid i then m
    else match m with
      | none => some i
      | some j => if s.margin i < s.margin j then some i else m) none

/-- AG_WORST follows the readings (Table AG-11). -/
def showWorst (s : State) : State :=
  match s.worstMon with
  | none => (s.setFld AG_WORST.MARGIN 0 0).setFld AG_WORST.MON 0 0
  | some i => (s.setFld AG_WORST.MARGIN 0 (s.fld AG_MON.READING i % 65536)).setFld AG_WORST.MON 0 i

/-! ### Rates (R541, R542) -/

/-- The guaranteed rate in kst/s of engine `e` of the RATE numbering (Table AG-1): 0 to 5 Sapwood, 6 Root, 7 Heartwood. -/
def guaranteedRate (e : Nat) : Nat := if e = 7 then 180000 else 200000

/-- Rate in kst/s and load of an engine (R541): steps of the cycle, TU spent executing, cycle length in TU. -/
def rateLoad (steps busy len : Nat) : Nat × Nat :=
  if busy = 0 then (0, 0) else (steps * 125000 / busy, min 255 (busy * 256 / len))

/-- The slower of two measured engines; one that did not execute does not count. -/
def slower (a b : Nat × Nat) : Nat × Nat :=
  if a.2 = 0 && a.1 = 0 then b else if b.2 = 0 && b.1 = 0 then a else if b.1 < a.1 then b else a

/-- The rate and load of engine `e` of the RATE numbering. -/
def State.measured (s : State) (busy : List Nat) (len e : Nat) : Nat × Nat :=
  let one (i : Nat) : Nat × Nat := rateLoad (Tab.get 0 s.steps i) ((busy[i]?).getD 0) len
  if e < 6 then one (3 + e)
  else if e = 6 then one 9
  else ((if s.isSplit then [0, 1] else s.voting).map one).foldl slower (0, 0)

/-- The engine is in service for R542. -/
def State.inService (s : State) (e : Nat) : Bool := if e < 6 then !s.seRetired e else true

/-- The margin program at a cycle boundary: it notes LOWRATE for the trend record, and counts the consecutive boundaries at which the bit
of a Sapwood engine in LRENG was set (Table AG-6). -/
def planBoundary (s : State) : State :=
  if !s.marginRuns then s
  else
    let l := s.fld AG_STATUS.LRENG
    let count (e : Nat) : PlanSt → PlanSt := fun p =>
      { p with slow := Tab.set 0 p.slow e (if l.testBit e then min 3 (Tab.get 0 p.slow e + 1) else 0) }
    s.modPlan (fun p =>
      (List.range 6).foldl (fun p e => count e p) { p with seen := if l = 0 then p.seen else p.seen ||| 4 })

/-- The measurement of the completed cycle (R541, R542): `busy` is the time in TU that each engine spent executing, by engine
number. -/
def rateBoundary (busy : List Nat) (len : Nat) (s : State) : State :=
  let l := (List.range 8).map (fun e => (e, s.measured busy len e))
  let s := forEach l (fun p => fun t => (t.setFld AG_RATE.RATE p.1 (min (2 ^ 20 - 1) p.2.1)).setFld AG_RATE.LOAD p.1 p.2.2) s
  let low := l.filter (fun p => s.inService p.1 && decide (16 ≤ p.2.2) && decide (p.2.1 < guaranteedRate p.1))
  let s := s.setFld AG_STATUS.LRENG 0 ((low.map (fun p => 2 ^ p.1)).foldl (· + ·) 0)
  let s := onlyIf (!low.isEmpty) (State.flag AG_STATUS.LOWRATE evAG) s
  planBoundary { s with steps := [] }

/-! ### Operating hours and plan (R548, R549, R551, R558) -/

/-- An hour of time-base time in TU. -/
def hourTu : Nat := 450000000000

/-- A write of AG_HOURS (R548): the Root engine's first after a reset; every other is rejected. -/
def agHours (q : Req) (v : Nat) (s : State) : State :=
  if q = .root && !s.hoursSet then
    let s := s.setFld AG_HOURS.HOURS 0 (AG_HOURS.HOURS.of v)
    { s with hoursSet := true, trendAt := s.fld AG_HOURS.HOURS }
  else s.reject q

/-- HOURS_WRITE (R548). -/
def execHoursWrite (q : Req) (v : Word) (s : State) : Host.Outcome State Fault Refusal :=
  asReq q s <| .next (agHours q v.toNat s)

/-- A write of AG_PLAN (R544, R551, R558): by the Root engine alone. -/
def agPlan (q : Req) (v : Nat) (s : State) : State :=
  if q ≠ .root then s.reject q
  else
    let maint := !s.isSet AG_PLAN.MAINT && AG_PLAN.MAINT.of v == 1
    let ceil := AG_PLAN.CEIL.of v == 1
    let s := writeFields q AG_PLAN.fields 0 v s
    let s := s.setFld AG_STATUS.MAINT 0 (AG_PLAN.MAINT.of v)
    let s := onlyIf ceil (State.flag AG_STATUS.CEIL evAG) s
    onlyIf maint (State.flag AG_STATUS.MAINTSET evAG) s

/-- A write of AG_CTRL (Table AG-8). -/
def agCtrl (q : Req) (v : Nat) (s : State) : State :=
  let t := AG_CTRL.TMARG.of v
  let m := AG_CTRL.MAINTM.of v
  let ok := decide (10 ≤ t) && decide (t ≤ 60) && decide (24 ≤ m) && decide (m ≤ 120) && decide (10 ≤ AG_CTRL.TRIMT.of v)
  if q.voted && !ok then s.flag AG_STATUS.CFGERR evAG else writeFields q AG_CTRL.fields 0 v s

end Sys2Proof.Machine
end

