-- ==== Sys2Proof/Machine/Recovery.lean ====
section
/-! DEFINITION. Block resets, the flash pointer and the record area, the configuration commit, the watchdogs and the recovery
ladder's registers (16 R564 to R581). The checks of a new image and the resets themselves are in `Machine/Boot.lean` and
`Machine/Power.lean`. -/

namespace Sys2Proof.Machine

/-! ### Block resets (R564, Table RB-3) -/

/-- The mask bit of a requester's input is cleared. -/
def unmask (q : Req) (s : State) : State := s.putFbit MI_MASK.MASK 0 (s.input q) false

/-- A private memory space is cleared to 0 with valid check bits. -/
def clearSpace (sp : Nat) (s : State) : State :=
  { s with mem := s.mem.filter (fun p => p.1 / 2 ^ 32 != sp), errs := s.errs.filter (fun p => p.1 * 16 / 2 ^ 32 != sp) }

/-- The check-value units that a requester has claimed are free (11 R456). -/
def freeCvs (q : Req) (s : State) : State :=
  forEach ((List.range 8).filter (fun u => (s.cv u).owner == some q)) (fun u => State.modCv u (fun c => { c with owner := none })) s

/-- The base of the flash bank that booted. -/
def State.bankBase (s : State) : Nat := s.fld ID_BOOT.BANK * 0x400000

/-- The entry address at an offset of the booted image's header (Table RB-6); 0 where the bank holds no image (assumption 3). -/
def State.entryAt (s : State) (off : Nat) : Word :=
  if s.rdW s.bankBase = 0x7A110256 then BitVec.ofNat 32 (s.rdW (s.bankBase + off)) else 0#32

/-- The entry of an engine (R568, 10 R421). -/
def State.entryOf (s : State) (i : Nat) : Word :=
  if i = 1 && s.isSplit then s.entryAt 0x18
  else if i < 3 then s.entryAt 0x14
  else if i = 9 then s.entryAt 0x1C
  else s.entryAt (0x20 + 4 * (i - 3))

/-- An engine as it starts at its entry (09 R341); bits [3:0] of EVP read 0 (Table KM-2). -/
def startEngine (i : Nat) (s : State) : State :=
  let a := s.entryOf i
  s.modEng i (fun _ => { Engine.reset with pc := a, evp := a &&& 0xFFFFFFF0#32 })

/-- BLK 1 to 3: a host port. -/
def resetHost (p : Fin 3) (s : State) : State :=
  let i := p.val
  let s := freeCvs (.host p) (unmask (.host p) (dropLocks (.host p) s))
  let s := s.modPort i (fun x => { x with queue := [], props := [] })
  let s := forEach (List.range 72) (fun w => State.setFld HP_DIRTY.D (i * 72 + w) 0xFFFFFFFF) s
  let s := (s.setFld HP_POV.CMDLOST i 0).setFld HP_POV.DEV i 0
  ((s.setFld HP_PSTATUS.ERR i 0).setFld HP_PSTATUS.BITMAP i 0).setFld HP_PSTATUS.CMD i 0 |>.setFld HP_PSTATUS.AGRFAIL i 0

/-- BLK 5 to 10: a Sapwood engine, unless it is retired. Its heads leave it until Graft places one: GR_HPLACE keeps naming it, since PRIM
changes by no block reset (08 R311), but the head is not placed on it (assumption 70). -/
def resetSapwood (k : Fin 6) (s : State) : State :=
  if s.seRetired k.val then s
  else
    let s := startEngine (3 + k.val) (clearSpace (4 + k.val) s)
    let s := freeCvs (.se k) (unmask (.se k) (dropLocks (.se k) s))
    let s := (forEach (List.range 32) (releaseLatches k.val) s).setEdgeFifo (3 + k.val) []
    forEach ((List.range 32).filter (fun h => s.fld GR_HPLACE.PRIM h == k.val || s.fld GR_HPLACE.SHAD h == k.val))
      (fun h => State.modHead h (fun x => { x with gone := k.val :: x.gone.filter (· != k.val) })) s

/-- BLK 11: the Carrik DMA. -/
def resetDma (s : State) : State :=
  let s := unmask .dma (dropLocks .dma s)
  let s := { s.setFld CK_RXRI.RI 0 (s.fld CK_RXWI.WI) with ready := [], rxq := [], rxHeld := [] }
  onlyIf (s.isSet CK_CTRL.RUN) (forEach s.myRings enterListen) s

/-- BLK 0: the debugger port. An access that waits for a lock ends with ACCERR. -/
def resetDebugger (s : State) : State :=
  let waits := s.lockWait.any (fun w => w.who == .dbg)
  let s := freeCvs .dbg (unmask .dbg (dropLocks .dbg s))
  onlyIf waits (State.setFld DB_STATUS.ACCERR 0 1) s

/-- BLK 4: the Root engine. What the margin program held in its local RAM is lost, but for the record it has requested; it makes its
request of R545 anew. -/
def resetRoot (s : State) : State :=
  let s := freeCvs .root (unmask .root (startEngine 9 (clearSpace 10 (dropLocks .root s))))
  { s.modPlan (fun p => { PlanSt.reset with body := p.body, faults := p.faults, recalled := p.recalled }) with restored := false }

/-- The effect of a block reset (Table RB-3). -/
def blockReset (blk : Nat) (s : State) : State :=
  match blk with
  | 0 => resetDebugger s
  | 1 => resetHost 0 s
  | 2 => resetHost 1 s
  | 3 => resetHost 2 s
  | 4 => resetRoot s
  | 5 => resetSapwood 0 s
  | 6 => resetSapwood 1 s
  | 7 => resetSapwood 2 s
  | 8 => resetSapwood 3 s
  | 9 => resetSapwood 4 s
  | 10 => resetSapwood 5 s
  | _ => resetDma s

/-- The key of RB_RESET and RB_BRST. -/
def resetKey : Nat := 0x6B5E

/-- A write of RB_BRST (R564). -/
def rbBrst (q : Req) (v : Nat) (s : State) : State :=
  let b := RB_BRST.BLK.of v
  let may := q.voted || (q == .root && b != 4)
  if !may || RB_BRST.KEY.of v != resetKey then s.reject q
  else if 12 ≤ b then s.flag RB_STATUS.CFGERR evRB
  else blockReset b s

/-- BLOCK_RESET (R564). -/
def execBlockReset (q : Req) (v : Word) (s : State) : Host.Outcome State Fault Refusal :=
  asReq q s <| .next (rbBrst q v.toNat s)

/-! ### Watchdogs and ladder (R576, R581) -/

/-- A write of RB_RKICK (R576, R577): the Root engine's with the right key kicks both watchdogs. -/
def rbRkick (q : Req) (v : Nat) (s : State) : State :=
  if q ≠ .root then s.reject q
  else if RB_RKICK.KEY.of v = 0xC0DE then
    let t := s.tb
    let c := s.cycle
    s.modKeeper (fun k => { k with kick := t, rkick := c })
  else s

/-- ROOT_KICK (R576). -/
def execRootKick (q : Req) (v : Word) (s : State) : Host.Outcome State Fault Refusal :=
  asReq q s <| .next (rbRkick q v.toNat s)

/-- ROOT_WATCHDOG (R576): RWDT full cycles have passed since the cycle of the last kick; the next RWDT cycles are counted from
here. -/
def execRootWatchdog (s : State) : Host.Outcome State Fault Refusal :=
  if s.keeper.rkick + s.fld RB_CTRL.RWDT < s.cycle then
    let c := s.cycle
    .next ((s.modKeeper (fun k => { k with rkick := c - 1 })).flag RB_STATUS.RWDOG evRB)
  else .next s

/-- A write of RB_LADDER (R578, R581): by the Root engine and the voted Heartwood; it appends to the recovery log. -/
def rbLadder (q : Req) (v : Nat) (s : State) : State :=
  if q.voted || q == .root then appendLog 1 0x38000200 64 v 0 s else s.reject q

/-- LADDER_WRITE (R581). -/
def execLadderWrite (q : Req) (v : Word) (s : State) : Host.Outcome State Fault Refusal :=
  asReq q s <| .next (rbLadder q v.toNat s)

/-- LADDER_COUNTER_CLEAR (R580): HW_PHASE has read SERVICE for 10 min without a break. -/
def execLadderCounterClear (s : State) : Host.Outcome State Fault Refusal :=
  match s.keeper.serviceAt with
  | some t =>
    let s := s.advanceTo (t + 75000000000)
    .next ((s.setFld RB_CAUSE.DRSTN 0 0).setFld RB_CAUSE.PCYCN 0 0)
  | none => .next s

/-- HW_PHASE with its time in SERVICE (R580). -/
def rbPhase (q : Req) (v : Nat) (s : State) : State :=
  let was := s.fld HW_PHASE.PHASE
  let s := hwPhase q v s
  let now := s.fld HW_PHASE.PHASE
  let t := s.tb
  if now = 1 then (if was = 1 then s else s.modKeeper (fun k => { k with serviceAt := some t }))
  else s.modKeeper (fun k => { k with serviceAt := none })

/-- PHASE_WRITE (10 R412). -/
def execPhaseWrite (q : Req) (v : Word) (s : State) : Host.Outcome State Fault Refusal :=
  asReq q s <| .next (rbPhase q v.toNat s)

/-- A write of RB_CTRL (Table RB-13). -/
def rbCtrl (q : Req) (v : Nat) (s : State) : State :=
  let k := RB_CTRL.KWDT.of v
  let l := RB_CTRL.LADMAX.of v
  let ok := decide (2 ≤ k) && decide (k ≤ 60) && decide (2 ≤ RB_CTRL.RWDT.of v) && decide (1 ≤ l) && decide (l ≤ 7)
    && RB_CTRL.RECUR.of v != 0 && RB_CTRL.EVT.of v != 0
  if q.voted && !ok then s.flag RB_STATUS.CFGERR evRB else writeFields q RB_CTRL.fields 0 v s

/-! ### The pointer sectors (R565, R566, Table RB-5) -/

/-- The pointer sector of a bank. -/
def ptrBase (bank : Nat) : Nat := bank * 0x400000 + 0x3F8000

/-- A pointer record: SEQ, IMAGEID, BANKS, and the bank of the sector that holds it. -/
structure Ptr where
  seq : Nat
  img : Nat
  banks : Nat
  sector : Nat
  deriving DecidableEq, Repr

/-- The bank of the image named. -/
def Ptr.image (p : Ptr) : Nat := p.banks % 2
/-- The bank of the record area named. -/
def Ptr.records (p : Ptr) : Nat := p.banks / 2 % 2

/-- The blocks of a pointer sector in which a byte is not erased. -/
def State.ptrBlocks (s : State) (bank : Nat) : List Nat :=
  (((s.mem.map Prod.fst).filter (fun k => decide (ptrBase bank ≤ k) && decide (k < ptrBase bank + 0x8000))).map
    (fun k => k / 16 * 16)).eraseDups

/-- The record at block `k`, when its CHECK is correct. -/
def State.ptrAt (s : State) (bank k : Nat) : Option Ptr :=
  if crc32c (s.rdL k 12) = s.rdW (k + 12) && decide (s.badBits k < 3) then
    some { seq := s.rdW k, img := s.rdW (k + 4), banks := (s.byte (k + 8)).toNat, sector := bank }
  else none

/-- The committed pointer: the valid record with the highest SEQ; with none, bank A for both (R565). -/
def State.pointer (s : State) : Ptr :=
  let l := [0, 1].flatMap (fun b => (s.ptrBlocks b).filterMap (s.ptrAt b))
  l.foldl (fun p x => if p.seq < x.seq then x else p) { seq := 0, img := 0, banks := 0, sector := 0 }

/-- `n` bytes of flash from `k` are erased. -/
def eraseFlash (k n : Nat) (s : State) : State :=
  { s with mem := s.mem.filter (fun p => decide (p.1 < k) || decide (k + n ≤ p.1)),
           errs := s.errs.filter (fun p => decide (p.1 * 16 < k) || decide (k + n ≤ p.1 * 16)) }

/-- The first erased block of a pointer sector. -/
def State.erasedPtr (s : State) (bank : Nat) : Option Nat :=
  let used := s.ptrBlocks bank
  ((List.range 2048).map (fun i => ptrBase bank + 16 * i)).find? (fun k => !used.contains k)

/-- A new pointer record is written (R565), and RB_PTR shows its SEQ. -/
def writePtr (img banks : Nat) (s : State) : State :=
  let p := s.pointer
  let seq := p.seq + 1
  let put (k : Nat) (s : State) : State :=
    let s := ((s.wrW k seq).wrW (k + 4) img).wrW (k + 8) banks
    s.wrW (k + 12) (crc32c (s.rdL k 12))
  let s := match s.erasedPtr p.sector with
    | some k => put k s
    | none => let o := 1 - p.sector; put (ptrBase o) (eraseFlash (ptrBase o) 0x8000 s)
  s.setFld RB_PTR.SEQ 0 seq

/-! ### The record area (R566, R575) -/

/-- The record area of a bank. -/
def recBase (bank : Nat) : Nat := bank * 0x400000 + 0x380000

/-- The entries an area holds: 480 KiB of 80 bytes. -/
def recSlots : Nat := 6144

/-- The first slot after the last one written. -/
def State.recNext (s : State) (bank : Nat) : Nat :=
  ((s.mem.map Prod.fst).filter (fun k => decide (recBase bank ≤ k) && decide (k < recBase bank + 80 * recSlots))).foldl
    (fun m k => max m ((k - recBase bank) / 80 + 1)) 0

/-- The valid entries of an area, in ascending order: address, KIND, SEQ. An entry whose CRC fails is ignored. -/
def State.recEntries (s : State) (bank : Nat) : List (Nat × Nat × Nat) :=
  (List.range (s.recNext bank)).filterMap (fun i =>
    let k := recBase bank + 80 * i
    if crc32c (s.rdL k 12 ++ s.rdL (k + 16) 64) = s.rdW (k + 12) then some (k, (s.byte k).toNat, s.rdW (k + 4)) else none)

/-- An entry is written at `k` (R566); its SEQ is one above the last one's (DESIGN CHOICE, assumption 71). -/
def writeRec (k kind seq : Nat) (body : List Byte) (s : State) : State :=
  let s := ((s.wrW k kind).wrW (k + 4) seq).wrW (k + 8) 0
  (s.wrW (k + 12) (crc32c (s.rdL k 12 ++ body))).wrL (k + 16) body

/-- The entries that compaction keeps (R575): the newest 2,560 trend entries, every retirement entry, the newest 64 KIND 3. -/
def keptRecs (l : List (Nat × Nat × Nat)) : List Nat :=
  let newest (kind n : Nat) : List Nat := ((l.filter (fun e => e.2.1 == kind)).reverse.take n).map Prod.fst
  let keep := newest 1 2560 ++ newest 2 recSlots ++ newest 3 64
  (l.map Prod.fst).filter (fun k => keep.contains k)

/-- An entry is appended to the area in force, which is compacted into the other one when the entry does not fit (R575). -/
def appendRec (kind : Nat) (body : List Byte) (s : State) : State :=
  let p := s.pointer
  let bank := p.records
  let n := s.recNext bank
  let l := s.recEntries bank
  let seq := (l.map (fun e => e.2.2)).foldl max 0 + 1
  if n < recSlots then writeRec (recBase bank + 80 * n) kind seq body s
  else
    let o := 1 - bank
    let keep := keptRecs l
    let t := eraseFlash (recBase o) (80 * recSlots) s
    let t := forEach ((List.range keep.length).zip keep) (fun x => State.copyBytes x.2 (recBase o + 80 * x.1) 80) t
    let t := writeRec (recBase o + 80 * keep.length) kind seq body t
    (writePtr p.img (p.image + 2 * o) t).setFld RB_BOOT.RECBANK 0 o

/-- `n` bytes from `a` lie in shared RAM (01 R36). -/
def inShared (a n : Nat) : Bool := decide (0x20000000 ≤ a) && decide (a + n ≤ 0x20200000)

/-- Some block of `n` bytes from `a` is uncorrectable; the reads of the blocks are recorded (11 R434, R436). -/
def readBlocks (q : Req) (a n : Nat) (s : State) : Bool × State := readSpan (s.input q) a n s

/-- A commit of either kind is busy. -/
def State.flashBusy (s : State) : Bool := s.isSet RB_STATUS.CMTBUSY || s.isSet RB_STATUS.RECBUSY

/-- A write of RB_RECORD (R575). -/
def rbRecord (q : Req) (v : Nat) (s : State) : State :=
  let kind := RB_RECORD.KIND.of v
  let a := RB_RECORD.ADDR.of v * 16
  if !(q.voted || q == .root) then s.reject q
  else if s.flashBusy || kind = 0 || decide (3 < kind) || !inShared a 64 then s.flag RB_STATUS.RECFAIL evRB
  else
    let s := s.setFld RB_STATUS.RECBUSY 0 1
    { s with commit := { s.commit with record := some (kind, a) } }

/-- RECORD (R575). -/
def execRecord (q : Req) (v : Word) (s : State) : Host.Outcome State Fault Refusal :=
  asReq q s <| .next (rbRecord q v.toNat s)

/-- The record request under way ends. -/
def endRecord (f : Field) (s : State) : State :=
  { s.setFld RB_STATUS.RECBUSY 0 0 with commit := { s.commit with record := none } }.flag f evRB

/-! ### The configuration commit (R572, R573) -/

/-- The commit unit takes the debugger's writes in boot failure (R585). -/
def State.dbgCommit (s : State) (q : Req) : Bool :=
  q == .dbg && s.isSet RB_BOOT.FAIL && s.isSet RB_STRAP.SDBG && s.fld DB_TGT.TGT == 8

/-- The requester may drive the commit. -/
def State.mayCommit (s : State) (q : Req) : Bool := q.voted || s.dbgCommit q

/-- RB_CST.STATE. -/
def State.cst (s : State) : Nat := s.fld RB_CST.STATE

/-- A commit is under way: erasing, ready, programming or finishing. -/
def State.committing (s : State) : Bool := decide (1 ≤ s.cst) && decide (s.cst ≤ 4)

/-- TU that the commit has been suspended by dips up to now (R529, R573). -/
def State.suspended (s : State) : Nat :=
  s.commit.susp + (if s.isSet PW_STATUS.WARN then s.tb - max s.keeper.dipAt s.commit.start else 0)

/-- TU since START, without the suspensions. -/
def State.elapsed (s : State) : Nat := s.tb - s.commit.start - s.suspended

/-- RB_CST.ELAPSED in ms (Table RB-15). -/
def State.elapsedMs (s : State) : Nat :=
  match s.commit.ended with
  | some n => n
  | none => if s.committing then min 4095 (s.elapsed / 125000) else 0

/-- The commit ends in STATE `st` with reason `r` (R573). -/
def endCommit (st r : Nat) (f : Field) (s : State) : State :=
  let e := s.elapsedMs
  let s := ((s.setFld RB_CST.STATE 0 st).setFld RB_CST.FAILR 0 r).setFld RB_CST.SUSP 0 0
  let s := { s.setFld RB_STATUS.CMTBUSY 0 0 with commit := { s.commit with ended := some e } }
  s.flag f evRB

/-- The commit fails (R573). -/
def failCommit (r : Nat) (s : State) : State := endCommit 6 r RB_STATUS.CMTFAIL s

/-- The bank the pointer does not name. -/
def State.newBank (s : State) : Nat := (1 - s.pointer.image) * 0x400000

/-- START (R572). -/
def commitStart (s : State) : State :=
  if s.flashBusy then s.flag RB_STATUS.CFGERR evRB
  else
    let s := ((s.setFld RB_CST.STATE 0 1).setFld RB_CST.FAILR 0 0).setFld RB_CST.SUSP 0 (s.fld PW_STATUS.WARN)
    { s.setFld RB_STATUS.CMTBUSY 0 1 with commit := { CommitSt.reset with start := s.tb } }

/-- A write of RB_CCTRL (R572, R573). An OP that finds no commit in the state it needs has no effect and sets CFGERR
(DESIGN CHOICE, assumption 72). -/
def rbCctrl (q : Req) (v : Nat) (s : State) : State :=
  if !s.mayCommit q then s.reject q
  else match RB_CCTRL.OP.of v with
    | 1 => commitStart s
    | 2 => if s.cst = 2 then s.setFld RB_CST.STATE 0 4 else s.flag RB_STATUS.CFGERR evRB
    | 3 => if s.committing then failCommit 4 s else s.flag RB_STATUS.CFGERR evRB
    | _ => s.flag RB_STATUS.CFGERR evRB

/-- COMMIT_START (R572): RB_CCTRL with OP 1. -/
def execCommitStart (q : Req) (s : State) : Host.Outcome State Fault Refusal :=
  asReq q s <| .next (rbCctrl q 1 s)
/-- COMMIT_FINISH (R572): RB_CCTRL with OP 2. -/
def execCommitFinish (q : Req) (s : State) : Host.Outcome State Fault Refusal :=
  asReq q s <| .next (rbCctrl q 2 s)
/-- COMMIT_ABORT (R573): RB_CCTRL with OP 3. -/
def execCommitAbort (q : Req) (s : State) : Host.Outcome State Fault Refusal :=
  asReq q s <| .next (rbCctrl q 3 s)

/-- ERASE_DONE (R572): the erase completes; a dip suspends it (14 R529). -/
def execEraseDone (s : State) : Host.Outcome State Fault Refusal :=
  if s.cst = 1 && !s.isSet PW_STATUS.WARN then .next ((eraseFlash s.newBank 0x380000 s).setFld RB_CST.STATE 0 2) else .next s

/-- A write of RB_CSTAGE: 16-aligned in shared RAM, else rejected. -/
def rbCstage (q : Req) (v : Nat) (s : State) : State :=
  if q.voted && (v % 16 != 0 || !inShared v 16) then s.flag RB_STATUS.CFGERR evRB else writeFields q RB_CSTAGE.fields 0 v s

/-- The words of the chunk come from the debugger (R585). -/
def State.fromDbg (s : State) : Bool := s.isSet RB_BOOT.FAIL && !s.commit.buf.isEmpty

/-- The byte at offset `i` of the staging buffer, or of the words the debugger has filled in. -/
def State.staged (s : State) (i : Nat) : Byte :=
  if s.fromDbg then BitVec.ofNat 8 ((s.commit.buf[i / 4]?).getD 0 / 256 ^ (i % 4)) else s.byte (s.fld RB_CSTAGE.ADDR + i)

/-- LEN of the image under way, from its header (Table RB-6), in the chunk itself when that is the first one. -/
def State.newLen (s : State) (off : Nat) : Nat :=
  if off = 0 then ((List.range 4).map (fun i => (s.staged (12 + i)).toNat * 256 ^ i)).foldl (· + ·) 0 else s.rdW (s.newBank + 12)

/-- A write of RB_CCHUNK (R572, R573). -/
def rbCchunk (q : Req) (v : Nat) (s : State) : State :=
  let off := RB_CCHUNK.OFFSET.of v
  let len := RB_CCHUNK.LEN.of v
  if !s.mayCommit q then s.reject q
  else if s.cst ≠ 2 || len = 0 || decide (4096 < len) then s.flag RB_STATUS.CFGERR evRB
  else if off ≠ s.commit.next || decide (min 0x380000 (s.newLen off) < (off + len) * 16) then failCommit 5 s
  else { s.setFld RB_CST.STATE 0 3 with commit := { s.commit with off := off, len := len } }

/-- CHUNK (R572). -/
def execChunk (q : Req) (v : Word) (s : State) : Host.Outcome State Fault Refusal :=
  asReq q s <| .next (rbCchunk q v.toNat s)

/-- CHUNK_DONE (R572, R573): the chunk under way is programmed; `ok` false is a program that fails its read-back. The commit unit
reads only shared RAM: beyond it the commit fails, with a FAILR that the spec does not name (01 R45, assumption 73). -/
def execChunkDone (ok : Bool) (s : State) : Host.Outcome State Fault Refusal :=
  if s.cst ≠ 3 || s.isSet PW_STATUS.WARN then .next s
  else
    let n := s.commit.len * 16
    let a := s.fld RB_CSTAGE.ADDR
    if !s.fromDbg && !inShared a n then
      let r := s.fresh
      .next (failCommit (r.1 % 8) r.2)
    else
      let r := if s.fromDbg then (true, s) else readBlocks .commit a n s
      if !r.1 then .next (failCommit 7 r.2)
      else if !ok then .next (failCommit 6 r.2)
      else
        let s := r.2
        let s := s.wrL (s.newBank + s.commit.off * 16) ((List.range n).map s.staged)
        let s := { s.setFld RB_CST.STATE 0 2 with commit := { s.commit with next := s.commit.off + s.commit.len, buf := [] } }
        .next (s.flag RB_STATUS.CHUNK evRB)

/-- COMMIT_TIMEOUT (R573): more than 3 s have passed from START, without the suspensions. -/
def execCommitTimeout (s : State) : Host.Outcome State Fault Refusal :=
  if s.committing && !s.isSet PW_STATUS.WARN then
    .next (failCommit 1 (s.advanceTo (s.commit.start + s.commit.susp + 375000001)))
  else .next s

end Sys2Proof.Machine
end

