-- ==== Sys2Proof/Machine/Debug.lean ====
section
/-! DEFINITION. The debugger: halting, resuming, stepping, the windows into a target's RAM and registers, the trace dump (10 R428
to R430, 16 R584 to R586, R588). -/

namespace Sys2Proof.Machine

/-- The debugger is enabled (R562). -/
def State.debugOn (s : State) : Bool := s.isSet RB_STRAP.SDBG

/-- A debugger access fails (01 R44, R584). -/
def accErr (s : State) : State := s.setFld DB_STATUS.ACCERR 0 1

/-- The engine of a debug target (Table DB-2): 0 the Heartwood's HA, 1 the Root engine, 2 to 7 the Sapwood engines. -/
def tgtEngine (t : Nat) : Nat := if t = 0 then 0 else if t = 1 then 9 else t + 1

/-- The engines that a command to a target reaches: every voting core for the Heartwood, HA and HB in split mode (10 R421, R428). -/
def State.tgtEngines (s : State) (t : Nat) : List Nat :=
  if t = 0 then (if s.isSplit then [0, 1] else s.voting) else [tgtEngine t]

/-- Target `t` is halted. -/
def State.halted (s : State) (t : Nat) : Bool := (s.eng (tgtEngine t)).run == .halted

/-- DB_STATUS.HALTED (Table DB-2). -/
def State.haltedBits (s : State) : Nat := ((List.range 8).map (fun t => bit (s.halted t) * 2 ^ t)).foldl (· + ·) 0

/-- A BRK halts the engine at its own index (09 R363, 10 R430). -/
def brkHalt (e : Eng) (s : State) : State := (haltEngine e.idx s).setFld DB_STATUS.BRK 0 1

/-- HALT of the target (R585): a debug halt signal to the voting cores, a halt of any other engine at its instruction boundary. -/
def debugHalt (t : Nat) (s : State) : State :=
  if 8 ≤ t then accErr s
  else if t = 0 && !s.isSplit then s.toHeart .halt
  else forEach (s.tgtEngines t) haltEngine s

/-- A halted engine goes on, no longer single-stepping: one that was waiting in WAIT waits again. -/
def resumeEngine (i : Nat) (s : State) : State :=
  if (s.eng i).run == .halted then
    let p := s.heart.parked.contains i
    let s := s.modHeart (fun h =>
      { h with parked := h.parked.filter (fun x => x != i), stepping := h.stepping.filter (fun x => x != i) })
    s.modEng i (fun e => { e with run := if p then .waiting else .running })
  else s

/-- The merged boundary mark is delivered at the first instruction boundary after the resume (10 R430). -/
def resumeMark (s : State) : State :=
  if s.heart.merged then
    let d := s.maxRetire
    let s := s.modHeart (fun h => { h with merged := false })
    forEach s.voting (fun c => State.modCore c (fun k => { k with sigs := k.sigs ++ [(.mark, d)] })) s
  else s

/-- RESUME of the target. -/
def debugResume (t : Nat) (s : State) : State :=
  if 8 ≤ t then accErr s
  else
    let was := (s.tgtEngines t).any (fun i => (s.eng i).run == .halted)
    let s := forEach (s.tgtEngines t) resumeEngine s
    onlyIf (t == 0 && was) resumeMark s

/-- STEP of the target (10 R430): each of its halted engines retires one instruction and halts again. -/
def debugStep (t : Nat) (s : State) : State :=
  if 8 ≤ t then accErr s
  else
    let l := (s.tgtEngines t).filter (fun i => (s.eng i).run == .halted)
    let s := debugResume t s
    s.modHeart (fun h => { h with stepping := h.stepping ++ l.filter (fun i => !h.stepping.contains i) })

/-! ### The target's RAM (R585, 10 R429) -/

/-- The words of the target's Heartwood RAM or engine-local RAM: its memory space, when the address lies in it. -/
def tgtKey (t a : Nat) : Option Nat :=
  let ok := if t = 0 then decide (0x10000000 ≤ a) && decide (a < 0x10100000)
    else if t = 1 then decide (0x40000000 ≤ a) && decide (a < 0x40010000)
    else decide (0x40000000 ≤ a) && decide (a < 0x40020000)
  if ok && a % 4 = 0 && t < 8 then some (memKey (1 + tgtEngine t) a) else none

/-- The debugger reaches the target: HA only while it is in RUN (10 R429); not while its input is masked (Table MI-4). -/
def State.reachable (s : State) (t : Nat) : Bool := (t != 0 || s.coreState 0 == 0) && !s.masked .dbg

/-- DB_ADDR moves on. -/
def nextAddr (s : State) : State := s.setFld DB_ADDR.ADDR 0 (s.fld DB_ADDR.ADDR + 4)

/-- The ranges of the shared map that Table AR-6 lets the debugger read: all but the register pages, which it reads as registers,
and the private memories, which it reads as its target's. -/
def dbgReads (r : Region) : Bool :=
  match r with
  | .flash | .shared | .canopy | .mirrorSrc | .bobbin | .diag => true
  | _ => false

/-- The memory word that DB_DATA names, where there is one the debugger may read: in the target's own memory (R585), else in the
address map that it shares with the engines (01 R36, Table AR-6; that DB_DATA is its way there is DEDUCED, assumption 153). -/
def State.dataKey (s : State) : Option Nat :=
  let t := s.fld DB_TGT.TGT
  let a := s.fld DB_ADDR.ADDR
  match tgtKey t a with
  | some k => if s.reachable t then some k else none
  | none => if t < 8 && a % 4 == 0 && dbgReads (regionOf a) && !s.masked .dbg then some a else none

/-- A read of DB_DATA by the debugger. A read that fails delivers the word delivered last (DESIGN CHOICE, assumption 75). -/
def dbDataRead (s : State) : Nat × State :=
  let old := s.fld DB_DATA.DATA
  match s.dataKey with
  | none => (old, accErr s)
  | some k =>
    if !s.debugOn then (old, accErr s)
    else
      let r := s.readBlock (s.input .dbg) k
      if r.1 then let v := r.2.rdW k; (v, nextAddr (r.2.setFld DB_DATA.DATA 0 v)) else (old, accErr r.2)

/-- A word written at key `k` of a private memory: refused where its block is uncorrectable (11 R435, R436). -/
def pokeWord (k v : Nat) (s : State) : State :=
  let r := s.mergeBlock (s.input .dbg) k
  if r.1 then r.2.wrW k v else accErr r.2

/-- A write of the debugger that reaches no memory of its target (01 R43, R44): into a range it may only read it has no effect and is
counted as rejected; it faults elsewhere, flash with it (01 R41). The access-error status is set either way. -/
def dbgStray (a : Nat) (s : State) : State :=
  let r := regionOf a
  accErr (onlyIf (dbgReads r && r != .flash && !s.masked .dbg) (State.reject .dbg) s)

/-- A write of DB_DATA by the debugger: replayed into every other voting core for HA's RAM (10 R429), where cores vote; words of the chunk buffer
for target 8. -/
def dbDataWrite (v : Nat) (s : State) : State :=
  let t := s.fld DB_TGT.TGT
  let s' := s.setFld DB_DATA.DATA 0 v
  if t = 8 then
    if s.isSet RB_BOOT.FAIL then { nextAddr s' with commit := { s.commit with buf := s.commit.buf ++ [v] } } else accErr s
  else match tgtKey t (s.fld DB_ADDR.ADDR) with
    | none => dbgStray (s.fld DB_ADDR.ADDR) s
    | some k =>
      if !s.reachable t then accErr s
      else
        let cores := if t = 0 && !s.isSplit then s.voting.filter (fun c => c != 0) else []
        nextAddr (forEach cores (fun c => pokeWord (memKey (1 + c) (s.fld DB_ADDR.ADDR)) v) (pokeWord k v s'))

/-! ### The target's registers (R585) -/

/-- Register `n` of an engine as DB_REGSEL numbers it. -/
def Engine.regOf (x : Engine) (n : Nat) : Nat :=
  match n with
  | 16 => x.pc.toNat
  | 17 => x.flg.toNat
  | 18 => x.code.toNat + 256 * x.detail.toNat + 65536 * x.pend.toNat
  | 19 => (evpBits x.evp).toNat
  | _ => (x.w.toList[n]?.map BitVec.toNat).getD 0

/-- Register `n` of an engine takes `v`; FLG's reserved bits and EVP's low bits stay 0. An engine given another PC stands between
instructions. -/
def Engine.putReg (n v : Nat) (x : Engine) : Engine :=
  let w := BitVec.ofNat 32 v
  match n with
  | 16 => { x with pc := w, midway := false }
  | 17 => { x with flg := flgWritable w }
  | 18 => { x with code := BitVec.ofNat 8 v, detail := BitVec.ofNat 8 (v / 256), pend := BitVec.ofNat 16 (v / 65536) }
  | 19 => { x with evp := evpBits w }
  | _ => { x with w := x.w.set (Fin.ofNat 16 n) w }

/-- The debugger reaches the registers of a halted target. -/
def State.regsOpen (s : State) (t : Nat) : Bool := s.debugOn && decide (t < 8) && s.halted t && s.reachable t

/-- A read of DB_REGDATA by the debugger. -/
def dbRegRead (s : State) : Nat × State :=
  let t := s.fld DB_TGT.TGT
  if s.regsOpen t then
    let v := (s.eng (tgtEngine t)).regOf (s.fld DB_REGSEL.REG)
    (v, s.setFld DB_REGDATA.DATA 0 v)
  else (s.fld DB_REGDATA.DATA, accErr s)

/-- A write of DB_REGDATA by the debugger: replayed into every other voting core for HA (10 R429). -/
def dbRegWrite (v : Nat) (s : State) : State :=
  let t := s.fld DB_TGT.TGT
  if s.regsOpen t then
    let n := s.fld DB_REGSEL.REG
    let l := if t = 0 then (if s.isSplit then [0] else s.voting) else [tgtEngine t]
    (forEach l (fun i => State.modEng i (Engine.putReg n v)) s).setFld DB_REGDATA.DATA 0 v
  else accErr s

/-! ### The trace dump (R586) -/

/-- TRMAX of the booted image, the least of its span where the bank holds none (assumption 3). -/
def State.trMax (s : State) : Nat := if s.rdW s.bankBase = 0x7A110256 then s.rd (s.bankBase + 0x4C) 2 else 64

/-- A write of DB_TRCFG. -/
def dbTrcfg (v : Nat) (s : State) : State :=
  let d := DB_TRCFG.DEPTH.of v
  if 64 ≤ d ∧ d ≤ s.trMax then writeFields .dbg DB_TRCFG.fields 0 v s else accErr s

/-- The trace dump ends (R586): the newest DEPTH entries, the oldest of them first, stand at TRBASE, each a whole block (11 R435). Outside its buffer the trace
unit writes nothing and the dump fails (01 R45, assumption 76). -/
def dumpTrace (s : State) : State :=
  let base := s.rdW (s.bankBase + 0x44)
  let len := s.rdW (s.bankBase + 0x48)
  let d := s.fld DB_TRCFG.DEPTH
  let n := Tab.get 0 s.logs 3
  let s := s.setFld DB_TRDUMP.BUSY 0 0
  if s.rdW s.bankBase = 0x7A110256 && decide (16 * d ≤ len) && inShared base (16 * d) then
    forEach (List.range d) (fun j t => putBlock (base + 16 * j) (t.rd (0x38004000 + (n + 1024 - d + j) % 1024 * 16) 16) t) s
  else accErr s

/-- TRACE_DUMP_COMPLETE (R586). -/
def execTraceDumpComplete (s : State) : Host.Outcome State Fault Refusal :=
  if s.isSet DB_TRDUMP.BUSY then .next (dumpTrace s) else .next s

/-! ### Register writes (R584, R588) -/

/-- A write of a DB register by the debugger, but for DB_CTRL, by page offset. -/
def dbWrite (a v : Nat) (s : State) : State :=
  if !s.debugOn then accErr s
  else if a = DB_TGT.addr then
    let t := DB_TGT.TGT.of v
    if t < 8 || (t == 8 && s.isSet RB_BOOT.FAIL) then s.setFld DB_TGT.TGT 0 t else accErr s
  else if a = DB_DATA.addr then dbDataWrite v s
  else if a = DB_REGSEL.addr then
    if DB_REGSEL.REG.of v < 20 then s.setFld DB_REGSEL.REG 0 (DB_REGSEL.REG.of v) else accErr s
  else if a = DB_REGDATA.addr then dbRegWrite v s
  else if a = DB_TRCFG.addr then dbTrcfg v s
  else if a = DB_TRDUMP.addr then (if v.testBit 0 then s.setFld DB_TRDUMP.BUSY 0 1 else s)
  else if a = DB_STATUS.addr then writeFields .dbg DB_STATUS.fields 0 v s
  else writeFields .dbg DB_ADDR.fields 0 v s

/-- The three orders of DB_CTRL, in the order of their bits. -/
def dbOrders (v : Nat) (s : State) : State :=
  let t := s.fld DB_TGT.TGT
  onlyIf (v.testBit 2) (debugStep t) (onlyIf (v.testBit 1) (debugResume t) (onlyIf (v.testBit 0) (debugHalt t) s))

end Sys2Proof.Machine
end

