-- ==== Sys2Proof/Machine/Wheel.lean ====
section
/-! DEFINITION. The commands of the wheel detection (03 R113 to R161, R611, R612): comparator changes and baselines, passage
flags, claims, orphans, proofs, head configuration. -/

namespace Sys2Proof.Machine

/-! ### Comparators (R142 to R145) -/

/-- The deviation of an envelope in 1/256 of a DATA step from the tracked baseline, in 2^-24 steps, positive for a wheel (R143). -/
def State.cmpDev (s : State) (i env : Nat) : Int :=
  let b : Int := ((s.sys i).fine : Nat)
  let e : Int := ((env * 65536 : Nat) : Int)
  if s.isSet WD_CMPCFG.POL i then e - b else b - e

/-- The state that an envelope gives a comparator (R143, Table WD-10): present from PRES times 0.05 % of the baseline, absent below ABS times
0.05 %, unchanged between. -/
def State.cmpVerdict (s : State) (i env : Nat) : Nat :=
  let d := s.cmpDev i env
  let b := (s.sys i).fine
  if ((s.fld WD_CMPCFG.PRES i * b : Nat) : Int) ≤ d * 2000 then 1
  else if d * 2000 < ((s.fld WD_CMPCFG.ABS i * b : Nat) : Int) then 0
  else s.cmp i

/-- COMPARATOR_EDGE (R143, R149): the envelope of system `i` has moved to `env`, in 1/256 of a DATA step of range 0. It changes the
state of a comparator that has acquired its baseline and is neither masked nor not running. -/
def execComparatorEdge (i : Fin 64) (env : BitVec 24) (s : State) : Host.Outcome State Fault Refusal :=
  let i := i.val
  if s.isSet WD_CMPST.ACQ i && decide (s.cmp i < 3) then .next (setCmp i (s.cmpVerdict i env.toNat) s) else .next s

/-- The tracked baseline of system `i` becomes `f`, in 2^-24 of a DATA step; BASE shows whole steps (Table WD-23). -/
def setBase (i f : Nat) (s : State) : State :=
  (s.setFld WD_CMPST.BASE i (f / 2 ^ 24)).modSys i (fun x => { x with fine := f })

/-- BASELINE_ACQUISITION (R144): the 50 ms of an acquisition are over with baseline `base`: taken within BASEREF ± BASETOL,
else discarded, to be tried again in 1 s. -/
def execBaselineAcquisition (i : Fin 64) (base : BitVec 16) (s : State) : Host.Outcome State Fault Refusal :=
  let i := i.val
  match (s.sys i).acqAt with
  | none => .next s
  | some t =>
    let s := s.advanceTo (t + 6250000)
    if s.baseOk i base.toNat then
      let s := (setBase i (base.toNat * 2 ^ 24) s).setFld WD_CMPST.ACQ i 1
      .next (s.modSys i (fun x => { x with acqAt := none }))
    else
      let s := s.modSys i (fun x => { x with acqAt := none, retryAt := some (t + 125000000) })
      .next (s.flag WD_STATUS.BASEERR evWD)

/-- BASELINE_RETRY (R144): the comparator whose baseline was discarded tries again, 1 s after the try before. -/
def execBaselineRetry (i : Fin 64) (s : State) : Host.Outcome State Fault Refusal :=
  let i := i.val
  match (s.sys i).retryAt with
  | none => .next s
  | some t =>
    let s := s.advanceTo t
    .next (s.modSys i (fun x => { x with acqAt := some s.tb, retryAt := none }))

/-- The baseline of system `i` may track (R145, R146): acquired, absent, and the head's window closed. -/
def State.tracks (s : State) (i : Nat) : Bool := s.isSet WD_CMPST.ACQ i && s.cmp i == 0 && !s.isOpen (i / 2)

/-- BASEREF plus or minus BASETOL in 0.5 % of it (R145), in 2^-24 of a DATA step, rounded towards BASEREF. -/
def State.baseLimit (s : State) (i : Nat) (high : Bool) : Nat :=
  let r := s.fld WD_BASE.BASEREF i * 2 ^ 24
  let d := r * s.fld WD_BASE.BASETOL i / 200
  if high then r + d else r - d

/-- The baseline of system `i` moves to `f`, held at the limits of R145: reaching one sets BASEERR. -/
def moveBase (i f : Nat) (s : State) : State :=
  let lo := s.baseLimit i false
  let hi := s.baseLimit i true
  let new := max lo (min hi f)
  let meets := (new == lo || new == hi) && new != (s.sys i).fine
  onlyIf meets (State.flag WD_STATUS.BASEERR evWD) (setBase i new s)

/-- BASELINE_LIMIT (R145): tracking reaches a limit; the baseline holds there and BASEERR is set. -/
def execBaselineLimit (i : Fin 64) (high : Bool) (s : State) : Host.Outcome State Fault Refusal :=
  let i := i.val
  if s.tracks i then
    .next ((setBase i (s.baseLimit i high) s).flag WD_STATUS.BASEERR evWD)
  else .next s

/-! ### Passage flags (R127, R163) -/

/-- The heads whose primary is the requester. -/
def State.primaryOf (s : State) (q : Req) : List Nat :=
  match q with
  | .se k => (List.range 32).filter (fun h => s.fld GR_HPLACE.PRIM h == k.val)
  | _ => []

/-- A write of WD_PASSSET or WD_PASSCLR (R163): bits of other engines' heads have no effect and are counted once. -/
def wdPass (q : Req) (set : Bool) (v : Nat) (s : State) : State :=
  let mine := s.primaryOf q
  let heads := (List.range 32).filter (fun h => v.testBit h)
  let t := forEach (heads.filter (fun h => mine.contains h)) (fun h => State.putFbit WD_PASS.PASS 0 h set) s
  if heads.all (fun h => mine.contains h) then t else (t.reject q).flag WD_STATUS.PASSREJ evWD

/-- PASSSET (R163). -/
def execPassset (q : Req) (v : Word) (s : State) : Host.Outcome State Fault Refusal :=
  asReq q s <| .next (wdPass q true v.toNat s)

/-- PASSCLR (R163). -/
def execPassclr (q : Req) (v : Word) (s : State) : Host.Outcome State Fault Refusal :=
  asReq q s <| .next (wdPass q false v.toNat s)

/-! ### Claims (R152 to R156) -/

/-- WD_CLAIMRES after a claim (Table WD-17). -/
def claimRes (k code dir : Nat) (s : State) : State :=
  ((s.setFld WD_CLAIMRES.CODE 0 code).setFld WD_CLAIMRES.RDIR 0 dir).setFld WD_CLAIMRES.HEAD 0 k

/-- A claim's result given at once. -/
def giveClaim (k code dir dur : Nat) (s : State) : State := claimRes k code dir (finalClaim k code dir dur s)

/-- A write of WD_CLAIM (R152, Table WD-11). -/
def wdClaim (q : Req) (v : Nat) (s : State) : State :=
  if !q.voted then s.reject q
  else
    let k := WD_CLAIM.HEAD.of v
    let d := WD_CLAIM.DIR.of v
    let h := s.head k
    if d = 0 || h.claim.isSome then s.flag WD_STATUS.CLAIMERR evWD
    else if !s.isSet WD_HCFG.HEN k then giveClaim k 5 0 0 s
    else
      let t := s.fld WD_CLAIMT.TIME
      match h.queue.find? (fun r => s.inTolerance t r) with
      | some r =>
        let s := s.modHead k (fun x => { x with queue := x.queue.erase r })
        giveClaim k (claimCode d r) r.dir r.dur s
      | none =>
        if h.phase = 0 then giveClaim k 2 0 0 s
        else
          let s := s.modHead k (fun x => { x with claim := some { time := t, dir := d, since := s.tb } })
          claimRes k 4 0 (s.setFld WD_HCLM.HELD k 1)

/-- CLAIM (R152). -/
def execClaim (q : Req) (v : Word) (s : State) : Host.Outcome State Fault Refusal :=
  asReq q s <| .next (wdClaim q v.toNat s)

/-- WD_CTRL.AGE in TU. -/
def State.ageTu (s : State) : Nat := s.fld WD_CTRL.AGE * 125000

/-- CLAIM_TIMEOUT (R153): a claim of head `k` pending for AGE ms is resolved as NOMATCH. -/
def execClaimTimeout (k : Fin 32) (s : State) : Host.Outcome State Fault Refusal :=
  match (s.head k.val).claim with
  | none => .next s
  | some c => .next (resolveClaim k.val 2 0 0 (s.advanceTo (c.since + s.ageTu)))

/-- ORPHAN (R154): the oldest record of head `k` has stayed unclaimed for AGE ms after its last edge. -/
def execOrphan (k : Fin 32) (s : State) : Host.Outcome State Fault Refusal :=
  match (s.head k.val).queue with
  | [] => .next s
  | r :: rest =>
    let s := s.advanceTo (r.last + s.ageTu)
    .next (orphan k.val r (s.modHead k.val (fun h => { h with queue := rest })))

/-! ### Proofs (R157 to R159, R611) -/

/-- Eight times a system's word period in TU (02 R55). -/
def State.period8 (s : State) (i : Nat) : Nat := 15625 * (s.rate i).1

/-- The three tests of R157 on an injection that has run with its tail: present within 4 words of its start, absent within 8
words of its end, and no other change. -/
def State.injectionOk (s : State) (i : Nat) (j : Injection) : Bool :=
  match j.edges with
  | [(t1, 1), (t2, 0)] =>
    decide ((t1 - j.start) * 8 ≤ 4 * s.period8 i) && decide (j.stop ≤ t2) && decide ((t2 - j.stop) * 8 ≤ 8 * s.period8 i)
  | _ => false

/-- The verdict on an injected system in WD_PROOF.PA or PB. -/
def proofField (i : Nat) : Field := if i % 2 = 0 then WD_PROOF.PA else WD_PROOF.PB

/-- A proof of head `k` fails. -/
def proofFail (k : Nat) (s : State) : State := (s.setFld WD_PROOF.FAIL k 1).flag WD_STATUS.PROOFFAIL evWD

/-- The oldest round of head `k` whose injections have run with their tails. -/
def State.roundOver (s : State) (k : Nat) : Option (Nat × List Nat) :=
  (s.head k).rounds.find? (fun r => r.2.all (fun i => !(s.sys i).inTest))

/-- The verdict of a round of head `k` (R157). -/
def judgeRound (k : Nat) (q : Nat × List Nat) (s : State) : State :=
  let r := q.2
  let ok (i : Nat) : Bool := match (s.sys i).inj with
    | some j => s.injectionOk i j
    | none => false
  let t := forEach r (fun i => State.setFld (proofField i) k (bit (ok i))) s
  let t := forEach r (fun i => State.modSys i (fun x => { x with inj := none })) t
  let t := t.modHead k (fun h => { h with rounds := h.rounds.erase q })
  if r.all ok then (if r.length = 2 then t.setFld WD_PROOF.CPEND k 1 else t) else proofFail k t

/-- COMPARATOR_PROOF (R157): a round of head `k` ends. -/
def execComparatorProof (k : Fin 32) (s : State) : Host.Outcome State Fault Refusal :=
  match s.roundOver k.val with
  | some q => .next (judgeRound k.val q s)
  | none => .next s

/-- A write of WD_PROOFENG (R611). A pass written while CPEND is 0 has no effect the rule gives, and leaves EP as it is (DESIGN CHOICE,
assumption 137). -/
def wdProofEng (q : Req) (v : Nat) (s : State) : State :=
  if !q.voted then s.reject q
  else
    let k := WD_PROOFENG.HEAD.of v
    if WD_PROOFENG.PASS.of v = 1 then
      if s.isSet WD_PROOF.CPEND k then
        let s := (s.setFld WD_PROOF.AGE k 0).setFld WD_PROOF.EP k 1
        let s := (s.setFld WD_PROOF.CPEND k 0).putFbit WD_PSTALE.STALE 0 k false
        s.modHead k (fun h => { h with proofAt := s.tb })
      else s
    else proofFail k ((s.setFld WD_PROOF.EP k 0).setFld WD_PROOF.CPEND k 0)

/-- PROOFENG (R611): the engine verdict of a round. -/
def execProofeng (q : Req) (v : Word) (s : State) : Host.Outcome State Fault Refusal :=
  asReq q s <| .next (wdProofEng q v.toNat s)

/-- WD_PROOF.AGE of head `k` in minutes since the last passed round, at the time base's reading (Table WD-26). -/
def State.proofAge (s : State) (k : Nat) : Nat :=
  if s.fld WD_PROOF.AGE k = 0xFFFF then 0xFFFF else min 0xFFFF ((s.tb - (s.head k).proofAt) / 7500000000)

/-- PROOF_STALE (R159): the proof of a head in use is older than PROOFMAX hours. Where the head has been proved, time passes
until its age is PROOFMAX hours and one minute. -/
def execProofStale (k : Fin 32) (s : State) : Host.Outcome State Fault Refusal :=
  let k := k.val
  if !s.isSet WD_HCFG.HEN k || s.fbit WD_PSTALE.STALE k then .next s
  else
    let lim := s.fld WD_CTRL.PROOFMAX * 60 + 1
    let s := if s.fld WD_PROOF.AGE k = 0xFFFF then s
      else (s.advanceTo ((s.head k).proofAt + lim * 7500000000)).setFld WD_PROOF.AGE k lim
    .next ((s.putFbit WD_PSTALE.STALE 0 k true).flag WD_STATUS.PROOFSTALE evWD)

/-! ### Configuration (R143, R161, Tables WD-13, WD-23, WD-24) -/

/-- A write of WD_CTRL: TOLMIN 1 to 255, AGE 2 to 15, PROOFMAX 1 to 48. -/
def wdCtrl (q : Req) (v : Nat) (s : State) : State :=
  let p := WD_CTRL.PROOFMAX.of v
  if q.voted && (WD_CTRL.TOLMIN.of v == 0 || decide (WD_CTRL.AGE.of v < 2) || p == 0 || decide (48 < p)) then
    s.flag WD_STATUS.CFGERR evWD
  else writeFields q WD_CTRL.fields 0 v s

/-- A write of WD_CMPCFG: ABS below PRES (R143). -/
def wdCmpCfg (q : Req) (i v : Nat) (s : State) : State :=
  if q.voted && decide (WD_CMPCFG.PRES.of v ≤ WD_CMPCFG.ABS.of v) then s.flag WD_STATUS.CFGERR evWD
  else writeFields q WD_CMPCFG.fields i v s

/-- The limits of the engine's tracked baseline in DATA steps: BASEREF ± BASETOL (R119), rounded towards BASEREF. -/
def State.detLimit (s : State) (i : Nat) (high : Bool) : Nat :=
  let r := s.fld WD_BASE.BASEREF i
  let d := r * s.fld WD_BASE.BASETOL i / 200
  if high then r + d else r - d

/-- The tracked baseline that the program on engine `e` holds for system `i` is held within the limits in force (R119). -/
def clampDet (i e : Nat) (s : State) : State :=
  let d := s.det e (i / 2)
  let hold (x : SysDet) : SysDet := { x with base := max (s.detLimit i false) (min (s.detLimit i true) x.base) }
  if !d.started then s
  else s.setDet e (i / 2) (if i % 2 = 0 then { d with a := hold d.a } else { d with b := hold d.b })

/-- A write of WD_BASE: BASETOL 1 to 40. An acquired baseline that the new limits leave outside moves to the limit (R145: it never leaves
BASEREF ± BASETOL), and so does each engine's tracked baseline (R119). -/
def wdBase (q : Req) (i v : Nat) (s : State) : State :=
  let t := WD_BASE.BASETOL.of v
  if q.voted && (t == 0 || decide (40 < t)) then s.flag WD_STATUS.CFGERR evWD
  else
    let s := writeFields q WD_BASE.fields i v s
    let s := onlyIf q.voted (forEach (List.range 6) (clampDet i)) s
    if q.voted && s.isSet WD_CMPST.ACQ i then moveBase i (s.sys i).fine s else s

/-- A WD_HCFG value takes effect (R161): a change of HEN resets the head, and resolves a pending claim as NOTLOCAL or
NOMATCH. -/
def applyHcfg (k v : Nat) (s : State) : State :=
  let hen := WD_HCFG.HEN.of v
  let change := s.fld WD_HCFG.HEN k != hen
  let s := (s.setFld WD_HCFG.POINT k (WD_HCFG.POINT.of v)).setFld WD_HCFG.HEN k hen
  let s := (s.setFld WD_HCFG.HOLDW k (WD_HCFG.HOLDW.of v)).setFld WD_HCFG.SPACING k (WD_HCFG.SPACING.of v)
  let s := s.modHead k (fun h => { h with cfg := none })
  onlyIf change (resetHead k (if hen = 0 then 5 else 2)) s

/-- A write of WD_HCFG: HOLDW 0 to 8 and SPACING 20 to 255, else CFGERR; with HEN or POINT changed it is held for a grid
instant with the window closed (R161). -/
def wdHcfg (q : Req) (k v : Nat) (s : State) : State :=
  if !q.voted then writeFields q WD_HCFG.fields k v s
  else if decide (8 < WD_HCFG.HOLDW.of v) || decide (WD_HCFG.SPACING.of v < 20) then s.flag WD_STATUS.CFGERR evWD
  else if s.fld WD_HCFG.HEN k = WD_HCFG.HEN.of v && s.fld WD_HCFG.POINT k == WD_HCFG.POINT.of v then applyHcfg k v s
  else s.modHead k (fun h => { h with cfg := some v })

/-- HCFG_WRITE (R161): a write of WD_HCFG of head `k`. -/
def execHcfgWrite (q : Req) (k : Fin 32) (v : Word) (s : State) : Host.Outcome State Fault Refusal :=
  asReq q s <|
  .next (wdHcfg q k.val v.toNat s)

end Sys2Proof.Machine
end

