-- ==== Sys2Proof/Machine/Detect.lean ====
section
/-! DEFINITION. The detection program of the Sapwood engines (03 R115 to R140, R158) and the Heartwood's verdict on its test events
(R611). It runs at each grid instant, after the words of the instant are delivered, for every head in use whose tables the image
names, on each engine placed on the head (assumptions 142 to 146). -/

namespace Sys2Proof.Machine

/-! ### Tables (R115 to R117, Tables WD-2, WD-3, WD-5) -/

/-- The tables of a head: where its template, linearisation and phase table stand. -/
structure DetTables where
  tpl : Nat
  lin : Nat
  pha : Nat

/-- The tables that the image names for head `k`. -/
def State.detTables (s : State) (k : Nat) : Option DetTables :=
  match s.table 1 k, s.table 2 k, s.table 3 k with
  | some a, some b, some c => some ⟨a, b, c⟩
  | _, _, _ => none

/-- Y[i] of the linearisation table at `a`. -/
def State.linY (s : State) (a i : Nat) : Int := sgn 16 (s.rd (a + 8 + 2 * i) 2)

/-- The linearised value of a deviation in 1/64 of a DATA step from a baseline in DATA steps (R116): interpolated between the points of the
table at `a`, rounded down; the last value above XMAX, 0 below 0. -/
def State.linearise (s : State) (a : Nat) (dev : Int) (base : Nat) : Int :=
  let n := s.rd (a + 4) 2
  let num := 10000 * dev.toNat * (n - 1)
  let den := base * 64 * s.rd (a + 6) 2
  if dev ≤ 0 || den = 0 then 0
  else
    let i := num / den
    if n - 1 ≤ i then s.linY a (n - 1)
    else s.linY a i + (s.linY a (i + 1) - s.linY a i) * ((num % den : Nat) : Int) / ((den : Nat) : Int)

/-- A deviation reaches a threshold in 0.01 % of the baseline. -/
def reaches (dev : Int) (base thr : Nat) : Bool := decide (((thr * base * 64 : Nat) : Int) ≤ 10000 * dev)

/-! ### One word of one system (R119 to R121, R158) -/

/-- The deviation of a word's DATA from a baseline, in 1/64 of a DATA step of range 0, positive for a wheel (R119). The word is rescaled to
range 0 by its tag (R75); one with HOLD keeps the scale of full excitation already (02 R69). -/
def State.deviation (s : State) (i w base : Nat) : Int :=
  let env := sgn 16 (w % 65536) * (4 : Int) ^ (3 - bitsOf w 16 2)
  let b : Int := ((base * 64 : Nat) : Int)
  if s.isSet WD_CMPCFG.POL i then env - b else b - env

/-- The tracked baseline sits at a limit: the level is present (R119). -/
def State.atLimit (s : State) (i base : Nat) : Bool :=
  decide (base ≤ s.detLimit i false) || decide (s.detLimit i true ≤ base)

/-- The level that a word which is not blind gives (R119, R120): present from PRESE or with the baseline at a limit, absent below ABSE,
unchanged between, a blind level too. -/
def State.levelOf (s : State) (tb : DetTables) (i : Nat) (dev : Int) (d : SysDet) : Nat :=
  if s.atLimit i d.base || reaches dev d.base (s.rd (tb.tpl + 0x0C) 2) then 1
  else if !reaches dev d.base (s.rd (tb.tpl + 0x0E) 2) then 0
  else d.level

/-- The peak after a word at level `lv` (R121): a present interval begins anew, a larger word takes its place, and the word after the largest
is its right neighbour. Which neighbours the parabola takes where a word beside the largest is blind or left out for a test is not
stated: the nearest words that are neither (DESIGN CHOICE, assumption 167). -/
def nextPeak (d : SysDet) (lv : Nat) (x : DWord) : Option Peak :=
  let prev := d.words.head?
  if lv = 1 && (d.level != 1 || d.peak.isNone) then some { top := x, prev := prev, next := none }
  else match d.peak with
    | none => none
    | some p =>
      if lv = 1 && decide (p.top.dev < x.dev) then some { top := x, prev := prev, next := none }
      else if d.words.head? = some p.top && p.next.isNone then some { p with next := some x }
      else some p

/-- A word with TEST (R120, R158): level, phase and baseline stay; the deviation is measured. -/
def State.testWord (s : State) (i w : Nat) (d : SysDet) : SysDet :=
  let p := match (s.sys i).inj with | some j => (j.mark, j.start) | none => (0, s.nowTu)
  let dev := if w.testBit 18 then 0 else max 0 (s.deviation i w d.base)
  let new : TestSt := { mark := p.1, start := p.2, epoch := s.time.epoch, dev := dev }
  let t := match d.test with
    | some x => if x.mark = p.1 then { x with dev := max x.dev dev } else new
    | none => new
  { d with skip := 8, left := true, test := some t }

/-- The detection program takes word `w` of system `i` (R119, R120): words with TEST and the eight that follow are left out; a blind word
leaves the level for up to HOLDW words and then makes it blind; any other gives the level. A level that is present because the baseline sits
at a limit (R119) becomes blind in the same way: the spec does not say which of the two rules wins (DESIGN CHOICE, assumption 168). -/
def State.takeWord (s : State) (tb : DetTables) (i w : Nat) (d : SysDet) : SysDet :=
  if w.testBit 19 then s.testWord i w d
  else if d.skip ≠ 0 then { d with skip := d.skip - 1, left := true }
  else
    let d := { d with left := false, mux := d.mux || w.testBit 20, hold := d.hold || w.testBit 23 }
    if w.testBit 18 then
      let d := { d with held := d.held + 1, dark := true }
      if d.held ≤ s.fld WD_HCFG.HOLDW (i / 2) then d
      else { d with level := 2, moved := d.moved || d.level != 2 }
    else
      let dev := s.deviation i w d.base
      let x : DWord := { time := s.nowTu, epoch := s.time.epoch, delay := s.delay8 i, dev := dev, y := s.linearise tb.lin dev d.base }
      let lv := s.levelOf tb i dev d
      { d with held := 0, level := lv, moved := d.moved || lv != d.level, peak := nextPeak d lv x, words := x :: d.words }

/-! ### The phase machine (R127 to R131) -/

/-- The pair of head `k` is evaluated at grid instant `n` (R131): at the words of the slower system; with equal rates at every instant at which
either delivers. -/
def State.evalDue (s : State) (k n : Nat) : Bool :=
  let p := (s.rate (2 * k)).1
  let q := (s.rate (2 * k + 1)).1
  let a := s.isWord (2 * k) n
  let b := s.isWord (2 * k + 1) n
  if p = q then a || b else if p < q then b else a

/-- The phase-table entry of a phase and input code: next phase, EMIT, ROCK (Table WD-6). -/
def State.phaseEntry (s : State) (a p c : Nat) : Nat × Nat × Bool :=
  let e := s.rd (a + 8 + 9 * p + c) 1
  (e % 16, e / 16 % 4, e.testBit 6)

/-- The marks since the last evaluation are over; in idle a peak lasts only while its system is present, and the words are kept from the
latest on. -/
def SysDet.settle (idle : Bool) (d : SysDet) : SysDet :=
  let d := { d with dark := false, mux := false, hold := false, moved := false }
  if idle then
    { d with peak := if d.level = 1 then d.peak else none, words := d.words.take 1 }
  else d

/-- The phase machine takes the pair of levels (R127 to R130): the program's state with the marks of the passage, the transition's
EMIT, and the state after it. The wheel carries HALF when a word of the passage was blind, a level was blind in it, or its two
systems changed level together (R120, R130). The spec does not say whether a blind word of the faster system since the evaluation before
the phase leaves 0 is a held word of the passage: it is (DESIGN CHOICE, assumption 169). -/
def State.takePair (s : State) (tb : DetTables) (d : DetSt) : DetSt × Nat × DetSt :=
  let x := s.phaseEntry tb.pha d.phase (d.a.level + 3 * d.b.level)
  let begins := d.phase == 0
  let lost (y : SysDet) : Bool := (!begins && y.lost) || y.level == 2
  let half := d.a.dark || d.b.dark || (d.a.moved && d.b.moved) || lost d.a || lost d.b
  let m := { d with a := { d.a with lost := lost d.a }, b := { d.b with lost := lost d.b }, since := if begins then s.tb else d.since,
                    half := (!begins && d.half) || half, mux := (!begins && d.mux) || d.a.mux || d.b.mux,
                    hold := (!begins && d.hold) || d.a.hold || d.b.hold, rock := (!begins && d.rock) || x.2.2 }
  (m, x.2.1, { m with phase := x.1, a := m.a.settle (x.1 == 0), b := m.b.settle (x.1 == 0) })

/-! ### The values of a wheel (R121 to R124) -/

/-- The steps of network time since epoch `e`, by the list of epoch changes, newest first. -/
def stepsSince (e : Nat) : List (Nat × Nat × Int) → Int
  | [] => 0
  | x :: l => if x.1 = e then x.2.2 else x.2.2 + stepsSince e l

/-- The network time `t` of epoch `e` in the time of the epoch in force: the steps of every change since are added (R137). -/
def State.inForce (s : State) (t : Int) (e : Nat) : Int :=
  if e = s.time.epoch then t else t + stepsSince e s.time.changes

/-- The epoch that an instant in the time of epoch `e` falls into, and the instant in the time of that epoch: before a change the epoch before
it ran (R122). -/
def epochOf : List (Nat × Nat × Int) → Int → Nat → Int × Nat
  | [], t, e => (t, e)
  | x :: l, t, e => if t < ((x.2.1 : Nat) : Int) then epochOf l (t - x.2.2) x.1 else (t, e)

/-- The epoch of an instant given in the time of the epoch in force, and the instant in that epoch's time. -/
def State.ownEpoch (s : State) (t : Int) : Int × Nat := epochOf s.time.changes t s.time.epoch

/-- The instant at the field pins of a word, in 1/8 TU of the epoch in force: its grid instant less the exact group delay of its path then
(02 R56). -/
def State.atPins (s : State) (w : DWord) : Int := 8 * s.inForce ((w.time : Nat) : Int) w.epoch - ((w.delay : Nat) : Int)

/-- The crossing instant of a peak in the time of the epoch in force (R121): the vertex of the parabola through the largest word and its two
neighbours, each less the exact group delay, rounded down to 1 TU. Without two neighbours the word's own instant is the vertex. -/
def State.crossing (s : State) (p : Peak) : Int :=
  let t := s.atPins p.top
  match p.prev, p.next with
  | some u, some w =>
    let a := t - s.atPins u
    let b := s.atPins w - t
    let d1 := p.top.y - u.y
    let d2 := p.top.y - w.y
    let den := 2 * (d1 * b + d2 * a)
    if den ≤ 0 then t / 8 else (den * t + (d1 * b * b - d2 * a * a)) / (8 * den)
  | _, _ => t / 8

/-- The timestamp of a wheel from its two crossing instants (R122, R137): their mean, rounded down, given in the epoch of the later one; and
whether an epoch change lies between them. -/
def State.meanOf (s : State) (a b : Int) : Int × Nat × Bool :=
  let u := s.ownEpoch (max a b)
  ((a + b) / 2 + (u.1 - max a b), u.2, (s.ownEpoch a).2 != (s.ownEpoch b).2)

/-- The value of a system's words at an instant in 1/8 TU: between two words by interpolation, before the first and after the last the
nearest (words newest first). -/
def State.valueAt (s : State) : List DWord → Int → Int
  | [], _ => 0
  | [x], _ => x.y
  | x :: u :: l, t =>
    if s.atPins x ≤ t then x.y
    else if s.atPins u ≤ t then u.y + (x.y - u.y) * (t - s.atPins u) / (s.atPins x - s.atPins u)
    else s.valueAt (u :: l) t

/-- The words of a system resampled onto the distance grid of a template table (R123): `n` points SPAN / NPTS apart, centred on the crossing
instant `c` at a speed of `spacing` mm in `diff` TU. -/
def State.resample (s : State) (l : List DWord) (c : Int) (spacing diff span n : Nat) : List Int :=
  (List.range n).map (fun j =>
    let off := (2 * ((j : Nat) : Int) + 1 - ((n : Nat) : Int)) * ((span * diff * 8 : Nat) : Int)
    s.valueAt l (8 * c + off / ((2 * n * spacing : Nat) : Int)))

/-- The sum of products. -/
def dot (l m : List Int) : Int := (List.zipWith (· * ·) l m).foldl (· + ·) 0

/-- A correlation as its numerator, the square of its denominator, and the CLASS of its template; 0 with CLASS 0 where none is positive. -/
structure Corr where
  num : Nat
  den2 : Nat
  cls : Nat

/-- The better of two correlations, the first of equals. -/
def Corr.best (a b : Corr) : Corr :=
  if a.num * a.num * b.den2 < b.num * b.num * a.den2 then b else a

/-- The normalised correlation of resampled words with template `j` of the table at `a`. -/
def State.correlate (s : State) (a n : Nat) (l : List Int) (j : Nat) : Corr :=
  let k := a + 0x20 + j * (4 + 2 * n)
  let t := (List.range n).map (fun i => sgn 16 (s.rd (k + 4 + 2 * i) 2))
  let den := (dot l l * dot t t).toNat
  { num := if den = 0 then 0 else (dot l t).toNat, den2 := max 1 den, cls := s.rd k 1 }

/-- The best correlation of a wheel over both systems and all templates (R123). -/
def State.bestCorr (s : State) (a : Nat) (ls : List (List Int)) : Corr :=
  let n := s.rd (a + 5) 1
  (ls.flatMap (fun l => (List.range (s.rd (a + 4) 1)).map (s.correlate a n l))).foldl Corr.best { num := 0, den2 := 1, cls := 0 }

/-- CLASS and CONF (R123, R124): the best template's class from CMIN on; floor(255 · ρ · m) with m = min(1, P / (2 · AMIN)), from the smaller
peak deviation `p` in 1/64 of a DATA step. -/
def State.classify (s : State) (a : Nat) (c : Corr) (p : Int) : Nat × Nat :=
  let cmin := s.rd (a + 8) 2
  if c.cls = 0 || decide (c.num * c.num * 2 ^ 32 < cmin * cmin * c.den2) then (0, 0)
  else
    let full := 128 * s.rd (a + 0x0A) 2
    let m : Nat × Nat := if ((full : Nat) : Int) ≤ p then (1, 1) else (p.toNat, full)
    let x := 255 * 255 * c.num * c.num * m.1 * m.1
    let y := c.den2 * m.2 * m.2
    (c.cls, ((List.range 256).filter (fun n => decide (n * n * y ≤ x))).length - 1)

/-- What R122 to R124 give a wheel. -/
structure Wheel where
  time : Int
  epoch : Nat
  speed : Nat
  cls : Nat
  conf : Nat
  half : Bool
  split : Bool

/-- The grid instant of the emitting word less the larger group delay of the head (R122): the timestamp of a wheel without a crossing
instant. -/
def State.blindTime (s : State) (k : Nat) : Int :=
  (8 * ((s.nowTu : Nat) : Int) - ((max (s.delay8 (2 * k)) (s.delay8 (2 * k + 1)) : Nat) : Int)) / 8

/-- The speed of R122 in 10 mm/s, from the spacing and the difference of the crossing instants: rounded down, saturating. -/
def speedOf (spacing diff : Nat) : Nat := if diff = 0 then 0xFFFF else min 0xFFFF (spacing * 12500000 / diff)

/-- The values of a wheel of head `k` with direction `dir` (R122 to R124). -/
def State.wheelOf (s : State) (tb : DetTables) (k dir : Nat) (d : DetSt) : Wheel :=
  let pa := d.a.peak.map s.crossing
  let pb := d.b.peak.map s.crossing
  let one (c : Int) (half : Bool) : Wheel :=
    let u := s.ownEpoch c
    { time := u.1, epoch := u.2, speed := 0, cls := 0, conf := 0, half := half, split := false }
  if dir = 3 then
    match (if d.a.lost then none else pa), (if d.b.lost then none else pb) with
    | some a, some b =>
      let u := s.meanOf a b
      { one a false with time := u.1, epoch := u.2.1, split := u.2.2 }
    | some a, none => one a false
    | none, some b => one b false
    | none, none => one (s.blindTime k) true
  else
    match pa, pb with
    | some a, some b =>
      let u := s.meanOf a b
      let sp := s.fld WD_HCFG.SPACING k
      let diff := (b - a).natAbs
      let n := s.rd (tb.tpl + 5) 1
      let span := s.rd (tb.tpl + 6) 2
      let ls := [s.resample d.a.words a sp diff span n, s.resample d.b.words b sp diff span n]
      let p := min ((d.a.peak.map (fun x => x.top.dev)).getD 0) ((d.b.peak.map (fun x => x.top.dev)).getD 0)
      let c := if sp * 450000 < diff then (0, 0) else s.classify tb.tpl (s.bestCorr tb.tpl ls) p
      { time := u.1, epoch := u.2.1, speed := speedOf sp diff, cls := c.1, conf := c.2, half := false, split := u.2.2 }
    | some a, none => one a true
    | none, some b => one b true
    | none, none => one (s.blindTime k) true

/-! ### Head events (R125, R135 to R140, R158) -/

/-- A head event in the format of Table WD-9, but for SEQ, ENG and SHADOW; XOK and XFAIL are 0. -/
def State.wheelBlock (s : State) (tb : DetTables) (k dir : Nat) (d : DetSt) : Nat :=
  let w := s.wheelOf tb k dir d
  let creep := decide (s.rd (tb.pha + 6) 2 * 125000 < s.tb - d.since)
  s.fld WD_HCFG.POINT k + dir * 2 ^ 11 + w.epoch * 2 ^ 13 + (w.time % 2 ^ 64).toNat * 2 ^ 17 + w.speed * 2 ^ 81 + w.cls * 2 ^ 97
    + w.conf * 2 ^ 101 + bit d.mux * 2 ^ 109 + bit (d.half || w.half) * 2 ^ 110 + bit d.hold * 2 ^ 111 + bit d.rock * 2 ^ 112
    + bit creep * 2 ^ 113 + bit (decide (s.vmax k < w.speed)) * 2 ^ 114 + bit (decide (w.conf < s.rd (tb.tpl + 0x12) 1)) * 2 ^ 115
    + bit (s.belowLimit || w.split) * 2 ^ 116

/-- The ratio of a system in a test event (R158): the measured peak deviation by the expected one in 1/128, saturating at 255; 0 for a system
that was not injected. -/
def State.testRatio (s : State) (i : Nat) (d : SysDet) : Nat :=
  match d.test with
  | none => 0
  | some x =>
    let e := Config.expectedDeviation (s.fld FE_TEST.AMPL i) d.base
    if e = 0 then 255 else min 255 (x.dev.toNat * 128 / e)

/-- The test event of head `k` (R158): TIME and EPOCH of the injection's start. -/
def State.testBlock (s : State) (k : Nat) (d : DetSt) : Nat :=
  let t := match d.a.test, d.b.test with
    | some x, _ => (x.start, x.epoch)
    | none, some x => (x.start, x.epoch)
    | none, none => (0, 0)
  let mux := (s.sys (2 * k)).mux.isSome || (s.sys (2 * k + 1)).mux.isSome
  s.fld WD_HCFG.POINT k + t.2 * 2 ^ 13 + t.1 % 2 ^ 64 * 2 ^ 17 + s.testRatio (2 * k + 1) d.b * 2 ^ 81
    + s.testRatio (2 * k) d.a * 2 ^ 101 + bit mux * 2 ^ 109 + bit s.belowLimit * 2 ^ 116 + 2 ^ 117

/-- Sapwood engine number `e` as a requester. -/
def seReq (e : Nat) : Req := .se (Fin.ofNat 6 e)

/-- An engine writes an event of head `k` (R138 to R140, 08 R315). The primary raises SEQ and writes the block to the inbound area of
every bobbin that the point map names for the point, and to the origin ring; a shadow stamps SEQ + 1 and writes to the shadow ring
alone. -/
def writeEvent (e k v : Nat) (s : State) : State :=
  let seq := (s.fld GR_HPLACE.SEQ k + 1) % 16
  let v := v + seq * 2 ^ 120 + e * 2 ^ 124
  if s.fld GR_HPLACE.PRIM k = e then
    let s := s.setFld GR_HPLACE.SEQ k seq
    let s := forEach (entryBobs (s.pointEntry (v % 2048))) (fun b => pushRing b false v) s
    originPush (seReq e) true v s
  else shadowPush (seReq e) true (putBit v 127 true) s

/-! ### The program at a grid instant -/

/-- The passage flag that the program on engine `e` holds for head `k` becomes `on` (R127, 08 R313). -/
def setPassage (e k : Nat) (on : Bool) (s : State) : State :=
  if s.fld GR_HPLACE.PRIM k = e then wdPass (seReq e) on (2 ^ k) s else s.putFbit GR_SHPASS.SPASS 0 k on

/-- The program starts on a head: both baselines at BASEREF. R119 says so of reset and of a change of HEN; of an engine newly placed on the
head it says nothing, and it starts there too (DESIGN CHOICE, assumption 170). -/
def State.startDet (s : State) (k : Nat) (d : DetSt) : DetSt :=
  if d.started then d
  else { DetSt.reset with started := true, a := { SysDet.reset with base := s.fld WD_BASE.BASEREF (2 * k) },
                          b := { SysDet.reset with base := s.fld WD_BASE.BASEREF (2 * k + 1) } }

/-- The baseline of a system after a word in idle (R119): tracked to a value that the spec does not state, a free value, within BASEREF ±
BASETOL. A blind word and one left out for a test leave it. -/
def trackBase (n i : Nat) (d : SysDet) (s : State) : SysDet × State :=
  if s.isWord i n && !d.left && d.held == 0 then
    let p := s.fresh
    ({ d with base := max (s.detLimit i false) (min (s.detLimit i true) p.1) }, p.2)
  else (d, s)

/-- The words of the instant enter the program (R119, R120). -/
def State.takeWords (s : State) (tb : DetTables) (n k : Nat) (d : DetSt) : DetSt :=
  let d := if s.isWord (2 * k) n then { d with a := s.takeWord tb (2 * k) (s.fld FE_RESULT.WORD (2 * k)) d.a } else d
  if s.isWord (2 * k + 1) n then { d with b := s.takeWord tb (2 * k + 1) (s.fld FE_RESULT.WORD (2 * k + 1)) d.b } else d

/-- The injections of head `k` that the launch marked `m` started are over. -/
def State.testOver (s : State) (k m : Nat) : Bool :=
  [2 * k, 2 * k + 1].all (fun i => match (s.sys i).inj with
    | some j => j.mark != m || j.left == 0
    | none => true)

/-- The launches whose injections the program has measured on a head. -/
def DetSt.marks (d : DetSt) : List Nat := ([d.a.test, d.b.test].filterMap (fun t => t.map TestSt.mark)).dedup

/-- The measurements that satisfy a condition on their launch. -/
def DetSt.tests (c : Nat → Bool) (d : DetSt) : DetSt :=
  { d with a := { d.a with test := d.a.test.filter (fun x => c x.mark) }, b := { d.b with test := d.b.test.filter (fun x => c x.mark) } }

/-- The program of engine `e` writes a test event for each round of head `k` whose injections are over (R158), with the ratios of the systems
that the round injected. -/
def writeTests (e k : Nat) (d : DetSt) (s : State) : DetSt × State :=
  d.marks.foldl (fun p m =>
    if p.2.testOver k m then
      (p.1.tests (fun x => x != m), writeEvent e k (p.2.testBlock k (p.1.tests (fun x => x == m))) p.2)
    else p) (d, s)

/-- The program of engine `e` evaluates the pair of head `k` (R125, R127 to R131): every transition that emits a wheel gives exactly one
event. -/
def evalPair (tb : DetTables) (e k : Nat) (d : DetSt) (s : State) : DetSt × State :=
  let x := s.takePair tb d
  let s := if (d.phase == 0) = (x.2.2.phase == 0) then s else setPassage e k (x.2.2.phase != 0) s
  (x.2.2, if x.2.1 = 0 then s else writeEvent e k (s.wheelBlock tb k x.2.1 x.1) s)

/-- The detection program of engine `e` at grid instant `n` for head `k`. The pair is not evaluated while the latest word of either system is
one that is left out for a test (R120: the phase stays); the spec does not say so where the other system delivers a normal word (DESIGN
CHOICE, assumption 171). -/
def detectOn (tb : DetTables) (n e k : Nat) (s : State) : State :=
  let d := s.takeWords tb n k (s.startDet k (s.det e k))
  let p := if s.evalDue k n && !d.a.left && !d.b.left then evalPair tb e k d s else (d, s)
  let d := p.1
  let s := p.2
  let q := writeTests e k d s
  let d := q.1
  let s := q.2
  if d.phase = 0 then
    let x := trackBase n (2 * k) d.a s
    let y := trackBase n (2 * k + 1) d.b x.2
    y.2.setDet e k { d with a := x.1, b := y.1 }
  else s.setDet e k d

/-- The detection program runs on engine `e`: in service, neither stopped, halted nor held, and not waiting for a lock (04 R206). -/
def State.detects (s : State) (e : Nat) : Bool :=
  decide (e < 6) && !s.seRetired e && !s.waitsForLock (seReq e) && ((s.eng (3 + e)).run == .running || (s.eng (3 + e)).run == .waiting)

/-- The detection programs at grid instant `n` for head `k`: the shadow first, so that both stamp one SEQ, then the primary. -/
def stepDetect (n k : Nat) (s : State) : State :=
  if !s.isSet WD_HCFG.HEN k then s
  else match s.detTables k with
    | none => s
    | some tb =>
      forEach ((s.placed k).reverse.filter s.detects) (fun e => detectOn tb n e k) s

/-! ### The engine verdict (R158, R611) -/

/-- The engine part of a round is passed: the test event arrived within 1 ms of the injection's end, with the ratio of every injected system
from 112 to 144. -/
def ProofSt.passes (p : ProofSt) (stop : Nat) : Bool :=
  match p.event with
  | none => false
  | some (v, t) =>
    decide (t ≤ stop + 125000) && p.systems.all (fun i => decide (112 ≤ testRatioOf v i) && decide (testRatioOf v i ≤ 144))

/-- The network time at which the last injection of a round ended, once all have. -/
def State.roundEnd (s : State) (p : ProofSt) : Option Nat :=
  p.systems.foldl (fun m i => match m, (s.sys i).inj with
    | some t, some j => if j.mark ≠ p.mark then some t else if j.left = 0 then some (max t j.stop) else none
    | some t, none => some t
    | none, _ => none) (some 0)

/-- The tally unit judges the comparators of the round marked `m` of head `k` if its injections have run with their tails (R157). -/
def judgeMark (m k : Nat) (s : State) : State :=
  match (s.head k).rounds.find? (fun r => r.1 == m && r.2.all (fun i => !(s.sys i).inTest)) with
  | some r => judgeRound k r s
  | none => s

/-- The Heartwood's report of the engine verdict of one round of head `k` at a grid instant (R611): once the comparators of the round are
judged, and in any case before more than 2 ms have passed since the injection's end; at once a failure when the event has not
arrived within 1 ms. At the last instant the comparators are judged first, so that a pass meets the CPEND of its own round. -/
def reportProof (k : Nat) (p : ProofSt) (s : State) : State :=
  match (match p.ended with | some t => some t | none => s.roundEnd p) with
  | none => s
  | some stop =>
    let last := decide (stop + 250000 < s.nowTu + 1954)
    let s := onlyIf last (judgeMark p.mark k) s
    let late := p.event.isNone && decide (stop + 125000 < s.nowTu)
    let judged := p.event.isSome && (s.head k).rounds.all (fun r => r.1 != p.mark)
    if s.canVote && !s.waitsForLock .hw && (late || judged || last) then
      let s := s.modHead k (fun h => { h with proofs := h.proofs.filter (fun q => q.mark != p.mark) })
      wdProofEng .hw (k + bit (p.passes stop) * 256) s
    else
      s.modHead k (fun h => { h with proofs := h.proofs.map (fun q => if q.mark = p.mark then { q with ended := some stop } else q) })

/-- The engine verdicts that are owed for head `k`, one for each round. -/
def stepProof (k : Nat) (s : State) : State := forEach (s.head k).proofs (reportProof k) s

end Sys2Proof.Machine
end

