-- ==== Sys2Proof/Machine/Placement.lean ====
section
/-! DEFINITION. The margin plan (15 Table AG-6) and the placement that the Graft program makes from it inside the device (08 R309, R314,
R317; 15 R553, R555). The program proposes on the Root engine and the Heartwood applies by voted writes; both are made whole at the end
of a grid instant (DESIGN CHOICE, assumption 158). -/

namespace Sys2Proof.Machine

/-! ### The margin plan -/

/-- The state of a unit watched by the monitors `mons`: 0 OK, 1 WATCH, 2 LEAVE; `slow` is the engine's own condition (Table AG-6). -/
def State.unitPlan (s : State) (mons : List Nat) (slow : Bool) : Nat :=
  if slow || mons.any (fun i => Tab.get 0 s.plan.low i == 2) then 2
  else if mons.any (fun i => s.plan.watch.contains i) then 1 else 0

/-- The plan's state of Sapwood engine `e`. -/
def State.enginePlan (s : State) (e : Nat) : Nat := s.unitPlan [6 + 2 * e, 7 + 2 * e, 29 + e] (Tab.get 0 s.plan.slow e == 3)

/-- The plan's state of converter slice `k`. -/
def State.slicePlan (s : State) (k : Nat) : Nat := s.unitPlan [37 + k / 8] false

/-! ### Engines that can take a head -/

/-- Engine number `e` is retired, or its input is masked after a bite (08 R317, 11 Table MI-4). -/
def State.lostEngine (s : State) (e : Nat) : Bool :=
  decide (e < 6) && (s.seRetired e || s.masked (.se (Fin.ofNat 6 e)))

/-- The engines in service that are not the spare: by their state in the plan (15 R553), then by their free latches, then by number
(08 R309, R317). -/
def State.serving (s : State) : List Nat :=
  let l := (List.range 6).filter (fun e => !s.lostEngine e && e != s.fld GR_CTRL.SPARE)
  [0, 1, 2].flatMap (fun p => (List.range 33).flatMap (fun n =>
    l.filter (fun e => s.enginePlan e == p && (s.systemsOn 32 7 7 e).length == n)))

/-- The spare, where it is in service. -/
def State.spares (s : State) : List Nat :=
  [s.fld GR_CTRL.SPARE].filter (fun e => decide (e < 6) && !s.lostEngine e)

/-! ### Forced moves (08 R317) -/

/-- Where head `k` may go, the best first, as its new PRIM and SHAD: its shadow, the spare, the engine in service with the most free
latches, nowhere. -/
def State.moveTargets (s : State) (k : Nat) : List (Nat × Nat) :=
  let sh := s.fld GR_HPLACE.SHAD k
  let own := [sh].filter (fun e => decide (e < 6) && !s.lostEngine e)
  (own ++ s.spares ++ s.serving).map (fun e => (e, if e = sh then 7 else sh)) ++ [(7, sh), (7, 7)]

/-- The program writes GR_HPLACE of head `k`. -/
def graftWrite (k prim shad : Nat) (hover force : Bool) (s : State) : State :=
  grHplace .hw k (prim + 2 ^ 4 * shad + 2 ^ 8 * bit hover + 2 ^ 9 * bit force) s

/-- Head `k` is moved by force when its primary engine is lost. -/
def rescueHead (k : Nat) (s : State) : State :=
  if !s.lostEngine (s.fld GR_HPLACE.PRIM k) || (s.head k).force.isSome then s
  else
    match (s.moveTargets k).find? (fun p => s.placeOk k p.1 p.2) with
    | some p => graftWrite k p.1 p.2 false true s
    | none => s

/-! ### Engines and slices that leave (15 R553, R555) -/

/-- The events of head `k` and its shadow have matched one for one since SHAD was written (08 R314). -/
def State.shadowMatches (s : State) (k : Nat) : Bool := (s.head k).lone.isEmpty && (s.head k).loneShad.isEmpty

/-- An engine other than `e` that can shadow head `k`, the best first. -/
def State.shadowFor (s : State) (k e : Nat) : Option Nat :=
  ((s.serving ++ s.spares).filter (fun f => f != e && s.enginePlan f != 2)).find? (fun f => s.placeOk k (s.fld GR_HPLACE.PRIM k) f)

/-- The program clears engine `e` of head `k`: a shadow elsewhere, then the order of the hand-over once the events match. A shadow on the
spare is first moved to an engine in service that has room, since no primary goes to the spare then (08 R309). -/
def leaveHead (e k : Nat) (s : State) : State :=
  let p := s.fld GR_HPLACE.PRIM k
  let sh := s.fld GR_HPLACE.SHAD k
  let shadowed := p == e && sh != 7 && s.enginePlan sh != 2
  let better := (s.shadowFor k e).filter (fun f => shadowed && sh == s.fld GR_CTRL.SPARE && s.serving.contains f)
  if (p != e && sh != e) || (s.head k).force.isSome then s
  else if better.isSome then graftWrite k p (better.getD sh) false false s
  else if shadowed then
    if !s.isSet GR_HPLACE.PEND k && s.shadowMatches k then graftWrite k p sh true false s else s
  else
    match s.shadowFor k e with
    | some f => graftWrite k p f false false s
    | none => s

/-- Sapwood engine `e` holds no head. -/
def State.freed (s : State) (e : Nat) : Bool := (s.systemsOn 32 7 7 e).isEmpty

/-- An engine in LEAVE is cleared of its heads and retired, after 10 s also with heads on it (15 R553). -/
def leaveEngine (e : Nat) (s : State) : State :=
  if s.seRetired e || s.enginePlan e != 2 then
    if Tab.get 0 s.plan.leaving e = 0 then s else s.modPlan (fun p => { p with leaving := Tab.set 0 p.leaving e 0 })
  else
    let s := if Tab.get 0 s.plan.leaving e = 0 then s.modPlan (fun p => { p with leaving := Tab.set 0 p.leaving e (s.tb + 1) }) else s
    let s := forEach (List.range 32) (leaveHead e) s
    if s.freed e || decide (Tab.get 0 s.plan.leaving e + 1250000000 ≤ s.tb + 1) then agEngret .hw e s else s

/-- A slice in LEAVE is asked to retire (15 R555). -/
def leaveSlice (k : Nat) (s : State) : State :=
  if s.slicePlan k == 2 && s.slice k == 0 then feRetire .hw k s else s

/-- The turn of the Graft program, once the retirements on record have been made again (15 R554): retirements first, so that a forced move
sees them (15 R557). -/
def graftTurn (s : State) : State :=
  if !s.marginRuns || !s.canVote || !s.plan.recalled then s
  else
    forEach (List.range 32) rescueHead (forEach (List.range 72) leaveSlice (forEach (List.range 6) leaveEngine s))

end Sys2Proof.Machine
end

