-- ==== Sys2Proof/Machine/Grid.lean ====
section
/-! DEFINITION. The sample grid: everything that falls due at a grid instant, in the order of Table FE-11, and the word of each
system (02 R54 to R105, 03 R134, R144 to R148, R157, R161, R612, 04 R186, 08 R312, R316). -/

namespace Sys2Proof.Machine

/-! ### The instants (R54) -/

/-- The next grid instant at or after network time `b`: its number modulo the 160 instants of 2.5 ms, and its time. -/
def State.nextInstant (s : State) (b : Nat) : Nat × Nat :=
  let p : Int := (s.fld TM_GRID.PHASEF : Nat)
  let d : Int := (b : Nat) - p
  let n := (8 * d + 15624) / 15625
  ((n % 160).toNat, (p + 15625 * n / 8).toNat)

/-- The next grid instant to come. -/
def State.comingInstant (s : State) : Nat × Nat := s.nextInstant (max s.nowTu s.gridNext)

/-! ### Counting words (R71, R85) -/

/-- The settling delay of system `i` is over: a comparator masked for it leaves the masked state (03 R146). -/
def settled (i : Nat) (s : State) : State :=
  let m := (s.sys i).maskSettle
  let s := s.modSys i (fun x => { x with settle := 0, maskSettle := false })
  if m then refreshCmp i s else s

/-- The routing of system `i` is restored (R94, R95): blind for the settling delay, and its comparator leaves the masked
state. -/
def restoreRouting (i : Nat) (s : State) : State :=
  let rer := (s.sys i).rerouted
  let s := showDiag i (s.modSys i (fun x => { x with diag := none }))
  if rer then refreshCmp i (startSettle i s) else s

/-- DIAGNOSTIC_COMPLETE (R95): the running diagnostic of system `i` ends with a result in the unit of Table FE-8, and the
verdict of kind 3, at the grid instant at which the averaging over AUXT is over. Table FE-11 has no step for it: it comes before step 1, so
that a condition of R94 that arises at the same instant aborts nothing any more (DESIGN CHOICE, assumption 174). -/
def execDiagnosticComplete (i : Fin 64) (value : Int) (isOpen : Bool) (s : State) : Host.Outcome State Fault Refusal :=
  let i := i.val
  match (s.sys i).diag with
  | none => .next s
  | some d =>
    if !d.running then .next s
    else
      let s := s.advanceNow (s.nextInstant (max (max s.nowTu s.gridNext) d.ready)).2
      let s := (s.setFld FE_AUXRES.VALUE i (unsgn 24 value)).setFld FE_AUXRES.KIND i d.kind
      let s := (s.setFld FE_AUXRES.VALID i 1).setFld FE_AUXRES.ABORT i 0
      let s := s.setFld FE_AUXRES.OPEN i (bit (d.kind == 3 && isOpen))
      let s := onlyIf (d.kind == 0) (leadReplace i value) s
      .next (restoreRouting i s)

/-- One word of the settling delay of system `i` passes. -/
def countSettle (i : Nat) (s : State) : State :=
  match (s.sys i).settle with
  | 0 => s
  | 1 => settled i s
  | k + 2 => s.modSys i (fun x => { x with settle := k + 1 })

/-- The injection of a system ends: its tail of eight words begins (03 R151). -/
def Injection.endAt (t : Nat) (j : Injection) : Injection := { j with left := 0, tail := 8, stop := t }

/-- One word of an injection or of its tail passes. -/
def Injection.count (t : Nat) (j : Injection) : Injection :=
  match j.left with
  | 0 => { j with tail := j.tail - 1 }
  | 1 => j.endAt t
  | k + 2 => { j with left := k + 1 }

/-- A word of system `i` begins at grid instant `n`. -/
def countWord (n i : Nat) (s : State) : State :=
  if s.isWord i n then
    let s := countSettle i s
    let t := s.nowTu
    let was := (s.sys i).inTest
    let s := s.modSys i (fun x => { x with inj := x.inj.map (Injection.count t) })
    onlyIf (was && !(s.sys i).inTest) (retakeLevel i) s
  else s

/-! ### Step 1 of Table FE-11: faults (R96, R98, R99) -/

/-- The slice monitor's view of slice `k`. -/
def State.sliceSt (s : State) (k : Nat) : SliceSt := Tab.get SliceSt.reset s.slices k

/-- One bit of a modulator (R96). -/
def SliceSt.feed (x : SliceSt) (b : Bool) : SliceSt :=
  { run := if x.bits.head? = some b then min 64 (x.run + 1) else 1, bits := (b :: x.bits).take 256 }

/-- The bitstream shows a fault: one value for 64 bits, or over 256 bits a density of ones outside 5 % to 95 % (R96). -/
def SliceSt.bad (x : SliceSt) : Bool :=
  let ones := x.bits.count true
  x.run == 64 || (x.bits.length == 256 && (decide (ones * 100 < 5 * 256) || decide (95 * 256 < ones * 100)))

/-- The bits of one modulator pass the slice monitor: its view of the slice, and whether a fault has been met. -/
def SliceSt.run256 (x : SliceSt) (l : List Bool) : SliceSt × Bool :=
  l.foldl (fun p b => let y := p.1.feed b; (y, p.2 || y.bad)) (x, false)

/-- The slice monitor watches the bits since the last instant. -/
def watchBits (g : GridIn) (s : State) : State :=
  { s with slices := g.bits.foldl (fun t p => Tab.set SliceSt.reset t p.1.val ((s.sliceSt p.1.val).run256 p.2).1) s.slices }

/-- The slices in which the slice monitor finds a fault at this instant (R96). -/
def State.faultySlices (s : State) (g : GridIn) : List Nat :=
  (g.bits.filter (fun p => ((s.sliceSt p.1.val).run256 p.2).2)).map (fun p => p.1.val)
    ++ g.blocks.map (fun k => k.val)
    ++ (g.refs.filter (fun p => decide (500 < p.2.natAbs))).map (fun p => 64 + p.1.val)

/-- Slice `k` leaves service with a code of Table FE-20, if it has not before (R100). -/
def leaveService (code k : Nat) (s : State) : State :=
  if 2 ≤ s.slice k then s else (s.setSlice k code).flag FE_STATUS.RETIRED evFE

/-- The slice that converts system `i` has been retired. -/
def State.stranded (s : State) (i : Nat) : Bool :=
  let x := s.sys i
  !x.unconv && decide (2 ≤ s.slice (match x.mux with | some (sp, _) => sp | none => i))

/-- System `i`, whose slice has been retired, moves to the lowest free mux position, or becomes unconverted (R98, R99). -/
def toMux (n i : Nat) (s : State) : State :=
  if !s.stranded i then s
  else
    match s.freeMux with
    | some m => startSettleAt i n (s.modSys i (fun x => { x with mux := some m }))
    | none => (s.modSys i (fun x => { x with mux := none, unconv := true })).flag FE_STATUS.MUXFULL evFE

/-- The slices of a list are retired at grid instant `n`, and their systems move in ascending order. -/
def retireSlices (n code : Nat) (l : List Nat) (s : State) : State :=
  forEach (List.range 64) (toMux n) (forEach l (leaveService code) s)

/-! ### Step 2: the dip hold (R68 to R70) -/

/-- Step 1 of Table FE-11: the slices in which the monitor finds a fault are retired, and stay known to be faulty (R96, R100). -/
def stepFaults (g : GridIn) (n : Nat) (s : State) : State :=
  let l := s.faultySlices g
  let s := watchBits g s
  retireSlices n 3 l { s with badSlices := s.badSlices ++ l.filter (fun k => !s.badSlices.contains k) }

/-- The hold level of system `i` lies below its floor. -/
def State.holdBelow (s : State) (i : Nat) : Bool := decide (s.fld FE_HOLD.HOLD i < s.fld FE_HOLD.FLOOR i)

/-- System `i` enters a hold below its floor. -/
def holdSystem (i : Nat) (s : State) : State :=
  if (s.sys i).exc.mode != 0 && s.holdBelow i then
    refreshCmp i ((s.modSys i (fun x => { x with holdLow := true })).putFbit FE_HEADDIP.HD 0 (i / 2) true)
  else s

/-- System `i` leaves a hold below its floor: the settling delay runs, and its comparator stays masked for it. -/
def releaseSystem (n i : Nat) (s : State) : State :=
  if (s.sys i).holdLow then
    refreshCmp i (startSettleAt i n (s.modSys i (fun x => { x with holdLow := false, maskSettle := true })))
  else s

/-- The hold begins or ends with the dip warning. -/
def stepDip (n : Nat) (s : State) : State :=
  if s.dip = s.isSet FE_STATUS.DIP then s
  else if s.dip then forEach (List.range 64) holdSystem (s.setFld FE_STATUS.DIP 0 1)
  else forEach (List.range 64) (releaseSystem n) (s.setFld FE_STATUS.DIP 0 0)

/-! ### Step 3: wheel windows, and what waits for a closed window (R79, 03 R161, 08 R312, R316) -/

/-- The wheel window of head `k` at this instant. -/
def stepWindow (k : Nat) (s : State) : State :=
  let left := if s.opens k then 8 else (s.head k).closing - 1
  let s := s.putFbit FE_WINDOW.WIN 0 k (left != 0)
  let seen := s.sighted k
  s.modHead k (fun h => { h with closing := left, tail := if seen then 8 else h.tail - 1,
                                 closedFor := if left = 0 then min 26 (h.closedFor + 1) else 0 })

/-- A held WD_HCFG write of head `k` that is due (03 R161): the window is closed, at the instant's evaluation and after the phase change
that the detection program has made at it. -/
def stepHcfg (k : Nat) (s : State) : State :=
  match (s.head k).cfg with
  | some v => if s.window k || s.passage k then s else applyHcfg k v s
  | none => s

/-- A hand-over and a forced move of head `k` that are due. -/
def stepHead (k : Nat) (s : State) : State :=
  let s := if s.handOverDue k then takeHandOver k s else s
  match (s.head k).force with
  | some p => takeForce k p s
  | none => s

/-! ### Steps 4 to 9 -/

/-- The routing of system `i` is restored at grid instant `n`. -/
def restoreRoutingAt (n i : Nat) (s : State) : State :=
  refreshCmp i (startSettleAt i n (showDiag i (s.modSys i (fun x => { x with diag := none }))))

/-- The conditions of R93 on system `i` hold. -/
def State.diagAllowed (s : State) (i : Nat) : Bool :=
  !s.window (i / 2) && !s.blind (partner i) && !(s.sys (partner i)).rerouted && !s.isSet FE_STATUS.DIP

/-- Step 4: a running re-routing diagnostic whose conditions fail is aborted (R94). -/
def stepAbort (n i : Nat) (s : State) : State :=
  if (s.sys i).rerouted && !s.diagAllowed i then
    (restoreRoutingAt n i (s.setFld FE_AUXRES.ABORT i 1)).flag FE_STATUS.DIAGABORT evFE
  else s

/-- Step 5: a pending range change (R77). -/
def stepRange (i : Nat) (s : State) : State :=
  if !s.isSet FE_GAIN.PEND i then s
  else if !s.window (i / 2) then
    let r := s.fld FE_GAIN.PRANGE i
    ((s.setFld FE_GAIN.RANGE i r).setFld FE_GAIN.PEND i 0).setFld FE_GAIN.PRANGE i 0
  else if (s.sys i).rngCounted then s
  else defer FE_DEFER.RNGDEF i (s.modSys i (fun x => { x with rngCounted := true }))

/-- An excitation change of system `i` takes effect at grid instant `n` (Table FE-6, 03 R146). A write of the excitation in force
changes nothing. -/
def applyExc (n i : Nat) (e : Exc) (s : State) : State :=
  let old := (s.sys i).exc
  let s := s.modSys i (fun x => { x with due := none, dueCounted := false })
  if old = e then s
  else
    let s := s.modSys i (fun x => { x with exc := e })
    let low := e.mode != 0 && s.isSet FE_STATUS.DIP && s.holdBelow i
    let s := s.modSys i (fun x => { x with holdLow := low, maskSettle := e.mode != 0 })
    let s := if low then s.putFbit FE_HEADDIP.HD 0 (i / 2) true else s
    refreshCmp i (if e.mode = 0 then s else startSettleAt i n s)

/-- The head's window defers an excitation change of system `i` to `e` (R66). A change to off is never deferred; a change from
off waits for the window as the conditions that R79 names and their eight instants leave it, not for the comparator that does not
run, whose own start it is (assumption 28). -/
def State.excWaits (s : State) (i : Nat) (e : Exc) : Bool :=
  if e.mode = 0 then false
  else if (s.sys i).exc.mode = 0 then (s.head (i / 2)).tail != 0
  else s.window (i / 2)

/-- Step 6: a committed or launched excitation change (R65, R66). -/
def stepExc (n i : Nat) (s : State) : State :=
  match (s.sys i).due with
  | none => s
  | some e =>
    if !s.excWaits i e then applyExc n i e s
    else if (s.sys i).dueCounted then s
    else defer FE_DEFER.OPDEF i (s.modSys i (fun x => { x with dueCounted := true }))

/-- Step 7: a requested retirement (R97). -/
def stepRetire (n k : Nat) (s : State) : State :=
  if s.slice k ≠ 1 then s
  else if 64 ≤ k || (!s.window (k / 2) && !s.blind (partner k)) then retireSlices n 2 [k] s
  else if (s.sys k).retCounted then s
  else defer FE_DEFER.OPDEF k (s.modSys k (fun x => { x with retCounted := true }))

/-- The network time from which the result of a diagnostic that starts now is ready (R74): the averaging over AUXT, after the 0.5 ms in
which a re-routed input settles (Table FE-9, DEDUCED for every re-routing kind, assumption 136). -/
def State.diagReady (s : State) (kind : Nat) : Nat :=
  let w := match s.fld FE_CTRL.AUXT with | 0 => 20 | 1 => 60 | 2 => 100 | _ => 300
  s.nowTu + (if kind = 4 then 0 else 62500) + w * 125000

/-- Diagnostic `d` of system `i` starts; a kind 4 takes the lowest free mux position. -/
def startDiag (i : Nat) (d : Diag) (s : State) : State :=
  let r := s.diagReady d.kind
  let p := if d.kind = 4 then s.freeMux else none
  refreshCmp i (showDiag i (s.modSys i (fun x => { x with diag := some { d with running := true, ready := r, pos := p } })))

/-- Step 8: the start of a pending diagnostic (R93). A kind 4 starts at the next grid instant; it waits only while every mux position
has been taken since its request was accepted (DESIGN CHOICE, assumption 24). -/
def stepDiag (i : Nat) (s : State) : State :=
  match (s.sys i).diag with
  | none => s
  | some d =>
    if d.running then s
    else if (if d.kind = 4 then s.freeMux.isSome else s.diagAllowed i) then startDiag i d s
    else if d.counted then s
    else defer FE_DEFER.OPDEF i (s.modSys i (fun x => { x with diag := some { d with counted := true } }))

/-- System `i` joins the round of the launch marked `m`, which starts at network time `t`: the injections that one launch starts on the head
(R157). A round of which an injection is started anew before its verdict loses that system. The Heartwood owes an engine verdict for
each round (R611). -/
def joinRound (m i t : Nat) (h : HeadSt) : HeadSt :=
  let old := (h.rounds.map (fun r => if r.1 = m then r else (r.1, r.2.filter (fun y => y != i)))).filter (fun r => !r.2.isEmpty)
  let new := if old.any (fun r => r.1 == m) then old.map (fun r => if r.1 = m then (m, r.2 ++ [i]) else r) else old ++ [(m, [i])]
  let all := ((new.find? (fun r => r.1 == m)).map Prod.snd).getD []
  let p : ProofSt := { mark := m, start := t, systems := all, ended := none, event := none }
  { h with rounds := new, proofs := h.proofs.filter (fun q => q.mark != m) ++ [p] }

/-- Step 9: the start of an injection (R71, 03 R157): skipped while the window is open. -/
def stepInject (n i : Nat) (s : State) : State :=
  match (s.sys i).injDue with
  | none => s
  | some by_ =>
    let s := s.modSys i (fun x => { x with injDue := none })
    if s.window (i / 2) then s.setFld FE_TEST.SKIP i 1
    else
      let k := s.fld FE_TEST.DUR i
      let left := if s.isWord i n then k else k + 1
      let j : Injection := { mark := by_, left := left, tail := 0, start := s.nowTu, stop := 0, edges := [] }
      let s := s.modSys i (fun x => { x with inj := some j })
      let s := s.modHead (i / 2) (joinRound by_ i s.nowTu)
      s.setFld WD_PROOF.CPEND (i / 2) 0

/-! ### Conditions (R86, R89, R90, 04 R186) -/

/-- Open input and compliance of system `i` (R89, R90). -/
def stepInput (g : GridIn) (n i : Nat) (s : State) : State :=
  let x := s.sys i
  let out := g.rails.any (fun j => j.val == i) || (g.broken.any (fun j => j.val == i) && s.burnCurrent i != 0)
  let lost := g.lost.any (fun j => j.val == i) || (x.exc.mode != 0 && !s.isSet PW_STATUS.EXCOK)
  let rails := if s.isWord i n then (if out then x.rails + 1 else 0) else x.rails
  let opened := (x.isOpen && out) || decide (4 ≤ rails)
  let gone := (x.isOpen && !opened) || (x.compl && !lost)
  let s := s.modSys i (fun y => { y with rails := min 4 rails, isOpen := opened, compl := lost })
  if gone then startSettleAt i n s else s

/-- The blindness of head `k` and its latches. -/
def stepBlind (k : Nat) (s : State) : State :=
  let a := s.blind (2 * k)
  let b := s.blind (2 * k + 1)
  let s := s.putFbit FE_HEADBLIND.HB 0 k (a && b)
  let s := if a && b then setLatch BB_BLINDLAT.LAT k s else s
  let clear := !s.isSet FE_STATUS.DIP && !a && !b
  let s := if clear then s.putFbit FE_HEADDIP.HD 0 k false else s
  if s.fbit FE_HEADDIP.HD k then setLatch BB_DIPLAT.LAT k s else s

/-- Head `k` after the last step: its speed in force (03 R134), the arming of its tally (03 R612), and whether it is clean (03
R148). A head without a primary engine has no phase other than 0 and can become clean: R148 does not name the case (DESIGN CHOICE,
assumption 165). -/
def stepTally (k : Nat) (s : State) : State :=
  let v := s.vmax k
  let s := if s.fld WD_HST.VMAX k = v then s
    else hostDevice 1 k ((s.setFld WD_HST.VMAX k v).flag WD_STATUS.VMAXCHG evWD)
  if s.cmp (2 * k) = 0 && s.cmp (2 * k + 1) = 0 then
    let s := if (s.head k).armed then s
      else
        let s := s.modHead k (fun h => { h with armed := true })
        (s.modSys (2 * k) (fun x => { x with level := false })).modSys (2 * k + 1) (fun x => { x with level := false })
    if s.passage k then s else s.putFbit WD_CLEAN.CLEAN 0 k true
  else s

/-! ### Words (R69, R75, R80, Table FE-10) -/

/-- The full scale of a gain range in nV (Table FE-5). -/
def fullScale (r : Nat) : Int :=
  match r with
  | 0 => 1600000000 | 1 => 400000000 | 2 => 100000000 | _ => 25000000

/-- The source current in force of system `i`, in 62.5 µA (R68). A write of FE_HOLD during a hold gives the current at once, while the floor
was judged at hold entry (DESIGN CHOICE, assumption 138). -/
def State.current (s : State) (i : Nat) : Nat :=
  let p := (s.sys i).exc.ipk
  if s.isSet FE_STATUS.DIP then min p (s.fld FE_HOLD.HOLD i) else p

/-- Twice the voltage in nV that the lead compensation subtracts (R80): the current in force, or half of it in carrier mode,
across LEADR; nothing in four-wire mode. -/
def State.lead2 (s : State) (i : Nat) : Nat :=
  if s.fld FE_ROUTE1.WIRES i = 2 then 0
  else s.current i * s.fld FE_LEAD.LEADR i * 625 * (if (s.sys i).exc.mode = 2 then 1 else 2)

/-- The sample of system `i` before saturation (R75, R69), rounded down (assumption 62). With a hold current of 0 the scale of R69
is not stated: a free value. -/
def sample (i : Nat) (v : Int) (s : State) : Int × State :=
  let num := (2 * v - s.lead2 i) * 32768
  let den := 2 * fullScale (s.fld FE_GAIN.RANGE i)
  let ipk := (s.sys i).exc.ipk
  if s.current i = ipk then (num / den, s)
  else if s.current i = 0 then
    let p := s.fresh
    (sgn 32 p.1, p.2)
  else (num * ipk / (den * s.current i), s)

/-- Automatic ranging on a word with saturated sample `d` (R76). -/
def autoRange (i : Nat) (usable : Bool) (d : Int) (s : State) : State :=
  if !s.isSet FE_GAIN.AUTO i then s.modSys i (fun x => { x with big := 0, small := 0 })
  else
    let r := s.fld FE_GAIN.RANGE i
    let x := s.sys i
    let big := if usable && decide (28672 < d.natAbs) && r != 0 then x.big + 1 else 0
    let small := if usable && decide (d.natAbs < 6144) && r != 3 then x.small + 1 else 0
    let s := s.modSys i (fun y => { y with big := min 4 big, small := min 64 small })
    if 4 ≤ big then requestRange i (r - 1) s
    else if 64 ≤ small then requestRange i (r + 1) s
    else s

/-- The word of system `i` at this instant is delivered (R102 to R104): to FE_RESULT, and to the latch of each engine placed on the
head. -/
def stepWord (g : GridIn) (n i : Nat) (s : State) : State :=
  if !s.isWord i n then s
  else
    let x := s.sys i
    let blind := s.blind i
    let v := ((g.volts.find? (fun p => p.1.val == i)).map Prod.snd).getD 0
    let p := if blind then (0, s) else sample i v s
    let d := max (-32768) (min 32767 p.1)
    let s := p.2
    let r := s.fld FE_GAIN.RANGE i
    let test := match x.inj with | some j => j.left != 0 | none => false
    let ovr := r == 0 && d != p.1
    let hold := s.isSet FE_STATUS.DIP && x.exc.mode != 0
    let seq := (s.fld FE_RESULT.WORD i / 2 ^ 24 + 1) % 256
    let w := unsgn 16 d + r * 2 ^ 16 + bit blind * 2 ^ 18 + bit test * 2 ^ 19 + bit x.mux.isSome * 2 ^ 20 + bit ovr * 2 ^ 21
      + bit x.isOpen * 2 ^ 22 + bit hold * 2 ^ 23 + seq * 2 ^ 24
    let t := s.nowLow
    let s := (s.setFld FE_RESULT.WORD i w).modSys i (fun y => { y with wordTime := t })
    let l := (s.placed (i / 2)).filter (fun e => !s.seRetired e)
    let s := forEach l (fun e u => u.setLatchWord (3 + e) i (some (w, t))) s
    autoRange i (!blind && !test) d s

/-- The baseline of system `i` tracks the envelope `env`, in 1/256 of a DATA step, with a time constant of 8 s, which is 512,000 grid instants
(03 R145): a first-order step, rounded down (assumption 135). -/
def stepBase (i env : Nat) (s : State) : State :=
  if !s.tracks i then s
  else
    let f : Int := ((s.sys i).fine : Nat)
    moveBase i (f + (((env * 65536 : Nat) : Int) - f) / 512000).toNat s

/-! ### The instant -/

/-- Everything due at grid instant `n` (R105). A phase change of the detection program comes before a held WD_HCFG write (03 R161). -/
def atInstant (g : GridIn) (n : Nat) (s : State) : State :=
  let sys := List.range 64
  let heads := List.range 32
  let s := forEach sys (countWord n) s
  let s := forEach sys (stepInput g n) s
  let s := stepFaults g n s
  let s := stepDip n s
  let s := forEach heads stepHead (forEach heads stepWindow s)
  let s := forEach sys (stepAbort n) s
  let s := forEach sys stepRange s
  let s := forEach sys (stepExc n) s
  let s := forEach (List.range 72) (stepRetire n) s
  let s := forEach sys stepDiag s
  let s := forEach sys (stepInject n) s
  let s := forEach sys (stepWord g n) (forEach heads stepBlind s)
  let s := forEach g.envs (fun p => stepBase p.1.val p.2.toNat) s
  let s := forEach heads stepTally (forEach heads stepHcfg (forEach heads (stepDetect n) s))
  graftTurn (forEach heads stepProof s)

/-- GRID_INSTANT (R54): time passes to the next grid instant, and what is due there happens. -/
def execGridInstant (g : GridIn) (s : State) : Host.Outcome State Fault Refusal :=
  let p := s.comingInstant
  .next (atInstant g p.1 { s.advanceNow p.2 with gridNext := p.2 + 1 })

/-- The state at the next grid instant, at which what a command names happens; the instant itself is still to come. -/
def State.atComing (s : State) : State := s.advanceNow s.comingInstant.2

/-- WINDOW_CLOSE (R79): the window of head `k` closes at the coming grid instant, its last count. -/
def execWindowClose (k : Fin 32) (s : State) : Host.Outcome State Fault Refusal :=
  let k := k.val
  if s.window k && !s.opens k && decide ((s.head k).closing ≤ 1) then
    .next ((s.atComing.putFbit FE_WINDOW.WIN 0 k false).modHead k (fun h => { h with closing := 0 }))
  else .next s

/-- SETTLING_END (R85): the coming word of system `i` is the first after its settling delay. -/
def execSettlingEnd (i : Fin 64) (s : State) : Host.Outcome State Fault Refusal :=
  if (s.sys i.val).settle = 1 && s.isWord i.val s.comingInstant.1 then .next (settled i.val s.atComing) else .next s

/-- INJECTION_END (R71): the injection of system `i` has run for DUR words at the coming word. -/
def execInjectionEnd (i : Fin 64) (s : State) : Host.Outcome State Fault Refusal :=
  match (s.sys i.val).inj with
  | some j =>
    if j.left = 1 && s.isWord i.val s.comingInstant.1 then
      let s := s.atComing
      .next (s.modSys i.val (fun x => { x with inj := some { j.endAt s.nowTu with tail := 9 } }))
    else .next s
  | none => .next s

/-- The wheel window of head `k` will be open at the coming grid instant (R79). -/
def State.opensNext (s : State) (k : Nat) : Bool := s.opens k || decide (1 < (s.head k).closing)

/-- The detection program may change the phase of head `k` at the coming grid instant: it runs on an engine placed on the head, and the
pair is evaluated there (03 R131). -/
def State.phaseNext (s : State) (k : Nat) : Bool :=
  s.isSet WD_HCFG.HEN k && (s.detTables k).isSome && (s.placed k).any s.detects && s.evalDue k s.comingInstant.1

/-- HEN_CHANGE (03 R161): a held WD_HCFG write of head `k` takes effect at the coming grid instant, its window closed. Where the detection
program may change the phase at that instant, which comes first, GRID_INSTANT makes both, and this command leaves the write held
(DESIGN CHOICE, assumption 173). -/
def execHenChange (k : Fin 32) (s : State) : Host.Outcome State Fault Refusal :=
  match (s.head k.val).cfg with
  | some v => if s.opensNext k.val || s.phaseNext k.val then .next s else .next (applyHcfg k.val v s.atComing)
  | none => .next s

/-- HAND_OVER (08 R312): a pending hand-over of head `k` takes effect at the coming grid instant, its window closed there (step 3 of Table
FE-11). -/
def execHandOver (k : Fin 32) (s : State) : Host.Outcome State Fault Refusal :=
  let t := s.atComing
  if t.handOverDue k.val && !s.opensNext k.val then .next (takeHandOver k.val t) else .next s

end Sys2Proof.Machine
end

