-- ==== Sys2Proof/Machine/Proposals.lean ====
section
/-! DEFINITION. The agreement of safety commands and the registers of the host ports (12 R469 to R488). -/

namespace Sys2Proof.Machine

/-! ### Proposals and agreement (R470 to R474) -/

/-- The agreement window in TU, HP_CTRL.AGREEW in 100 µs units. -/
def State.agreeTu (s : State) : Nat := s.fld HP_CTRL.AGREEW * 12500

/-- The pending proposals of a port but for one. -/
def dropProp (p : Nat) (x : Proposal) (s : State) : State :=
  s.modPort p (fun y => { y with props := y.props.erase x })

/-- All pending proposals of a port are discarded (R469, R476). -/
def dropProps (p : Nat) (s : State) : State := s.modPort p (fun y => { y with props := [] })

/-- HP_AGRST and HP_AGRVAL (Table HP-11). -/
def noteAgr (ev reg ports : Nat) (s : State) : State :=
  ((s.setFld HP_AGRST.ADDR 0 reg).setFld HP_AGRST.PORTS 0 ports).setFld HP_AGRST.EVENT 0 ev

/-- The pending proposals for a register of the other ports, with their port, the earliest stamp first (R474). -/
def State.rivals (s : State) (p reg : Nat) : List (Nat × Proposal) :=
  let l := ([0, 1, 2].filter (fun x => x != p)).flatMap (fun x => ((s.port x).props.filter (fun y => y.reg == reg)).map (fun y => (x, y)))
  match l with
  | [a, b] => if b.2.stamp < a.2.stamp then [b, a] else [a, b]
  | _ => l

/-- The AW fields of register `reg` take the agreed value as one write (R471, 00 R16): a read returns it (00 Table SC-5). -/
def takeAgreed (reg val : Nat) (s : State) : State :=
  let fs := if reg = BB_CMD.addr then BB_CMD.fields else if reg = GR_CMD.addr then GR_CMD.fields else []
  forEach fs (fun f => State.setFld f 0 (f.of val)) s

/-- The two proposals agree (R471): both are consumed, the register takes the value, the effect of that write waits for its command,
and the window of R472 opens. -/
def agree (p reg val : Nat) (r : Nat × Proposal) (s : State) : State :=
  let ports := 2 ^ p + 2 ^ r.1
  let s := (noteAgr 1 reg ports (dropProp r.1 r.2 s)).setFld HP_AGRVAL.VALUE 0 val
  let g : Agreement := { reg := reg, val := val, time := s.tb, ports := [p, r.1] }
  let old := s.agreements.filter (fun x : Agreement => decide (s.tb ≤ x.time + s.agreeTu))
  (takeAgreed reg val { s with agreements := old ++ [g], agreed := s.agreed ++ [(reg, val)] }).flag HP_STATUS.AGREED evHP

/-- A host's write to an AW register, latched at `t`, registers its proposal (R470), concurs with an agreement made already (R472), or agrees with a
pending proposal (R471); differing proposals set DISAGREE (R473). A
concurrence sets the port's bit in the agreement's own record, which stands in HP_AGRST again where another event has replaced it (DESIGN
CHOICE, assumption 183). -/
def propose (p reg val t : Nat) (s : State) : State :=
  let w := s.agreeTu
  match s.agreements.find? (fun g => g.reg == reg && g.val == val && decide (t ≤ g.time + w) && !g.ports.contains p) with
  | some g =>
    let ports := g.ports ++ [p]
    let s := { s with agreements := s.agreements.map (fun x => if x = g then { x with ports := ports } else x) }
    (noteAgr 1 reg ((ports.map (fun i => 2 ^ i)).foldl (· + ·) 0) s).setFld HP_AGRVAL.VALUE 0 val
  | none =>
    let mine := (s.port p).props.filter (fun x => x.reg != reg)
    let rs := s.rivals p reg
    match rs.find? (fun r => r.2.val == val && decide (t ≤ r.2.stamp + w)) with
    | some r => agree p reg val r (s.modPort p (fun y => { y with props := mine }))
    | none =>
      let s := s.modPort p (fun y => { y with props := mine ++ [{ reg := reg, val := val, stamp := t }] })
      match rs.find? (fun r => r.2.val != val && decide (t ≤ r.2.stamp + w)) with
      | some r => (noteAgr 3 reg (2 ^ p + 2 ^ r.1) s).flag HP_STATUS.DISAGREE evHP
      | none => s

/-- The pending proposal with the earliest stamp, of equal stamps that of the lowest port. -/
def State.oldestProp (s : State) : Option (Nat × Proposal) :=
  ([0, 1, 2].flatMap (fun p => (s.port p).props.map (fun x => (p, x)))).foldl (fun b x =>
    match b with
    | none => some x
    | some y => if x.2.stamp < y.2.stamp then some x else some y) none

/-- PROPOSAL_EXPIRY (R473): AGREEW after its stamp, the oldest pending proposal expires. -/
def execProposalExpiry (s : State) : Host.Outcome State Fault Refusal :=
  match s.oldestProp with
  | none => .next s
  | some (p, x) =>
    let s := dropProp p x (s.advanceTo (x.stamp + s.agreeTu))
    let s := (noteAgr 2 x.reg (2 ^ p) s).setFld HP_AGRVAL.VALUE 0 x.val
    .next ((s.setFld HP_PSTATUS.AGRFAIL p 1).flag HP_STATUS.EXPIRED evHP)

/-! ### The event queue (R483) -/

/-- A read of HP_QLO of port `p`: its own host takes the oldest entry and latches its upper half. -/
def readQlo (q : Req) (p : Nat) (s : State) : Nat × State :=
  let own := match q with
    | .host x => x.val == p
    | _ => false
  let e := ((s.port p).queue.head?).getD 0
  if own then
    (e % 2 ^ 32, modeReturn p ((s.modPort p (fun x => { x with queue := x.queue.tail })).setFld HP_QHI.EHI p (e / 2 ^ 32)))
  else (e % 2 ^ 32, s)

/-! ### Register writes (R469, R485 to R488) -/

/-- A write of HP_CTRL (Table HP-10). -/
def hpCtrl (q : Req) (v : Nat) (s : State) : State :=
  let a := HP_CTRL.AGREEW.of v
  if q.voted && (a == 0 || decide (100 < a) || HP_CTRL.RDYTO.of v == 0) then s.flag HP_STATUS.CFGERR evHP
  else writeFields q HP_CTRL.fields 0 v s

/-- A write of HP_PCTRL of port `p`: clearing EN discards the port's pending proposals (R469). -/
def hpPctrl (q : Req) (p v : Nat) (s : State) : State :=
  let s := writeFields q HP_PCTRL.fields p v s
  if s.isSet HP_PCTRL.EN p then s else dropProps p s

/-- The requester is the host of port `p`. -/
def ownHost (q : Req) (p : Nat) : Bool :=
  match q with
  | .host x => x.val == p
  | _ => false

/-- A write of HP_PSTATUS of port `p` (R487). -/
def hpPstatus (q : Req) (p v : Nat) (s : State) : State :=
  if ownHost q p || q.voted then writeFields q HP_PSTATUS.fields p v s else s.reject q

/-- A write of HP_POV (R485, R487). -/
def hpPov (q : Req) (p v : Nat) (s : State) : State :=
  if ownHost q p then modeReturn p (writeFields q HP_POV.fields p v s) else s.reject q

/-- A write of a word of the dirty bitmap, instance `i` of HP_DIRTY (R485, R487). -/
def hpDirty (q : Req) (i v : Nat) (s : State) : State :=
  if ownHost q (i / 72) then modeReturn (i / 72) (writeFields q HP_DIRTY.fields i v s) else s.reject q

/-! ### Views -/

/-- HP_DSUM word `n` of port `p` (R485). -/
def State.dsum (s : State) (p n : Nat) : Nat :=
  ((List.range 32).map (fun i =>
    bit (decide (32 * n + i < 72) && s.fld HP_DIRTY.D (p * 72 + 32 * n + i) != 0) * 2 ^ i)).foldl (· + ·) 0

/-- HP_PPROP of port `p`: its latest pending proposal (Table HP-14). -/
def State.pprop (s : State) (p : Nat) : Nat :=
  match (s.port p).props.getLast? with
  | some x => x.reg + 2 ^ 16
  | none => 0

/-- HP_PPVAL of port `p`. -/
def State.ppval (s : State) (p : Nat) : Nat :=
  match (s.port p).props.getLast? with
  | some x => x.val
  | none => 0

/-- HP_PSTATUS of port `p` (Table HP-12). -/
def State.pstatus (s : State) (p : Nat) : Nat :=
  let n := (s.port p).queue.length
  s.fld HP_PSTATUS.ERR p + s.fld HP_PSTATUS.BITMAP p * 2 + s.fld HP_PSTATUS.CMD p * 4 + s.fld HP_PSTATUS.AGRFAIL p * 8
    + bit (n != 0) * 2 ^ 16 + s.fld HP_PSTATUS.MODE p * 2 ^ 17 + bit s.isSafe * 2 ^ 18 + n * 2 ^ 19

end Sys2Proof.Machine
end

