-- ==== Sys2Proof/Machine/Sections.lean ====
section
/-! DEFINITION. The section program (04 R164 to R203): claims of local events, hold lists, classes, guards, commands, restart,
provisional occupancy; fingerprint recording and matches (05 R213 to R227). -/

namespace Sys2Proof.Machine

/-! ### The record as a whole (Table BB-2) -/

/-- The section body and point list of a bobbin, read out of its record. -/
structure Sec where
  state : Nat
  report : Nat
  prog : Nat
  sat : Bool
  aborted : Bool
  axseen : Bool
  lastcls : Nat
  clrv : Bool
  count : Int
  timer : Nat
  dcause : Nat
  dstate : Nat
  depoch : Nat
  cepoch : Nat
  dtime : Nat
  clrt : Nat
  npts : Nat
  table : Nat
  holdt : Nat
  applied : Nat
  laten : Nat
  lostn : Nat
  points : List Nat

/-- Read the body and point list of bobbin `b`. -/
def State.readSec (s : State) (b : Nat) : Sec :=
  let k := bobAddr b
  let w0 := s.rdW k
  let w1 := s.rdW (k + 4)
  let w2 := s.rdW (k + 8)
  let w5 := s.rdW (k + 0x14)
  let w7 := s.rdW (k + 0x1C)
  { state := bitsOf w0 0 4, report := bitsOf w0 4 4, prog := bitsOf w0 8 4, sat := w0.testBit 12, aborted := w0.testBit 13,
    axseen := w0.testBit 14, lastcls := bitsOf w0 15 5, clrv := w0.testBit 20, count := sgn 16 w1, timer := w1 / 65536,
    dcause := bitsOf w2 0 5, dstate := bitsOf w2 8 4, depoch := bitsOf w2 12 4, cepoch := bitsOf w2 16 4,
    dtime := s.rdW (k + 0xC), clrt := s.rdW (k + 0x10), npts := bitsOf w5 0 5, table := bitsOf w5 5 3, holdt := bitsOf w5 8 8,
    applied := s.rdW (k + 0x18), laten := w7 % 65536, lostn := w7 / 65536, points := s.pointList b }

/-- The first word of the body. -/
def Sec.word0 (r : Sec) : Nat :=
  r.state + r.report * 2 ^ 4 + r.prog * 2 ^ 8 + bit r.sat * 2 ^ 12 + bit r.aborted * 2 ^ 13 + bit r.axseen * 2 ^ 14
    + r.lastcls * 2 ^ 15 + bit r.clrv * 2 ^ 20

/-- The words of the section body before its reserved ones. -/
def Sec.words (r : Sec) : List Nat :=
  [r.word0, unsgn 16 r.count + r.timer * 65536, r.dcause + r.dstate * 2 ^ 8 + r.depoch * 2 ^ 12 + r.cepoch * 2 ^ 16, r.dtime,
    r.clrt, r.npts + r.table * 2 ^ 5 + r.holdt * 2 ^ 8, r.applied % 2 ^ 32, r.laten + r.lostn * 65536]

/-- Write the body and point list of bobbin `b`, by voted writes. -/
def writeSec (b : Nat) (r : Sec) (s : State) : State :=
  let s := (writeSpan 12 (bobAddr b) (r.words.flatMap (bytesOf 4)) s).2
  (writeSpan 12 (bobAddr b + 0x40) (r.points.flatMap (bytesOf 4)) s).2

/-- The hidden state of bobbin `b`. -/
def State.sec (s : State) (b : Nat) : SecSt := Tab.get SecSt.reset s.secs b

/-- Change it. -/
def State.modSec (b : Nat) (f : SecSt → SecSt) (s : State) : State := { s with secs := Tab.set SecSt.reset s.secs b (f (s.sec b)) }

/-! ### Section tables (Tables BB-7 to BB-9) -/

/-- The descriptor of state `st` of the table at `a`. -/
def State.desc (s : State) (a st : Nat) : Nat := s.rdW (a + 8 + 4 * st)

/-- REPORT of a descriptor. -/
def descReport (d : Nat) : Nat := d % 16
/-- PROC. -/
def descProc (d : Nat) : Bool := d.testBit 4
/-- TIMEOUT. -/
def descTimeout (d : Nat) : Nat := bitsOf d 8 16

/-- The entry for state `st` and class `c`. -/
def State.tabEntry (s : State) (a st c : Nat) : Nat := s.rd (a + 8 + 4 * s.rd (a + 4) 1 + 64 * st + 2 * c) 2

/-! ### What the section program knows of a point (R178) -/

/-- The bits of Table CK-7 that hold the facts since the previous status. -/
def factMask : Nat := 2 ^ 13 + 2 ^ 14 + 2 ^ 15 + 2 ^ 17

/-- The facts that the latches of head `k` hold. -/
def State.latchFacts (s : State) (k : Nat) : Nat :=
  bit (s.fbit BB_BLINDLAT.LAT k) * 2 ^ 13 + bit (s.fbit BB_DIPLAT.LAT k) * 2 ^ 14 + s.fld WD_PROOF.FAIL k * 2 ^ 15
    + bit (s.fbit BB_ORPHLAT.LAT k) * 2 ^ 17

/-- Head `k` is in use: HEN, and placed (R203, 08 R308). -/
def State.inUse (s : State) (k : Nat) : Bool := s.isSet WD_HCFG.HEN k && s.fld GR_HPLACE.PRIM k != 7

/-- The status of a point as the section program sees it: clean, window open, blind now, proof-stale, present with its head in
use. -/
structure Look where
  clean : Bool
  win : Bool
  blind : Bool
  stale : Bool
  here : Bool

/-- The look at point `p`. -/
def State.look (s : State) (p : Nat) : Look :=
  let e := s.pointEntry p
  if entryLocal e then
    let k := entryHead e
    { clean := s.fbit WD_CLEAN.CLEAN k, win := s.isOpen k, blind := s.fbit FE_HEADBLIND.HB k, stale := s.fbit WD_PSTALE.STALE k,
      here := s.inUse k }
  else
    let r := Tab.get (0, 0) s.remotes p
    let v := r.1
    { clean := v.testBit 11, win := v.testBit 12, blind := v.testBit 13, stale := v.testBit 16,
      here := v.testBit 18 && decide (0 < r.2) && decide (s.cycle ≤ r.2) }

/-- A claim for a local point is pending or still to be made (R177, R182). -/
def State.claimOpen (s : State) (p : Nat) : Bool :=
  (match s.headOf p with
    | some k => (s.head k).claim.isSome
    | none => false) || s.claims.any (fun c => c.code.isNone && evPoint c.ev == p)

/-! ### Claims (R182, 03 R152, R155) -/

/-- The head event as it is transmitted (03 R155). -/
def marked (ev code : Nat) : Nat := if code ≤ 1 then putBit ev 119 true else putBit ev 118 true

/-- A final result reaches the event in the list of claims, and the event may be transmitted. -/
def finishClaim (ev code : Nat) (s : State) : State :=
  { s with claims := s.claims.map (fun c => if c.ev = ev then { c with code := some code } else c),
           txEvents := s.txEvents ++ [marked ev code] }

/-- The claims of head `k`, one at a time in ascending TIME, while none is pending (R182). A claim that was pending takes the result that
ended it, whatever WD_HCLM shows by now (03 R155). -/
def claimHead (k : Nat) : Nat → State → State
  | 0, s => s
  | n + 1, s =>
    if (s.head k).claim.isSome then s
    else
      let mine := s.claims.filter (fun c => c.code.isNone && s.headOf (evPoint c.ev) == some k)
      match mine.find? (fun c => c.made) with
      | some c =>
        claimHead k n (finishClaim c.ev ((s.head k).result.getD (s.fld WD_HCLM.CODE k)) (s.modHead k (fun h => { h with result := none })))
      | none =>
        match (mine.map Claimed.ev).foldr evInsert [] with
        | [] => s
        | ev :: _ =>
          let s := s.setFld WD_CLAIMT.TIME 0 (evTime ev)
          let s := wdClaim .hw (k + evDir ev * 2 ^ WD_CLAIM.DIR.lo) s
          let code := s.fld WD_CLAIMRES.CODE
          if code = 4 then { s with claims := s.claims.map (fun c => if c.ev = ev then { c with made := true } else c) }
          else claimHead k n (finishClaim ev code s)

/-- A local event is noted for the mirror's point word. -/
def noteTaken (ev : Nat) (s : State) : State :=
  let t := Tab.get { seq := 0, dir := 0, n := 0 : Taken } s.takens (evPoint ev)
  let new : Taken := { seq := evSeq ev, dir := evDir ev, n := (t.n + 1) % 256 }
  { s with takens := Tab.set { seq := 0, dir := 0, n := 0 } s.takens (evPoint ev) new }

/-- The Heartwood takes the events of the origin ring (R610, R182): a test event is transmitted as it is, a wheel event waits
for its claim; a point without a head gets NOTLOCAL. -/
def takeOrigin (s : State) : State :=
  let ri := s.fld BB_ORIGIDX.RI
  let n := ringUsed 128 (s.fld BB_ORIGIDX.WI) ri
  let s := forEach (List.range n) (fun i t =>
    let k := t.fld BB_ORIGBASE.BASE + (ri + i) % 64 * 16
    let d := t.readBlock 12 k
    let t := d.2
    if !d.1 then t
    else
      let ev := t.rd k 16
      let t := noteTaken ev t
      if evDir ev = 0 then { t with claims := t.claims ++ [{ ev := ev, made := true, code := some 8 }], txEvents := t.txEvents ++ [ev] }
      else
        let t := { t with claims := t.claims ++ [{ ev := ev, made := false, code := none }] }
        if (t.headOf (evPoint ev)).isNone then finishClaim ev 5 t else t) s
  let s := s.setFld BB_ORIGIDX.RI 0 (ri + n)
  forEach (List.range 32) (fun k => claimHead k 64) s

/-! ### Taking events into the hold list (R172, R183) -/

/-- One event enters the hold list of bobbin `b`. -/
def holdEvent (b ev : Nat) (remote : Bool) (s : State) : State :=
  let k := b * 2048 + evPoint ev
  let gap := match (s.pt k).exp with
    | some e => e != evSeq ev
    | none => false
  let s := s.modPt k (fun p => { p with exp := some ((evSeq ev + 1) % 16) })
  let s := onlyIf remote (noteTaken ev) s
  s.modSec b (fun x => { x with hold := x.hold ++ [{ ev := ev, remote := remote, gap := gap }] })

/-- Copy the unacknowledged events of one ring of bobbin `b` while the hold list has room, and acknowledge them. An uncorrectable slot is a
MEMERR in the record (11 R438). -/
def takeRing (b : Nat) (remote : Bool) (s : State) : State :=
  let wf := if remote then BB_INB.RWI else BB_INB.LWI
  let rf := if remote then BB_INB.RRI else BB_INB.LRI
  let ri := s.fld rf b
  let n := min (ringUsed 32 (s.fld wf b) ri) (64 - (s.sec b).hold.length)
  let s := forEach (List.range n) (fun i t =>
    let k := bobAddr b + (if remote then 0x300 else 0x200) + (ri + i) % 16 * 16
    let d := t.readBlock 12 k
    if d.1 then holdEvent b (t.rd k 16) remote d.2 else d.2.modSec b (fun y => { y with memerr := true })) s
  s.setFld rf b (ri + n)

/-! ### Guards (Table BB-10) -/

/-- An evaluation under way: the state, and the record as it will be written. -/
structure Ev where
  s : State
  r : Sec

/-- Guard ZERO. -/
def Ev.zero (x : Ev) : Bool := x.r.count == 0 && !x.r.sat

/-- Guard SAFE. -/
def Ev.safe (b : Nat) (x : Ev) : Bool :=
  x.zero && (x.s.sec b).hold.isEmpty && x.r.points.all (fun w =>
    let p := plPoint w
    let l := x.s.look p
    l.clean && !l.win && !l.blind && !l.stale && !(x.s.pt (b * 2048 + p)).lost && !x.s.claimOpen p)

/-- Guard FPOK (05 R224): SAFE, and a clearance-mode match that the section program runs and stores. -/
def Ev.fpok (b : Nat) (x : Ev) : Bool × Ev :=
  if !x.safe b then (false, x)
  else
    let m := runMatch b 0 x.s
    let s := fpFinish (fpMatch .hw b x.s)
    (decide (m.result % 16 ≤ 1), { x with s := fpStore b m s.time.epoch s })

/-- A guard of an entry. -/
def Ev.guard (b a g : Nat) (x : Ev) : Bool × Ev :=
  match g with
  | 0 => (true, x)
  | 1 => (x.zero, x)
  | 2 => (x.safe b, x)
  | 3 => (x.safe b && !x.r.axseen, x)
  | 4 => (x.safe b && decide (x.s.rd (a + 6) 1 ≤ x.r.prog), x)
  | 5 => x.fpok b
  | _ => (false, x)

/-! ### Applying a class (R187) -/

/-- The fingerprint buffer starts again (05 R213), and the predecessors are emptied (05 R216). -/
def Ev.fpStart (b : Nat) (inc : Bool) (x : Ev) : Ev :=
  { x with s := (Sys2Proof.Machine.fpStart b inc x.s.time.epoch x.s).modSec b (fun y => { y with preds := [] }) }

/-- enter(t) of R187, for class `c`. -/
def Ev.enter (b a c t : Nat) (x : Ev) : Ev :=
  let d := x.s.desc a t
  let old := x.s.desc a x.r.state
  let r := x.r
  let r := if descReport d = 2 && descReport old != 2 then
      { r with dcause := c, dstate := r.state, dtime := x.s.nowLow, depoch := x.s.time.epoch } else r
  let clear := descReport d == 0
  let r := if clear then { r with clrt := x.s.nowLow, cepoch := x.s.time.epoch, clrv := true, aborted := false } else r
  let r := { r with prog := if descProc d then r.prog else 0, axseen := false, timer := descTimeout d, state := t }
  let x := { x with r := r }
  if clear then x.fpStart b false else x

/-- Apply class `c` to bobbin `b` under the table at `a` (R187): the result is 2 accepted, 3 guard failed, 4 refused. -/
def Ev.apply (b a c : Nat) (x : Ev) : Nat × Ev :=
  let e := x.s.tabEntry a x.r.state c
  let done (x : Ev) : Ev := { x with r := { x.r with lastcls := c } }
  if decide (21 ≤ c) && decide (c ≤ 29) && e.testBit 14 then (4, done x)
  else
    let x := if e.testBit 11 then
        let r := { x.r with count := 0, sat := false, points := x.r.points.map (fun w => w % 65536) }
        { x with r := r }.fpStart b false
      else x
    let x := if e.testBit 13 then { x with r := { x.r with prog := min 15 (x.r.prog + 1) } } else x
    let x := if (decide (1 ≤ c) && decide (c ≤ 4)) || c == 6 then { x with r := { x.r with axseen := true } } else x
    let g := x.guard b a (bitsOf e 8 3)
    let target := if g.1 then bitsOf e 0 4 else bitsOf e 4 4
    let x := g.2
    let x := if target ≠ x.r.state then x.enter b a c target
      else if e.testBit 12 then { x with r := { x.r with timer := descTimeout (x.s.desc a target) } } else x
    (if g.1 then 2 else 3, done x)

/-- Present a class whose result is of no concern. -/
def Ev.present (b a c : Nat) (x : Ev) : Ev := (x.apply b a c).2

/-- A LOST of point `p` is presented (R183, R184): outstanding until REGAIN. -/
def Ev.lost (b a p : Nat) (x : Ev) : Ev :=
  let s := x.s.modPt (b * 2048 + p) (fun t => { t with lost := true, since := x.s.cycle })
  ({ s := s, r := { x.r with lostn := min 65535 (x.r.lostn + 1) } } : Ev).present b a 17

/-! ### Points (order 2 and 3 of Table BB-11) -/

/-- REGAIN of point `p`, when its status has been present for a whole cycle (R184). -/
def Ev.regain (b a p : Nat) (x : Ev) : Ev :=
  let t := x.s.pt (b * 2048 + p)
  if t.lost && (x.s.look p).here && !t.down && !t.acc.testBit 31 && !t.acc.testBit missedBit && decide (t.since + 2 ≤ x.s.cycle) then
    ({ x with s := x.s.modPt (b * 2048 + p) (fun y => { y with lost := false, exp := none }) } : Ev).present b a 18
  else x

/-- LOST of point `p`, when its status is missing or its head out of use since the last evaluation, its head was moved by force
(08 R316), a frame of its node has not come (07 R282), or its status names another SEQ than the last event's (R183, 07 R275). -/
def Ev.missing (b a p : Nat) (x : Ev) : Ev :=
  let k := b * 2048 + p
  let t := x.s.pt k
  let l := x.s.look p
  let moved := t.acc.testBit 31 || t.acc.testBit missedBit
  let v := (Tab.get (0, 0) x.s.remotes p).1
  let idle := (x.s.sec b).hold.length < 64
  let behind := !entryLocal (x.s.pointEntry p) && l.here && idle && !v.testBit 23
    && (match t.exp with
      | some e => (e + 15) % 16 != bitsOf v 19 4
      | none => false)
  if !l.here then
    let x := if t.down then x else x.lost b a p
    { x with s := x.s.modPt k (fun y => { y with down := true, since := x.s.cycle }) }
  else if moved then x.lost b a p
  else if behind && !t.lost then x.lost b a p
  else x

/-- The facts of point `p` that bobbin `b` has not presented: new latches of a local head, or those of remote statuses; bit 12
became not clean, or in use again, bit 16 became stale. The facts are then presented. -/
def Ev.facts (b p : Nat) (x : Ev) : Nat × Ev :=
  let k := b * 2048 + p
  let t := x.s.pt k
  let e := x.s.pointEntry p
  let l := x.s.look p
  let back := t.acc.testBit 31 || (t.down && l.here && entryLocal e)
  let new := if entryLocal e then
      let f := x.s.latchFacts (entryHead e)
      f - (f &&& t.done)
    else t.acc &&& factMask
  let all := new + bit ((t.clean && !l.clean) || back) * 2 ^ 12 + bit (!t.stale && l.stale) * 2 ^ 16
  let done := if entryLocal e then x.s.latchFacts (entryHead e) else 0
  (all, { x with s := x.s.modPt k (fun y =>
    { y with acc := 0, done := done, clean := l.clean, stale := l.stale, down := !l.here }) })

/-- The classes of order 3, each once (R185). -/
def factClasses : List (Nat × Nat) := [(17, 9), (13, 10), (14, 11), (12, 12), (15, 14), (16, 15)]

/-! ### Released events (order 4) -/

/-- The count class of an event with d (R179, Table BB-4): class, count, saturation. -/
def countClass (r : Sec) (exit : Bool) : Nat × Int × Bool :=
  let d : Int := if exit then -1 else 1
  let n := r.count + d
  if r.sat then (5, r.count, true)
  else if n < -32768 ∨ 32767 < n then (5, if exit then -32768 else 32767, true)
  else if exit then (if 0 < n then 2 else if n = 0 then 3 else 4, n, false)
  else (if 0 < n then 1 else 4, n, false)

/-- A counting event (R179, 05 R215 to R217): count, NET, the record, the class. -/
def Ev.countEvent (b a ev : Nat) (x : Ev) : Ev :=
  let p := evPoint ev
  let i := (x.r.points.takeWhile (fun w => plPoint w != p)).length
  let w := x.r.points[i]?.getD 0
  let exit := evExit ev (w.testBit 11)
  let c := countClass x.r exit
  let net := if c.1 = 5 then w / 65536 else (w / 65536 + (if exit then 65535 else 1)) % 65536
  let r := { x.r with count := c.2.1, sat := c.2.2, points := x.r.points.set i (w % 65536 + net * 65536) }
  let x := { x with r := r, s := x.s.modSec b (fun y => { y with counted := true }) }
  if c.1 = 5 then x.present b a 5
  else
    let pr := ((x.s.sec b).preds.find? (fun q => q.point == p)).map (fun q =>
      { time := q.time, epoch := q.epoch, speed := q.speed, half := q.half, exit := q.exit : FpEvent })
    let me := predOf ev (w.testBit 11)
    let sp := spacing pr { time := me.time, epoch := me.epoch, speed := me.speed, half := me.half, exit := exit }
    let s := fpAppend b exit sp i (ev.testBit 116) (w.testBit 12) x.s
    let s := s.modSec b (fun y => { y with preds := putPred me y.preds })
    ({ x with s := s } : Ev).present b a c.1

/-- Table BB-5: the class of a wheel event's result. -/
def Ev.wheelEvent (b a : Nat) (h : Held) (x : Ev) : Ev :=
  let ev := h.ev
  let known := evDir ev == 1 || evDir ev == 2
  if h.remote then
    if ev.testBit 119 && !ev.testBit 118 then (if known then x.countEvent b a ev else x.present b a 6) else x.present b a 7
  else
    match (x.s.claimCodeOf ev).getD 2 with
    | 0 => if known then x.countEvent b a ev else x.present b a 7
    | 1 => if known then x.countEvent b a ev else x.present b a 6
    | 3 => x.present b a 8
    | _ => x.present b a 7

/-- Release an event (R174, R176, R181): it leaves the hold list, and its classes are presented in the order of Table BB-5. A test event
goes to the engine proof (03 R158). -/
def Ev.release (b a : Nat) (h : Held) (x : Ev) : Ev :=
  let ev := h.ev
  let s := x.s.modSec b (fun y => { y with hold := y.hold.erase h, rel := some (evPoint ev, evTime ev % 2 ^ 32, evEpoch ev) })
  let x : Ev := { s := s, r := { x.r with applied := (x.r.applied + 1) % 2 ^ 32 } }
  let x := if h.gap then x.lost b a (evPoint ev) else x
  if evDir ev = 0 then { x with s := noteTest ev x.s }
  else
    let old := olderEpoch (evEpoch ev) x.s.time.epoch
    let late := (x.r.clrv && evEpoch ev == x.r.cepoch && decide (tdiff (evTime ev) x.r.clrt < 0))
      || (old && descReport (x.s.desc a x.r.state) == 0)
    let x := if late then
        ({ x with r := { x.r with laten := min 65535 (x.r.laten + 1) } } : Ev).present b a 19
      else x
    let x := x.wheelEvent b a h
    if ev.testBit 114 then x.present b a 16 else x

/-- The event that may be released next, if any (R174, R176). -/
def Ev.next (b : Nat) (x : Ev) : Option Held :=
  let l := (x.s.sec b).hold
  let final (h : Held) : Bool := h.remote || (x.s.claimCodeOf h.ev).isSome
  match l.find? (fun h => evEpoch h.ev != x.s.time.epoch) with
  | some h => if final h then some h else none
  | none =>
    match (l.map Held.ev).foldr evInsert [] with
    | [] => none
    | e :: _ =>
      match l.find? (fun h => h.ev == e) with
      | some h => if final h && decide (0 < tdiff x.s.nowTu (evTime e + x.r.holdt * 62500)) then some h else none
      | none => none

/-- Release every event that is due, in release order. -/
def Ev.releaseAll (b a : Nat) : Nat → Ev → Ev
  | 0, x => x
  | n + 1, x =>
    match x.next b with
    | some h => Ev.releaseAll b a n (x.release b a h)
    | none => x

/-! ### Restart (R198, R199) -/

/-- The restart of bobbin `b` under the table at `a`: INIT, the count and flags cleared, ABORTED from the record, then RESTART. A record
that boot has cleared and in which the bobbin has not run since holds no state, and ABORTED reads 0 (R199). -/
def Ev.restart (b a : Nat) (x : Ev) : Ev :=
  let bad := (List.range 4).any (fun i => decide (2 < x.s.badBits (bobAddr b + 16 * i)))
  let ab := bad || ((x.s.keeper.keep || (x.s.sec b).ran) && descProc (x.s.desc a x.r.state))
  let init := x.s.rd (a + 5) 1 % 16
  let r := { x.r with state := init, count := 0, sat := false, prog := 0, axseen := false, timer := 0, clrv := false, aborted := ab,
                      points := x.r.points.map (fun w => w % 65536) }
  let s := x.s.modSec b (fun _ => { SecSt.reset with started := true, ran := true })
  let s := forEach x.r.points (fun w => State.modPt (b * 2048 + plPoint w) (fun _ => PtSt.reset)) s
  let s := forEach (List.range 8) (fun i => State.setBad (bobAddr b + 16 * i) 0) s
  let s := (writeSpan 12 (bobAddr b + 0x20) (List.replicate 32 0#8) s).2
  (({ s := s, r := r } : Ev).fpStart b true).present b a 0

/-! ### Commands (order 7, R195) -/

/-- The class of a command code (Table BB-14). -/
def cmdClass (code : Nat) : Nat := if code ≤ 5 then 20 + code else 18 + code

/-- At most one queued command of bobbin `b` is presented, and its result kept for the commit (R195): the oldest of the queue, which BB_CMDQ shows and
BB_CMDPOP removes; it aborts a migration first (08 R328). Whether CMDFP was presented. -/
def Ev.command (b a : Nat) (x : Ev) : Bool × Ev :=
  match x.s.cmds.head?.filter (fun c => c.bob == b) with
  | none => (false, x)
  | some c =>
    let s := { x.s with cmds := x.s.cmds.tail }
    let s := match s.slotOf 0 b with
      | some m => if (s.mig m).switched then s else endMig m 3 9 true s
      | none => s
    let p := ({ x with s := s } : Ev).apply b a (cmdClass c.code)
    (c.code == 5, { p.2 with s := { p.2.s with results := p.2.s.results ++ [(c, p.1)] } })

/-- A localisation-mode match is due (05 R227): it runs at most once per bobbin and cycle, else in the next cycle. -/
def Ev.localise (b a : Nat) (counted fp : Bool) (x : Ev) : Ev :=
  let q := x.s.sec b
  let due := (counted && !fp && descReport (x.s.desc a x.r.state) == 2) || q.locDue
  if !due then x
  else if q.locAt = x.s.cycle + 1 then { x with s := x.s.modSec b (fun y => { y with locDue := true }) }
  else
    let m := runMatch b 1 x.s
    let s := fpFinish (fpMatch .hw (b + 256) x.s)
    let s := fpStore b m s.time.epoch s
    { x with s := s.modSec b (fun y => { y with locAt := x.s.cycle + 1, locDue := false }) }

/-! ### One bobbin (Table BB-11) -/

/-- The report of bobbin `b` after an evaluation (R177). -/
def Ev.report (b a : Nat) (x : Ev) : Nat :=
  let v := descReport (x.s.desc a x.r.state)
  if v = 0 && (!(x.s.sec b).hold.isEmpty || x.r.points.any (fun w => x.s.claimOpen (plPoint w))) then 1 else v

/-- Insert a number into an ascending list. -/
def natInsert (n : Nat) : List Nat → List Nat
  | [] => [n]
  | m :: t => if n ≤ m then n :: m :: t else m :: natInsert n t

/-- The points of a record, in ascending order. -/
def Sec.pointNumbers (r : Sec) : List Nat := (r.points.map plPoint).foldr natInsert []

/-- Orders 2 and 3 of Table BB-11: REGAIN, LOST of missing statuses, then the facts of the points. -/
def Ev.before (b a : Nat) (x : Ev) : Ev :=
  let x := { x with s := x.s.modSec b (fun y => { y with counted := false }) }
  let pts := x.r.pointNumbers
  let x := pts.foldl (fun y p => y.regain b a p) x
  let x := pts.foldl (fun y p => y.missing b a p) x
  let f := pts.foldl (fun (acc : Nat × Ev) p => let g := acc.2.facts b p; (acc.1 ||| g.1, g.2)) (0, x)
  factClasses.foldl (fun y c => if f.1.testBit c.1 then y.present b a c.2 else y) f.2

/-- Orders 5 to 7 of Table BB-11: QUIETHEADS, TIMEOUT, a command; then the localisation match (05 R227). -/
def Ev.after (b a : Nat) (x : Ev) : Ev :=
  let quiet := x.r.pointNumbers.all (fun p => let l := x.s.look p; l.clean && !l.win)
  let was := (x.s.sec b).quiet
  let x := { x with s := x.s.modSec b (fun y => { y with quiet := quiet }) }
  let x := if quiet && !was then x.present b a 13 else x
  let x := if (x.s.sec b).ranOut then
      ({ x with s := x.s.modSec b (fun y => { y with ranOut := false }) } : Ev).present b a 20
    else x
  let c := x.command b a
  c.2.localise b a (x.s.sec b).counted c.1

/-- Bobbin `b` gets classes: not a shadow-in bobbin before its install, which only takes events (08 R325), nor one with MEMERR (11
R438). -/
def State.evaluable (s : State) (b : Nat) : Bool :=
  !(s.fld GR_BMODE.MODE b == 1 && (s.mig (s.fld GR_BMODE.SLOT b)).inst.isNone) && !(s.sec b).memerr

/-- One part of the evaluation of bobbin `b` on its record, which is then written with the report of R177; none without a table. -/
def onRecord (b : Nat) (f : Nat → Ev → Ev) (s : State) : State :=
  if !s.evaluable b then s
  else match s.table 4 (s.readSec b).table with
    | none => s
    | some a =>
      let x := f a { s := s, r := s.readSec b }
      writeSec b { x.r with report := x.report b a } x.s

/-- `n` cycle boundaries pass for the state timer of bobbin `b` (R190). -/
def runTimer (b n : Nat) (s : State) : State :=
  let k := bobAddr b + 6
  let v := s.rd k 2
  if v = 0 ∨ n = 0 then s
  else onlyIf (decide (v ≤ n)) (State.modSec b (fun x => { x with ranOut := true })) (votedWr k 2 (v - n) s)

/-- The evaluation of bobbin `b` begins: the section program reads the record up to the rings (that it reads all of it is the model's choice,
assumption 178), and an uncorrectable block in it gives MEMERR (11 R438); the boundaries that its timer owes; RESTART at its first
evaluation (R198), which no uncorrectable block of body and point list stops; its rings' events (R172). -/
def startBobbin (b : Nat) (s : State) : State :=
  let q := s.sec b
  if !s.evaluable b then takeRing b true (takeRing b false s)
  else
    let r := if q.started then readSpan 12 (bobAddr b) 512 s else readSpan 12 (bobAddr b + 0x80) 384 s
    if !r.1 then r.2.modSec b (fun y => { y with memerr := true, started := true })
    else
      let s := if q.started then (runTimer b q.ticks r.2).modSec b (fun y => { y with ticks := 0 })
        else onRecord b (fun a x => x.restart b a) (readSpan 12 (bobAddr b) 128 r.2).2
      takeRing b true (takeRing b false s)

/-- Orders 2 and 3 for bobbin `b`. -/
def evalBefore (b : Nat) (s : State) : State := onRecord b (fun a x => x.before b a) (startBobbin b s)

/-- Orders 5 to 7 for bobbin `b`. -/
def evalAfter (b : Nat) (s : State) : State := onRecord b (fun a x => x.after b a) s

/-- Evaluate bobbin `b` whole. -/
def evalBobbin (b : Nat) (s : State) : State := evalAfter b (onRecord b (fun a x => x.releaseAll b a 64) (evalBefore b s))

/-! ### Release across bobbins (R182, R192) -/

/-- The event that bobbin `b` releases next, if any. -/
def State.nextOf (s : State) (b : Nat) : Option Held :=
  if s.evaluable b then ({ s := s, r := s.readSec b } : Ev).next b else none

/-- The next event in release order over a list of bobbins, with the bobbins that release it. -/
def State.nextAcross (s : State) (bs : List Nat) : Option (Nat × List Nat) :=
  let l := bs.filterMap (fun b => (s.nextOf b).map (fun h => (b, h.ev)))
  match (l.map Prod.snd).foldr evInsert [] with
  | [] => none
  | e :: _ => some (e, (l.filter (fun x => x.2 == e)).map Prod.fst)

/-- Bobbin `b` releases its next event. -/
def releaseOne (b : Nat) (s : State) : State :=
  onRecord b (fun a x => match x.next b with
    | some h => x.release b a h
    | none => x) s

/-! ### Latches (R178, R185) -/

/-- The facts of every LOCAL point are ORed into the accumulation (R178). -/
def accumulate (s : State) : State :=
  forEach s.localPoints (fun p t =>
    { t with accum := Tab.set 0 t.accum p (Tab.get 0 t.accum p ||| t.latchFacts (entryHead (t.pointEntry p))) }) s

/-- The latches of head `k` that `facts` names are cleared by voted writes. -/
def clearFacts (k facts : Nat) (s : State) : State :=
  let s := onlyIf (facts.testBit 13) (State.putFbit BB_BLINDLAT.LAT 0 k false) s
  let s := onlyIf (facts.testBit 14) (State.putFbit BB_DIPLAT.LAT 0 k false) s
  let s := onlyIf (facts.testBit 15) (State.setFld WD_PROOF.FAIL k 0) s
  onlyIf (facts.testBit 17) (State.putFbit BB_ORPHLAT.LAT 0 k false) s

/-- The latches of a LOCAL point that every active bobbin naming the point has presented are cleared (R185); with no such
bobbin, those in the accumulation (R178). -/
def clearLatches (p : Nat) (s : State) : State :=
  let e := s.pointEntry p
  let k := entryHead e
  let bs := (entryBobs e).filter (fun b => s.active b && !(s.sec b).memerr)
  let f := bs.foldl (fun v b => v &&& (s.pt (b * 2048 + p)).done) (s.latchFacts k)
  let s := clearFacts k f s
  forEach bs (fun b => State.modPt (b * 2048 + p) (fun y => { y with done := y.done - (y.done &&& f) })) s

/-! ### Which bobbins are evaluated together (R192) -/

/-- Two active bobbins share a point. -/
def State.linked (s : State) (a b : Nat) : Bool :=
  ((s.pointList a).map plPoint).any (fun p => ((s.pointList b).map plPoint).contains p)

/-- The chain of active bobbins linked to a list through shared points. -/
def State.chain (s : State) : Nat → List Nat → List Nat
  | 0, l => l
  | n + 1, l =>
    let more := (List.range 256).filter (fun b => s.active b && !l.contains b && l.any (fun a => s.linked a b))
    if more.isEmpty then l else s.chain n (l ++ more)

end Sys2Proof.Machine
end

