-- ==== Sys2Proof/Machine/Publish.lean ====
section
/-! DEFINITION. What an evaluation publishes (04 R192): the Canopy entry, the mirror's words (12 R477 to R479), the transmit buffers
(07 R274, R275, R280, R283) and the node's own state-store entry (07 R302); and the evaluation itself. -/

namespace Sys2Proof.Machine

/-! ### Mirror words (12 Tables HP-4 to HP-6) -/

/-- The state that bobbin `b` publishes (07 Table CK-5, 08 R329): 15 when inactive, not restarted since the reset or its activation (R166,
R198), shadow-in or with MEMERR. -/
def State.published (s : State) (b : Nat) : Nat :=
  if s.active b && (s.sec b).started && s.fld GR_BMODE.MODE b != 1 && !(s.sec b).memerr then bitsOf (s.rdW (bobAddr b)) 4 4 else 15

/-- The section word of bobbin `b` (12 Table HP-5). -/
def State.sectionWord (s : State) (b : Nat) : Nat :=
  let w := s.rdW (bobAddr b)
  s.published b + bitsOf w 0 4 * 2 ^ 4 + bitsOf w 8 4 * 2 ^ 8 + bitsOf w 12 2 * 2 ^ 12 + bit (s.active b) * 2 ^ 14
    + bit (s.fld GR_BMODE.MODE b == 2) * 2 ^ 15 + s.rdW (bobAddr b + 4) % 65536 * 2 ^ 16

/-- The section word of bobbin `b` is written; a change raises a SECTION entry (12 R482). -/
def writeSection (b : Nat) (s : State) : State :=
  let v := s.sectionWord b
  let old := s.mirror (0x40 + 4 * b)
  let s := mirrorWrite (0x40 + 4 * b) v s
  if old = v then s else hostSection b (v % 16) (v / 65536) s

/-- The point word of point `p` with the facts since the previous one (12 Table HP-6). -/
def State.pointWord (s : State) (p facts : Nat) : Nat :=
  let e := s.pointEntry p
  let l := s.look p
  let t := Tab.get { seq := 0, dir := 0, n := 0 : Taken } s.takens p
  let lost := (entryBobs e).any (fun b => s.active b && (s.pt (b * 2048 + p)).lost)
  bit (!(entryBobs e).isEmpty) + bit (entryLocal e) * 2 + bit (!l.clean) * 2 ^ 2 + bit (l.win || s.claimOpen p) * 2 ^ 3
    + bit (facts.testBit 13) * 2 ^ 4 + bit (facts.testBit 14) * 2 ^ 5 + bit (facts.testBit 15) * 2 ^ 6 + bit l.stale * 2 ^ 7
    + bit (facts.testBit 17) * 2 ^ 8 + bit (!l.here) * 2 ^ 9 + bit lost * 2 ^ 10 + t.seq * 2 ^ 11 + t.dir * 2 ^ 15 + t.n * 2 ^ 24

/-- The point word of point `p` is written; a change raises a POINT entry. -/
def writePointWord (p facts : Nat) (s : State) : State :=
  let v := s.pointWord p facts
  let old := s.mirror (0x440 + 4 * p)
  let s := mirrorWrite (0x440 + 4 * p) v s
  if old = v then s else hostPoint p s

/-- The head words of local head `k` (12 Table HP-6). -/
def writeHeadWords (k : Nat) (s : State) : State :=
  let mux := (s.sys (2 * k)).mux.isSome || (s.sys (2 * k + 1)).mux.isSome
  let s := mirrorWrite (0x2440 + 8 * k) (s.fld WD_HST.VMAX k + s.proofAge k * 65536) s
  mirrorWrite (0x2444 + 8 * k) (s.fld GR_HPLACE.PRIM k + s.fld GR_HPLACE.SHAD k * 2 ^ 4 + bit mux * 2 ^ 8
    + bit (s.fbit WD_PSTALE.STALE k) * 2 ^ 9) s

/-- The mirror's words about the device, and the reserved ones, which are 0 (12 Table HP-4). -/
def writeHeader (s : State) : State :=
  let ring := ((s.prick 0).map Prick.ring).getD 0
  let n := s.nowTu / s.cycleLen
  let act := ((List.range 256).filter s.active).length
  let s := mirrorWrite 0 0x4D490001 s
  let s := mirrorWrite 4 (s.me + ring * 2 ^ 10 + s.fld ID_BOOT.HWMODE * 2 ^ 13) s
  let s := (mirrorWrite 8 (n % 2 ^ 32) s)
  let s := mirrorWrite 0xC (n * s.cycleLen % 2 ^ 32) s
  let s := forEach (List.range 10) (fun j => mirrorWrite (0x18 + 4 * j) 0) s
  mirrorWrite 0x10 (s.time.epoch + s.fld TM_STATUS.TQLOW * 2 ^ 4 + s.time.tq * 2 ^ 5 + act * 2 ^ 8 + s.fld GR_STATUS.EVAC * 2 ^ 17
    + s.fld GR_STATUS.LEARN * 2 ^ 18) s

/-! ### Transmit buffers (07 R274, R275, R283, 04 R178) -/

/-- The bytes of SSTATE (07 Table CK-5). -/
def State.sstate (s : State) : List Byte :=
  (List.range 128).map (fun i => BitVec.ofNat 8 (s.published (2 * i) + s.published (2 * i + 1) * 16))

/-- The status of LOCAL point `p` (07 Table CK-7): an event that no frame has carried yet shows the window open, one left for a
later frame sets EVPEND. -/
def State.pstat (s : State) (p : Nat) (left : List Nat) : Nat :=
  let k := entryHead (s.pointEntry p)
  let pend := left.any (fun e => evPoint e == p)
  let wait := s.claims.any (fun c => c.code.isNone && evPoint c.ev == p)
  p + bit (s.fbit WD_CLEAN.CLEAN k) * 2 ^ 11 + bit (s.isOpen k || pend || wait) * 2 ^ 12 + (Tab.get 0 s.accum p &&& factMask)
    + bit (s.fbit WD_PSTALE.STALE k) * 2 ^ 16 + bit (s.inUse k) * 2 ^ 18 + s.fld GR_HPLACE.SEQ k * 2 ^ 19 + bit pend * 2 ^ 23

/-- The content of a data frame with `room` bytes: SSTATE, and on the home ring PSTAT, HEVENT and GRAFT (07 R274, R275, R283): point statuses
and head events never leave their ring (07 R301). It takes from head events `evs`, in release order, and messages `ms`, in the order of
Table GR-6, as many as fit: also how many of each it takes. -/
def State.dataContent (s : State) (r room : Nat) (evs : List Nat) (ms : List (Nat × GMsg)) : List Byte × Nat × Nat :=
  let pts := s.localPoints
  let gres := match s.prick r with
    | some k => if r = 0 && s.clustered then k.gres else 0
    | none => 0
  let fixed := 132 + (if r = 0 then 4 + 4 * pts.length else 0) + (if gres = 0 then 0 else 4 + gres)
  let n := if r = 0 then (room - fixed - 4) / 16 else 0
  let now := evs.take n
  let msgs := fitMsgs gres ms
  (elemBytes 0x10 1 s.sstate
    ++ (if r = 0 then elemBytes 0x11 (pts.length % 256) (pts.flatMap (fun p => leBytes 4 (s.pstat p (evs.drop n)))) else [])
    ++ (if now.isEmpty then [] else elemBytes 0x12 (now.length % 256) (now.flatMap (fun e => leBytes 16 e)))
    ++ (if msgs.isEmpty then [] else elemBytes 0x13 (msgs.length % 256) (msgs.flatMap msgBytes)),
   now.length, msgs.length)

/-- The GRAFT content of ring `r`'s summary train (07 R303): what crosses the bridge. An own SWITCH or ACCEPT in it names the boundary of the
frame on the home ring (08 R322). -/
def State.trainContent (s : State) (r : Nat) : List Byte :=
  let gres := ((s.prick r).map Prick.gres).getD 0
  let all := (Tab.get [] s.gmsgs r).filter (fun x => r == 1 || x.2.origin.toNat != s.me)
  let msgs := fitMsgs gres (sortMsgs all)
  if msgs.isEmpty then [] else elemBytes 0x13 (msgs.length % 256) (msgs.flatMap msgBytes)

/-- Fill the NEXT buffer of a ready bit by whole blocks, and mark it ready (07 R280). -/
def fillBuffer (i : Nat) (l : List Byte) (s : State) : State :=
  let a := s.txBuffer i (s.txNext i)
  let pad := (16 - l.length % 16) % 16
  markReady i (writeSpan 12 a (leBytes 2 l.length ++ leBytes 14 0 ++ l ++ List.replicate pad 0#8) s).2

/-- A source's next snapshot segment is queued once the last one has been sent (08 R322: one per frame). -/
def nextSegment (x : Nat) (s : State) : State :=
  let y := s.mig x
  let waiting := (Tab.get [] s.gmsgs 0).any (fun m => m.1 == 0x08 && m.2.sbob.toNat == s.fld GR_MIG.BOB x && m.2.origin.toNat == s.me)
  if s.migState x = 3 && s.fld GR_MIG.ROLE x == 0 && !waiting && decide (y.seg * s.segLen < y.bytes.length) then sendSeg x y.seg s else s

/-- The own data slots of ring `r`, as slot number among them, slot and the cycle of its next frame, in the order in which their buffers
close. -/
def State.fillOrder (s : State) (r : Nat) (k : Prick) : List (Nat × Nat × Nat) :=
  let own := k.own (s.myPos r) 0
  let all := (List.range own.length).map (fun n => let j := own[n]?.getD 0; (n, j, s.slotCycle r k j))
  let at_ (x : Nat × Nat × Nat) : Nat := x.2.2 * s.ringLen r + slotStart ((k.slot x.2.1).getD 0)
  let put (l : List (Nat × Nat × Nat)) (x : Nat × Nat × Nat) : List (Nat × Nat × Nat) :=
    l.takeWhile (fun y => decide (at_ y ≤ at_ x)) ++ x :: l.dropWhile (fun y => decide (at_ y ≤ at_ x))
  all.foldl put []

/-- Fill the buffers of data slots in turn: each frame takes the events and messages that the ones before it leave over (07 R283, 08 R332),
and an own ACCEPT or SWITCH is put down for the cycle of the frame that takes it (08 R322). -/
def fillSlots (r : Nat) (k : Prick) : List (Nat × Nat × Nat) → List Nat → List (Nat × GMsg) → State → State
  | [], _, _, s => s
  | (n, j, c) :: rest, evs, ms, s =>
    let flen := ((k.slot j).map slotFlen).getD 64
    let new := ms.map (stampMsg c)
    let x := s.dataContent r (flen - 38 - s.timeRoom k (s.myPos r)) evs new
    let took := new.take x.2.2
    let s := if r ≠ 0 then s else
      let swap (m : Nat × GMsg) : Nat × GMsg := match ((ms.take x.2.2).zip took).find? (fun p => p.1 == m) with
        | some p => p.2
        | none => m
      { s with gmsgs := Tab.set [] s.gmsgs 0 ((Tab.get [] s.gmsgs 0).map swap) }
    fillSlots r k rest (evs.drop x.2.1) (ms.drop x.2.2) (fillBuffer (readyBit r n) x.1 s)

/-- Fill the transmit buffers of the own slots of ring `r` (07 R280, R303). -/
def publishRing (r : Nat) (s : State) : State :=
  match s.prick r with
  | none => s
  | some k =>
    let ms := if r = 0 then sortMsgs ((Tab.get [] s.gmsgs 0).filter (fun x => x.2.origin.toNat == s.me)) else []
    let s := fillSlots r k (s.fillOrder r k) (s.txEvents.foldr evInsert []) ms s
    if s.hasTrain r && s.clustered then
      let s := if r = 0 then s else { s with gmsgs := Tab.set [] s.gmsgs r ((Tab.get [] s.gmsgs r).map (fun x =>
        if x.2.origin.toNat == s.me then stampMsg s.relCycle x else x)) }
      fillBuffer (trainBit r) (s.trainContent r) s
    else s

/-- The node's own state-store entry (07 R302). -/
def storeOwn (s : State) : State :=
  if s.fld CK_SSBASE.BASE = 0 then s
  else
    let cyc := s.fld CK_NODEST.CYC
    let ring := ((s.prick 0).map Prick.ring).getD 0
    storeState cyc s.me (leBytes 2 (s.me + ring * 2 ^ 10) ++ leBytes 2 cyc ++ s.sstate) s

/-- Fill every transmit buffer (07 R280). -/
def publish (s : State) : State :=
  if !s.isSet CK_CTRL.RUN then s
  else storeOwn (forEach s.myRings publishRing (forEach (List.range 8) nextSegment s))

/-! ### The evaluation (R191, R192) -/

/-- What the commit of an evaluated bobbin carries beside its record (R192, 08 R329). -/
def publishBobbin (before : State) (b : Nat) (s : State) : State :=
  if s.fld GR_BMODE.MODE b = 1 then s
  else
    let s := writeOwn b (s.published b) s
    let s := writeSection b s
    forEach (s.pointList b) (fun w t =>
      let p := plPoint w
      let q := before.pt (b * 2048 + p)
      let e := t.pointEntry p
      let facts := if entryLocal e then let f := before.latchFacts (entryHead e); f - (f &&& q.done) else q.acc &&& factMask
      writePointWord p facts t) s

/-- The results of the commands presented are written to BB_CMDDONE (R195), after the section words (12 R482). -/
def giveResults (s : State) : State :=
  forEach s.results (fun r t => cmdResult r.1 r.2 t) { s with results := [] }

/-- A commit that covers bobbins `bs` (R192): what it carries beside their records, the latches it has acted on (R185), and the transmit
buffers. `before` is the state from which the points' facts are taken. Its mirror writes lie between those of MIRSEQ (12 R479). -/
def commitBobbins (before : State) (bs : List Nat) (s : State) : State :=
  let s := forEach bs (publishBobbin before) (openMirror s)
  let alone := s.localPoints.filter (fun p => (entryBobs (s.pointEntry p)).isEmpty)
  let s := forEach alone (fun p t => writePointWord p (t.latchFacts (entryHead (t.pointEntry p))) t) s
  let s := bumpMirseq (writeHeader (forEach (List.range 32) writeHeadWords s))
  let s := forEach s.localPoints clearLatches s
  publish (giveResults s)

/-! ### Parts of an evaluation (R192, R210) -/

/-- The blocks of memory that differ between two states, outside the mirror memory, which the hardware copies: the writes of a commit
from the one to the other by a program that writes what has changed (DESIGN CHOICE, assumption 112). -/
def changedBlocks (s t : State) : Nat :=
  let keys := ((s.mem ++ t.mem).map Prod.fst).filter (fun k => decide (k < 2 ^ 32) && s.byte k != t.byte k)
  ((keys.map (fun k => k / 16)).eraseDups).length

/-- The bobbins that a part's next commit covers. -/
def EvalPart.bobs (p : EvalPart) (s : State) : List Nat :=
  match p with
  | .whole bs => bs
  | .before bs => bs
  | .release bs => ((s.nextAcross bs).map Prod.snd).getD []
  | .after bs => bs

/-- The first and the second half of a list. -/
def halves (l : List Nat) : List Nat × List Nat := (l.take (l.length / 2), l.drop (l.length / 2))

/-- The two parts that a part falls into when its commit is too large: none for a single bobbin or a single event. -/
def EvalPart.split (p : EvalPart) : List EvalPart :=
  match p with
  | .whole bs => [.before bs, .release bs, .after bs]
  | .before bs => if bs.length ≤ 1 then [] else [.before (halves bs).1, .before (halves bs).2]
  | .release _ => []
  | .after bs => if bs.length ≤ 1 then [] else [.after (halves bs).1, .after (halves bs).2]

/-- One commit of a part (R191, R192): the state after it, and whether the part goes on after it (the next released event). -/
def EvalPart.run (p : EvalPart) (s : State) : State × Bool :=
  match p with
  | .whole bs => (commitBobbins s bs (forEach bs evalBobbin s), false)
  | .before bs => (commitBobbins s bs (forEach bs evalBefore s), false)
  | .release bs =>
    match s.nextAcross bs with
    | none => (s, false)
    | some (_, l) => (commitBobbins s l (forEach l releaseOne s), true)
  | .after bs => (commitBobbins s bs (forEach bs evalAfter s), false)

/-- The commit of a part is larger than a commit may be, and the part can be split: more than eight bobbins (R204) or more than 128 writes
(R388). -/
def EvalPart.tooLarge (p : EvalPart) (s t : State) : Bool :=
  !p.split.isEmpty && (decide (8 < (p.bobs s).length) || decide (128 < changedBlocks s t))

/-- Take the locks of a list of bobbins for the section program, in ascending order, up to one that is not to be had, which waits (R206,
R210). One that breaks the order of R205, the program holding a higher one, is refused as any BB_LOCK write of the voting cores is. -/
def takeLocks : List Nat → State → Bool × State
  | [], s => (true, s)
  | b :: t, s =>
    if (s.lockOf b).any (fun l => l.who == .hw) then takeLocks t (unwaitLock .hw b s)
    else match bbLock .hw b s with
      | .granted u => takeLocks t u
      | .refused u => (false, heartFault 4 (0x30000000 + BB_LOCK.addr) u)
      | .waits u => (false, u)

/-- The parts of an evaluation in turn (R192, R210): each commit is made with the locks of its bobbins held, which are released after it. One
whose lock waits keeps the locks it has, and what is left stands in `evalRest` until the Heartwood goes on. -/
def runParts : Nat → List EvalPart → State → State
  | 0, l, s => { s with evalRest := l }
  | _ + 1, [], s => { s with evalRest := [] }
  | n + 1, p :: rest, s =>
    let r := p.run s
    if p.tooLarge s r.1 then runParts n (p.split ++ rest) s
    else
      let bs := p.bobs s
      let k := takeLocks bs s
      if !k.1 then { k.2 with evalRest := p :: rest }
      else
        let r := p.run k.2
        runParts n (if r.2 then p :: rest else rest) (forEach bs freeLock r.1)

/-- The bobbins of an evaluation of `b`: at the first one after a reset every active bobbin, since it restarts them all (R198); else `b` with
the active bobbins linked to it through shared points. -/
def State.evalSet (s : State) (b : Nat) : List Nat :=
  let l := if s.secs.all (fun p => !p.2.started) then (List.range 256).filter s.active else s.chain 256 [b]
  l.foldr natInsert []

/-- The commits that an evaluation of `n` bobbins can come to, with room to spare. -/
def partFuel (n : Nat) : Nat := 80 * n + 16

/-- One evaluation of bobbin `b` (R191, R192), with the claims and the accumulation first. -/
def evaluate (b : Nat) (s : State) : State :=
  let bs := s.evalSet b
  runParts (partFuel bs.length) [.whole bs] (takeOrigin (accumulate s))

/-- EVALUATION (R191): of active bobbin `b`, by a Heartwood that votes. An evaluation that has waited for a lock goes on first; while it
still waits the Heartwood stalls (R206, R210). -/
def execEvaluation (b : BitVec 8) (s : State) : Host.Outcome State Fault Refusal :=
  let b := b.toNat
  if !s.active b || !s.canVote || s.waitsForLock .hw then .next s
  else if s.evalRest.isEmpty then .next (evaluate b s)
  else .next (runParts (partFuel 256) s.evalRest s)

end Sys2Proof.Machine
end

