-- ==== Sys2Proof/Machine/RegCore.lean ====
section
/-! DEFINITION. A read and a write of any device register by any requester: the values that reading computes, the side
effects of a read, and the rule that each register's chapter gives its write. The registers whose write resets the device
(PW_CYCLE, RB_RESET, the SYSRST of DB_CTRL) and the waiting of BB_LOCK are handled by the callers (file RegAccess). -/

namespace Sys2Proof.Machine

/-! ### Values computed at a read -/

/-- A word of 32 bits, bit `i` by a condition. -/
def word32 (f : Nat → Bool) : Nat := ((List.range 32).map (fun i => bit (f i) * 2 ^ i)).foldl (· + ·) 0

/-- The slice that converts a system, 0x7F for none (Table FE-35): no slice converts while RUN is 0 (Table FE-16; DEDUCED, assumption
139). -/
def State.sliceOf (s : State) (i : Nat) : Nat :=
  let x := s.sys i
  if x.unconv || !s.isSet FE_CTRL.RUN then 0x7F else match x.mux with
    | some (sp, _) => sp
    | none => i

/-- The rate code of a system (Table FE-35): 3 when it is off; an unconverted system reads the rate of R55, and so 0b10 also while its MODE is
off, for which R67 names 0b11 (DESIGN CHOICE, assumption 139). -/
def State.rateCode (s : State) (i : Nat) : Nat :=
  let x := s.sys i
  if x.exc.mode = 0 && !x.unconv then 3
  else match (s.rate i).1 with
    | 1 => 0
    | 4 => 1
    | _ => 2

/-- FE_SYSST of a system (Table FE-35). -/
def State.sysst (s : State) (i : Nat) : Nat :=
  let x := s.sys i
  bit (s.blind i) + bit x.mux.isSome * 2 + bit x.unconv * 4 + bit x.isOpen * 8 + bit x.compl * 16
    + bit ((s.fld FE_RESULT.WORD i).testBit 21) * 32 + bit (s.isSet FE_STATUS.DIP && x.exc.mode != 0) * 64
    + bit (s.isOpen (i / 2)) * 128 + s.fld FE_GAIN.RANGE i * 256 + s.rateCode i * 1024 + s.sliceOf i * 4096
    + (match x.mux with | some (_, p) => p | none => 0) * 2 ^ 19

/-- A field's stored value replaced in a register value. -/
def putField (f : Field) (x v : Nat) : Nat := v - f.of v * 2 ^ f.lo + x % 2 ^ f.w * 2 ^ f.lo

/-- A comparator of head `k` is indeterminate or does not run (Table WD-19). -/
def State.indet (s : State) (k : Nat) : Bool := [2 * k, 2 * k + 1].any (fun i => s.cmp i == 2 || s.cmp i == 4)

/-- The front end's computed register values (chapter 02). -/
def State.viewFE (s : State) (r : Reg) (i v : Nat) : Nat :=
  if r.addr = FE_BUDGET.addr then putField FE_BUDGET.USED s.budgetUsed v
  else if r.addr = FE_BLINDLO.addr then word32 s.blind
  else if r.addr = FE_BLINDHI.addr then word32 (fun j => s.blind (32 + j))
  else if r.addr = FE_MUXLO.addr then word32 (fun j => (s.sys j).mux.isSome)
  else if r.addr = FE_MUXHI.addr then word32 (fun j => (s.sys (32 + j)).mux.isSome)
  else if r.addr = FE_EXC.addr then putField FE_EXC.STAGED (bit ((s.sys i).staged.isSome || (s.sys i).dueCounted)) v
  else if r.addr = FE_SETTLE.addr then putField FE_SETTLE.EFF (s.settleEff i) v
  else if r.addr = FE_SYSST.addr then s.sysst i
  else if r.addr = FE_WINDOW.addr then word32 s.isOpen
  else v

/-- The computed register values of wheel detection (chapter 03). -/
def State.viewWD (s : State) (r : Reg) (i v : Nat) : Nat :=
  if r.addr = WD_INDET.addr then word32 s.indet
  else if r.addr = WD_CMPLO.addr then word32 (fun j => s.cmp j == 1)
  else if r.addr = WD_CMPHI.addr then word32 (fun j => s.cmp (32 + j) == 1)
  else if r.addr = WD_CMPST.addr then putField WD_CMPST.TEST (bit (s.sys i).inTest) v
  else if r.addr = WD_PROOF.addr then putField WD_PROOF.AGE (s.proofAge i) v
  else v

/-- The computed register values of the bobbins and the fingerprint unit (chapters 04 and 05). -/
def State.viewBB (s : State) (q : Req) (r : Reg) (i v : Nat) : Nat :=
  if r.addr = BB_LOCKST.addr then s.lockst q
  else if r.addr = BB_CMDQ.addr then s.cmdq
  else if r.addr = BB_ACTIVE.addr then s.activeWord i
  else if r.addr = FP_STATUS.addr then putField FP_STATUS.TQSTOP (bit s.tqLow) v
  else v

/-- The computed register values of the time unit (chapter 06). -/
def State.viewTM (s : State) (r : Reg) (v : Nat) : Nat :=
  if r.addr = TM_QUAL.addr then putField TM_QUAL.EST s.est v
  else if r.addr = TM_HOLD.addr then putField TM_HOLD.AGE s.holdAge v
  else if r.addr = TM_GUARD.addr then putField TM_GUARD.EFF s.eff v
  else v

/-- The computed register values of the host ports and of power (chapters 12 and 14). -/
def State.viewHP (s : State) (r : Reg) (i v : Nat) : Nat :=
  if r.addr = HP_PSTATUS.addr then s.pstatus i
  else if r.addr = HP_DSUM.addr then s.dsum (i / 3) (i % 3)
  else if r.addr = HP_PPROP.addr then s.pprop i
  else if r.addr = HP_PPVAL.addr then s.ppval i
  else v

/-- The computed register values of power (chapter 14). -/
def State.viewPW (s : State) (r : Reg) (i v : Nat) : Nat :=
  if r.addr = PW_PGSET.addr then putField PW_PGSET.ACT (s.actNow i) v
  else if r.addr = PW_PGCFG.addr then (if i < 3 then putField PW_PGCFG.EN 1 v else v)
  else if r.addr = PW_WCOUT.addr then s.wcOut
  else v

/-- The value of instance `i` of a register as it reads, without side effects. -/
def State.view (s : State) (q : Req) (r : Reg) (i : Nat) : Nat :=
  let v := s.readFields r.fields i
  match r.addr / 4096 with
  | 1 => s.viewFE r i v
  | 2 => s.viewWD r i v
  | 3 => s.viewBB q r i v
  | 4 => s.viewTM r v
  | 6 => if r.addr = GR_ENG.addr then s.grEng else v
  | 9 => if r.addr = CV_OWNST.addr then s.cvOwnst else v
  | 10 => s.viewHP r i v
  | 11 => s.viewPW r i v
  | 14 => if r.addr = RB_CST.addr then putField RB_CST.ELAPSED s.elapsedMs v else v
  | 15 => if r.addr = DB_STATUS.addr then putField DB_STATUS.HALTED s.haltedBits v else v
  | _ => v

/-- A read of register offset `off` by `q`: the value and the side effects of the registers that a read acts on (02 R104,
05 R220, 06 R230, 11 R453, 12 R481, 16 R584). -/
def readReg (q : Req) (off : Nat) (s : State) : Nat × State :=
  match findReg off with
  | none => (0, s)
  | some (r, x) =>
    let i := s.instOf q r x
    if r.addr = FE_RESULT.addr then feResult q i s
    else if (r.addr = FP_RESULT.addr ∨ r.addr = FP_DETAIL.addr) ∧ q.voted = true then
      let t := fpFinish s
      (t.view q r i, t)
    else if r.addr = TM_NOWLO.addr then nowRead q s
    else if r.addr = CV_RESULT.addr then cvReadResult i s
    else if r.addr = HP_QLO.addr then readQlo q i s
    else if r.addr = DB_DATA.addr ∧ q = .dbg then dbDataRead s
    else if r.addr = DB_REGDATA.addr ∧ q = .dbg then dbRegRead s
    else (s.view q r i, s)

/-! ### Writes -/

/-- A write of a configuration register whose values have spans: refused with CFGERR outside them. -/
def spanWrite (q : Req) (ok : Bool) (f : Field) (e : Nat) (r : Reg) (i v : Nat) (s : State) : State :=
  if q.voted && !ok then s.flag f e else writeFields q r.fields i v s

/-- The spans of GR_CTRL (Table GR-9). -/
def grCtrlOk (v : Nat) : Bool :=
  let c := GR_CTRL.CTO.of v
  let w := GR_CTRL.SWEEPN.of v
  GR_CTRL.SHMIN.of v != 0 && GR_CTRL.SPARE.of v != 6 && decide (4 ≤ GR_CTRL.MIGMIN.of v) && GR_CTRL.STALEC.of v != 0
    && decide (2 ≤ c) && decide (1 ≤ w) && decide (w ≤ 32) && decide (8 ≤ GR_CTRL.MIGTRY.of v)

/-- A write of BB_CFG (04 R165): a bobbin that becomes inactive answers its queued command with result 6 (R194); one that
becomes active starts anew (R201). -/
def bbCfg (q : Req) (b v : Nat) (s : State) : State :=
  let was := s.active b
  let s := writeFields q BB_CFG.fields b v s
  if was && !s.active b then
    let l := s.cmds.filter (fun c : Cmd => c.bob == b)
    let s := { s with cmds := s.cmds.filter (fun c : Cmd => c.bob != b) }
    checkEmpty (forEach l (fun c => cmdResult c 6) s)
  else if !was && s.active b then s.modSec b (fun x => { SecSt.reset with ran := x.ran, memerr := x.memerr })
  else s

/-- A write of BB_LOCK where the grant does not wait: refused or granted at once, else it stays a waiting request (04 R204 to
R206). -/
def lockNow (q : Req) (b : Nat) (s : State) : State :=
  match bbLock q b s with
  | .granted t => t
  | .refused t => t
  | .waits t => t

/-- A write of an AW register: a host's proposal (12 R470); no effect for any other requester (00 R16). -/
def awWrite (q : Req) (reg v : Nat) (s : State) : State :=
  match q with
  | .host p => propose p.val reg v s.tb s
  | _ => s

/-- A write of a select register: an out-of-range value has no effect (00 R19). -/
def selWrite (q : Req) (r : Reg) (ok : Bool) (v : Nat) (s : State) : State :=
  if ok then writeFields q r.fields q.bank v s else s

/-- Writes of the FE page (chapter 02). -/
def writeFE (q : Req) (r : Reg) (i v : Nat) (s : State) : State :=
  if r.addr = FE_CTRL.addr then feCtrl q v s
  else if r.addr = FE_RETIRE.addr then feRetire q v s
  else if r.addr = FE_ROUTE0.addr then feRoute q false i v s
  else if r.addr = FE_ROUTE1.addr then feRoute q true i v s
  else if r.addr = FE_EXC.addr then feExc q i v s
  else if r.addr = FE_GAIN.addr then feGain q i v s
  else if r.addr = FE_LEAD.addr then feLead q i v s
  else if r.addr = FE_DIAG.addr then feDiag q i v s
  else if r.addr = FE_TEST.addr then feTest q i v s
  else writeFields q r.fields i v s

/-- Writes of the WD page (chapter 03). -/
def writeWD (q : Req) (r : Reg) (i v : Nat) (s : State) : State :=
  if r.addr = WD_CTRL.addr then wdCtrl q v s
  else if r.addr = WD_CLAIM.addr then wdClaim q v s
  else if r.addr = WD_PASSSET.addr then wdPass q true v s
  else if r.addr = WD_PASSCLR.addr then wdPass q false v s
  else if r.addr = WD_PROOFENG.addr then wdProofEng q v s
  else if r.addr = WD_CMPCFG.addr then wdCmpCfg q i v s
  else if r.addr = WD_BASE.addr then wdBase q i v s
  else if r.addr = WD_HCFG.addr then wdHcfg q i v s
  else writeFields q r.fields i v s

/-- Writes of the BB page (chapters 04 and 05). -/
def writeBB (q : Req) (r : Reg) (i v : Nat) (s : State) : State :=
  if r.addr = BB_CTRL.addr then bbCtrl q v s
  else if r.addr = BB_LOCK.addr then lockNow q (BB_LOCK.BOB.of v) s
  else if r.addr = BB_UNLOCK.addr then bbUnlock q (BB_UNLOCK.BOB.of v) s
  else if r.addr = BB_CMD.addr then awWrite q BB_CMD.addr v s
  else if r.addr = BB_CMDPOP.addr then bbCmdpop q s
  else if r.addr = BB_CMDDONE.addr then bbCmddone q v s
  else if r.addr = BB_ORIGIDX.addr then bbOrigidx q v s
  else if r.addr = BB_CFG.addr then bbCfg q i v s
  else if r.addr = BB_INBACK.addr then bbInback q i v s
  else if r.addr = FP_MATCH.addr then fpMatch q v s
  else writeFields q r.fields i v s

/-- Writes of the TM page (chapter 06). -/
def writeTM (q : Req) (r : Reg) (i v : Nat) (s : State) : State :=
  if r.addr = TM_CTRL.addr then tmCtrl q v s
  else if r.addr = TM_GUARD.addr then refreshTq (writeFields q r.fields i v s)
  else if r.addr = TM_SERVO.addr then tmServo q v s
  else if r.addr = TM_LIM.addr then tmLim q v s
  else if r.addr = TM_OSC.addr then tmOsc q v s
  else if r.addr = TM_GRID.addr then tmGrid q v s
  else if r.addr = TM_PROF.addr then tmProf q v s
  else if r.addr = TM_CMPT.addr then tmCompare q r.fields v s
  else if r.addr = TM_CMPC.addr then tmCompare q r.fields v s
  else if r.addr = TM_LCFG.addr then tmLcfg q i v s
  else if r.addr = TM_LTIME.addr then tmTarget q r.fields i v s
  else if r.addr = TM_LTGTLO.addr then tmTarget q r.fields i v s
  else if r.addr = TM_LTGTHI.addr then tmTarget q r.fields i v s
  else writeFields q r.fields i v s

/-- Writes of the CK page (chapter 07). -/
def writeCK (q : Req) (r : Reg) (i v : Nat) (s : State) : State :=
  if r.addr = CK_CTRL.addr then ckCtrl q v s
  else if r.addr = CK_RXRI.addr then ckRxri q v s
  else if r.addr = CK_PORTSEL.addr then selWrite q r (decide (CK_PORTSEL.PORT.of v < 6)) v s
  else if r.addr = CK_PCTRL.addr then ckPctrl q i v s
  else if r.addr = CK_TXRDY.addr then ckTxrdy q v s
  else writeFields q r.fields i v s

/-- Writes of the GR page (chapter 08). -/
def writeGR (q : Req) (r : Reg) (i v : Nat) (s : State) : State :=
  if r.addr = GR_CTRL.addr then spanWrite q (grCtrlOk v) GR_STATUS.CFGERR evGR r i v s
  else if r.addr = GR_SHPASS.addr then grShpass q v s
  else if r.addr = GR_CMD.addr then awWrite q GR_CMD.addr v s
  else if r.addr = GR_COORD.addr then refreshCoord (writeFields q r.fields i v s)
  else if r.addr = GR_SHIDX.addr then grShidx q v s
  else if r.addr = GR_HPLACE.addr then grHplace q i v s
  else writeFields q r.fields i v s

/-- Writes of the HW page (chapter 10). -/
def writeHW (q : Req) (r : Reg) (i v : Nat) (s : State) : State :=
  if r.addr = HW_CTRL.addr then hwCtrl q v s
  else if r.addr = HW_PHASE.addr then rbPhase q v s
  else if r.addr = HW_MODEREQ.addr then hwModeReq q (HW_MODEREQ.MODE.of v) s
  else if r.addr = HW_TEST.addr then hwTest q (HW_TEST.CORE.of v) (HW_TEST.KIND.of v) s
  else writeFields q r.fields i v s

/-- Writes of the MI page (chapter 11). -/
def writeMI (q : Req) (r : Reg) (i v : Nat) (s : State) : State :=
  if r.addr = MI_CTRL.addr then miCtrl q v s
  else if r.addr = MI_QUIESCE.addr then flushHeld (miQuiesce q (v.testBit 0) s)
  else if r.addr = MI_CNTCLR.addr then miCntClr q s
  else if r.addr = MI_MAP0.addr then miMap q false v s
  else if r.addr = MI_MAP1.addr then miMap q true v s
  else writeFields q r.fields i v s

/-- Writes of the CV page (chapter 11). -/
def writeCV (q : Req) (r : Reg) (i v : Nat) (s : State) : State :=
  if 0x9100 ≤ r.addr then cvWrite q i (r.addr - 0x9000) v s
  else writeFields q r.fields i v s

/-- Writes of the HP page (chapter 12). -/
def writeHP (q : Req) (r : Reg) (i v : Nat) (s : State) : State :=
  if r.addr = HP_CTRL.addr then hpCtrl q v s
  else if r.addr = HP_PCTRL.addr then hpPctrl q i v s
  else if r.addr = HP_PSTATUS.addr then hpPstatus q i v s
  else if r.addr = HP_POV.addr then hpPov q i v s
  else if r.addr = HP_DIRTY.addr then hpDirty q i v s
  else writeFields q r.fields i v s

/-- Writes of the PW pages (chapters 13 and 14), but for PW_CYCLE. -/
def writePW (q : Req) (r : Reg) (i v : Nat) (s : State) : State :=
  if r.addr = PW_PGCFG.addr then pwPgcfg q i v s
  else if r.addr = PW_PGLOOP.addr then pwPgloop q i v s
  else if r.addr = PW_PGSET.addr then pwPgset q i v s
  else if r.addr = PW_WCCFG.addr then pwWccfg q i v s
  else if r.addr = PW_WCFILT.addr then pwWcfilt q i v s
  else if r.addr = PW_VOTOKEN.addr then voToken q v s
  else if r.addr = PW_VODEM.addr then voDem q v s
  else if r.addr = PW_VOFAULT.addr then voFaultClear q v s
  else if r.addr = PW_VOCFG.addr then voCfg q i v s
  else if r.addr = PW_CTRL.addr then pwCtrl q v s
  else writeFields q r.fields i v s

/-- Writes of the AG page (chapter 15). -/
def writeAG (q : Req) (r : Reg) (i v : Nat) (s : State) : State :=
  if r.addr = AG_CTRL.addr then agCtrl q v s
  else if r.addr = AG_HOURS.addr then agHours q v s
  else if r.addr = AG_PLAN.addr then agPlan q v s
  else if r.addr = AG_ENGRET.addr then agEngret q v s
  else writeFields q r.fields i v s

/-- Writes of the RB page (chapter 16), but for RB_RESET. -/
def writeRB (q : Req) (r : Reg) (i v : Nat) (s : State) : State :=
  if r.addr = RB_CTRL.addr then rbCtrl q v s
  else if r.addr = RB_BRST.addr then rbBrst q v s
  else if r.addr = RB_LADDER.addr then rbLadder q v s
  else if r.addr = RB_RKICK.addr then rbRkick q v s
  else if r.addr = RB_CCTRL.addr then rbCctrl q v s
  else if r.addr = RB_CSTAGE.addr then rbCstage q v s
  else if r.addr = RB_CCHUNK.addr then rbCchunk q v s
  else if r.addr = RB_RECORD.addr then rbRecord q v s
  else writeFields q r.fields i v s

/-- Writes of the DB page (16 R584), but for the orders of DB_CTRL that reset. The debugger's own writes alone act; a write by
another requester is counted as rejected (Table AR-6). -/
def writeDB (q : Req) (r : Reg) (v : Nat) (s : State) : State :=
  if q ≠ .dbg then s.reject q
  else if r.addr = DB_CTRL.addr then (if s.debugOn then dbOrders v s else accErr s)
  else dbWrite r.addr v s

/-- A write of `v` to register offset `off` by `q`. -/
def writeReg0 (q : Req) (off v : Nat) (s : State) : State :=
  match findReg off with
  | none => s
  | some (r, x) =>
    let i := s.instOf q r x
    match r.addr / 4096 with
    | 1 => writeFE q r i v s
    | 2 => writeWD q r i v s
    | 3 => writeBB q r i v s
    | 4 => writeTM q r i v s
    | 5 => writeCK q r i v s
    | 6 => writeGR q r i v s
    | 7 => writeHW q r i v s
    | 8 => writeMI q r i v s
    | 9 => writeCV q r i v s
    | 10 => writeHP q r i v s
    | 11 => writePW q r i v s
    | 12 => writePW q r i v s
    | 13 => writeAG q r i v s
    | 14 => writeRB q r i v s
    | 15 => writeDB q r v s
    | _ => writeFields q r.fields i v s

end Sys2Proof.Machine
end

