-- ==== Sys2Proof/Machine/Image.lean ====
section
/-! DEFINITION. The configuration image: its header, directory and register list (16 Table RB-6), what boot loads of it
(Table RB-7), and the fit checks of Table RB-8 over the rules that each table's chapter gives. -/

namespace Sys2Proof.Machine

/-! ### Header, directory, register list -/

/-- A directory entry: the table's address in the bank, its length and DEST. -/
structure DirEnt where
  kind : Nat
  index : Nat
  addr : Nat
  len : Nat
  dest : Nat
  deriving DecidableEq, Repr

/-- The directory of the image at bank base `b`. -/
def State.directory (s : State) (b : Nat) : List DirEnt :=
  (List.range (s.rd (b + 0x3C) 2)).map (fun i =>
    let a := b + s.rdW (b + 0x38) + 16 * i
    { kind := s.rd a 2, index := s.rd (a + 2) 2, addr := b + s.rdW (a + 4), len := s.rdW (a + 8), dest := s.rdW (a + 12) })

/-- The register list of the image at bank base `b`: address and value. -/
def State.regList (s : State) (b : Nat) : List (Nat × Nat) :=
  (List.range (s.rd (b + 0x3E) 2)).map (fun i =>
    let a := b + s.rdW (b + 0x40) + 8 * i
    (s.rdW a, s.rdW (a + 4)))

/-- Fit code 1: the header, and every entry inside the bank. -/
def State.headerOk (s : State) (b : Nat) : Bool :=
  let len := s.rdW (b + 0xC)
  let inBank (e : Nat) : Bool := decide (b ≤ e) && decide (e < b + 0x400000)
  s.rdW b == 0x7A110256 && s.rd (b + 4) 2 == 1 && s.rd (b + 6) 1 == b / 0x400000 && len % 16 == 0
    && decide (0x100 ≤ len) && decide (len ≤ 0x380000)
    && (List.range 9).all (fun i => inBank (s.rdW (b + 0x14 + 4 * i)))

/-- Fit code 2: the image CHECK over bytes 0x14 to LEN − 1, every block readable. -/
def State.imageCheckOk (s : State) (b : Nat) : Bool :=
  let len := s.rdW (b + 0xC)
  (List.range (len / 16)).all (fun i => decide (s.badBits (b + 16 * i) < 3))
    && s.rdW (b + 0x10) == crc32c (s.rdL (b + 0x14) (len - 0x14))

/-- Fit code 3: a table's CHECK, its last word (R567). -/
def State.tableCheckOk (s : State) (e : DirEnt) : Bool :=
  decide (8 ≤ e.len) && s.rdW (e.addr + e.len - 4) == crc32c (s.rdL e.addr (e.len - 4))

/-- Fit code 4: a known KIND at VERSION 1. -/
def State.kindOk (s : State) (e : DirEnt) : Bool :=
  decide (1 ≤ e.kind) && decide (e.kind ≤ 9) && s.rd e.addr 2 == e.kind && s.rd (e.addr + 2) 2 == 1

/-! ### What boot loads -/

/-- The read-only fields that the register list loads (the fields of access RO and reset "Image" that no other rule of boot
gives a value). -/
def imageFields : List Field :=
  CK_RING.fields ++ CK_RING2.fields ++ CK_PID.fields ++ CK_PID2.fields ++ CK_RXBASE.fields ++ CK_RXGEOM.fields
    ++ CK_TXBASE.fields ++ CK_SSBASE.fields ++ CK_SUMMASK.fields
    ++ [ID_NODE.NODE, ID_NODE.RING, BB_ORIGBASE.BASE, CK_PST.LINKD, GR_SHBASE.BASE, GR_CANOPY.NEND]

/-- The register list loads a field. -/
def Field.loads (f : Field) : Bool := f.acc == .vw || f.acc == .rw || imageFields.contains f

/-- A value names a unit of its select register's kind (00 R19): only CK_PORTSEL can hold others. -/
def selectOk (r : Reg) (v : Nat) : Bool := r.addr != CK_PORTSEL.addr || decide (CK_PORTSEL.PORT.of v < 6)

/-- One entry of the register list takes effect, through the boot unit's own bank of select registers (R568); a select value out of range
has none (00 R19). -/
def loadReg (q : Req) (a v : Nat) (s : State) : State :=
  match findReg (a % 65536) with
  | none => s
  | some (r, x) =>
    if r.bank = .req then (if selectOk r v then writeFields q r.fields q.bank v s else s)
    else
      let i := s.instOf q r x
      forEach (r.fields.filter Field.loads) (fun f => State.setFld f i (f.of v)) s

/-- The tables of the image are found: copied to their DEST, or read in place. -/
def loadTables (b : Nat) (s : State) : State :=
  let l := s.directory b
  let s := forEach (l.filter (fun e => e.dest != 0)) (fun e => State.copyBytes e.addr e.dest e.len) s
  { s with tables := l.map (fun e => { kind := e.kind, index := e.index, addr := if e.dest = 0 then e.addr else e.dest, len := e.len }) }

/-- The image's Canopy endpoints in the Canopy region, 15 beyond them (08 R334). -/
def loadCanopy (s : State) : State :=
  match s.table 8 0 with
  | none => s
  | some a =>
    let n := s.rdW (a + 4)
    let s := s.copyBytes (a + 8) 0x20100000 (4 * min n 131072)
    forEach (List.range (131072 - n)) (fun i => State.wrW (0x20100000 + 4 * (n + i)) 15) s

/-- Set `i` of the fingerprint tolerance table, 0 where the table has none (05 FP_TOLA). -/
def State.tolSet (s : State) (i : Nat) : Nat :=
  match s.table 6 0 with
  | some a => if i < s.rd (a + 4) 1 then s.rd (a + 8 + 8 * i) 8 else 0
  | none => 0

/-- The image at bank base `b` is loaded: tables, Canopy, tolerance sets, register list; the grid phase in force is PHASE (06 R264). -/
def loadImage (b : Nat) (s : State) : State :=
  let s := loadCanopy (loadTables b s)
  let s := forEach (List.range 8) (fun i u =>
    (u.setFld FP_TOLA.SETLO i (u.tolSet i)).setFld FP_TOLB.SETHI i (u.tolSet i / 2 ^ 32)) s
  let s := forEach (s.regList b) (fun p => loadReg .commit p.1 p.2) s
  s.setFld TM_GRID.PHASEF 0 (s.fld TM_GRID.PHASE)

/-! ### Fit checks by code -/

/-- The tables that the loaded registers put in use: the three detection tables of each head in use, the point map with any
head, the pricking of each ring joined, the Canopy table of a clustered node (assumption 77). -/
def State.requiredOk (t : State) : Bool :=
  let heads := (List.range 32).filter (fun k => t.isSet WD_HCFG.HEN k)
  heads.all (fun k => [1, 2, 3].all (fun kind => (t.table kind k).isSome))
    && (heads.isEmpty || (t.table 5 0).isSome)
    && [0, 1].all (fun r => !t.joined r || (t.table 7 r).isSome)
    && (!t.isSet GR_COORD.VC || (t.table 8 0).isSome)

/-- A linearisation table (03 Table WD-2, R116). -/
def State.linOk (s : State) (a : Nat) : Bool :=
  let n := s.rd (a + 4) 2
  let x := s.rd (a + 6) 2
  let y (i : Nat) : Int := sgn 16 (s.rd (a + 8 + 2 * i) 2)
  decide (2 ≤ n) && decide (n ≤ 33) && decide (100 ≤ x) && decide (x ≤ 10000) && y 0 == 0
    && (List.range (n - 1)).all (fun i => decide (y i ≤ y (i + 1)))

/-- A template table (03 Table WD-3, R117). -/
def State.templateOk (s : State) (a : Nat) : Bool :=
  let n := s.rd (a + 4) 1
  let p := s.rd (a + 5) 1
  let span := s.rd (a + 6) 2
  decide (1 ≤ n) && decide (n ≤ 32) && (p == 32 || p == 64) && decide (64 ≤ span) && decide (span ≤ 512) && span % p == 0
    && decide (s.rd (a + 0xE) 2 < s.rd (a + 0xC) 2) && decide (s.rd (a + 0x10) 2 ≤ 13889)
    && (List.range n).all (fun j =>
      let c := s.rd (a + 0x20 + (4 + 2 * p) * j) 1
      decide (1 ≤ c) && decide (c ≤ 14))

/-- The phases from which phase 0 is reached through codes 0, 2 and 6, grown `k` times. -/
def reachZero (e : Nat → Nat → Nat) (n : Nat) : Nat → List Nat
  | 0 => [0]
  | k + 1 =>
    let l := reachZero e n k
    (List.range n).filter (fun p => l.contains p || [0, 2, 6].any (fun c => l.contains (e p c % 16)))

/-- A phase table (03 Table WD-5, R128). Whether an entry that leads to its own phase counts as reaching it, in "a phase reached only through
code 8", is not stated: such an entry of codes 0 to 7 counts (DESIGN CHOICE, assumption 140). -/
def State.phaseOk (s : State) (a : Nat) : Bool :=
  let n := s.rd (a + 4) 1
  let creep := s.rd (a + 6) 2
  let e (p c : Nat) : Nat := s.rd (a + 8 + 9 * p + c) 1
  let ps := List.range n
  let only8 (p : Nat) : Bool := ps.all (fun q => (List.range 8).all (fun c => e q c % 16 != p))
  decide (2 ≤ n) && decide (n ≤ 16) && s.rd (a + 5) 1 == 0 && decide (1 ≤ creep) && decide (creep ≤ 60000)
    && ps.all (fun p => (List.range 9).all (fun c => decide (e p c % 16 < n) && decide (e p c < 128)))
    && ps.all (fun p => e p 0 / 16 % 4 != 0 || e p 0 % 16 == 0 || only8 p)
    && ps.all (fun p => (reachZero e n n).contains p)
    && e 0 0 % 64 == 0

/-- The point map (04 R169): AXMIN in span, reserved bytes 0; each local point measured here by the head that names it, and no two heads
naming one point, in use or not (DEDUCED, assumption 147). -/
def State.pointMapOk (t : State) (a : Nat) : Bool :=
  let ax := t.rd (a + 4) 2
  decide (500 ≤ ax) && decide (ax ≤ 10000) && t.rd (a + 6) 10 == 0
    && (List.range 2048).all (fun p =>
      let e := t.rd (a + 0x10 + 8 * p) 8
      !entryLocal e || (entryNode e == t.fld ID_NODE.NODE && t.fld WD_HCFG.POINT (entryHead e) == p))
    && decide ((List.range 32).map (fun k => t.fld WD_HCFG.POINT k)).Nodup

/-- The points that the point map names for bobbin `b`. -/
def State.mapPoints (t : State) (b : Nat) : List Nat := (List.range 2048).filter (fun p => (entryBobs (t.pointEntry p)).contains b)

/-- The point list of an active bobbin (04 R168): NPTS 1 to 16; no point twice; nothing at NPTS or above; REMOTE as the point map has
it; and the map names the bobbin for each point. The image has no table of point lists: a record that holds a list is checked; one that
is all 0 takes its list from the map, and NPTS is then the number of points that the map names for the bobbin (DEDUCED, assumption
79). -/
def State.pointListOk (t : State) (b : Nat) : Bool :=
  let k := 0x28000000 + 1024 * b
  let ws := (List.range 16).map (fun i => t.rdW (k + 0x40 + 4 * i))
  let n := t.rd (k + 0x14) 1 % 32
  let blank := n == 0 && ws.all (fun w => w == 0)
  let named := (t.mapPoints b).length
  let l := ws.take n
  !t.isSet BB_CFG.ACTIVE b
    || (if blank then decide (1 ≤ named) && decide (named ≤ 16)
        else decide (1 ≤ n) && decide (n ≤ 16) && decide (l.map (fun w => w % 2048)).Nodup && (ws.drop n).all (fun w => w == 0)
          && l.all (fun w =>
            let e := t.pointEntry (w % 2048)
            w.testBit 12 == !entryLocal e && (entryBobs e).contains b))

/-- Code 7 for bobbin `b` (04 R173, R175): the two ring sums and the hold-list sum. HOLDT is read from the bobbin's record
(assumption 79). -/
def State.inboundOk (t : State) (b : Nat) : Bool :=
  let ps := t.mapPoints b
  let near := ps.filter (fun p => entryLocal (t.pointEntry p))
  let far := ps.filter (fun p => !entryLocal (t.pointEntry p))
  let sum (w : Nat) (l : List Nat) : Nat := (l.map (t.eventsIn w)).foldl (· + ·) 0
  let holdt := t.rd (0x28000000 + 1024 * b + 0x15) 1
  let cyc := t.ringLen 0
  decide (sum 125000 near ≤ 16) && decide (sum (cyc + 125000) far ≤ 16)
    && decide (sum (holdt * 62500 + t.fld WD_CTRL.AGE * 125000 + 250000) ps ≤ 64)
    && (far.isEmpty || t.rd (0x28000000 + 1024 * b + 0x14) 1 % 32 == 0 || decide (cyc + 250000 ≤ holdt * 62500))

/-- The origin ring holds one millisecond's events of the LOCAL points (04 R610). -/
def State.originOk (t : State) : Bool := decide ((t.localPoints.map (t.eventsIn 125000)).foldl (· + ·) 0 ≤ 64)

/-- A section table (04 R188). -/
def State.sectionTableOk (s : State) (a : Nat) : Bool :=
  let n := s.rd (a + 4) 1
  let d (st : Nat) : Nat := s.rdW (a + 8 + 4 * st)
  let rep (st : Nat) : Nat := d st % 16
  let e (st c : Nat) : Nat := s.rd (a + 8 + 4 * n + 64 * st + 2 * c) 2
  let next (x : Nat) : Nat := x % 16
  let alt (x : Nat) : Nat := x / 16 % 16
  let guard (x : Nat) : Nat := x / 256 % 8
  let init := s.rd (a + 5) 1
  let pm := s.rd (a + 6) 1
  let doubt (c : Nat) : Bool := c == 1 || (decide (4 ≤ c) && decide (c ≤ 12)) || (decide (14 ≤ c) && decide (c ≤ 17)) || c == 19
  let entryOk (st c : Nat) : Bool :=
    let x := e st c
    let zero := x.testBit 11
    let tstart := x.testBit 12
    let prog := x.testBit 13
    let rej := x.testBit 14
    decide (next x < n) && decide (alt x < n) && !x.testBit 15 && decide (guard x < 6)
      && (rep (next x) != 0 || next x == st || [2, 3, 4, 5].contains (guard x))
      && (rep (alt x) != 0 || alt x == st)
      && (!zero || (decide (21 ≤ c) && decide (c ≤ 25)))
      && (!prog || (decide (1 ≤ c) && decide (c ≤ 3)))
      && (!rej || (decide (21 ≤ c) && decide (c ≤ 29) && next x == st && alt x == st && guard x == 0 && !zero && !tstart && !prog))
      && (rep st != 0 || !doubt c || (rep (next x) != 0 && rep (alt x) != 0))
      && (decide (c < 30) || (next x == st && alt x == st && guard x == 0 && !zero && !tstart && !prog && !rej))
  decide (2 ≤ n) && decide (n ≤ 16) && decide (init < n) && decide (1 ≤ pm) && decide (pm ≤ 15) && s.rd (a + 7) 1 == 0
    && rep init != 0
    && (List.range n).all (fun st =>
      rep st != 5 && rep st != 15 && d st / 32 % 8 == 0 && d st / 2 ^ 24 == 0 && (List.range 32).all (entryOk st))

/-- Code 9 for system `i` (02 R64): the excitation in its span, and where it is not off Table FE-3, R58, R59. -/
def State.excitationOk (t : State) (i : Nat) : Bool :=
  let e := t.target i
  e.mode == 0 || (!e.badSpan && t.routingOk i && t.spacingOk i e)

/-- The budget that the image's excitation settings take (02 R63, R64). -/
def State.imageBudget (t : State) : Nat := ((List.range 64).map (fun i => (t.target i).cost)).foldl (· + ·) 0

/-- A tolerance set's fields (05 Table FP-5). -/
def tolOk (v : Nat) : Bool :=
  let rel := bitsOf v 8 8
  let nmin := bitsOf v 24 6
  bitsOf v 3 5 == 0 && decide (1 ≤ rel) && decide (rel ≤ 32) && decide (bitsOf v 16 8 ≤ 100) && decide (2 ≤ nmin)
    && decide (nmin ≤ 56) && bitsOf v 30 2 == 0 && decide (bitsOf v 32 4 ≤ 8) && bitsOf v 36 28 == 0

/-- The tolerance table (05 R219). -/
def State.tolTableOk (s : State) (a : Nat) : Bool :=
  let n := s.rd (a + 4) 1
  decide (1 ≤ n) && decide (n ≤ 8) && s.rd (a + 5) 3 == 0 && (List.range n).all (fun i => tolOk (s.rd (a + 8 + 8 * i) 8))

/-- Section table `i` uses the FPOK guard only where set `i` permits it (05 R219). -/
def State.fpokOk (t : State) (e : ImgTable) : Bool :=
  let n := t.rd (e.addr + 4) 1
  let uses := (List.range n).any (fun st => (List.range 32).any (fun c =>
    t.rd (e.addr + 8 + 4 * n + 64 * st + 2 * c) 2 / 256 % 8 == 5))
  !uses || (t.tolSet e.index).testBit 0

/-- The Canopy table (08 R334). -/
def State.canopyOk (t : State) (a : Nat) : Bool :=
  let n := t.rdW (a + 4)
  let ep (e : Nat) : Nat := t.rdW (a + 8 + 4 * e)
  let valid := ((List.range (min n 131072)).map ep).filter epValid
  decide (1 ≤ n) && decide (n ≤ 131072)
    && (List.range (min n 131072)).all (fun e => epState (ep e) == 15 && epStale (ep e))
    && decide (valid.map (fun w => (epNode w, epBob w))).Nodup
    && (List.range 256).all (fun b => !t.isSet GR_BSID.VALID b
      || (let w := ep (t.fld GR_BSID.SID b)
          !epValid w || (epNode w == t.fld ID_NODE.NODE && epBob w == b)))

/-- The derating table (15 R547). -/
def State.deratingOk (t : State) (a : Nat) : Bool := t.rd (a + 4) 1 == t.fld ID_PART.REV && t.rd (a + 5) 1 == 48

/-- The regions of shared RAM that the image lays out, as address and length. -/
def State.regions (t : State) (b : Nat) : List (Nat × Nat) :=
  let carrik := t.joined 0 || t.joined 1
  let heads := (List.range 32).any (fun k => t.isSet WD_HCFG.HEN k)
  let trains := bit (t.hasTrain 0) + bit (t.hasTrain 1)
  ((t.directory b).filter (fun e => e.dest != 0)).map (fun e => (e.dest, e.len))
    ++ (if t.rdW (b + 0x48) = 0 then [] else [(t.rdW (b + 0x44), t.rdW (b + 0x48))])
    ++ (if carrik then
          [(t.fld CK_RXBASE.BASE, t.fld CK_RXGEOM.NRXB * t.fld CK_RXGEOM.RXBLEN),
           (t.fld CK_TXBASE.BASE, 3072 * (t.homeSlots + t.bridgedSlots + trains)), (t.fld CK_SSBASE.BASE, 294912)]
        else [])
    ++ (if heads then [(t.fld BB_ORIGBASE.BASE, 1024), (t.fld GR_SHBASE.BASE, 512)] else [])

/-- Two regions share no byte. -/
def apart (x y : Nat × Nat) : Bool := decide (x.1 + x.2 ≤ y.1) || decide (y.1 + y.2 ≤ x.1)

/-- Every region in shared RAM, clear of the fixed regions of Table AR-5 and of the others. -/
def State.regionsOk (t : State) (b : Nat) : Bool :=
  let l := t.regions b
  l.all (fun x => decide (0x20000000 ≤ x.1) && decide (x.1 + x.2 ≤ 0x20200000)
    && apart x (0x20100000, 0x80000) && apart x (0x201FC000, 0x4000))
    && (List.range l.length).all (fun i => (List.range i).all (fun j => apart (l.getD i (0, 0)) (l.getD j (0, 0))))

/-- The error flags of a rejected value, page by page. -/
def rejectFlags : List Field :=
  [FE_STATUS.EXCERR, FE_STATUS.ROUTEERR, FE_STATUS.CFGERR, WD_STATUS.CFGERR, BB_STATUS.CFGERR, TM_STATUS.CFGERR,
   CK_STATUS.CFGERR, GR_STATUS.CFGERR, HW_STATUS.CFGERR, MI_STATUS.CFGERR, CV_STATUS.CFGERR, HP_STATUS.CFGERR,
   PW_VOSTATUS.CFGERR, PW_STATUS.CFGERR, AG_STATUS.CFGERR, RB_STATUS.CFGERR]

/-- The bits of a register that a field occupies. -/
def Reg.mask (r : Reg) : Nat := (r.fields.map (fun f => (2 ^ f.w - 1) * 2 ^ f.lo)).foldl (· + ·) 0

/-- One entry of the register list tried on a scratch state: whether the register takes it, and the state after it. -/
def tryReg (a v : Nat) (u : State) : Bool × State :=
  match findReg (a - 0x30000000) with
  | none => (false, u)
  | some (r, _) =>
    let u := forEach rejectFlags (fun f => State.setFld f 0 0) u
    let w := writeReg0 .hw (a % 65536) v u
    (decide (0x30000000 ≤ a) && selectOk r v && v &&& r.mask == v && rejectFlags.all (fun f => !w.isSet f), loadReg .hw a v w)

/-- The register-list entries in order, each taken (code 16). -/
def State.regListOk (t : State) (b : Nat) : Bool :=
  ((t.regList b).foldl (fun (p : Bool × State) x => let r := tryReg x.1 x.2 p.2; (p.1 && r.1, r.2)) (true, State.reset)).1

/-- The placement that the register list at bank base `b` makes names engines, gives none more than 16 systems or more steps than it has, and
no head one engine twice (03 R112, 08 R310); it is judged as a whole, since its entries come in one image. A head that the list does not name is not placed by it (assumption 3). -/
def State.placementsOk (t : State) (b : Nat) : Bool :=
  let ks := (List.range 32).filter (fun k => (t.regList b).any (fun x => x.1 == 0x30000000 + GR_HPLACE.addr + 4 * k))
  ks.all (fun k => t.fld GR_HPLACE.PRIM k != 6 && t.fld GR_HPLACE.SHAD k != 6
      && (t.fld GR_HPLACE.PRIM k == 7 || t.fld GR_HPLACE.PRIM k != t.fld GR_HPLACE.SHAD k))
    && (List.range 6).all (fun e =>
      let l := (ks.filter (fun k => t.fld GR_HPLACE.PRIM k == e || t.fld GR_HPLACE.SHAD k == e)).flatMap (fun k => [2 * k, 2 * k + 1])
      decide (l.length ≤ 16) && decide (t.loadOf l ≤ guaranteedSe))

/-- The position of the first element that fails, with its kind. -/
def firstBad (l : List DirEnt) (kinds : List Nat) (ok : DirEnt → Bool) : Option (Nat × Nat) :=
  ((List.range l.length).find? (fun i => match l[i]? with
    | some e => kinds.contains e.kind && !ok e
    | none => false)).map (fun i => (i, (l.map DirEnt.kind).getD i 0))

/-- A check without an item of its own. -/
def whole (ok : Bool) (kind : Nat) : Option (Nat × Nat) := if ok then none else some (0, kind)

/-- The fit checks in ascending code, over the loaded state: the first that fails, as code, item and table kind (R570, R571;
the item where the spec names none is assumption 78). -/
def State.fitChecks (t : State) (b : Nat) : List (Nat × Option (Nat × Nat)) :=
  let l := t.directory b
  let all := [1, 2, 3, 4, 5, 6, 7, 8, 9]
  [ (3, firstBad l ((l.map DirEnt.kind)) t.tableCheckOk),
    (4, firstBad l ((l.map DirEnt.kind)) (fun e => t.kindOk e && all.contains e.kind)),
    (4, whole t.requiredOk 0),
    (5, firstBad l [2] (fun e => t.linOk e.addr)),
    (5, firstBad l [1] (fun e => t.templateOk e.addr)),
    (5, firstBad l [3] (fun e => t.phaseOk e.addr)),
    (6, firstBad l [5] (fun e => t.pointMapOk e.addr)),
    (6, ((List.range 256).find? (fun x => !t.pointListOk x)).map (fun x => (x, 5))),
    (7, ((List.range 256).find? (fun x => !t.inboundOk x)).map (fun x => (x, 5))),
    (7, whole t.originOk 5),
    (8, firstBad l [4] (fun e => t.sectionTableOk e.addr)),
    (9, ((List.range 64).find? (fun i => !t.excitationOk i)).map (fun i => (i, 0))),
    (9, whole (decide (t.imageBudget ≤ t.fld FE_BUDGET.LIMIT)) 0),
    (10, firstBad l [6] (fun e => t.tolTableOk e.addr)),
    (10, firstBad l [4] (fun e => t.fpokOk { kind := 4, index := e.index, addr := e.addr, len := e.len })),
    (11, whole ((List.range 2).all (fun r => !t.joined r || t.prickOk r)) 7),
    (12, whole (!(t.joined 0 || t.joined 1) || t.rxOk) 0),
    (13, firstBad l [8] (fun e => t.canopyOk e.addr)),
    (14, firstBad l [9] (fun e => t.deratingOk e.addr)),
    (15, whole (decide (t.rd (b + 0x4C) 2 * 16 ≤ t.rdW (b + 0x48))) 0),
    (16, whole (t.regListOk b && t.placementsOk b) 0),
    (17, whole (t.regionsOk b) 0),
    (18, whole (!t.isSet GR_COORD.VC || (List.range 2).all (fun r => !t.joined r || (match t.prick r with
      | some p => decide (160 ≤ p.gres)
      | none => false))) 7) ]

/-- The first failing check of the image at bank base `b` (R571), `t` being the state that would boot from it. -/
def State.fit (s t : State) (b : Nat) : Option (Nat × Nat × Nat) :=
  if !s.headerOk b then some (1, 0, 0)
  else if !s.imageCheckOk b then some (2, 0, 0)
  else (t.fitChecks b).findSome? (fun c => c.2.map (fun x => (c.1, x.1, x.2)))

end Sys2Proof.Machine
end

