-- ==== Sys2Proof/Machine/Margin.lean ====
section
/-! DEFINITION. The margin program (15 R543 to R551, Tables AG-4 to AG-6): its trim step and its notes at a monitor measurement, the trend
and retirement records that it requests, and its projection after a trend record. It runs on the Root engine; its steps are made whole here, at the commands that bring what it reads (DESIGN CHOICE,
assumption 154). -/

namespace Sys2Proof.Machine

/-! ### The trend log (Table AG-5) -/

/-- The valid trend records of the record area in force, in ascending order: where their bodies stand. -/
def State.trends (s : State) : List Nat :=
  ((s.recEntries s.pointer.records).filter (fun e => e.2.1 == 1)).map (fun e => e.1 + 16)

/-- The setpoint of the newest trend record (R545). -/
def State.trendSetpoint (s : State) : Option Nat := s.trends.getLast?.map (fun k => s.rd (k + 4) 2)

/-! ### The projected margin (R546) -/

/-- The entry of monitor `i` in the derating table of the booted image (Table AG-4). -/
def State.derating (s : State) (i : Nat) : Option Nat :=
  ((s.directory s.bankBase).find? (fun e => e.kind == 9)).map (fun e => e.addr + 8 + 8 * i)

/-- The planning floor of a derating entry, in 0.1 % units. -/
def State.floorAt (s : State) (a : Nat) : Int := (5 * s.rd (a + 5) 1 : Nat)

/-- The projected margin of the reading of monitor `i` in 0.1 % units (R546). -/
def State.projected (s : State) (i : Nat) : Option Int :=
  if !s.monValid i then none
  else
    (s.derating i).map (fun a =>
      let t : Int := (bitsOf (s.fld AG_MON.READING i) 20 8 : Nat) - 100
      s.margin i + sgn 16 (s.rd a 2) * (1050 - (s.actNow 0 : Nat)) / 10 + sgn 16 (s.rd (a + 2) 2) * (125 - t) / 10)

/-- The margin program notes the reading of monitor `i`: the least projected margin and the highest temperature of the week (Table AG-5),
and the consecutive readings below the floor (Table AG-6). A reading that is not valid ends the row (DESIGN CHOICE, assumption 159). -/
def noteReading (i : Nat) (s : State) : State :=
  let below := match s.projected i, s.derating i with
    | some p, some a => decide (p < s.floorAt a)
    | _, _ => false
  s.modPlan (fun q =>
    { q with low := Tab.set 0 q.low i (if below then min 2 (Tab.get 0 q.low i + 1) else 0)
             least := match s.projected i, Tab.get none q.least i with
               | some p, some m => Tab.set none q.least i (some (min p m))
               | some p, none => Tab.set none q.least i (some p)
               | none, _ => q.least
             hottest := if s.monValid i then max q.hottest (bitsOf (s.fld AG_MON.READING i) 20 8) else q.hottest
             seen := if (s.fld AG_MON.READING i).testBit 29 then q.seen ||| 8 else q.seen })

/-! ### The records that the program requests (R549, 16 R566, R575) -/

/-- The program may request a record: no commit of either kind is busy and no dip is in progress (R549). -/
def State.mayRecord (s : State) : Bool := !s.flashBusy && !s.isSet PW_STATUS.WARN

/-- The program writes RB_RECORD for an entry of `kind`. The spec does not say where in shared RAM the program keeps the body: the model
holds it beside the memory (DESIGN CHOICE, assumption 159). -/
def requestRecord (kind : Nat) (body : List Byte) (s : State) : State :=
  let s := (s.setFld RB_STATUS.RECBUSY 0 1).modPlan (fun p => { p with body := some body })
  { s with commit := { s.commit with record := some (kind, 0) } }

/-- PMIN of Table AG-5: 0.5 % units, saturating; 0x80 without a valid reading. -/
def pminCode : Option Int → Nat
  | none => 0x80
  | some p => (BitVec.ofInt 8 (max (-127) (min 127 (p / 5)))).toNat

/-- The body of a trend record (Table AG-5). -/
def State.trendBody (s : State) : List Byte :=
  let flags := s.fld AG_PLAN.MAINT + 2 * s.fld AG_PLAN.CEIL + (s.plan.seen &&& 12)
  leBytes 4 (s.fld AG_HOURS.HOURS) ++ leBytes 2 (s.fld PW_PGSET.SETPT 0) ++ leBytes 1 s.plan.hottest ++ leBytes 1 flags
    ++ leBytes 2 (s.fld AG_PLAN.LIFE) ++ leBytes 1 (s.fld AG_PLAN.WMON) ++ leBytes 5 0
    ++ (List.range 48).flatMap (fun i => leBytes 1 (pminCode (Tab.get none s.plan.least i)))

/-- The trend record that has fallen due is requested; where it cannot be, the next operating hour tries again (R549). -/
def trendTurn (s : State) : State :=
  if decide (s.trendAt + 168 ≤ s.fld AG_HOURS.HOURS) && s.mayRecord then requestRecord 1 s.trendBody s else s

/-- OPERATING_HOUR (R548, R549): 3,600 s of running have passed. A trend record that has not been written 24 h after it fell due
sets LOGERR. -/
def execOperatingHour (s : State) : Host.Outcome State Fault Refusal :=
  let s := s.advanceTo ((s.tb / hourTu + 1) * hourTu)
  let s := s.setFld AG_HOURS.HOURS 0 (s.fld AG_HOURS.HOURS + 1)
  let s := onlyIf (decide (s.trendAt + 192 ≤ s.fld AG_HOURS.HOURS)) (State.flag AG_STATUS.LOGERR evAG) s
  .next (onlyIf s.marginRuns trendTurn s)

/-- The units that have been retired, with the cause of a KIND 2 entry: slices, Sapwood engines, Heartwood cores. -/
def State.retiredUnits (s : State) : List (Nat × Nat × Nat) :=
  ((List.range 72).filter (fun k => decide (2 ≤ s.slice k))).map (fun k => (0, k, s.slice k - 2))
    ++ ((List.range 6).filter s.seRetired).map (fun e => (1, e, bit (s.plan.faults.contains e)))
    ++ ((List.range 3).filter s.keeper.retired.testBit).map (fun c => (2, c, 1))

/-- The retirement record holds the unit. -/
def State.onRecord (s : State) (u : Nat × Nat × Nat) : Bool :=
  (s.recEntries s.pointer.records).any (fun e =>
    e.2.1 == 2 && (s.byte (e.1 + 16)).toNat == u.1 && (s.byte (e.1 + 17)).toNat == u.2.1)

/-- After a retirement the program requests its KIND 2 entry (Table AG-5, 16 R566). -/
def retirementTurn (s : State) : State :=
  if !s.mayRecord then s
  else
    match s.retiredUnits.find? (fun u => !s.onRecord u) with
    | none => s
    | some u => requestRecord 2 (leBytes 1 u.1 ++ leBytes 1 u.2.1 ++ leBytes 2 u.2.2 ++ leBytes 4 (s.fld AG_HOURS.HOURS) ++ leBytes 56 0) s

/-! ### The trim (R543 to R545) -/

/-- W: the least MARGIN among the readings of kinds 0 to 2 that are VALID and have SLEW 0. -/
def State.trimMargin (s : State) : Option Int :=
  ((List.range 37).filter (fun i => s.monValid i && !(s.fld AG_MON.READING i).testBit 30)).foldl (fun m i =>
    match m with
    | none => some (s.margin i)
    | some w => some (min w (s.margin i))) none

/-- The program writes AG_PLAN. -/
def writePlan (life wmon maint ceil valid : Nat) (s : State) : State :=
  agPlan .root (life % 2 ^ 16 + wmon % 2 ^ 6 * 2 ^ 16 + maint % 2 * 2 ^ 22 + ceil % 2 * 2 ^ 23 + valid % 2 * 2 ^ 24) s

/-- AG_PLAN.CEIL is written, the other fields as they stand (R544). -/
def writeCeil (ceil : Nat) (s : State) : State :=
  writePlan (s.fld AG_PLAN.LIFE) (s.fld AG_PLAN.WMON) (s.fld AG_PLAN.MAINT) ceil (s.fld AG_PLAN.VALID) s

/-- The request that a trim step makes of the setpoint `sp`, W and TM in 0.1 % units (R543). -/
def trimRequest (w tm : Int) (sp : Nat) : Nat :=
  if w < tm then min 1050 (sp + 5) else if tm + 20 < w then max 800 (sp - 5) else sp

/-- A trim step (R543, R544). It makes no new request while ACT of PG0 differs from SETPT. -/
def trimStep (s : State) : State :=
  match s.trimMargin with
  | none => s
  | some w =>
    let tm : Int := 5 * (s.fld AG_CTRL.TMARG : Nat)
    let sp := s.fld PW_PGSET.SETPT 0
    let s := if decide (w < tm) && sp == 1050 then writeCeil 1 s
      else if decide (tm ≤ w) && s.isSet AG_PLAN.CEIL then writeCeil 0 s else s
    let mv := trimRequest w tm sp
    if s.coreSlews || mv == sp then s else vsetRequest mv s

/-- The request of R545: after a reset, before the first trim step, the newest trend record's setpoint where it is above 950 mV. VSET
passes none above 1,050 mV (09 R376). -/
def restoreSetpoint (s : State) : State :=
  let s := { s with restored := true }
  match s.trendSetpoint with
  | some mv => if 950 < mv && decide (mv ≤ 1050) then vsetRequest mv s else s
  | none => s

/-- The first write of AG_HOURS after a reset, from the newest trend record (R548). -/
def restoreHours (s : State) : State :=
  if s.hoursSet then s
  else
    match s.trends.getLast? with
    | some k => agHours .root (s.rdW k) s
    | none => s

/-- After a reset the Heartwood retires each Sapwood engine in the retirement record again, before it applies any placement (R554). -/
def recallRetired (s : State) : State :=
  if s.plan.recalled || !s.canVote then s
  else
    let l := (s.recEntries s.pointer.records).filter (fun e => e.2.1 == 2 && s.byte (e.1 + 16) == 1#8)
    forEach l (fun e t => agEngret .hw (s.byte (e.1 + 17)).toNat t) (s.modPlan (fun p => { p with recalled := true }))

/-- The margin program at the measurement of monitor `i`: its notes, R545 and R548 at the first, the retirements of the record, a
retirement that is not on record, then a trim step every TRIMT × 10 ms of time-base time. -/
def marginTurn (i : Nat) (s : State) : State :=
  if !s.marginRuns then s
  else
    let s := noteReading i s
    let s := retirementTurn (recallRetired (if s.restored then s else restoreHours (restoreSetpoint s)))
    if s.tb < s.trimAt + s.fld AG_CTRL.TRIMT * 1250000 then s
    else let t := s.tb; trimStep { s with trimAt := t }

/-- MONITOR_MEASUREMENT (R538, R540): monitor `i` is measured, with its margin and temperature, and checked against its fixed
reference; the margin program then takes its turn. -/
def execMonitorMeasurement (i : Fin 48) (margin : BitVec 16) (temp : BitVec 8) (fault : Bool) (s : State) :
    Host.Outcome State Fault Refusal :=
  let r := monReading i.val margin.toNat temp.toNat fault s.coreSlews
  let s := showWorst (s.setFld AG_MON.READING i.val r)
  .next (marginTurn i.val (onlyIf fault (State.flag AG_STATUS.MONFLT evAG) s))

/-! ### The projection (R550, R551) -/

/-- The integer square root of `n` from the root `r` found so far, by the bits that are left, the highest first. -/
def isqrtFrom (n : Nat) : List Nat → Nat → Nat
  | [], r => r
  | b :: l, r => if (r + 2 ^ b) * (r + 2 ^ b) ≤ n then isqrtFrom n l (r + 2 ^ b) else isqrtFrom n l r

/-- The integer square root. -/
def isqrt (n : Nat) : Nat := isqrtFrom n (List.range (n.log2 / 2 + 1)).reverse 0

/-- t to the power NEXP / 64, in steps of 2^-32 rounded down: six square roots (DESIGN CHOICE, assumption 155). -/
def agePower (nexp t : Nat) : Nat := isqrt (isqrt (isqrt (isqrt (isqrt (isqrt (t ^ nexp * 2 ^ 2048))))))

/-- A sum of integers. -/
def sumInt (l : List Int) : Int := l.foldl (· + ·) 0

/-- The number of 100 h units, at most 0xFFFF, that `ok` grants from the start on, `ok` holding to some point and not after. -/
def lifeUnits (ok : Nat → Bool) : Nat :=
  ((List.range 16).reverse).foldl (fun r b => if ok (r + 2 ^ b) then r + 2 ^ b else r) 0

/-- Where the least-squares line P = P0 − k x over the points (t, P), x = t^n, reaches `floor`, as an x (R550). A line that does not
fall never reaches it. -/
def fitEnd (nexp : Nat) (floor : Int) (pts : List (Nat × Int)) : Option Int :=
  let n : Int := (pts.length : Nat)
  let xs := pts.map (fun p => ((agePower nexp p.1 : Nat) : Int))
  let ys := pts.map Prod.snd
  let sx := sumInt xs
  let sy := sumInt ys
  let d := n * sumInt (xs.map (fun x => x * x)) - sx * sx
  let b := n * sumInt ((xs.zip ys).map (fun p => p.1 * p.2)) - sx * sy
  if d ≤ 0 ∨ 0 ≤ b then none else some ((sy * d - b * sx - floor * n * d) / (n * (-b)))

/-- The life of a monitor in 100 h units from `now` (R550). -/
def monitorLife (nexp now : Nat) : Option Int → Nat
  | none => 0xFFFF
  | some xf => lifeUnits (fun u => decide (((agePower nexp (now + 100 * u) : Nat) : Int) ≤ xf))

/-- The monitor puts its unit in WATCH (Table AG-6): the floor is reached within `h` hours from `now`. -/
def monitorWatch (nexp now h : Nat) : Option Int → Bool
  | none => false
  | some xf => decide (xf ≤ ((agePower nexp (now + h) : Nat) : Int))

/-- Monitor `i` watches a unit in service (Table AG-2): a retired Sapwood engine, a core out of the voting set and a group of eight
retired slices are out of it. -/
def State.monInService (s : State) (i : Nat) : Bool :=
  let core (c : Nat) : Bool := if s.isSplit then c < 2 else s.coreState c == 0
  if i < 6 then core (i / 2)
  else if i < 18 then !s.seRetired ((i - 6) / 2)
  else if 24 ≤ i && decide (i < 27) then core (i - 24)
  else if 29 ≤ i && decide (i < 35) then !s.seRetired (i - 29)
  else if 37 ≤ i && decide (i < 46) then (List.range 8).any (fun k => s.slice (8 * (i - 37) + k) != 3)
  else true

/-- The trend points of monitor `i`: the hours and PMIN of the records that hold a valid reading. -/
def State.trendPoints (s : State) (i : Nat) : List (Nat × Int) :=
  (s.trends.filter (fun k => s.rd (k + 16 + i) 1 != 0x80)).map (fun k => (s.rdW k, sgn 8 (s.rd (k + 16 + i) 1)))

/-- The fits of R550: monitor, NEXP and the end of its line. They are those of a unit in service with at least eight valid trend
records, by the booted image's derating table. -/
def State.fits (s : State) : List (Nat × Nat × Option Int) :=
  (List.range 48).filterMap (fun i =>
    let pts := s.trendPoints i
    match s.derating i with
    | none => none
    | some a =>
      if s.monInService i && decide (8 ≤ pts.length) then
        some (i, s.rd (a + 4) 1, fitEnd (s.rd (a + 4) 1) (s.rd (a + 5) 1 : Nat) pts)
      else none)

/-- The lives that the monitors give, with the monitors. -/
def State.lives (s : State) : List (Nat × Nat) :=
  s.fits.map (fun f => (monitorLife f.2.1 (s.fld AG_HOURS.HOURS) f.2.2, f.1))

/-- The monitors that put their unit in WATCH. -/
def State.watched (s : State) : List Nat :=
  let h := 730 * s.fld AG_CTRL.MAINTM + 4380
  (s.fits.filter (fun f => monitorWatch f.2.1 (s.fld AG_HOURS.HOURS) h f.2.2)).map Prod.fst

/-- MAINT of R551, with its release margin; the states of R556 raise it through this condition alone (DEDUCED, assumption 185). -/
def maintNext (maint life maintm : Nat) : Nat :=
  if 100 * life ≤ 730 * maintm then 1 else if 730 * maintm + 4380 < 100 * life then 0 else maint

/-- The projection after a trend record: the margin plan (Table AG-6), LIFE, WMON and VALID (R550), and MAINT (R551). -/
def projectLife (s : State) : State :=
  let l := s.lives
  let least := l.foldl (fun m p => match m with
    | none => some p
    | some q => if p.1 < q.1 then some p else some q) none
  let life := (least.map Prod.fst).getD 0xFFFF
  let maint := maintNext (s.fld AG_PLAN.MAINT) life (s.fld AG_CTRL.MAINTM)
  let w := s.watched
  (writePlan life ((least.map Prod.snd).getD (s.fld AG_PLAN.WMON)) maint (s.fld AG_PLAN.CEIL) (bit least.isSome) s).modPlan
    (fun p => { p with watch := w })

/-- The trend record has been written (R549): the next falls due from here, a new week begins, and the margin program projects anew
(R550). -/
def trendWritten (s : State) : State :=
  let h := s.fld AG_HOURS.HOURS
  let s := { s with trendAt := h }.modPlan (fun p => { p with least := [], hottest := 0, seen := 0 })
  onlyIf s.marginRuns projectLife s

/-- RECORD_DONE (16 R575): the record commit completes; no block program starts while the dip warning is asserted (14 R529). -/
def execRecordDone (s : State) : Host.Outcome State Fault Refusal :=
  match s.commit.record with
  | none => .next s
  | some (kind, a) =>
    if s.isSet PW_STATUS.WARN then .next s
    else
      let r := match s.plan.body with
        | some b => ((true, s.modPlan (fun p => { p with body := none })), b)
        | none => let x := readBlocks .commit a 64 s; (x, x.2.rdL a 64)
      if !r.1.1 then .next (endRecord RB_STATUS.RECFAIL r.1.2)
      else
        let s := appendRec kind r.2 r.1.2
        .next (endRecord RB_STATUS.RECDONE (onlyIf (kind == 1) trendWritten s))

end Sys2Proof.Machine
end

