-- ==== Sys2Proof/Machine/Boot.lean ====
section
/-! DEFINITION. A device reset and the boot that ends every reset (16 R559 to R569, Table RB-7; 10 R413, R424; 17 R592), and the
end of a configuration commit, which checks the new image by the same fit checks (16 R572, R573). -/

namespace Sys2Proof.Machine

/-! ### Reset assertion -/

/-- The offset of a field key of the register store. -/
def keyAddr (k : Nat) : Nat := k % 2097152 / 32

/-- A register field that no reset changes: fuse, strap and keeper fields (R21, R560), and the generators' own state where the
rails stay up. -/
def keptField (rails : Bool) (k : Nat) : Bool :=
  let a := keyAddr k
  a == ID_PART.addr || a == ID_SERIALLO.addr || a == ID_SERIALHI.addr || a == RB_CAUSE.addr
    || (a == PW_SRC.addr && decide (4 ≤ k % 32))
    || (rails && (k == PW_PGST.STATE.key (k / 2097152) || k == PW_PGSET.ACT.key (k / 2097152)))

/-- A byte of memory that survives a reset: flash, the keeper log, and after a device reset the bobbin store (R559, R583,
04 R199). -/
def keptByte (store : Bool) (k : Nat) : Bool :=
  decide (k < 0x800000) || (decide (0x38000600 ≤ k) && decide (k < 0x38000700))
    || (store && decide (0x28000000 ≤ k) && decide (k < 0x28040000))

/-- Everything the reset reaches returns to its reset value (R559): `rails` when the rails stay up, that is for a device reset,
which also keeps the bobbin store. The engines are held until boot releases them. -/
def resetState (rails : Bool) (s : State) : State :=
  let s := onlyIf rails keepRails s
  let kept : Tab Nat := [(2, Tab.get 0 s.logs 2)]
  { State.reset with
    regs := s.regs.filter (fun p => keptField rails p.1),
    mem := s.mem.filter (fun p => keptByte rails p.1),
    errs := s.errs.filter (fun p => keptByte rails (p.1 * 16)),
    engines := (List.range 10).map (fun i => (i, { Engine.reset with run := .held })),
    free := s.free,
    pending := s.pending,
    badSlices := s.badSlices,
    logs := kept.filter (fun p => p.2 != 0),
    pgs := if rails then s.pgs else [],
    phases := if rails then s.phases else [],
    keeper := { s.keeper with kick := 0, rkick := 0, serviceAt := none, resetReq := none, dipAt := 0 } }

/-- A reset is asserted with the cause that its release will record, and the power stage that it starts from. A commit before
its pointer write is interrupted by it (R561). -/
def assertReset (rails : Bool) (cause : Nat) (power : PowerPhase) (s : State) : State :=
  let intr := s.committing
  (resetState rails s).modKeeper (fun k => { k with power := power, cause := cause, intr := k.intr || intr, keep := rails })

/-- An entry of the keeper log (R581). -/
def keeperLog (s : State) : State := appendLog 2 0x38000600 16 (s.readFields RB_CAUSE.fields 0) 0 s

/-! ### Boot -/

/-- The cores that a retirement entry or a keeper bit names (R568, 10 R406). -/
def State.retiredCores (s : State) (rec : Nat) : List Nat :=
  let l := (s.recEntries rec).filter (fun e => e.2.1 == 2 && s.byte (e.1 + 16) == 2#8)
  let n := l.map (fun e => (s.byte (e.1 + 17)).toNat)
  [0, 1, 2].filter (fun c => s.keeper.retired.testBit c || n.contains c)

/-- The boot report (Table RB-11). -/
def bootReport (s : State) : State :=
  let l := [s.readFields RB_CAUSE.fields 0, s.readFields RB_STRAP.fields 0, s.fld RB_PTR.SEQ, s.fld ID_IMAGE.IMAGEID,
    s.readFields RB_BOOT.fields 0, s.readFields RB_FIT.fields 0]
  forEach (List.range 6) (fun i => State.wrW (0x38000000 + 4 * i) (l.getD i 0)) s

/-- The front end under the image: every source at its image setting, RANGE at FIX, settling (02 R76, R85). The excitation that the image
sets counts as an excitation change of 03 R146: the comparator is masked for the settling delay before it acquires (DESIGN CHOICE,
assumption 141). -/
def startSystem (i : Nat) (s : State) : State :=
  let e := s.target i
  let s := s.setFld FE_GAIN.RANGE i (s.fld FE_GAIN.FIX i)
  let s := s.modSys i (fun x => { x with exc := e, maskSettle := e.mode != 0 })
  refreshCmp i (if e.mode = 0 then s else startSettle i s)

/-- The Heartwood's mode and core states (R562, 10 R380, R424): split as SMODE straps it unless HA or HB is retired; a voted pair
with a core retired; each retired core stopped. -/
def startHeart (dead : List Nat) (s : State) : State :=
  let split := s.isSet RB_STRAP.SMODE
  let refused := split && (dead.contains 0 || dead.contains 1)
  let mode := if split && !refused then 2 else if dead.isEmpty then 0 else 1
  let s := s.setFld ID_BOOT.HWMODE 0 mode
  forEach [0, 1, 2] (fun c => State.setFld (coreField c) 0
    (if dead.contains c then 4 else if mode == 2 && c == 2 then 5 else 0)) s

/-- A device strapped for split mode that boots in a voted mode sets MODEREF (10 R424), which signals the cores and the Root engine as they start. -/
def refuseSplit (s : State) : State :=
  onlyIf (s.isSet RB_STRAP.SMODE && s.fld ID_BOOT.HWMODE != 2) (State.flag HW_STATUS.MODEREF evHW) s

/-- The engines are released at their entries; a retired or switched-off core stays stopped (R568). -/
def releaseEngines (s : State) : State :=
  forEach (List.range 10) (fun i t =>
    if i < 3 && t.coreState i != 0 then t.modEng i (fun _ => { Engine.reset with run := .stopped }) else startEngine i t) s

/-- PG3 under the image (14 Table PW-2): it soft-starts when EN is 1 and it does not run, and stops when EN is 0. -/
def startExcitation (s : State) : State :=
  if s.isSet PW_PGCFG.EN 3 then (if s.pgRuns 3 then s else softStart 3 true s)
  else if s.pgState 3 = 0 then s else stopExcitation 0 s

/-- The boot-time slice monitor retires faulty slices again (02 R100): those in which it has found a fault before (assumption 148). -/
def bootSlices (s : State) : State := retireSlices 0 3 s.badSlices s

/-- The state that the image at bank base `b` boots to (Table RB-7), before the engines run. A clustered node starts with every
ACTIVE at 0 (08 R336); an image RUN of 1 is a schedule start (07 R279; DEDUCED, assumption 80). -/
def startImage (dead : List Nat) (b : Nat) (s : State) : State :=
  let s := s.setFld ID_IMAGE.IMAGEID 0 (s.rdW (b + 8))
  let s := onlyIf (s.isSet GR_COORD.VC) (forEach (List.range 256) (fun x => State.setFld BB_CFG.ACTIVE x 0)) s
  let s := bootSlices (forEach (List.range 64) startSystem (startHeart dead s))
  let run := s.isSet CK_CTRL.RUN
  let s := refuseSplit (releaseEngines (startExcitation (s.setFld CK_CTRL.RUN 0 0)))
  refreshVos (refreshTq (onlyIf run scheduleStart s))

/-- The boot sequence (R568, R569): the pointer is searched, the image checked; it starts, or boot fails with the first failure
recorded. The boot time is at most 120 ms, a free value. -/
def boot (s : State) : State :=
  let p := s.pointer
  let b := p.image * 0x400000
  let s := ((s.setFld RB_PTR.SEQ 0 p.seq).setFld RB_BOOT.IMGBANK 0 p.image).setFld RB_BOOT.RECBANK 0 p.records
  let s := s.setFld ID_BOOT.BANK 0 p.image
  let r := s.fresh
  let ms := r.1 % 121
  let s := fuseSetpoints (r.2.advance (ms * 125000))
  let t := resumeRails (loadImage b s)
  match State.fit s t b with
  | some (code, item, kind) => bootReport (recordFit code 0 item kind (s.setFld RB_BOOT.FAIL 0 1))
  | none => bootReport (startImage (s.retiredCores p.records) b (t.setFld RB_BOOT.BOOTMS 0 ms))

/-- The reset is released with the rails up (R561, R562): straps sampled, cause recorded, an entry in the keeper log; boot
follows. The keeper watchdog counts from here (R577). -/
def releaseReset (s : State) : State :=
  let k := s.keeper
  let s := (s.setFld RB_STRAP.SMODE 0 (bit (k.straps.testBit 0))).setFld RB_STRAP.SDBG 0 (bit (k.straps.testBit 1))
  let s := (s.setFld RB_CAUSE.PREV 0 (s.fld RB_CAUSE.CAUSE)).setFld RB_CAUSE.CAUSE 0 k.cause
  let s := (s.setFld RB_CAUSE.CMTINTR 0 (bit k.intr)).setFld RB_CAUSE.HELD 0 (bit k.held)
  let t := s.tb
  boot (keeperLog (s.modKeeper (fun k => { k with power := .up, intr := false, held := false, kick := t })))

/-- A device reset: the rails stay up and boot starts at once. -/
def deviceReset (cause : Nat) (s : State) : State := releaseReset (assertReset true cause .up s)

/-- The device is out of reset and has not failed to boot: its units and ports serve. -/
def State.running (s : State) : Bool :=
  (match s.keeper.power with
    | .up => true
    | _ => false) && !s.isSet RB_BOOT.FAIL

/-! ### The end of a configuration commit (R572, R573) -/

/-- The state that the new image would boot to, for the stage-1 fit checks. -/
def State.newImage (s : State) : State := loadImage s.newBank (resetState true s)

/-- COMMIT_COMPLETE (R572, R573): FINISH's checks are done. More than 3 s since START fails the commit; so does the header or
CHECK, and a fit check. Otherwise the pointer record is written with IMGBANK switched. A dip holds the write (14 R529). -/
def execCommitComplete (s : State) : Host.Outcome State Fault Refusal :=
  if s.cst ≠ 4 || s.isSet PW_STATUS.WARN then .next s
  else if 375000000 < s.elapsed then .next (failCommit 1 s)
  else
    let b := s.newBank
    match State.fit s s.newImage b with
    | some (code, item, kind) => .next (failCommit (if code < 3 then 2 else 3) (recordFit code 1 item kind s))
    | none =>
      let p := s.pointer
      .next (endCommit 5 0 RB_STATUS.CMTDONE (writePtr (s.rdW (b + 8)) (1 - p.image + 2 * p.records) s))

end Sys2Proof.Machine
end

