-- ==== Sys2Proof/Machine/Power.lean ====
section
/-! DEFINITION. The power stage (14 R516 to R533), the keeper's part of the recovery ladder (16 R577 to R580) and the reset ball:
every command that starts, ends or times a reset. -/

namespace Sys2Proof.Machine

/-! ### Power cycles and device resets (R532, R579, R580) -/

/-- A power cycle with its cause: PCYCN counts it; a fourth one is the hold instead (R580). The keeper logs either (R581). -/
def startPowerCycle (cause : Nat) (s : State) : State :=
  let n := s.fld RB_CAUSE.PCYCN
  if 3 ≤ n then keeperLog (assertReset false cause .hold s)
  else keeperLog (assertReset false cause (.cycling 0) (s.setFld RB_CAUSE.PCYCN 0 (n + 1)))

/-- Step 3 of the ladder (R579, R580): a device reset counted in DRSTN, or a power cycle when the count would pass LADMAX. -/
def ladderReset (cause : Nat) (s : State) : State :=
  let n := s.fld RB_CAUSE.DRSTN + 1
  let s := keeperLog s
  if s.fld RB_CTRL.LADMAX < n then startPowerCycle 4 s
  else deviceReset cause (s.setFld RB_CAUSE.DRSTN 0 n)

/-- A requested reset that waits for an evacuation takes place once GR_STATUS.EMPTY is set (R579). -/
def resetWhenEmpty (s : State) : State :=
  match s.keeper.resetReq with
  | some (cause, _) => if s.isSet GR_STATUS.EMPTY then ladderReset cause s else s
  | none => s

/-- EVACUATE (08 R330): the agreed order of code 3. -/
def execEvacuate (s : State) : Host.Outcome State Fault Refusal := .next (resetWhenEmpty (agreedOrder (fun c => c == 3) s))

/-- OWNERSHIP_SWITCH (08 R327); the last bobbin that leaves may end an evacuation that a reset waits for. -/
def execOwnershipSwitch (x : Fin 8) (s : State) : Host.Outcome State Fault Refusal :=
  .next (resetWhenEmpty (ownershipSwitch x.val s))

/-- A write of RB_RESET (R579): by the Root engine or the voted Heartwood with the key. With EVAC 1, outside the safe state, the
node evacuates first. Whether the write has reset the device, and the state after it. -/
def rbReset (q : Req) (v : Nat) (s : State) : Bool × State :=
  if !(q.voted || q == .root) || RB_RESET.KEY.of v != resetKey then (false, s.reject q)
  else
    let cause := if q.voted then 7 else 6
    if RB_RESET.EVAC.of v = 1 && !s.isSafe then
      let t := s.tb
      let s := (s.setFld GR_STATUS.EVAC 0 1).modGraft (fun g => { g with retry := [] })
      let s := checkEmpty (evacStep (s.modKeeper (fun k => { k with resetReq := some (cause, t) })))
      (s.isSet GR_STATUS.EMPTY, resetWhenEmpty s)
    else (true, ladderReset cause s)

/-- DEVICE_RESET_REQUEST (R579). -/
def execDeviceResetRequest (q : Req) (v : Word) (s : State) : Host.Outcome State Fault Refusal :=
  asReq q s <| .next (rbReset q v.toNat s).2

/-- EVACUATION_TIMEOUT (R579): EVT seconds have passed; EVACTO is set, and the device resets. -/
def execEvacuationTimeout (s : State) : Host.Outcome State Fault Refusal :=
  match s.keeper.resetReq with
  | some (cause, t) =>
    .next (ladderReset cause ((s.advanceTo (t + s.fld RB_CTRL.EVT * 125000000)).flag RB_STATUS.EVACTO evRB))
  | none => .next s

/-- A write of PW_CYCLE (R532): by the Root engine with KEY 0x5AC3. Whether it has reset the device, and the state after it. -/
def pwCycle (q : Req) (v : Nat) (s : State) : Bool × State :=
  if q != .root || PW_CYCLE.KEY.of v != 0x5AC3 then (false, s.reject q) else (true, startPowerCycle 4 s)

/-- POWER_CYCLE (R532). -/
def execPowerCycle (q : Req) (v : Word) (s : State) : Host.Outcome State Fault Refusal :=
  asReq q s <| .next (pwCycle q v.toNat s).2

/-- POWER_CYCLE_END (R532): 200 ms from the write, the power-up sequence starts. -/
def execPowerCycleEnd (s : State) : Host.Outcome State Fault Refusal :=
  match s.keeper.power with
  | .cycling t =>
    let s := s.advanceTo (t + 25000000)
    let now := s.tb
    .next (s.modKeeper (fun k => { k with power := .sequence now }))
  | _ => .next s

/-- The keeper watchdog runs: not in boot failure, not in a reset or the hold, not while the debugger holds the Root engine
halted (R577). -/
def State.keeperRuns (s : State) : Bool := s.running && (s.eng 9).run != .halted

/-- KEEPER_WATCHDOG (R577): KWDT seconds without a kick; a power cycle with cause 5. -/
def execKeeperWatchdog (s : State) : Host.Outcome State Fault Refusal :=
  if s.keeperRuns then .next (startPowerCycle 5 (s.advanceTo (s.keeper.kick + s.fld RB_CTRL.KWDT * 125000000)))
  else .next s

/-! ### Supply resets and the power-up sequence (R516) -/

/-- A supply reset with its cause: the power-up sequence runs anew (R559). -/
def supplyReset (cause : Nat) (s : State) : State := assertReset false cause (.sequence 0) s

/-- POWER_ON (R516, R560): VIN rises from below the keeper's minimum; the keeper domain is reset, and the sequence starts. The
strap balls and the class straps stand as given. -/
def execPowerOn (straps : BitVec 2) (cls0 cls1 : BitVec 4) (s : State) : Host.Outcome State Fault Refusal :=
  match s.keeper.power with
  | .dead =>
    let s := assertReset false 0 (.sequence 0) s
    let s := (s.setFld PW_SRC.F0CLS 0 cls0.toNat).setFld PW_SRC.F1CLS 0 cls1.toNat
    .next (s.modKeeper (fun k => { k with straps := straps.toNat, intr := false }))
  | _ => .next s

/-- KEEPER_SUPPLY_LOSS (R533): VIN below the keeper's own minimum; nothing holds its state but flash and fuses. -/
def execKeeperSupplyLoss (s : State) : Host.Outcome State Fault Refusal :=
  let s := assertReset false 0 .dead s
  let s := forEach RB_CAUSE.fields (fun f => State.setFld f 0 0) s
  let s := { s with mem := s.mem.filter (fun p => decide (p.1 < 0x800000)), logs := [] }
  .next (s.modKeeper (fun k => { Keeper.reset with power := .dead, straps := k.straps }))

/-- The comparator of a rail, and the start of its soft-start in the sequence: PG0 core, PG1 3.3 V, PG2 1.8 V (Table PW-2). -/
def railWc (g : Nat) : Nat × Nat :=
  match g with
  | 0 => (4, 1500000)
  | 1 => (5, 1250000)
  | _ => (6, 1375000)

/-- SOFT_START_TIMEOUT (R516): a rail is not inside its window 2 ms after its soft-start began; every generator is switched off,
and the sequence starts again 200 ms later. Rail 3 is the excitation rail that soft-starts with the image. -/
def execSoftStartTimeout (rail : Fin 4) (s : State) : Host.Outcome State Fault Refusal :=
  match s.keeper.power with
  | .sequence t =>
    let w := railWc rail.val
    if rail.val = 3 || s.fld PW_WCST.STATE w.1 = 1 then .next s
    else
      let s := s.advanceTo (t + w.2 + 250000)
      let now := s.tb
      .next (s.modKeeper (fun k => { k with power := .failed now }))
  | .up =>
    if rail.val = 3 && (s.pg 3).first && s.pgRuns 3 && s.fld PW_WCST.STATE 24 != 1 then
      let s := s.advanceTo ((s.pg 3).since + 250000)
      .next (assertReset false s.keeper.cause (.failed 0) s)
    else .next s
  | _ => .next s

/-- POWER_UP_RETRY (R516): 200 ms after a failed sequence. -/
def execPowerUpRetry (s : State) : Host.Outcome State Fault Refusal :=
  match s.keeper.power with
  | .failed t =>
    let s := s.advanceTo (t + 25000000)
    let now := s.tb
    let s := forEach [4, 5, 6] (fun w => State.setFld PW_WCST.STATE w 3) s
    .next (s.modKeeper (fun k => { k with power := .sequence now }))
  | _ => .next s

/-! ### Window comparators (R525, R526) -/

/-- The counters and status of WC24 to WC31 (R525). -/
def noteComparator (w st : Nat) (s : State) : State :=
  if w < 24 then s
  else
    let s := if st = 0 then s.countFld PW_WCST.LOWN w 1 else if st = 2 then s.countFld PW_WCST.HIGHN w 1 else s
    match w with
    | 24 => s
    | 25 => (s.setFld PW_SRC.F0 0 (bit (st != 0))).flag PW_STATUS.SRCCHG evPW
    | 26 => (s.setFld PW_SRC.F1 0 (bit (st != 0))).flag PW_STATUS.SRCCHG evPW
    | 27 => (s.setFld PW_SRC.AUX 0 (bit (st != 0))).flag PW_STATUS.SRCCHG evPW
    | 28 => onlyIf (st == 2) (State.flag PW_STATUS.THERM evPW) s
    | _ => s.flag PW_STATUS.GPCHG evPW

/-- The change with the device up: a rail that leaves its window resets the device; the excitation rail stops PG3 (R526). -/
def changeUp (w st : Nat) (s : State) : State :=
  let old := s.fld PW_WCST.STATE w
  if old = st then s
  else
    let s := noteComparator w st (s.setFld PW_WCST.STATE w st)
    if (w == 4 || w == 5 || w == 6) && st != 1 then supplyReset 3 s
    else if w = 24 then
      if old = 1 && s.pgRuns 3 then (stopExcitation 4 s).flag PW_STATUS.EXCFLT evPW else showExcok s
    else s

/-- A rail is in its window: the 10 ms wait of Table PW-2 is over, since the first rail soft-starts after it. -/
def State.railUp (s : State) : Bool := [4, 5, 6].any (fun r => s.fld PW_WCST.STATE r == 1)

/-- The change during the power-up sequence: VIN below the warning threshold within the 10 ms starts the wait again; with the three
rails in their windows the reset is released at 13 ms and boot follows (R516; when the wait is over is DEDUCED, assumption 186). -/
def changeSequence (since w st : Nat) (s : State) : State :=
  let rose := s.railUp
  let s := s.setFld PW_WCST.STATE w st
  let now := s.tb
  if w = 7 then onlyIf (!rose) (State.modKeeper (fun k => { k with power := .sequence now })) s
  else if [4, 5, 6].all (fun r => s.fld PW_WCST.STATE r == 1) && (rose || [2, 3].contains (s.fld PW_WCST.STATE 7)) then
    releaseReset (railsStarted (s.advanceTo (since + 1625000)))
  else s

/-- WINDOW_COMPARATOR_CHANGE (R525): comparator `w` reports a new band, 0 below, 1 within, 2 above. Without rails no comparator
works. -/
def execWindowComparatorChange (w : Fin 32) (st : Fin 3) (s : State) : Host.Outcome State Fault Refusal :=
  match s.keeper.power with
  | .up => .next (changeUp w.val st.val s)
  | .ballLow => .next (s.setFld PW_WCST.STATE w.val st.val)
  | .sequence t => .next (changeSequence t w.val st.val s)
  | _ => .next s

/-! ### Input dips (R527 to R531) -/

/-- DIP_WARNING (R527, R531): VIN has stayed below THI of WC7 for 1 µs. The front end falls to hold at the next grid instant; a
commit is suspended. -/
def execDipWarning (s : State) : Host.Outcome State Fault Refusal :=
  if !s.running || s.isSet PW_STATUS.WARN then .next s
  else
    let t := s.tb
    let s := ((s.setFld PW_STATUS.WARN 0 1).countFld PW_DIP.DIPN 0 1).setFld PW_DIPTIME.TIME 0 s.nowLow
    let s := onlyIf s.committing (State.setFld RB_CST.SUSP 0 1) s
    .next (({ s with dip := true }.modKeeper (fun k => { k with dipAt := t })).flag PW_STATUS.DIPW evPW)

/-- DIP_CLEAR (R527, R531): VIN has stayed above THI plus 0.5 V for DIPCLR × 0.1 ms. The length is rounded to the nearest 0.1 ms
(DEDUCED from the example of R531, assumption 81). -/
def execDipClear (s : State) : Host.Outcome State Fault Refusal :=
  if !s.isSet PW_STATUS.WARN then .next s
  else
    let s := s.advanceTo (s.keeper.dipAt + s.fld PW_CTRL.DIPCLR * 12500)
    let n := min 0xFFFF ((s.tb - s.keeper.dipAt + 6250) / 12500)
    let c := s.suspended
    let s := { s with dip := false, commit := { s.commit with susp := c } }
    let s := ((s.setFld PW_STATUS.WARN 0 0).setFld PW_DIP.LASTD 0 n).setFld RB_CST.SUSP 0 0
    .next (s.flag PW_STATUS.DIPEND evPW)

/-- LOW_INPUT_RESET (R527): VIN has stayed below TLO of WC7 for 2 µs; the warning has asserted before it. The sequence waits for VIN
to rise. -/
def execLowInputReset (s : State) : Host.Outcome State Fault Refusal :=
  if s.isSet PW_STATUS.WARN then .next ((supplyReset 2 s).setFld PW_WCST.STATE 7 0) else .next s

/-- CURRENT_LIMIT_FAULT (R521): 1,024 consecutive periods at ILIM; a rail fault for PG0 and PG1, a stop for PG3. PG2 has no current
limit (R520). -/
def execCurrentLimitFault (g : Fin 4) (s : State) : Host.Outcome State Fault Refusal :=
  if (s.pg g.val).limRun < 1024 || g.val == 2 then .next s
  else if g.val = 3 then .next ((stopExcitation 4 s).flag PW_STATUS.PGFLT evPW)
  else .next (supplyReset 3 s)

/-! ### The reset ball (R559, R580, 17 R605) -/

/-- RESET_BALL (R559, R580): RST_N goes low: the keeper's counters clear; a running device is held in reset, a held one waits for the
rising edge. -/
def execResetBall (s : State) : Host.Outcome State Fault Refusal :=
  let s := (s.setFld RB_CAUSE.DRSTN 0 0).setFld RB_CAUSE.PCYCN 0 0
  match s.keeper.power with
  | .up => .next (assertReset true 1 .ballLow s)
  | .hold => .next (s.modKeeper (fun k => { k with power := .holdLow, cause := 1 }))
  | _ => .next s

/-- RESET_RELEASE (17 R605): RST_N rises, the strap balls standing as given; boot follows, or from the hold the power-up sequence,
with HELD to be recorded (R580). -/
def execResetRelease (straps : BitVec 2) (s : State) : Host.Outcome State Fault Refusal :=
  let t := s.tb
  match s.keeper.power with
  | .ballLow => .next (releaseReset (s.modKeeper (fun k => { k with straps := straps.toNat })))
  | .holdLow => .next (s.modKeeper (fun k => { k with straps := straps.toNat, held := true, power := .sequence t }))
  | _ => .next s

end Sys2Proof.Machine
end

