-- ==== Sys2Proof/Machine/Boundary.lean ====
section
/-! DEFINITION. The cycle boundary (06 R254): the work that every block does at it, in one command. -/

namespace Sys2Proof.Machine

/-- The state timer of an active bobbin steps (04 R190); reaching 0 is presented at the next evaluation. The step is a voted write of the
record: where another requester holds the bobbin's lock, or no voted write is to be had, it is owed (04 R167, R207). -/
def tickTimer (b : Nat) (s : State) : State :=
  let owed := (s.sec b).ticks + 1
  if s.lockedFor .hw b || !s.canVote then s.modSec b (fun x => { x with ticks := owed })
  else (runTimer b owed s).modSec b (fun x => { x with ticks := 0 })

/-- STEP returns to 0 in the Sapwood and Root engines, and BUDGET may be signalled afresh (09 R346, R348). -/
def clearSteps (s : State) : State :=
  forEach [3, 4, 5, 6, 7, 8, 9] (fun i => State.modEng i (fun e => { e with step := 0#32, budgeted := false })) s

/-- The pass of the section program in a cycle in which it has no bobbin to evaluate: the header words of the mirror, the points' words, the
transmit buffers and the node's own entry of the state store go on being written (07 R280, R302, 12 R478). It takes place at the boundary
(DESIGN CHOICE, assumption 179). -/
def idlePass (s : State) : State :=
  if !s.canVote || s.waitsForLock .hw || (List.range 256).any s.active then s
  else let s := takeOrigin (accumulate s); commitBobbins s [] s

/-- The boundary of the home ring, with network time at it: the time unit first, whose step moves no boundary (R254), then rings,
outputs, the Heartwood's mark, Graft and the Canopy, timers and rates. `busy` is the time that each engine spent executing. -/
def homeBoundary (busy : List Nat) (s : State) : State :=
  let len := s.cycleLen
  let s := timeBoundary { s with cycle := s.cycle + 1 }
  let t := s.nowTu
  let s := onlyIf (s.joined 0) (ringBoundary 0 t) s
  let s := heartBoundary (voBoundary t len s)
  let s := onlyIf s.canVote (fun s => canopySweep (graftBoundary (s.cycOf 0 t) s)) s
  let s := forEach ((List.range 256).filter s.active) tickTimer s
  resetWhenEmpty (rateBoundary busy len (clearSteps (idlePass s)))

/-- The shorter cycle length of the node's two rings: boundaries of either fall on its multiples. -/
def State.boundaryStep (s : State) : Nat := if s.joined 1 then min s.cycleLen (s.ringLen 1) else s.cycleLen

/-- Network time passes to the next boundary of a ring of this node, and its work is done. -/
def toBoundary (busy : List Nat) (s : State) : State :=
  let s := s.advanceNow (nextMultiple s.boundaryStep (max s.nowTu s.cycNext))
  let t := s.nowTu
  let s := { s with cycNext := t + 1 }
  let home := t % s.cycleLen == 0
  let s := onlyIf (s.joined 1 && t % s.ringLen 1 == 0) (ringBoundary 1 t) s
  onlyIf home (homeBoundary busy) s

/-- CYCLE_BOUNDARY (R254): with the device up. -/
def execCycleBoundary (busy : List Nat) (s : State) : Host.Outcome State Fault Refusal :=
  .next (onlyIf s.running (toBoundary busy) s)

end Sys2Proof.Machine
end

