-- ==== Sys2Proof/Machine/Commands.lean ====
section
/-! DEFINITION. The agreed bobbin commands (04 R194; 08 R327, R328). -/

namespace Sys2Proof.Machine

/-- A command that is taken aborts a migration of its bobbin, while its SWITCH has not been released, before the command is
presented (08 R328). -/
def abortForCommand (b : Nat) (s : State) : State :=
  match s.slotOf 0 b with
  | some x => if (s.mig x).switched then s else endMig x 3 9 true s
  | none => s

/-- An agreed command (R194): 7 before 6 before 5, else queued. -/
def takeCommand (c : Cmd) (s : State) : State :=
  if !cmdValid c.code then cmdResult c 7 s
  else if !s.takesCommands c.bob then cmdResult c 6 s
  else if decide (8 ≤ s.cmds.length) || s.cmds.any (fun x => x.bob == c.bob) then cmdResult c 5 s
  else
    let s := abortForCommand c.bob s
    cmdResult c 1 { s with cmds := s.cmds ++ [c] }

/-- The offset of BB_CMD in the device-register space. -/
def bbCmdOff : Nat := BB_CMD.addr

/-- The command of an agreed value of BB_CMD. -/
def cmdOf (v : Nat) : Cmd := { bob := BB_CMD.BOB.of v, code := BB_CMD.CODE.of v, tag := BB_CMD.TAG.of v }

/-- The agreed value of BB_CMD that has agreed first takes its effect, when its code is the command's (12 R471): else the
command finds no occasion. -/
def agreedCommand (codeOk : Nat → Bool) (s : State) : State :=
  match s.agreed.find? (fun p => p.1 == bbCmdOff) with
  | none => s
  | some p =>
    if codeOk (cmdOf p.2).code then takeCommand (cmdOf p.2) { s with agreed := s.agreed.erase p } else s

/-- PREPARATORY_RESET: code 1. -/
def execPreparatoryReset (s : State) : Host.Outcome State Fault Refusal := .next (agreedCommand (fun c => c == 1) s)
/-- CONDITIONAL_RESET: code 2. -/
def execConditionalReset (s : State) : Host.Outcome State Fault Refusal := .next (agreedCommand (fun c => c == 2) s)
/-- DIRECT_RESET: code 3. -/
def execDirectReset (s : State) : Host.Outcome State Fault Refusal := .next (agreedCommand (fun c => c == 3) s)
/-- CANCEL_RESET_PROCEDURE: code 4. -/
def execCancelResetProcedure (s : State) : Host.Outcome State Fault Refusal := .next (agreedCommand (fun c => c == 4) s)
/-- FINGERPRINT_CLEARANCE: code 5. -/
def execFingerprintClearance (s : State) : Host.Outcome State Fault Refusal := .next (agreedCommand (fun c => c == 5) s)
/-- OPERATOR_COMMAND: codes 8 to 11. -/
def execOperatorCommand (s : State) : Host.Outcome State Fault Refusal :=
  .next (agreedCommand (fun c => decide (8 ≤ c) && decide (c ≤ 11)) s)
/-- INVALID_COMMAND: any other code. -/
def execInvalidCommand (s : State) : Host.Outcome State Fault Refusal := .next (agreedCommand (fun c => !cmdValid c) s)

end Sys2Proof.Machine
end

