-- ==== Sys2Proof/Machine/RegAccess.lean ====
section
/-! DEFINITION. A write of any device register with its reset effects and its waiting: what an engine's store, a landed commit, a
host access and the debugger come to; and the debugger's commands (16 R584 to R586). -/

namespace Sys2Proof.Machine

/-- A write of `v` to register offset `off` by `q`: whether it has reset the device, and the state after it. -/
def writeReg (q : Req) (off v : Nat) (s : State) : Bool × State :=
  if off = PW_CYCLE.addr then pwCycle q v s
  else if off = RB_RESET.addr then rbReset q v s
  else if off = DB_CTRL.addr && q == .dbg && s.debugOn && v.testBit 3 then (true, deviceReset 8 (dbOrders v s))
  else (false, writeReg0 q off v s)

/-- A write of register offset `off` by `q` has to wait: BB_INBACK of a bobbin that another requester has locked (04 R207). -/
def State.writeWaits (s : State) (q : Req) (off : Nat) : Bool := off == BB_INBACK.addr && s.lockedFor q (s.selBob q)

/-- What a load comes to: a value; a fault; a wait. -/
inductive LoadRes where
  | ok (v : Nat) (s : State)
  | fault (code detail addr : Nat) (s : State)
  | wait (s : State)

/-- What a store comes to: it is made; a fault; a wait; it has reset the device, and with it the engine that made it. -/
inductive StoreRes where
  | ok (s : State)
  | fault (code detail addr : Nat) (s : State)
  | wait (s : State)
  | over (s : State)

/-- A store of an engine that writes for itself to register offset `off`: a write of BB_LOCK that is refused is an access fault with
detail 4 (04 R205, 09 Table KM-13); a store that has reset the device is over with the engine's old state. -/
def engRegWrite (q : Req) (off v : Nat) (s : State) : StoreRes :=
  if off = BB_LOCK.addr then
    match bbLock q (BB_LOCK.BOB.of v) s with
    | .granted t => .ok t
    | .refused t => .fault 3 4 (0x30000000 + off) t
    | .waits t => .wait t
  else if s.writeWaits q off then .wait s
  else
    let r := writeReg q off v s
    if r.1 then .over r.2 else .ok r.2

/-! ### The debugger's commands -/

/-- A write of the debugger to register offset `off`: while its input is masked, the access error alone (11 Table MI-4); so too at
an unassigned offset (01 R44). Under a quiesce it waits (11 R447). -/
def dbgWrite (off v : Nat) (s : State) : State :=
  if s.masked .dbg || (findReg off).isNone then accErr s
  else if s.arbHolds .dbg || s.writeWaits .dbg off then s
  else (writeReg .dbg off v s).2

/-- A read of register offset `off` by the debugger. -/
def dbgRead (off : Nat) (s : State) : State :=
  if s.masked .dbg || (findReg off).isNone then accErr s
  else if s.arbHolds .dbg then s
  else deliver .dbg (readReg .dbg off s)

/-- DEBUG_HALT (R585): DB_CTRL with HALT. -/
def execDebugHalt (s : State) : Host.Outcome State Fault Refusal := .next (dbgWrite DB_CTRL.addr 1 s)

/-- DEBUG_RESUME (R585): DB_CTRL with RESUME. -/
def execDebugResume (s : State) : Host.Outcome State Fault Refusal := .next (dbgWrite DB_CTRL.addr 2 s)

/-- SINGLE_STEP (10 R430): DB_CTRL with STEP. -/
def execSingleStep (s : State) : Host.Outcome State Fault Refusal := .next (dbgWrite DB_CTRL.addr 4 s)

/-- SYSRST (R559): DB_CTRL with SYSRST: a device reset with cause 8. -/
def execSysrst (s : State) : Host.Outcome State Fault Refusal := .next (dbgWrite DB_CTRL.addr 8 s)

/-- DB_DATA_ACCESS (R585): a write of `v`, or a read. -/
def execDbDataAccess (write : Bool) (v : Word) (s : State) : Host.Outcome State Fault Refusal :=
  .next (if write then dbgWrite DB_DATA.addr v.toNat s else dbgRead DB_DATA.addr s)

/-- REGDATA_ACCESS (R585): a write of `v`, or a read. -/
def execRegdataAccess (write : Bool) (v : Word) (s : State) : Host.Outcome State Fault Refusal :=
  .next (if write then dbgWrite DB_REGDATA.addr v.toNat s else dbgRead DB_REGDATA.addr s)

/-- TRACE_DUMP (R586): DB_TRDUMP with GO. -/
def execTraceDump (s : State) : Host.Outcome State Fault Refusal := .next (dbgWrite DB_TRDUMP.addr 1 s)

end Sys2Proof.Machine
end

