-- ==== Sys2Proof/Machine/Hosts.lean ====
section
/-! DEFINITION. The bus cycles of the host ports (12 R461 to R469, R476, 17 R592), and the commands that write registers or take locks
for any requester (00 R14, 04 R204). -/

namespace Sys2Proof.Machine

/-! ### Windows and service -/

/-- The engine address of a host address (Table HP-1); the mirror window and addresses outside every window have none. -/
def hostWindow (a : Nat) : Option Nat :=
  if 0x10000 ≤ a ∧ a < 0x20000 then some (0x30000000 + (a - 0x10000))
  else if 0x20000 ≤ a ∧ a < 0x30000 then some (0x38000000 + (a - 0x20000))
  else if 0x400000 ≤ a ∧ a < 0x600000 then some (0x20000000 + (a - 0x400000))
  else if 0x600000 ≤ a ∧ a < 0x640000 then some (0x28000000 + (a - 0x600000))
  else none

/-- What the ports serve (R469, 17 R592): everything; in boot failure reads of the ID, RB and DB pages and of the diagnostics; in
reset nothing but mirror reads; nothing at all while the rails are down. -/
inductive Service where
  | all
  | failure
  | inReset
  | none
  deriving DecidableEq, Repr

/-- What the ports serve now. -/
def State.service (s : State) : Service :=
  match s.keeper.power with
  | .up => if s.isSet RB_BOOT.FAIL then .failure else .all
  | .ballLow => .inReset
  | _ => .none

/-- A register that holds an AW field (00 R16). -/
def isAw (off : Nat) : Bool :=
  match findReg off with
  | some (r, _) => r.fields.any (fun f => f.acc == .aw)
  | none => false

/-- The access of port `p` is over. -/
def endAccess (p : Fin 3) (s : State) : State := s.modPort p.val (fun x => { x with acc := none })

/-- The access of port `p` holds HxRDY low from now, or goes on doing so (R464). -/
def holdAccess (p : Fin 3) (write : Bool) (addr be v : Nat) (s : State) : State :=
  let t := s.tb
  s.modPort p.val (fun x => if x.acc.isSome then x
    else { x with acc := some { write := write, addr := addr, be := be, val := v, since := t } })

/-- The error response of R592, which HP_PERR does not record. -/
def quietError (p : Fin 3) (write : Bool) (s : State) : State :=
  if write then s else deliver (.host p) (0xFFFFFFFF, s)

/-- The address conditions of an enabled port's access, in the order tested (Table HP-3; the order is DEDUCED, assumption 21): the cause,
or the engine address. -/
def hostTarget (write : Bool) (addr be : Nat) : Nat ⊕ Nat :=
  if addr % 4 ≠ 0 then .inl 4
  else if addr < 0x4000 then .inl 2
  else match hostWindow addr with
    | none => .inl 1
    | some ea =>
      match regionOf ea with
      | .dev => if be ≠ 15 then .inl 4 else if (findReg (ea % 65536)).isNone then .inl 3 else .inr ea
      | .mirrorSrc => .inl (if write then 2 else 1)
      | _ => if write then .inl 2 else .inr ea

/-- The access passes the arbiter and takes its effect: a read of a register with its side effects, or of a word of memory. -/
def hostRead (p : Fin 3) (ea addr : Nat) (s : State) : State :=
  if regionOf ea = .dev then endAccess p (deliver (.host p) (readReg (.host p) (ea % 65536) s))
  else
    let r := s.readBlock (s.input (.host p)) ea
    if r.1 then endAccess p (deliver (.host p) (r.2.rdW ea, r.2)) else errorResponse p 5 addr false r.2

/-- A write of a device register by a host: a lock request may wait (04 R206). -/
def hostWrite (p : Fin 3) (ea addr be v : Nat) (s : State) : State :=
  let off := ea % 65536
  if off = BB_LOCK.addr then
    match bbLock (.host p) (BB_LOCK.BOB.of v) s with
    | .granted t => endAccess p t
    | .refused t => endAccess p t
    | .waits t => holdAccess p true addr be v t
  else if s.writeWaits (.host p) off then holdAccess p true addr be v s
  else endAccess p (writeReg (.host p) off v s).2

/-- The time base at which port `p` has latched its access (R464). -/
def State.latchedAt (s : State) (p : Fin 3) : Nat :=
  match (s.port p.val).acc with
  | some a => a.since
  | none => s.tb

/-- A wait-stated access of an enabled port: it passes the arbiter, a proposal too (R466), and not from a masked input (Table MI-4). -/
def hostServe (p : Fin 3) (write : Bool) (addr be v : Nat) (s : State) : State :=
  match hostTarget write addr be with
  | .inl cause => errorResponse p cause addr write s
  | .inr ea =>
    let aw := write && isAw (ea % 65536)
    if s.masked (.host p) then errorResponse p 6 addr write s
    else if aw && s.isSafe then errorResponse p 9 addr true s
    else if s.arbHolds (.host p) then holdAccess p write addr be v s
    else if aw then endAccess p (propose p.val (ea % 65536) v (s.latchedAt p) s)
    else if write then hostWrite p ea addr be v s
    else hostRead p ea addr s

/-- A read of mirror word `x` (R463, R481): all ones in the safe state. -/
def mirrorRead (p : Fin 3) (x : Nat) (s : State) : State :=
  if s.isSafe then deliver (.host p) (0xFFFFFFFF, s)
  else
    let r := s.readBlock (s.input (.host p)) (memKey 11 x)
    if r.1 then deliver (.host p) (r.2.rdW (memKey 11 x), r.2) else errorResponse p 5 x false r.2

/-- A cycle of port `p`: a port whose access waits takes no other; the waiting access itself is presented again. -/
def hostAccess (p : Fin 3) (write : Bool) (addr be v : Nat) (s : State) : State :=
  match s.service with
  | .none => s
  | .inReset => if !write && addr < 0x4000 && addr % 4 == 0 then deliver (.host p) (0xFFFFFFFF, s) else quietError p write s
  | .failure =>
    let open' := match hostTarget write addr be with
      | .inr ea => decide (ea < 0x30001000 && 0x30000000 ≤ ea) || decide (0x3000E000 ≤ ea)
      | .inl _ => false
    if !write && addr < 0x4000 && addr % 4 == 0 then deliver (.host p) (0xFFFFFFFF, s)
    else if !write && open' then hostRead p ((hostWindow addr).getD 0) addr s
    else quietError p write s
  | .all =>
    let same := match (s.port p.val).acc with
      | none => true
      | some a => a.write == write && a.addr == addr && a.val == v
    if !same then s
    else if !write && addr < 0x4000 && addr % 4 == 0 then mirrorRead p addr s
    else if !s.isSet HP_PCTRL.EN p.val then errorResponse p 8 addr write s
    else hostServe p write addr be v s

/-- MIRROR_READ (R463): a read of word `w` of the mirror window. -/
def execMirrorRead (p : Fin 3) (w : BitVec 12) (s : State) : Host.Outcome State Fault Refusal :=
  .next (hostAccess p false (4 * w.toNat) 15 0 s)

/-- HOST_ACCESS (R464): a cycle at a host address with byte enables. -/
def execHostAccess (p : Fin 3) (write : Bool) (addr : Word) (be : BitVec 4) (v : Word) (s : State) :
    Host.Outcome State Fault Refusal :=
  .next (hostAccess p write addr.toNat be.toNat v.toNat s)

/-- READY_TIMEOUT (R468): HxRDY has been low for RDYTO µs; a lock request that waits is withdrawn. -/
def execReadyTimeout (p : Fin 3) (s : State) : Host.Outcome State Fault Refusal :=
  match (s.port p.val).acc with
  | none => .next s
  | some a =>
    let s := s.advanceTo (a.since + s.fld HP_CTRL.RDYTO * 125)
    let s := { s with lockWait := s.lockWait.filter (fun w => w.who != .host p) }
    .next ((errorResponse p 7 a.addr a.write s).flag HP_STATUS.RDYTO evHP)

/-- PROPOSAL (R470): a host's write to BB_CMD, or with `gr` to GR_CMD. -/
def execProposal (p : Fin 3) (gr : Bool) (v : Word) (s : State) : Host.Outcome State Fault Refusal :=
  .next (hostAccess p true (0x10000 + (if gr then GR_CMD.addr else BB_CMD.addr)) 15 v.toNat s)

/-- QUEUE_READ (R483): a read of HP_QLO of port `p` by its own host. -/
def execQueueRead (p : Fin 3) (s : State) : Host.Outcome State Fault Refusal :=
  .next (hostAccess p false (0x10000 + HP_QLO.addr + 0x200 * p.val) 15 0 s)

/-! ### Register writes and locks by any requester -/

/-- The engine that a requester is, where it is one engine. -/
def Req.engine : Req → Option Eng
  | .root => some .root
  | .se k => some (.se k)
  | .splitA => some .ha
  | .splitB => some .hb
  | _ => none

/-- A fault that a write brings to the requester: to its engine; to every voting core; to the debugger's status (01 R44). -/
def writeFault (q : Req) (detail addr : Nat) (s : State) : State :=
  match q with
  | .dbg => accErr s
  | .hw => heartFault detail addr s
  | _ =>
    match Req.engine q with
    | some e => if (s.eng e.idx).run == .running then takeFault e 3 detail addr s else s
    | none => s

/-- A voted write of BB_LOCK (04 R204 to R206): refused, it is an access fault with detail 4 of every voting core, as an engine's write
is (04 R205; that it reaches each core as the group lands is DEDUCED, assumption 123). -/
def voteLock (b : Nat) (s : State) : State :=
  match bbLock .hw b s with
  | .granted t => t
  | .refused t => writeFault .hw 4 (0x30000000 + BB_LOCK.addr) t
  | .waits t => t

/-- A write of `v` to register offset `off` by a requester that is not a host. -/
def plainWrite (q : Req) (off v : Nat) (s : State) : State :=
  if off % 4 ≠ 0 then writeFault q 2 (0x30000000 + off) s
  else if (findReg off).isNone then writeFault q 0 (0x30000000 + off) s
  else match q with
    | .dbg => dbgWrite off v s
    | .hw =>
      if s.writeWaits .hw off then s
      else if off = BB_LOCK.addr then voteLock (BB_LOCK.BOB.of v) s
      else (writeReg .hw off v s).2
    | .dma => s
    | .trace => s
    | .commit => s
    | _ =>
      if s.arbHolds q then s
      else match engRegWrite q off v s with
        | .ok t => t
        | .wait t => t
        | .over t => t
        | .fault _ d a t => writeFault q d a t

/-- REGISTER_WRITE (00 R14): a write of `v` to register offset `off` by `q`. -/
def execRegisterWrite (q : Req) (off : BitVec 16) (v : Word) (s : State) : Host.Outcome State Fault Refusal :=
  asReq q s <|
  match q with
  | .host p => .next (hostAccess p true (0x10000 + off.toNat) 15 v.toNat s)
  | _ => .next (plainWrite q off.toNat v.toNat s)

/-- LOCK (04 R204 to R206): a write of BB_LOCK. The Carrik DMA locks by itself; its transfer waits. -/
def execLock (q : Req) (b : BitVec 8) (s : State) : Host.Outcome State Fault Refusal :=
  asReq q s <|
  match q with
  | .host p => .next (hostAccess p true (0x10000 + BB_LOCK.addr) 15 b.toNat s)
  | .dma => .next (flushHeld (lockNow .dma b.toNat s))
  | _ => .next (plainWrite q BB_LOCK.addr b.toNat s)

end Sys2Proof.Machine
end

