-- ==== Sys2Proof/Machine/Commit.lean ====
section
/-! DEFINITION. The landing of commit groups (10 R385 to R389, 11 R444), what each write of a group does, and the watchdog bite on a
held grant (11 R449 to R451). -/

namespace Sys2Proof.Machine

/-! ### One write of a group -/

/-- The bytes of a block image that a mask names, written at key `k`. -/
def putMasked (k : Nat) (mask : BitVec 16) (img : Block) (s : State) : State :=
  forEach (List.range 16) (fun j t => if mask.getLsbD j then t.setByte (k + j) (img.extractLsb' (8 * j) 8) else t) s

/-- A write of a block at key `k`: a whole block replaces it, less is merged into it; not performed where the merge meets an
uncorrectable block (11 R435, R436, Table MI-2). Whether it has been performed, and the state. -/
def landBlock (k : Nat) (w : GWrite) (s : State) : Bool × State :=
  if w.mask = BitVec.allOnes 16 then (true, putBlock k w.img.toNat s)
  else
    let r := s.mergeBlock 12 k
    (r.1, if r.1 then putMasked k w.mask w.img r.2 else r.2)

/-- The entries of a mirror word that a voted write has changed (12 R482, Table HP-7). -/
def mirrorEntry (x old : Nat) (s : State) : State :=
  let v := s.mirror x
  if v = old then s
  else if 0x40 ≤ x ∧ x < 0x440 then hostSection ((x - 0x40) / 4) (v % 16) (v / 65536) s
  else if 0x440 ≤ x ∧ x < 0x2440 then hostPoint ((x - 0x440) / 4) s
  else s

/-- A voted write to the mirror source (01 R34): the same bytes land in the mirror memory, and changed words raise entries. -/
def landMirror (w : GWrite) (s : State) : State :=
  let x := w.blk - 0x201FC000
  let old := [0, 4, 8, 12].map (fun j => (x + j, s.mirror (x + j)))
  let r := landBlock w.blk w s
  if r.1 then forEach old (fun p => mirrorEntry p.1 p.2) (landBlock (memKey 11 x) w r.2).2 else r.2

/-- The register offset and the value of a write to device registers: the lowest word of the block that the mask names. -/
def GWrite.regWrite (w : GWrite) : Nat × Nat :=
  let j := ([0, 1, 2, 3].find? (fun j => w.mask.getLsbD (4 * j))).getD 0
  (w.blk % 65536 + 4 * j, (w.img.extractLsb' (32 * j) 32).toNat)

/-- One write of a landed group, with the voted flag (01 R32): whether it has reset the device, and the state. Rings take no voted
writes (04 R170). -/
def landWrite (w : GWrite) (s : State) : Bool × State :=
  match regionOf w.blk with
  | .dev =>
    let p := w.regWrite
    if p.1 = BB_LOCK.addr then (false, voteLock (BB_LOCK.BOB.of p.2) s) else writeReg .hw p.1 p.2 s
  | .mirrorSrc => (false, landMirror w s)
  | .bobbin => (false, if w.blk % 0x400 < 0x200 then (landBlock w.blk w s).2 else s.reject .hw)
  | .shared => (false, if s.inOrigin w.blk || s.inShadow w.blk then s.reject .hw else (landBlock w.blk w s).2)
  | _ => (false, (landBlock w.blk w s).2)

/-- The writes of a group in order; a device reset ends the train. -/
def landWrites : List GWrite → State → Bool × State
  | [], s => (false, s)
  | w :: rest, s =>
    let r := landWrite w s
    if r.1 then r else landWrites rest r.2

/-! ### Waiting for locks (04 R206, R207) -/

/-- The train waits: for a lock that another requester holds, or to write a bobbin that another has locked. The requested lock waits
for its grant. `sel` is the bobbin that BB_BOBSEL selects at that point of the group. -/
def groupWaits : List GWrite → Nat → State → Bool × State
  | [], _, s => (false, s)
  | w :: rest, sel, s =>
    match regionOf w.blk with
    | .bobbin =>
      if w.blk % 0x400 < 0x200 && s.lockedFor .hw ((w.blk - 0x28000000) / 0x400) then (true, s) else groupWaits rest sel s
    | .dev =>
      let p := w.regWrite
      let b := BB_LOCK.BOB.of p.2
      if p.1 = BB_BOBSEL.addr then groupWaits rest (BB_BOBSEL.BOB.of p.2) s
      else if p.1 = BB_INBACK.addr && s.lockedFor .hw sel then (true, s)
      else if p.1 = BB_LOCK.addr && s.lockBusy .hw b && !s.lockBad .hw b then
        (true, waitLock .hw b s)
      else groupWaits rest sel s
    | _ => groupWaits rest sel s

/-! ### Landing (R385 to R389) -/

/-- A group lands: MAXW of HW_GRP, and its writes. -/
def landGroup (ws : List GWrite) (s : State) : Bool × State :=
  let s := onlyIf (decide (s.fld HW_GRP.MAXW < ws.length)) (State.setFld HW_GRP.MAXW 0 ws.length) s
  landWrites ws (traceHap 1 s)

/-- The oldest copy of core `c` leaves the voter. -/
def popGroup (c : Nat) (s : State) : State := s.modCore c (fun k => { k with closed := k.closed.tail })

/-- The two waiting copies that were the first to agree: their cores, the writes as presented, and the later arrival (R385). -/
def State.agreeing (s : State) : Option (Nat × Nat × Group) :=
  let l := s.firstCopies.map (fun p => (p.1, { p.2 with writes := s.presented p.1 p.2.writes }))
  (l.flatMap (fun x => l.filterMap (fun y =>
    if x.1 < y.1 && x.2.writes == y.2.writes then
      some (x.1, y.1, { x.2 with time := max x.2.time y.2.time }) else none))).foldl (fun b x => match b with
    | none => some x
    | some y => if x.2.2.time < y.2.2.time then some x else some y) none

/-- The third core's copy, once the group of the other two has landed (R385): present, it is compared with theirs and its arrival with the
second's; absent, it is expected within LAG. -/
def thirdCopy (c : Nat) (g : Group) (s : State) : State :=
  match (s.core c).closed with
  | [] => s.modCore c (fun k => { k with expect := k.expect ++ [g] })
  | own :: _ =>
    let p := s.presented c own.writes
    let inj := s.proofArmed c 0
    let s := popGroup c s
    if g.time + s.lagTu < own.time then oddCore c 1 (diffAddr g.writes []) inj s
    else if p = g.writes then s
    else oddCore c 0 (diffAddr p g.writes) inj s

/-- The two agreeing cores' group lands, and the third core, if one votes, is held to it. -/
def landAgreed (a b : Nat) (g : Group) (s : State) : State :=
  let third := s.voting.filter (fun c => c != a && c != b)
  let w := groupWaits g.writes (s.selBob .hw) s
  if w.1 then w.2
  else (landGroup g.writes (forEach third (fun c => thirdCopy c g) (popGroup b (popGroup a s)))).2

/-- COMMIT_LAND (R385 to R387): the oldest copies at the voter; none lands while the cores are halted (R428). With every voting core's copy there and no two alike, the safe state. -/
def execCommitLand (s : State) : Host.Outcome State Fault Refusal :=
  if s.isSafe || s.isSplit || s.heartHalted then .next s
  else
    let l := s.firstCopies
    match s.agreeing with
    | some (a, b, g) => .next (landAgreed a b g s)
    | none =>
      if decide (2 ≤ l.length) && l.length == s.voting.length then
        let addr := match l with
          | x :: y :: _ => diffAddr x.2.writes y.2.writes
          | _ => 0
        .next (safeState 5 addr s)
      else .next s

/-! ### The watchdog bite (11 R449, R451, Table MI-4) -/

/-- The requesters that the map gives an input. -/
def mappedReqs : List Req :=
  [.dbg, .host 0, .host 1, .host 2, .root, .se 0, .se 1, .se 2, .se 3, .se 4, .se 5, .dma]

/-- What a bite does to the requester of the truncated burst (Table MI-4). Engines wait. -/
def biteRequester (q : Req) (s : State) : State :=
  match q with
  | .host p => failAccess p 6 s
  | .dma => discardTransfer s
  | .dbg => accErr s
  | _ => s

/-- WATCHDOG_BITE (R449): the grant that runs has been held for 1,000 TU, `moved` blocks having moved. -/
def execWatchdogBite (moved : Fin 9) (s : State) : Host.Outcome State Fault Refusal :=
  match s.arb.running with
  | none => .next s
  | some (w, t) =>
    let s := s.advanceTo (t + 1000)
    let s := unchoose w.input (s.modArb (fun a => { a with running := none }))
    let s := (s.setFld MI_WDOG.INPUT 0 w.input).setFld MI_WDOG.CAUSE 0 1
    let s := (s.setFld MI_WDOG.BLK 0 moved.val).setFld MI_WDTIME.TIME 0 s.nowLow
    let s := (s.putFbit MI_MASK.MASK 0 w.input true).flag MI_STATUS.WDOG evMI
    let s := quiesceSettle (forEach (mappedReqs.filter (fun q => s.input q == w.input)) biteRequester s)
    .next (if w.input = 12 then safeState 6 0 s else s)

end Sys2Proof.Machine
end

