-- ==== Sys2Proof/Machine/KamAlu.lean ====
section
/-! DEFINITION. The register instructions of the Kamotte base set (09 R351 to R353, Tables KM-8, KM-11): each a definition
of its own over the shared forms. -/

namespace Sys2Proof.Machine

/-- D := f(FLG, A, B), with the flags that f gives. -/
def aluRR (e : Eng) (o : ROp) (cost : Nat) (legal : Bool) (f : Word → Word → Word → Word × Word) (s : State) :
    Host.Outcome State Fault Refusal :=
  instr e cost 1 legal (fun t =>
    let r := f (t.flg e) (t.reg e o.a) (t.reg e o.b)
    .done ((t.setReg e o.d r.1).setFlg e r.2)) s

/-- The flags of f(FLG, A, B), its result discarded. -/
def aluCmp (e : Eng) (o : ROp) (f : Word → Word → Word → Word × Word) (s : State) : Host.Outcome State Fault Refusal :=
  instr e 1 1 o.ab (fun t => .done (t.setFlg e (f (t.flg e) (t.reg e o.a) (t.reg e o.b)).2)) s

/-- D := f(FLG, A, n) for the immediate shifts, n = AUX[4:0]. -/
def aluShiftI (e : Eng) (o : ROp) (f : Word → Word → Nat → Word × Word) (s : State) : Host.Outcome State Fault Refusal :=
  instr e 1 1 o.da5 (fun t =>
    let r := f (t.flg e) (t.reg e o.a) o.aux.toNat
    .done ((t.setReg e o.d r.1).setFlg e r.2)) s

/-- D := f(A, B), flags left. -/
def aluPure (e : Eng) (o : ROp) (legal : Bool) (f : Word → Word → Word) (s : State) : Host.Outcome State Fault Refusal :=
  instr e 1 1 legal (fun t => .done (t.setReg e o.d (f (t.reg e o.a) (t.reg e o.b)))) s

/-- D := f(FLG, A, imm). -/
def aluRI (e : Eng) (o : IOp) (imm : Word) (f : Word → Word → Word → Word × Word) (s : State) :
    Host.Outcome State Fault Refusal :=
  instr e 1 (wordsOf o.ext) o.extOk (fun t =>
    let r := f (t.flg e) (t.reg e o.a) imm
    .done ((t.setReg e o.d r.1).setFlg e r.2)) s

/-- The flags of f(FLG, A, imm), D = 0. -/
def aluCmpI (e : Eng) (o : IOp) (imm : Word) (f : Word → Word → Word → Word × Word) (s : State) :
    Host.Outcome State Fault Refusal :=
  instr e 1 (wordsOf o.ext) (o.extOk && o.d.val == 0) (fun t => .done (t.setFlg e (f (t.flg e) (t.reg e o.a) imm).2)) s

/-- ADD: D := A + B, NZCV -/
def execAdd (e : Eng) (o : ROp) (s : State) : Host.Outcome State Fault Refusal :=
  aluRR e o 1 o.dab (fun f a b => addC f a b false) s

/-- ADC: D := A + B + C, NZCV -/
def execAdc (e : Eng) (o : ROp) (s : State) : Host.Outcome State Fault Refusal :=
  aluRR e o 1 o.dab (fun f a b => addC f a b (flgC f)) s

/-- SUB: D := A − B, NZCV -/
def execSub (e : Eng) (o : ROp) (s : State) : Host.Outcome State Fault Refusal :=
  aluRR e o 1 o.dab (fun f a b => subB f a b false) s

/-- SBC: D := A − B − (1 − C), NZCV -/
def execSbc (e : Eng) (o : ROp) (s : State) : Host.Outcome State Fault Refusal :=
  aluRR e o 1 o.dab (fun f a b => subB f a b (!flgC f)) s

/-- AND: D := A AND B, NZ -/
def execAnd (e : Eng) (o : ROp) (s : State) : Host.Outcome State Fault Refusal :=
  aluRR e o 1 o.dab (fun f a b => nzOf f (a &&& b)) s

/-- OR: D := A OR B, NZ -/
def execOr (e : Eng) (o : ROp) (s : State) : Host.Outcome State Fault Refusal :=
  aluRR e o 1 o.dab (fun f a b => nzOf f (a ||| b)) s

/-- XOR: D := A XOR B, NZ -/
def execXor (e : Eng) (o : ROp) (s : State) : Host.Outcome State Fault Refusal :=
  aluRR e o 1 o.dab (fun f a b => nzOf f (a ^^^ b)) s

/-- ANDN: D := A AND NOT B, NZ -/
def execAndn (e : Eng) (o : ROp) (s : State) : Host.Outcome State Fault Refusal :=
  aluRR e o 1 o.dab (fun f a b => nzOf f (a &&& ~~~b)) s

/-- SHL: A left by B[7:0], NZ and C (R352) -/
def execShl (e : Eng) (o : ROp) (s : State) : Host.Outcome State Fault Refusal :=
  aluRR e o 1 o.dab (fun f a b => shlOp f a (b.toNat % 256)) s

/-- SHR: A right logically by B[7:0] (R352) -/
def execShr (e : Eng) (o : ROp) (s : State) : Host.Outcome State Fault Refusal :=
  aluRR e o 1 o.dab (fun f a b => shrOp f a (b.toNat % 256)) s

/-- SAR: A right arithmetically by B[7:0] (R352) -/
def execSar (e : Eng) (o : ROp) (s : State) : Host.Outcome State Fault Refusal :=
  aluRR e o 1 o.dab (fun f a b => sarOp f a (b.toNat % 256)) s

/-- ROR: A rotated right by B[7:0] modulo 32 (R352) -/
def execRor (e : Eng) (o : ROp) (s : State) : Host.Outcome State Fault Refusal :=
  aluRR e o 1 o.dab (fun f a b => rorOp f a (b.toNat % 256)) s

/-- MUL: the low 32 bits of A × B, NZ -/
def execMul (e : Eng) (o : ROp) (s : State) : Host.Outcome State Fault Refusal :=
  aluRR e o 2 o.dab mulOp s

/-- MULH: the high 32 bits of the signed product, NZ -/
def execMulh (e : Eng) (o : ROp) (s : State) : Host.Outcome State Fault Refusal :=
  aluRR e o 2 o.dab mulhOp s

/-- MULHU: the high 32 bits of the unsigned product, NZ -/
def execMulhu (e : Eng) (o : ROp) (s : State) : Host.Outcome State Fault Refusal :=
  aluRR e o 2 o.dab mulhuOp s

/-- MULQ: the rounded Q1.31 product, NZ and Q -/
def execMulq (e : Eng) (o : ROp) (s : State) : Host.Outcome State Fault Refusal :=
  aluRR e o 2 o.dab mulqOp s

/-- DIV: the signed quotient, NZ and V (R353) -/
def execDiv (e : Eng) (o : ROp) (s : State) : Host.Outcome State Fault Refusal :=
  aluRR e o 34 o.dab divOp s

/-- DIVU: the unsigned quotient, NZ and V (R353) -/
def execDivu (e : Eng) (o : ROp) (s : State) : Host.Outcome State Fault Refusal :=
  aluRR e o 34 o.dab divuOp s

/-- REM: the signed remainder, NZ and V (R353) -/
def execRem (e : Eng) (o : ROp) (s : State) : Host.Outcome State Fault Refusal :=
  aluRR e o 34 o.dab remOp s

/-- REMU: the unsigned remainder, NZ and V (R353) -/
def execRemu (e : Eng) (o : ROp) (s : State) : Host.Outcome State Fault Refusal :=
  aluRR e o 34 o.dab remuOp s

/-- CMP: A − B sets NZCV; D = 0 -/
def execCmp (e : Eng) (o : ROp) (s : State) : Host.Outcome State Fault Refusal :=
  aluCmp e o (fun f a b => subB f a b false) s

/-- TST: A AND B sets NZ; D = 0 -/
def execTst (e : Eng) (o : ROp) (s : State) : Host.Outcome State Fault Refusal :=
  aluCmp e o (fun f a b => nzOf f (a &&& b)) s

/-- SHLI: A left by AUX[4:0]; B = 0, AUX[5] = 0 -/
def execShli (e : Eng) (o : ROp) (s : State) : Host.Outcome State Fault Refusal :=
  aluShiftI e o shlOp s

/-- SHRI: A right logically by AUX[4:0] -/
def execShri (e : Eng) (o : ROp) (s : State) : Host.Outcome State Fault Refusal :=
  aluShiftI e o shrOp s

/-- SARI: A right arithmetically by AUX[4:0] -/
def execSari (e : Eng) (o : ROp) (s : State) : Host.Outcome State Fault Refusal :=
  aluShiftI e o sarOp s

/-- RORI: A rotated right by AUX[4:0] -/
def execRori (e : Eng) (o : ROp) (s : State) : Host.Outcome State Fault Refusal :=
  aluShiftI e o rorOp s

/-- MIN: the signed smaller -/
def execMin (e : Eng) (o : ROp) (s : State) : Host.Outcome State Fault Refusal :=
  aluPure e o o.dab (fun a b => if a.toInt ≤ b.toInt then a else b) s

/-- MAX: the signed larger -/
def execMax (e : Eng) (o : ROp) (s : State) : Host.Outcome State Fault Refusal :=
  aluPure e o o.dab (fun a b => if a.toInt ≤ b.toInt then b else a) s

/-- MINU: the unsigned smaller -/
def execMinu (e : Eng) (o : ROp) (s : State) : Host.Outcome State Fault Refusal :=
  aluPure e o o.dab (fun a b => if a.toNat ≤ b.toNat then a else b) s

/-- MAXU: the unsigned larger -/
def execMaxu (e : Eng) (o : ROp) (s : State) : Host.Outcome State Fault Refusal :=
  aluPure e o o.dab (fun a b => if a.toNat ≤ b.toNat then b else a) s

/-- CLZ: the leading zeros of A; B = 0 -/
def execClz (e : Eng) (o : ROp) (s : State) : Host.Outcome State Fault Refusal :=
  aluPure e o o.da (fun a _ => BitVec.ofNat 32 (clzOf a)) s

/-- SXH: A[15:0] sign-extended; B = 0 -/
def execSxh (e : Eng) (o : ROp) (s : State) : Host.Outcome State Fault Refusal :=
  aluPure e o o.da (fun a _ => (a.setWidth 16).signExtend 32) s

/-- SXB: A[7:0] sign-extended; B = 0 -/
def execSxb (e : Eng) (o : ROp) (s : State) : Host.Outcome State Fault Refusal :=
  aluPure e o o.da (fun a _ => (a.setWidth 8).signExtend 32) s

/-- ZXH: A[15:0] zero-extended; B = 0 -/
def execZxh (e : Eng) (o : ROp) (s : State) : Host.Outcome State Fault Refusal :=
  aluPure e o o.da (fun a _ => a &&& 0xFFFF#32) s

/-- ZXB: A[7:0] zero-extended; B = 0 -/
def execZxb (e : Eng) (o : ROp) (s : State) : Host.Outcome State Fault Refusal :=
  aluPure e o o.da (fun a _ => a &&& 0xFF#32) s

/-- SEL: D := A if condition AUX[3:0] holds, else B (R350); AUX[5:4] = 0 -/
def execSel (e : Eng) (o : ROp) (s : State) : Host.Outcome State Fault Refusal :=
  instr e 1 1 (decide (o.aux.toNat < 16) && !o.x) (fun t =>
    .done (t.setReg e o.d (if condHolds o.aux.toNat (t.flg e) then t.reg e o.a else t.reg e o.b))) s

/-- ADDI: D := A + imm, NZCV -/
def execAddi (e : Eng) (o : IOp) (s : State) : Host.Outcome State Fault Refusal :=
  aluRI e o o.simm (fun f a b => addC f a b false) s

/-- ANDI: D := A AND imm, NZ -/
def execAndi (e : Eng) (o : IOp) (s : State) : Host.Outcome State Fault Refusal :=
  aluRI e o o.uimm (fun f a b => nzOf f (a &&& b)) s

/-- ORI: D := A OR imm, NZ -/
def execOri (e : Eng) (o : IOp) (s : State) : Host.Outcome State Fault Refusal :=
  aluRI e o o.uimm (fun f a b => nzOf f (a ||| b)) s

/-- XORI: D := A XOR imm, NZ -/
def execXori (e : Eng) (o : IOp) (s : State) : Host.Outcome State Fault Refusal :=
  aluRI e o o.uimm (fun f a b => nzOf f (a ^^^ b)) s

/-- CMPI: A − imm sets NZCV; D = 0 -/
def execCmpi (e : Eng) (o : IOp) (s : State) : Host.Outcome State Fault Refusal :=
  aluCmpI e o o.simm (fun f a b => subB f a b false) s

/-- TSTI: A AND imm sets NZ; D = 0 -/
def execTsti (e : Eng) (o : IOp) (s : State) : Host.Outcome State Fault Refusal :=
  aluCmpI e o o.uimm (fun f a b => nzOf f (a &&& b)) s

/-- MOVI: D := imm, the immediate sign-extended or the extension word; A = 0 -/
def execMovi (e : Eng) (o : IOp) (s : State) : Host.Outcome State Fault Refusal :=
  instr e 1 (wordsOf o.ext) (o.extOk && o.a.val == 0) (fun t => .done (t.setReg e o.d o.simm)) s

/-- NOP: nothing for 1 st -/
def execNop (e : Eng) (o : ROp) (s : State) : Host.Outcome State Fault Refusal :=
  instr e 1 1 o.none (fun t => .done t) s

end Sys2Proof.Machine
end

