-- ==== Sys2Proof/Machine/KamMem.lean ====
section
/-! DEFINITION. The loads and stores of the Kamotte base set and the Heartwood's agreed reads (09 R354, R355, R365, R366;
10 R384, R388, R390 to R392; 11 R434 to R436). -/

namespace Sys2Proof.Machine

/-- The fault an access of `n` bytes at `a` meets before it is made: a device register is reached by word-aligned 32-bit
accesses alone (R10) at assigned offsets (R11); an access is aligned to its size (R354); the range is one that Table AR-6
gives the engine. The order of these checks is DEDUCED, assumption 21. -/
def accessFault (e : Eng) (voted : Bool) (a n : Nat) (write : Bool) : Option (Nat × Nat) :=
  if regionOf a = .dev then
    if n ≠ 4 ∨ a % 4 ≠ 0 then some (3, 2)
    else if (findReg (a % 65536)).isNone then some (3, 0)
    else none
  else if a % n ≠ 0 then some (2, n)
  else match engPerm e voted a write with
    | .fault d => some (3, d)
    | _ => none

/-- The read itself: of a register with its side effects, or of `n` bytes of one block; nothing where the block is
uncorrectable (R436). -/
def readNow (e : Eng) (a n : Nat) (s : State) : Option Nat × State :=
  if regionOf a = .dev then
    let r := readReg (s.reqOf e) (a % 65536) s
    (some r.1, r.2)
  else
    let k := engKey e a
    let r := s.readBlock (s.ueInput e a) k
    if r.1 then (some (r.2.rd k n), r.2) else (none, r.2)

/-! ### Agreed reads (R390 to R392) -/

/-- The position of the first read that core `c` has not taken. -/
def readPos (c : Nat) (l : List AgreedRead) : Option Nat :=
  (List.range l.length).find? (fun i =>
    match l[i]? with
    | some r => !r.taken.contains c
    | none => false)

/-- Put a read back, or drop it once every voting core has taken it. -/
def putRead (i : Nat) (r : AgreedRead) (s : State) : State :=
  let done := s.voting.all (fun c => r.taken.contains c)
  s.modHeart (fun h => { h with reads := if done then h.reads.eraseIdx i else h.reads.set i r })

/-- What core `c` gets from a performed read. -/
def takeRead (c a i : Nat) (r : AgreedRead) (s : State) : LoadRes :=
  let s := putRead i { r with taken := r.taken ++ [c] } s
  match r.val with
  | some (some v) => .ok v.toNat s
  | _ => .fault 4 0 (a / 16 * 16) s

/-- Core `c` presents a read of `n` bytes at `a` (R390, R391). The unit performs it once two voting cores have presented
it alike; it holds the value for the third. A third request that differs, or that comes later than LAG, fences its core; in a pair requests that differ
mean the safe state. -/
def agreedRead (e : Eng) (c a n : Nat) (s : State) : LoadRes :=
  match readPos c s.heart.reads with
  | none => .wait (s.modHeart (fun h =>
      { h with reads := h.reads ++ [{ reqs := [(c, a, n)], val := none, taken := [], time := s.tb }] }))
  | some i =>
    match s.heart.reads[i]? with
    | none => .wait s
    | some r =>
      let mine := r.reqs.any (fun x => x.1 == c)
      let r' := if mine then r else { r with reqs := r.reqs ++ [(c, a, n)], time := if r.val.isSome then r.time else s.tb }
      match r.val with
      | some _ =>
        if mine || (r.reqs.any (fun x => x.2 == (a, n)) && decide (s.tb ≤ r.time + s.lagTu)) then takeRead c a i r' s
        else .wait (oddCore c 2 (a / 16 * 16) false s)
      | none =>
        if mine then .wait s
        else if r.reqs.any (fun x => x.2 == (a, n)) then
          let p := readNow e a n s
          let r' := { r' with val := some (p.1.map (BitVec.ofNat 128)) }
          let odd := r.reqs.find? (fun x => x.2 != (a, n))
          match odd with
          | none => takeRead c a i r' p.2
          | some o =>
            match takeRead c a i { r' with reqs := r'.reqs.filter (fun x => x.1 != o.1) } p.2 with
            | .ok v t => .ok v (oddCore o.1 2 (o.2.1 / 16 * 16) false t)
            | .fault x y z t => .fault x y z (oddCore o.1 2 (o.2.1 / 16 * 16) false t)
            | .wait t => .wait t
        else if r'.reqs.length = s.voting.length then .wait (safeState 5 (a / 16 * 16) s)
        else .wait (putRead i r' s)

/-- The open group of core `c` writes the block of `a` (R384). -/
def State.openWrites (s : State) (c a : Nat) : Bool := (s.core c).openG.any (fun w => w.blk == a / 16 * 16)

/-- A closed group of core `c` that has not landed writes the block of `a` (R355). -/
def State.unlandedWrites (s : State) (c a : Nat) : Bool :=
  ((s.core c).closed.map Group.writes).flatten.any (fun w => w.blk == a / 16 * 16)

/-- A load of `n` bytes at `a`. `full` is the ordering of LDA and LDAQ (R366): every earlier commit has landed. An ordinary
load waits for the groups that write its block (R355). -/
def engLoad (e : Eng) (a n : Nat) (full : Bool) (s : State) : LoadRes :=
  match accessFault e (s.votes e) a n false with
  | some (c, d) => .fault c d a s
  | none =>
    let q := s.reqOf e
    if s.votes e then
      if regionOf a = .hwram && !full then
        match readNow e a n s with
        | (some v, t) => .ok v t
        | (none, t) => .fault 4 0 (a / 16 * 16) t
      else
        let c := e.idx
        let s := onlyIf (full || s.openWrites c a) (closeGroup c .plain) s
        if (full && (s.core c).closed ≠ []) || s.unlandedWrites c a then .wait s
        else if regionOf a = .hwram then
          match readNow e a n s with
          | (some v, t) => .ok v t
          | (none, t) => .fault 4 0 (a / 16 * 16) t
        else if (regionOf a).arbitrated && s.arbHolds q then .wait s
        else agreedRead e c a n s
    else if (regionOf a).arbitrated && s.arbHolds q then .wait s
    else match readNow e a n s with
      | (some v, t) => .ok v t
      | (none, t) => .fault 4 0 (a / 16 * 16) t

/-! ### Stores -/

/-- A store of `n` bytes of `v` at memory address `a` that the engine may write: a whole block replaces the block, less
is merged into it (R435); an uncorrectable block refuses the merge (R436). -/
def storeMem (e : Eng) (a n v : Nat) (s : State) : StoreRes :=
  let k := engKey e a
  if n = 16 then .ok (putBlock k v s)
  else
    let r := s.mergeBlock (s.ueInput e a) k
    if r.1 then .ok (r.2.wr k n v) else .fault 4 0 (a / 16 * 16) r.2

/-- A store of `n` bytes of `v` at `a`. A Heartwood core in voted operation adds a write to its commit group where the
write leaves the core sphere (R30); a Sapwood engine's aligned block in a bobbin is a push (04 R170), as it is in the origin and
the shadow ring; in split mode no core writes a bobbin (04 R167); a write that Table AR-6 ignores is counted (R43). -/
def engStore (e : Eng) (a n v : Nat) (s : State) : StoreRes :=
  match accessFault e (s.votes e) a n true with
  | some (c, d) => .fault c d a s
  | none =>
    let q := s.reqOf e
    if s.votes e && regionOf a != .hwram then
      if engPerm e true a true = .ignored then .ok (s.reject q)
      else .ok (pushWrite e.idx (mkWrite a n v) s)
    else if (regionOf a).arbitrated && s.arbHolds q then .wait s
    else if engPerm e false a true = .ignored then .ok (s.reject q)
    else match regionOf a with
      | .dev => engRegWrite q (a % 65536) v s
      | .bobbin => .ok (bobbinPush q a n v s)
      | .shared =>
        if s.inOrigin a then .ok (originPush q (n == 16) v s)
        else if s.inShadow a then .ok (shadowPush q (n == 16) v s)
        else storeMem e a n v s
      | _ => storeMem e a n v s

/-! ### The instructions -/

/-- The sign-extended or zero-extended load result (Table KM-8). -/
def extendLoad (n : Nat) (signed : Bool) (v : Nat) : Word :=
  if signed then BitVec.ofInt 32 (sgn (8 * n) v) else BitVec.ofNat 32 v

/-- A load into D. -/
def loadInto (e : Eng) (d : Fin 16) (a n : Nat) (signed full : Bool) (s : State) : Res :=
  match engLoad e a n full s with
  | .ok v t => .done (t.setReg e d (extendLoad n signed v))
  | .fault c x y t => .fault c x y t
  | .wait t => .wait t

/-- A block load into W(D) to W(D+3), the word at the lowest address first (R354). -/
def loadBlock (e : Eng) (d : Fin 16) (a : Nat) (full : Bool) (s : State) : Res :=
  match engLoad e a 16 full s with
  | .ok v t => .done (forEach [0, 1, 2, 3] (fun j => State.setReg e (d + Fin.ofNat 16 j) (BitVec.ofNat 32 (v / 2 ^ (32 * j)))) t)
  | .fault c x y t => .fault c x y t
  | .wait t => .wait t

/-- A store from a value. -/
def storeFrom (e : Eng) (a n v : Nat) (s : State) : Res :=
  match engStore e a n v s with
  | .ok t => .done t
  | .fault c x y t => .fault c x y t
  | .wait t => .wait t
  | .over t => .over t

/-- The effective address A + offset (Table KM-7). -/
def State.ea (s : State) (e : Eng) (o : IOp) : Nat := (s.reg e o.a + o.simm).toNat

/-- A load in format M. -/
def execLoadM (e : Eng) (o : IOp) (n : Nat) (signed : Bool) (s : State) : Host.Outcome State Fault Refusal :=
  instr e 2 (wordsOf o.ext) o.extOk (fun t => loadInto e o.d (t.ea e o) n signed false t) s

/-- A store in format M. -/
def execStoreM (e : Eng) (o : IOp) (n : Nat) (s : State) : Host.Outcome State Fault Refusal :=
  instr e 2 (wordsOf o.ext) o.extOk (fun t => storeFrom e (t.ea e o) n ((t.reg e o.d).toNat % 256 ^ n) t) s

/-- LDW: a word; in the Heartwood an agreed read outside the core sphere. -/
def execLdw (e : Eng) (o : IOp) (s : State) : Host.Outcome State Fault Refusal := execLoadM e o 4 false s
/-- LDH: a half-word, sign-extended. -/
def execLdh (e : Eng) (o : IOp) (s : State) : Host.Outcome State Fault Refusal := execLoadM e o 2 true s
/-- LDHU: a half-word, zero-extended. -/
def execLdhu (e : Eng) (o : IOp) (s : State) : Host.Outcome State Fault Refusal := execLoadM e o 2 false s
/-- LDB: a byte, sign-extended. -/
def execLdb (e : Eng) (o : IOp) (s : State) : Host.Outcome State Fault Refusal := execLoadM e o 1 true s
/-- LDBU: a byte, zero-extended. -/
def execLdbu (e : Eng) (o : IOp) (s : State) : Host.Outcome State Fault Refusal := execLoadM e o 1 false s

/-- LDQ: a block into four registers; D is 0, 4 or 8 (other D illegal, DEDUCED, assumption 22). -/
def execLdq (e : Eng) (o : IOp) (s : State) : Host.Outcome State Fault Refusal :=
  instr e 3 (wordsOf o.ext) (o.extOk && blockReg o.d) (fun t => loadBlock e o.d (t.ea e o) false t) s

/-- STW: a word; in the Heartwood outside the sphere a voted write. -/
def execStw (e : Eng) (o : IOp) (s : State) : Host.Outcome State Fault Refusal := execStoreM e o 4 s
/-- STH: a half-word by read-modify-write. -/
def execSth (e : Eng) (o : IOp) (s : State) : Host.Outcome State Fault Refusal := execStoreM e o 2 s
/-- STB: a byte by read-modify-write. -/
def execStb (e : Eng) (o : IOp) (s : State) : Host.Outcome State Fault Refusal := execStoreM e o 1 s

/-- The 128-bit value of four registers from W(D). -/
def State.quad (s : State) (e : Eng) (d : Fin 16) : Nat :=
  ([0, 1, 2, 3].map (fun j => (s.reg e (d + Fin.ofNat 16 j)).toNat * 2 ^ (32 * j))).foldl (· + ·) 0

/-- STQ: a whole block from four registers; D is 0, 4 or 8. -/
def execStq (e : Eng) (o : IOp) (s : State) : Host.Outcome State Fault Refusal :=
  instr e 3 (wordsOf o.ext) (o.extOk && blockReg o.d) (fun t => storeFrom e (t.ea e o) 16 (t.quad e o.d) t) s

/-- The scaled address A + (B << AUX[1:0]). -/
def State.eaX (s : State) (e : Eng) (o : ROp) : Nat := (s.reg e o.a + (s.reg e o.b <<< (o.aux.toNat % 4))).toNat

/-- The size and sign of an LDX function. -/
def ldxForm (fn : Nat) : Nat × Bool :=
  match fn with
  | 0 => (4, false) | 1 => (2, true) | 2 => (2, false) | 3 => (1, true) | _ => (1, false)

/-- LDX: a load at A + scaled B; FN 0 to 4, AUX[5:2] = 0. -/
def execLdx (e : Eng) (o : ROp) (fn : BitVec 7) (s : State) : Host.Outcome State Fault Refusal :=
  instr e 2 1 (decide (fn.toNat ≤ 4) && decide (o.aux.toNat < 4) && !o.x) (fun t =>
    loadInto e o.d (t.eaX e o) (ldxForm fn.toNat).1 (ldxForm fn.toNat).2 false t) s

/-- STX: a store of D at A + scaled B; FN 0 word, 1 half, 2 byte. -/
def execStx (e : Eng) (o : ROp) (fn : BitVec 7) (s : State) : Host.Outcome State Fault Refusal :=
  let n := if fn = 0#7 then 4 else if fn = 1#7 then 2 else 1
  instr e 2 1 (decide (fn.toNat ≤ 2) && decide (o.aux.toNat < 4) && !o.x) (fun t =>
    storeFrom e (t.eaX e o) n ((t.reg e o.d).toNat % 256 ^ n) t) s

/-- The ordering a Heartwood read has outside split mode (R368: in split mode LDA orders the core's own writes, which have
all landed). -/
def execLda (e : Eng) (o : IOp) (s : State) : Host.Outcome State Fault Refusal :=
  instr e 3 (wordsOf o.ext) (o.extOk && e.isProfile 0) (fun t => loadInto e o.d (t.ea e o) 4 false true t) s

/-- LDAQ: a fully ordered read of a block; D is 0, 4 or 8. -/
def execLdaq (e : Eng) (o : IOp) (s : State) : Host.Outcome State Fault Refusal :=
  instr e 4 (wordsOf o.ext) (o.extOk && blockReg o.d && e.isProfile 0) (fun t => loadBlock e o.d (t.ea e o) true t) s

/-- CFENCE (R365): close the group and wait until it has landed; in split mode it orders the core's own writes (R368). -/
def execCfence (e : Eng) (o : ROp) (s : State) : Host.Outcome State Fault Refusal :=
  instr e 2 1 (o.none && e.isProfile 0) (fun t =>
    if t.votes e then
      let t := closeGroup e.idx .plain t
      if (t.core e.idx).closed = [] then .done t else .wait t
    else .done t) s

/-- SWEEP (R367): close the group, wait until it has landed, and raise the sweep signal, unless another core has raised it at this SWEEP: at its
delivery index every core gives its signature (10 R397). In split mode no effect (R368). -/
def execSweep (e : Eng) (o : ROp) (s : State) : Host.Outcome State Fault Refusal :=
  instr e 64 1 (o.none && e.isProfile 0) (fun t =>
    if t.votes e then
      let c := e.idx
      let t := closeGroup c .plain t
      let n := (t.eng c).retire
      if (t.core c).closed ≠ [] then .wait t
      else if (t.core c).sigs.any (fun p => p.1 == .sweep n) then .done t
      else .done (t.toHeart (.sweep n))
    else .done t) s

end Sys2Proof.Machine
end

