-- ==== Sys2Proof/Machine/KamFlow.lean ====
section
/-! DEFINITION. Branches, traps, waiting and special registers of the Kamotte base set (09 R350, R356 to R364). -/

namespace Sys2Proof.Machine

/-- The address after an instruction of `words` words. -/
def State.nextPc (s : State) (e : Eng) (words : Nat) : Word := (s.eng e.idx).pc + BitVec.ofNat 32 (4 * words)

/-- B: if the condition holds, PC := target. -/
def execB (e : Eng) (o : BOp) (s : State) : Host.Outcome State Fault Refusal :=
  instr e 2 (wordsOf o.ext) o.extOk (fun t =>
    if condHolds o.cond.val (t.flg e) then .jump (o.target (t.eng e.idx).pc) t else .done t) s

/-- BL: if the condition holds, W15 := the address of the next instruction, PC := target. -/
def execBl (e : Eng) (o : BOp) (s : State) : Host.Outcome State Fault Refusal :=
  instr e 2 (wordsOf o.ext) o.extOk (fun t =>
    if condHolds o.cond.val (t.flg e) then
      .jump (o.target (t.eng e.idx).pc) (t.setReg e 15 (t.nextPc e (wordsOf o.ext)))
    else .done t) s

/-- BR: PC := A. -/
def execBr (e : Eng) (o : ROp) (s : State) : Host.Outcome State Fault Refusal :=
  instr e 2 1 o.onlyA (fun t => .jump (t.reg e o.a) t) s

/-- BLR: W15 := the next address, PC := A (the value A had before). -/
def execBlr (e : Eng) (o : ROp) (s : State) : Host.Outcome State Fault Refusal :=
  instr e 2 1 o.onlyA (fun t => .jump (t.reg e o.a) (t.setReg e 15 (t.nextPc e 1))) s

/-- WAIT (R362): costs 1 st. An event that qualifies is dispatched with the return PC after WAIT; else the engine waits. In
the Heartwood it closes the commit group without waiting for it to land (R384), and retires at the signal's delivery
index (R393); a single step of it halts the engine when the wait ends (10 R430). -/
def execWait (e : Eng) (o : ROp) (s : State) : Host.Outcome State Fault Refusal :=
  let f := fetchInstr e 1 s
  if !s.alive e then .next s
  else if !(f.1 && o.none) then .next (runInstr e 1 1 o.none (fun t => .done t) s)
  else
    let s := onlyIf (f.2.votes e) (closeGroup e.idx .plain) f.2
    let next := s.nextPc e 1
    if (s.eng e.idx).qualify.isSome then .next (takeEvent e (finish e 1 next s))
    else if (s.eng e.idx).wakes then .next (finish e 1 next s)
    else
      .next (addSteps e 1 (s.modEng e.idx (fun x =>
        { x with pc := next, midway := false, run := if x.run = .stopped then .stopped else .waiting })))

/-- TRAP (R363, R364): completes, then dispatches with CODE 0x80 and DETAIL AUX. -/
def execTrap (e : Eng) (o : ROp) (s : State) : Host.Outcome State Fault Refusal :=
  if !s.mayStart e then .next s
  else
    let legal := o.d.val == 0 && o.a.val == 0 && o.b.val == 0 && !o.x
    let f := fetchInstr e 1 s
    let next := s.nextPc e 1
    if !(f.1 && legal) then .next (runInstr e 1 1 legal (fun t => .done t) s)
    else if flgDSP (s.flg e) then .next (doubleFault e f.2)
    else .next (takeTrap e o.aux.toNat next.toNat (finish e 1 next f.2))

/-- BRK (R363): halts for the debugger when it is enabled, else an illegal instruction. -/
def execBrk (e : Eng) (o : ROp) (s : State) : Host.Outcome State Fault Refusal :=
  let f := fetchInstr e 1 s
  if !s.mayStart e then .next s
  else if f.1 && o.none && s.isSet RB_STRAP.SDBG then
    let s := onlyIf (f.2.votes e) (closeGroup e.idx .plain) f.2
    if s.votes e && (s.core e.idx).closed != [] then .next (midway e s) else .next (brkHalt e (finish e 1 (s.nextPc e 1) s))
  else .next (runInstr e 1 1 false (fun t => .done t) s)

/-- CAPS of an engine (Table KM-5). -/
def State.caps (s : State) (e : Eng) : Word :=
  match e with
  | .se k => BitVec.ofNat 32 (1 + 4 * k.val + 0x100 + 0x10000)
  | .root => BitVec.ofNat 32 (2 + 0x100 + 0x20000)
  | _ =>
    let hb := match e with
      | .hb => s.isSplit
      | _ => false
    BitVec.ofNat 32 (4 * bit hb + 0x20 * bit (!s.isSplit) + 0x100 + 0x40000)

/-- The value of special register `n` (Table KM-2). -/
def State.special (s : State) (e : Eng) (n : Nat) : Word :=
  let x := s.eng e.idx
  match n with
  | 0 => x.pc
  | 1 => x.flg
  | 2 => BitVec.ofNat 32 (x.code.toNat + 256 * x.detail.toNat + 65536 * x.pend.toNat)
  | 3 => x.step
  | 4 => s.caps e
  | _ => evpBits x.evp

/-- MFS: D := special register AUX, 0 to 5. -/
def execMfs (e : Eng) (o : ROp) (s : State) : Host.Outcome State Fault Refusal :=
  instr e 1 1 (decide (o.aux.toNat ≤ 5) && o.a.val == 0 && o.b.val == 0 && !o.x) (fun t =>
    .done (t.setReg e o.d (t.special e o.aux.toNat))) s

/-- An event that the instruction has made to qualify is dispatched before the next instruction (R356, R364). -/
def thenEvent (e : Eng) (r : Host.Outcome State Fault Refusal) : Host.Outcome State Fault Refusal :=
  match r with
  | .next t => if t.between e then .next (takeEvent e t) else .next t
  | o => o

/-- MTS (R356): FLG or EVP := A; EVP takes a 16-aligned address in the engine's instruction memory. -/
def execMts (e : Eng) (o : ROp) (s : State) : Host.Outcome State Fault Refusal :=
  if s.mayStart e then
    thenEvent e (instr e 1 1 ((o.aux.toNat == 1 || o.aux.toNat == 5) && o.d.val == 0 && o.b.val == 0 && !o.x) (fun t =>
      let v := t.reg e o.a
      if o.aux.toNat = 1 then .done (t.setFlg e (flgWritable v))
      else if v.toNat % 16 = 0 && inInstrMem e v.toNat then .done (t.modEng e.idx (fun x => { x with evp := v }))
      else .fault 6 1 0 t) s)
  else .next s

/-- RTD (R358): FLG and PC from the block at W14, then W14 + 16; an event that then qualifies follows at once (R364). -/
def execRtd (e : Eng) (o : ROp) (s : State) : Host.Outcome State Fault Refusal :=
  if s.mayStart e then
    thenEvent e (instr e 6 1 o.none (fun t =>
      match engLoad e (t.reg e 14).toNat 16 false t with
      | .ok v u =>
        let u := u.setFlg e (flgWritable (BitVec.ofNat 32 v))
        .jump (BitVec.ofNat 32 (v / 2 ^ 32)) (u.setReg e 14 (u.reg e 14 + 16#32))
      | .fault c x y u => .fault c x y u
      | .wait u => .wait u) s)
  else .next s

end Sys2Proof.Machine
end

