-- ==== Sys2Proof/Machine/KamSignal.lean ====
section
/-! DEFINITION. The Sapwood profile (09 R369 to R375, Table KM-15): accumulators, correlation, interpolation, saturating
arithmetic, circular contexts, stream words and edge records. -/

namespace Sys2Proof.Machine

/-- Accumulator `i`: M0 or M1. -/
def State.acc (s : State) (e : Eng) (i : Nat) : Int :=
  if i = 0 then (s.eng e.idx).m0.toInt else (s.eng e.idx).m1.toInt

/-- Write accumulator `i`. -/
def State.setAcc (e : Eng) (i : Nat) (v : Int) (s : State) : State :=
  s.modEng e.idx (fun x => if i = 0 then { x with m0 := BitVec.ofInt 40 v } else { x with m1 := BitVec.ofInt 40 v })

/-- Add to accumulator `i`, saturating at −2^39 and 2^39 − 1 with Q (R369). -/
def addAcc (e : Eng) (i : Nat) (x : Int) (s : State) : State :=
  let v := s.acc e i + x
  (s.setAcc e i (clampTo 40 v)).setFlg e (setQ (s.flg e) (outOf 40 v))

/-- The product term that AUX[2:1] chooses (R369). -/
def macTerm (sel : Nat) (a b : Word) : Int :=
  match sel with
  | 0 => lane a 0 * lane b 0 + lane a 1 * lane b 1
  | 1 => lane a 0 * lane b 1 + lane a 1 * lane b 0
  | 2 => (a.toInt * lane b 0) / 32768
  | _ => lane a 0 * lane a 0 + lane a 1 * lane a 1

/-- MAC and MSU with the sign of the term: a scale factor with a non-zero upper lane is an operand fault (detail 3,
DEDUCED, assumption 23); the energy form has no B. -/
def macForm (e : Eng) (o : ROp) (neg : Bool) (s : State) : Host.Outcome State Fault Refusal :=
  let sel := o.aux.toNat / 2 % 4
  instr e 1 1 (decide (o.aux.toNat < 8) && o.d.val == 0 && (sel != 3 || o.b.val == 0) && !o.x && e.isProfile 1) (fun t =>
    let a := t.reg e o.a
    let b := t.reg e o.b
    if sel = 2 && lane b 1 ≠ 0 then .fault 6 3 0 t
    else .done (addAcc e (o.aux.toNat % 2) (if neg then -(macTerm sel a b) else macTerm sel a b) t)) s

/-- MAC: acc(AUX[0]) += the term of AUX[2:1]. -/
def execMac (e : Eng) (o : ROp) (s : State) : Host.Outcome State Fault Refusal := macForm e o false s
/-- MSU: acc(AUX[0]) −= the term of AUX[2:1]. -/
def execMsu (e : Eng) (o : ROp) (s : State) : Host.Outcome State Fault Refusal := macForm e o true s

/-- ACLR: acc(AUX[0]) := 0. -/
def execAclr (e : Eng) (o : ROp) (s : State) : Host.Outcome State Fault Refusal :=
  instr e 1 1 (decide (o.aux.toNat < 2) && o.d.val == 0 && o.a.val == 0 && o.b.val == 0 && !o.x && e.isProfile 1) (fun t =>
    .done (t.setAcc e o.aux.toNat 0)) s

/-- The accumulator shifted right by `n` with rounding (R370). -/
def ardValue (v : Int) (n : Nat) : Int := if n = 0 then v else (v + 2 ^ (n - 1)) / 2 ^ n

/-- ARD (R370): D := acc(AUX[0]) shifted by AUX[5:1], rounded, saturated, with Q. -/
def execArd (e : Eng) (o : ROp) (s : State) : Host.Outcome State Fault Refusal :=
  instr e 2 1 (o.a.val == 0 && o.b.val == 0 && !o.x && e.isProfile 1) (fun t =>
    let v := ardValue (t.acc e (o.aux.toNat % 2)) (o.aux.toNat / 2)
    .done ((t.setReg e o.d (BitVec.ofInt 32 (clampTo 32 v))).setFlg e (setQ (t.flg e) (outOf 32 v)))) s

/-- AWR: acc(AUX[0]) := A sign-extended. -/
def execAwr (e : Eng) (o : ROp) (s : State) : Host.Outcome State Fault Refusal :=
  instr e 1 1 (decide (o.aux.toNat < 2) && o.d.val == 0 && o.b.val == 0 && !o.x && e.isProfile 1) (fun t =>
    .done (t.setAcc e o.aux.toNat (t.reg e o.a).toInt)) s

/-- `n` bytes from `a` lie in the engine's local RAM. -/
def inLocal (a n : Nat) : Bool := decide (0x40000000 ≤ a) && decide (a + n ≤ 0x40020000)

/-- The four signed half-words at `a`. -/
def State.halves4 (s : State) (e : Eng) (a : Nat) : List Int :=
  [0, 1, 2, 3].map (fun i => sgn 16 (s.rd (engKey e (a + 2 * i)) 2))

/-- TCOR (R374): M0 += Σ x·t, M1 += Σ x·x over four half-words, then both pointers advance by 8. -/
def execTcor (e : Eng) (o : ROp) (s : State) : Host.Outcome State Fault Refusal :=
  instr e 4 1 (o.ab && e.isProfile 1) (fun t =>
    let a := (t.reg e o.a).toNat
    let b := (t.reg e o.b).toNat
    if a % 8 ≠ 0 || !inLocal a 8 then .fault 6 3 a t
    else if b % 8 ≠ 0 || !inLocal b 8 then .fault 6 3 b t
    else
      let ra := t.readBlock 0xD (engKey e a)
      if !ra.1 then .fault 4 0 (a / 16 * 16) ra.2
      else
        let rb := ra.2.readBlock 0xD (engKey e b)
        if !rb.1 then .fault 4 0 (b / 16 * 16) rb.2
        else
          let t := rb.2
          let x := t.halves4 e a
          let y := t.halves4 e b
          let t := addAcc e 0 ((List.zipWith (· * ·) x y).foldl (· + ·) 0) t
          let t := addAcc e 1 ((x.map (fun v => v * v)).foldl (· + ·) 0) t
          let t := t.setReg e o.a (t.reg e o.a + 8#32)
          .done (t.setReg e o.b (t.reg e o.b + 8#32))) s

/-- LUTI (R373): linear interpolation in the Q1.15 table at A, last index AUX, at the Q16.16 position B. -/
def execLuti (e : Eng) (o : ROp) (s : State) : Host.Outcome State Fault Refusal :=
  instr e 5 1 (o.aux.toNat != 0 && !o.x && e.isProfile 1) (fun t =>
    let n := o.aux.toNat
    let a := (t.reg e o.a).toNat
    let i := (t.reg e o.b).toNat / 65536
    let f := (t.reg e o.b).toNat % 65536
    if a % 2 ≠ 0 || !inLocal a (2 * n + 2) then .fault 6 3 a t
    else
      let j := min i n
      let r0 := t.readBlock 0xD (engKey e (a + 2 * j))
      if !r0.1 then .fault 4 0 ((a + 2 * j) / 16 * 16) r0.2
      else if n ≤ i then
        .done (r0.2.setReg e o.d (BitVec.ofInt 32 (sgn 16 (r0.2.rd (engKey e (a + 2 * n)) 2))))
      else
        let r1 := r0.2.readBlock 0xD (engKey e (a + 2 * j + 2))
        if !r1.1 then .fault 4 0 ((a + 2 * j + 2) / 16 * 16) r1.2
        else
          let t := r1.2
          let y0 := sgn 16 (t.rd (engKey e (a + 2 * j)) 2)
          let y1 := sgn 16 (t.rd (engKey e (a + 2 * j + 2)) 2)
          .done (t.setReg e o.d (BitVec.ofInt 32 (y0 + ((y1 - y0) * f) / 65536)))) s

/-- D := a saturated value of A and B, with NZ and Q. -/
def satForm (e : Eng) (o : ROp) (legal : Bool) (f : Word → Word → Int) (s : State) : Host.Outcome State Fault Refusal :=
  aluRR e o 1 (legal && e.isProfile 1) (fun fl a b => satOp fl (f a b)) s

/-- ADDS: D := sat32(A + B). -/
def execAdds (e : Eng) (o : ROp) (s : State) : Host.Outcome State Fault Refusal :=
  satForm e o o.dab (fun a b => a.toInt + b.toInt) s
/-- SUBS: D := sat32(A − B). -/
def execSubs (e : Eng) (o : ROp) (s : State) : Host.Outcome State Fault Refusal :=
  satForm e o o.dab (fun a b => a.toInt - b.toInt) s
/-- NEGS: D := sat32(−A). -/
def execNegs (e : Eng) (o : ROp) (s : State) : Host.Outcome State Fault Refusal :=
  satForm e o o.da (fun a _ => -a.toInt) s
/-- ABSS: D := sat32(|A|). -/
def execAbss (e : Eng) (o : ROp) (s : State) : Host.Outcome State Fault Refusal :=
  satForm e o o.da (fun a _ => if a.toInt < 0 then -a.toInt else a.toInt) s
/-- SHLS: D := sat32(A << AUX[4:0]). -/
def execShls (e : Eng) (o : ROp) (s : State) : Host.Outcome State Fault Refusal :=
  satForm e o o.da5 (fun a _ => a.toInt * 2 ^ o.aux.toNat) s

/-- SATH: D := A clamped to 16 bits, with NZ, and Q when it clamps. -/
def execSath (e : Eng) (o : ROp) (s : State) : Host.Outcome State Fault Refusal :=
  aluRR e o 1 (o.da && e.isProfile 1) (fun fl a _ =>
    let r := BitVec.ofInt 32 (clampTo 16 a.toInt)
    (r, setQ (setNZ fl r) (outOf 16 a.toInt))) s

/-- ADDS2: each half D.h := sat16(A.h + B.h). -/
def execAdds2 (e : Eng) (o : ROp) (s : State) : Host.Outcome State Fault Refusal :=
  aluRR e o 1 (o.dab && e.isProfile 1) (fun fl a b => sat2Op fl (lane a 0 + lane b 0) (lane a 1 + lane b 1)) s
/-- SUBS2: each half D.h := sat16(A.h − B.h). -/
def execSubs2 (e : Eng) (o : ROp) (s : State) : Host.Outcome State Fault Refusal :=
  aluRR e o 1 (o.dab && e.isProfile 1) (fun fl a b => sat2Op fl (lane a 0 - lane b 0) (lane a 1 - lane b 1)) s

/-! ### Circular contexts (R371) -/

/-- CBSET: CB(AUX[1:0]) := (BASE A, LEN B). -/
def execCbset (e : Eng) (o : ROp) (s : State) : Host.Outcome State Fault Refusal :=
  instr e 1 1 (decide (o.aux.toNat < 4) && o.d.val == 0 && !o.x && e.isProfile 1) (fun t =>
    let a := t.reg e o.a
    let n := (t.reg e o.b).toNat
    if a.toNat % 4 = 0 && n % 4 = 0 && decide (4 ≤ n) && decide (n ≤ 65536) then
      .done (t.modEng e.idx (fun x =>
        { x with cbBase := x.cbBase.set (o.aux.toNat % 4) a (by omega), cbLen := x.cbLen.set (o.aux.toNat % 4) n (by omega) }))
    else .fault 6 2 0 t) s

/-- The pointer after a circular access: BASE + ((A − BASE + inc·size) mod LEN), inc the signed AUX[5:2]. -/
def circNext (base : Word) (len : Nat) (a : Word) (inc : Nat) (size : Nat) : Word :=
  base + BitVec.ofInt 32 ((((a - base).toNat : Int) + sgn 4 inc * size) % (len : Int))

/-- A circular access of `size` bytes through context AUX[1:0]. -/
def circForm (e : Eng) (o : ROp) (size : Nat) (store : Bool) (s : State) : Host.Outcome State Fault Refusal :=
  instr e 2 1 (o.b.val == 0 && !o.x && e.isProfile 1) (fun t =>
    let x := t.eng e.idx
    let i : Fin 4 := Fin.ofNat 4 o.aux.toNat
    let base := x.cbBase[i]
    let len := x.cbLen[i]
    let a := t.reg e o.a
    if len ≤ (a - base).toNat then .fault 6 2 a.toNat t
    else
      let r := if store then storeFrom e a.toNat size ((t.reg e o.d).toNat % 256 ^ size) t
        else loadInto e o.d a.toNat size (size == 2) false t
      match r with
      | .done u => .done (u.setReg e o.a (circNext base len a (o.aux.toNat / 4) size))
      | other => other) s

/-- LDCW: circular load of a word. -/
def execLdcw (e : Eng) (o : ROp) (s : State) : Host.Outcome State Fault Refusal := circForm e o 4 false s
/-- LDCH: circular load of a sign-extended half-word. -/
def execLdch (e : Eng) (o : ROp) (s : State) : Host.Outcome State Fault Refusal := circForm e o 2 false s
/-- STCW: circular store of a word. -/
def execStcw (e : Eng) (o : ROp) (s : State) : Host.Outcome State Fault Refusal := circForm e o 4 true s
/-- STCH: circular store of a half-word. -/
def execStch (e : Eng) (o : ROp) (s : State) : Host.Outcome State Fault Refusal := circForm e o 2 true s

/-! ### Stream words and edges (R372, R375; 02 R103, 03 R112, R113) -/

/-- SIN (R372): wait for a word of system AUX that is not yet taken; W(D) := the word, W(D+1) := the low 32 bits of its
grid instant. A system without a latch on this engine is a stream fault. -/
def execSin (e : Eng) (o : ROp) (s : State) : Host.Outcome State Fault Refusal :=
  instr e 2 1 (pairReg o.d && o.a.val == 0 && o.b.val == 0 && !o.x && e.isProfile 1) (fun t =>
    let sys := o.aux.toNat
    if !t.hasLatch e.idx sys then .fault 7 sys 0 t
    else match t.latchOf e.idx sys with
      | none => .over t
      | some (w, time) =>
        let t := t.clearLatch e.idx sys
        .done ((t.setReg e o.d (BitVec.ofNat 32 w)).setReg e (o.d + 1) (BitVec.ofNat 32 time))) s

/-- SCHK: Z := 1 if system AUX has no new word on this engine, a system without a latch there among them. -/
def execSchk (e : Eng) (o : ROp) (s : State) : Host.Outcome State Fault Refusal :=
  instr e 1 1 (o.d.val == 0 && o.a.val == 0 && o.b.val == 0 && !o.x && e.isProfile 1) (fun t =>
    .done (t.setFlg e (setFlag (t.flg e) 0 (!t.hasLatch e.idx o.aux.toNat || (t.latchOf e.idx o.aux.toNat).isNone)))) s

/-- EIN (R375): the oldest edge record to W(D), W(D+1) with Z 0; Z 1 on an empty FIFO. -/
def execEin (e : Eng) (o : ROp) (s : State) : Host.Outcome State Fault Refusal :=
  instr e 3 1 (pairReg o.d && o.a.val == 0 && o.b.val == 0 && o.aux == 0#6 && !o.x && e.isProfile 1) (fun t =>
    match t.edgeFifo e.idx with
    | [] => .done (t.setFlg e (setFlag (t.flg e) 0 true))
    | r :: rest =>
      let t := t.setEdgeFifo e.idx rest
      let t := (t.setReg e o.d (BitVec.ofNat 32 r)).setReg e (o.d + 1) (BitVec.ofNat 32 (r / 2 ^ 32))
      .done (t.setFlg e (setFlag (t.flg e) 0 false))) s

/-! ### The Root profile (R376, Table KM-16) -/

/-- MON: D := the latest reading of growth-ring monitor AUX, 0 to 47. -/
def execMon (e : Eng) (o : ROp) (s : State) : Host.Outcome State Fault Refusal :=
  instr e 4 1 (o.a.val == 0 && o.b.val == 0 && !o.x && e.isProfile 2) (fun t =>
    if 47 < o.aux.toNat then .fault 6 4 0 t
    else .done (t.setReg e o.d (BitVec.ofNat 32 (t.fld AG_MON.READING o.aux.toNat)))) s

/-- VSET: request the core-rail setpoint A, 800 to 1,050 mV, with V clear; any other A sets V and changes nothing. -/
def execVset (e : Eng) (o : ROp) (s : State) : Host.Outcome State Fault Refusal :=
  instr e 2 1 (o.onlyA && e.isProfile 2) (fun t =>
    let mv := (t.reg e o.a).toNat
    if 800 ≤ mv ∧ mv ≤ 1050 then .done ((vsetRequest mv t).setFlg e (setFlag (t.flg e) 3 false))
    else .done (t.setFlg e (setFlag (t.flg e) 3 true))) s

/-- RATE: D := the measured step rate of engine AUX, 0 to 7, over the last completed cycle, kst/s. -/
def execRate (e : Eng) (o : ROp) (s : State) : Host.Outcome State Fault Refusal :=
  instr e 2 1 (o.a.val == 0 && o.b.val == 0 && !o.x && e.isProfile 2) (fun t =>
    if 7 < o.aux.toNat then .fault 6 4 0 t
    else .done (t.setReg e o.d (BitVec.ofNat 32 (t.fld AG_RATE.RATE o.aux.toNat)))) s

end Sys2Proof.Machine
end

