-- ==== Sys2Proof/Machine/Tap.lean ====
section
/-! DEFINITION. The test access port (17 R608, R609, Table EL-15). What the pins carry is an operand; no instruction changes a
vital output or a gate signal. -/

namespace Sys2Proof.Machine

/-- The value of the IDCODE register (R608). -/
def State.idcode (s : State) : Nat :=
  (s.fld ID_PART.REV - 0x41) * 2 ^ 28 + s.fld ID_PART.PART * 2 ^ 12 + s.fld ID_VENDOR.VENDOR % 2 ^ 11 * 2 + 1

/-- The TAP with an instruction in force and the value that its data register captures. -/
def setTap (ir dr : Nat) (s : State) : State := { s with tap := { s.tap with ir := ir, dr := dr } }

/-- The instruction with code `ir` and its effect with SDBG 1; BYPASS, which captures 0, with SDBG 0. -/
def tapGuarded (f : State → State) (s : State) : State := if s.debugOn then f s else setTap 0x3F 0 s

/-- The boundary register captures the pins and takes what is shifted in into its update latch. -/
def scanBoundary (ir : Nat) (pins shift : BitVec 273) (s : State) : State :=
  { s with tap := { ir := ir, dr := pins.toNat, latch := shift.toNat } }

/-- EXTEST. -/
def execExtest (pins shift : BitVec 273) (s : State) : Host.Outcome State Fault Refusal :=
  .next (tapGuarded (scanBoundary 0x00 pins shift) s)

/-- SAMPLE/PRELOAD. -/
def execSamplePreload (pins shift : BitVec 273) (s : State) : Host.Outcome State Fault Refusal :=
  .next (scanBoundary 0x01 pins shift s)

/-- IDCODE. -/
def execIdcode (s : State) : Host.Outcome State Fault Refusal := .next (setTap 0x02 s.idcode s)

/-- CLAMP: the bypass register is selected, the boundary register's latch holds the pins. -/
def execClamp (s : State) : Host.Outcome State Fault Refusal := .next (tapGuarded (setTap 0x04 0) s)

/-- HIGHZ: the bypass register is selected. -/
def execHighz (s : State) : Host.Outcome State Fault Refusal := .next (tapGuarded (setTap 0x05 0) s)

/-- DEBUG: one 32-bit access to offset `off` of the DB page as the debugger; a read's value is what is shifted out. -/
def execDebug (write : Bool) (off : BitVec 12) (v : Word) (s : State) : Host.Outcome State Fault Refusal :=
  .next (tapGuarded (fun s =>
    let off := 0xF000 + off.toNat
    let s := setTap 0x10 0 s
    if write then dbgWrite off v.toNat s
    else let t := dbgRead off s; setTap 0x10 (Tab.get 0 t.delivered Req.dbg.bank) t) s)

/-- BYPASS: captures 0. -/
def execBypass (s : State) : Host.Outcome State Fault Refusal := .next (setTap 0x3F 0 s)

/-- TEST_LOGIC_RESET (R609): IDCODE is loaded; the data registers keep what they hold. -/
def execTestLogicReset (s : State) : Host.Outcome State Fault Refusal := .next { s with tap := { s.tap with ir := 2 } }

end Sys2Proof.Machine
end

