-- ==== Sys2Proof/Machine/Dispatch.lean ====
section
/-! DEFINITION. The meaning of every command: one arm per constructor of `Instr`, each one call of its meaning. -/

namespace Sys2Proof.Machine

/-- The effect of a command on everything but the queue. -/
def exec (i : Instr) (s : State) : Host.Outcome State Fault Refusal :=
  match i with
  | .registerWrite q off v => Sys2Proof.Machine.execRegisterWrite q off v s
  | .eventDispatch e => Sys2Proof.Machine.execEventDispatch e s
  | .signalDelivery c => Sys2Proof.Machine.execSignalDelivery c s
  | .cycleBoundary busy => Sys2Proof.Machine.execCycleBoundary busy s
  | .gridInstant g => Sys2Proof.Machine.execGridInstant g s
  | .windowClose k => Sys2Proof.Machine.execWindowClose k s
  | .settlingEnd j => Sys2Proof.Machine.execSettlingEnd j s
  | .injectionEnd j => Sys2Proof.Machine.execInjectionEnd j s
  | .diagnosticComplete j value isOpen => Sys2Proof.Machine.execDiagnosticComplete j value isOpen s
  | .excitationWrite q v => Sys2Proof.Machine.execExcitationWrite q v s
  | .excitationStage q v => Sys2Proof.Machine.execExcitationStage q v s
  | .routeWrite q hi v => Sys2Proof.Machine.execRouteWrite q hi v s
  | .feCtrlWrite q v => Sys2Proof.Machine.execFeCtrlWrite q v s
  | .retirementRequest q v => Sys2Proof.Machine.execRetirementRequest q v s
  | .diagnosticRequest q v => Sys2Proof.Machine.execDiagnosticRequest q v s
  | .gainRequest q v => Sys2Proof.Machine.execGainRequest q v s
  | .testArm q v => Sys2Proof.Machine.execTestArm q v s
  | .resultRead q => Sys2Proof.Machine.execResultRead q s
  | .comparatorEdge j env => Sys2Proof.Machine.execComparatorEdge j env s
  | .baselineAcquisition j base => Sys2Proof.Machine.execBaselineAcquisition j base s
  | .baselineRetry j => Sys2Proof.Machine.execBaselineRetry j s
  | .passset q v => Sys2Proof.Machine.execPassset q v s
  | .passclr q v => Sys2Proof.Machine.execPassclr q v s
  | .claim q v => Sys2Proof.Machine.execClaim q v s
  | .claimTimeout k => Sys2Proof.Machine.execClaimTimeout k s
  | .orphan k => Sys2Proof.Machine.execOrphan k s
  | .comparatorProof k => Sys2Proof.Machine.execComparatorProof k s
  | .proofeng q v => Sys2Proof.Machine.execProofeng q v s
  | .proofStale k => Sys2Proof.Machine.execProofStale k s
  | .hcfgWrite q k v => Sys2Proof.Machine.execHcfgWrite q k v s
  | .henChange k => Sys2Proof.Machine.execHenChange k s
  | .inboundPush q a n v => Sys2Proof.Machine.execInboundPush q a n v s
  | .originPush k v => Sys2Proof.Machine.execOriginPush k v s
  | .shadowPush k v => Sys2Proof.Machine.execShadowPush k v s
  | .inback q v => Sys2Proof.Machine.execInback q v s
  | .originAck q v => Sys2Proof.Machine.execOriginAck q v s
  | .shadowAck q v => Sys2Proof.Machine.execShadowAck q v s
  | .evaluation b => Sys2Proof.Machine.execEvaluation b s
  | .lock q b => Sys2Proof.Machine.execLock q b s
  | .lockGrant b => Sys2Proof.Machine.execLockGrant b s
  | .unlock q b => Sys2Proof.Machine.execUnlock q b s
  | .lockBreak dma p => Sys2Proof.Machine.execLockBreak dma p s
  | .preparatoryReset => Sys2Proof.Machine.execPreparatoryReset s
  | .conditionalReset => Sys2Proof.Machine.execConditionalReset s
  | .directReset => Sys2Proof.Machine.execDirectReset s
  | .cancelResetProcedure => Sys2Proof.Machine.execCancelResetProcedure s
  | .fingerprintClearance => Sys2Proof.Machine.execFingerprintClearance s
  | .operatorCommand => Sys2Proof.Machine.execOperatorCommand s
  | .invalidCommand => Sys2Proof.Machine.execInvalidCommand s
  | .cmdpop q v => Sys2Proof.Machine.execCmdpop q v s
  | .cmddone q v => Sys2Proof.Machine.execCmddone q v s
  | .clearanceMatch q b => Sys2Proof.Machine.execClearanceMatch q b s
  | .localisationMatch q b => Sys2Proof.Machine.execLocalisationMatch q b s
  | .matchComplete => Sys2Proof.Machine.execMatchComplete s
  | .syncReceived src p dom o => Sys2Proof.Machine.execSyncReceived src p dom o s
  | .announceReceived src node dom rank epoch phase est => Sys2Proof.Machine.execAnnounceReceived src node dom rank epoch phase est s
  | .pdelayReq p => Sys2Proof.Machine.execPdelayReq p s
  | .pdelayResp p d => Sys2Proof.Machine.execPdelayResp p d s
  | .holdoverEntry => Sys2Proof.Machine.execHoldoverEntry s
  | .masterTakeover => Sys2Proof.Machine.execMasterTakeover s
  | .nowRead q => Sys2Proof.Machine.execNowRead q s
  | .launchArm q c v => Sys2Proof.Machine.execLaunchArm q c v s
  | .launchDisarm q c v => Sys2Proof.Machine.execLaunchDisarm q c v s
  | .excite c => Sys2Proof.Machine.execExcite c s
  | .inject c => Sys2Proof.Machine.execInject c s
  | .grid c => Sys2Proof.Machine.execGrid c s
  | .output c => Sys2Proof.Machine.execOutput c s
  | .event c => Sys2Proof.Machine.execEvent c s
  | .launchCopyFault c => Sys2Proof.Machine.execLaunchCopyFault c s
  | .compareArm q v => Sys2Proof.Machine.execCompareArm q v s
  | .compare q => Sys2Proof.Machine.execCompare q s
  | .frameReceived p l => Sys2Proof.Machine.execFrameReceived p l s
  | .heventDispatch => Sys2Proof.Machine.execHeventDispatch s
  | .bufferClose r j => Sys2Proof.Machine.execBufferClose r j s
  | .frameRelease r j bad => Sys2Proof.Machine.execFrameRelease r j bad s
  | .footsideCutoff r => Sys2Proof.Machine.execFootsideCutoff r s
  | .txReady q v => Sys2Proof.Machine.execTxReady q v s
  | .summaryReady q v => Sys2Proof.Machine.execSummaryReady q v s
  | .scheduleStart q v => Sys2Proof.Machine.execScheduleStart q v s
  | .scheduleStop q v => Sys2Proof.Machine.execScheduleStop q v s
  | .rxRelease q v => Sys2Proof.Machine.execRxRelease q v s
  | .linkUp p => Sys2Proof.Machine.execLinkUp p s
  | .linkDown p => Sys2Proof.Machine.execLinkDown p s
  | .linkTraining p => Sys2Proof.Machine.execLinkTraining p s
  | .retrain p => Sys2Proof.Machine.execRetrain p s
  | .listenTimeout r => Sys2Proof.Machine.execListenTimeout r s
  | .integrateTimeout r => Sys2Proof.Machine.execIntegrateTimeout r s
  | .returnTimeout r => Sys2Proof.Machine.execReturnTimeout r s
  | .placementWrite q k v => Sys2Proof.Machine.execPlacementWrite q k v s
  | .handOverOrder q k v => Sys2Proof.Machine.execHandOverOrder q k v s
  | .forcedMove q k v => Sys2Proof.Machine.execForcedMove q k v s
  | .seqWrite e k v => Sys2Proof.Machine.execSeqWrite e k v s
  | .handOver k => Sys2Proof.Machine.execHandOver k s
  | .shpassWrite q v => Sys2Proof.Machine.execShpassWrite q v s
  | .migrate => Sys2Proof.Machine.execMigrate s
  | .migrateAny => Sys2Proof.Machine.execMigrateAny s
  | .evacuate => Sys2Proof.Machine.execEvacuate s
  | .resume => Sys2Proof.Machine.execResume s
  | .cancel => Sys2Proof.Machine.execCancel s
  | .invalidOrder => Sys2Proof.Machine.execInvalidOrder s
  | .alive r m => Sys2Proof.Machine.execAlive r m s
  | .offer r m => Sys2Proof.Machine.execOffer r m s
  | .accept r m => Sys2Proof.Machine.execAccept r m s
  | .refuse r m => Sys2Proof.Machine.execRefuse r m s
  | .snap r m => Sys2Proof.Machine.execSnap r m s
  | .digest r m => Sys2Proof.Machine.execDigest r m s
  | .ready r m => Sys2Proof.Machine.execReady r m s
  | .switch r m => Sys2Proof.Machine.execSwitch r m s
  | .abort r m => Sys2Proof.Machine.execAbort r m s
  | .req r m => Sys2Proof.Machine.execReq r m s
  | .plan r m => Sys2Proof.Machine.execPlan r m s
  | .own r m => Sys2Proof.Machine.execOwn r m s
  | .load r m => Sys2Proof.Machine.execLoad r m s
  | .migrationCollect x => Sys2Proof.Machine.execMigrationCollect x s
  | .migrationSnapshot x => Sys2Proof.Machine.execMigrationSnapshot x s
  | .install x => Sys2Proof.Machine.execInstall x s
  | .ownershipSwitch x => Sys2Proof.Machine.execOwnershipSwitch x s
  | .migrationTimeout x => Sys2Proof.Machine.execMigrationTimeout x s
  | .coordinatorTakeover => Sys2Proof.Machine.execCoordinatorTakeover s
  | .learningEnd => Sys2Proof.Machine.execLearningEnd s
  | .evacuationRetry b => Sys2Proof.Machine.execEvacuationRetry b s
  | .engineRetirement q v => Sys2Proof.Machine.execEngineRetirement q v s
  | .add e o => Sys2Proof.Machine.execAdd e o s
  | .adc e o => Sys2Proof.Machine.execAdc e o s
  | .sub e o => Sys2Proof.Machine.execSub e o s
  | .sbc e o => Sys2Proof.Machine.execSbc e o s
  | .and_ e o => Sys2Proof.Machine.execAnd e o s
  | .or_ e o => Sys2Proof.Machine.execOr e o s
  | .xor_ e o => Sys2Proof.Machine.execXor e o s
  | .andn e o => Sys2Proof.Machine.execAndn e o s
  | .cmp e o => Sys2Proof.Machine.execCmp e o s
  | .tst e o => Sys2Proof.Machine.execTst e o s
  | .shl e o => Sys2Proof.Machine.execShl e o s
  | .shr e o => Sys2Proof.Machine.execShr e o s
  | .sar e o => Sys2Proof.Machine.execSar e o s
  | .ror e o => Sys2Proof.Machine.execRor e o s
  | .shli e o => Sys2Proof.Machine.execShli e o s
  | .shri e o => Sys2Proof.Machine.execShri e o s
  | .sari e o => Sys2Proof.Machine.execSari e o s
  | .rori e o => Sys2Proof.Machine.execRori e o s
  | .mul e o => Sys2Proof.Machine.execMul e o s
  | .mulh e o => Sys2Proof.Machine.execMulh e o s
  | .mulhu e o => Sys2Proof.Machine.execMulhu e o s
  | .mulq e o => Sys2Proof.Machine.execMulq e o s
  | .div e o => Sys2Proof.Machine.execDiv e o s
  | .divu e o => Sys2Proof.Machine.execDivu e o s
  | .rem e o => Sys2Proof.Machine.execRem e o s
  | .remu e o => Sys2Proof.Machine.execRemu e o s
  | .min e o => Sys2Proof.Machine.execMin e o s
  | .max e o => Sys2Proof.Machine.execMax e o s
  | .minu e o => Sys2Proof.Machine.execMinu e o s
  | .maxu e o => Sys2Proof.Machine.execMaxu e o s
  | .sel e o => Sys2Proof.Machine.execSel e o s
  | .clz e o => Sys2Proof.Machine.execClz e o s
  | .sxh e o => Sys2Proof.Machine.execSxh e o s
  | .sxb e o => Sys2Proof.Machine.execSxb e o s
  | .zxh e o => Sys2Proof.Machine.execZxh e o s
  | .zxb e o => Sys2Proof.Machine.execZxb e o s
  | .addi e o => Sys2Proof.Machine.execAddi e o s
  | .andi e o => Sys2Proof.Machine.execAndi e o s
  | .ori e o => Sys2Proof.Machine.execOri e o s
  | .xori e o => Sys2Proof.Machine.execXori e o s
  | .cmpi e o => Sys2Proof.Machine.execCmpi e o s
  | .movi e o => Sys2Proof.Machine.execMovi e o s
  | .tsti e o => Sys2Proof.Machine.execTsti e o s
  | .ldw e o => Sys2Proof.Machine.execLdw e o s
  | .ldh e o => Sys2Proof.Machine.execLdh e o s
  | .ldhu e o => Sys2Proof.Machine.execLdhu e o s
  | .ldb e o => Sys2Proof.Machine.execLdb e o s
  | .ldbu e o => Sys2Proof.Machine.execLdbu e o s
  | .ldq e o => Sys2Proof.Machine.execLdq e o s
  | .ldx e o fn => Sys2Proof.Machine.execLdx e o fn s
  | .stw e o => Sys2Proof.Machine.execStw e o s
  | .sth e o => Sys2Proof.Machine.execSth e o s
  | .stb e o => Sys2Proof.Machine.execStb e o s
  | .stq e o => Sys2Proof.Machine.execStq e o s
  | .stx e o fn => Sys2Proof.Machine.execStx e o fn s
  | .b e o => Sys2Proof.Machine.execB e o s
  | .bl e o => Sys2Proof.Machine.execBl e o s
  | .br e o => Sys2Proof.Machine.execBr e o s
  | .blr e o => Sys2Proof.Machine.execBlr e o s
  | .nop e o => Sys2Proof.Machine.execNop e o s
  | .wait e o => Sys2Proof.Machine.execWait e o s
  | .trap e o => Sys2Proof.Machine.execTrap e o s
  | .brk e o => Sys2Proof.Machine.execBrk e o s
  | .mfs e o => Sys2Proof.Machine.execMfs e o s
  | .mts e o => Sys2Proof.Machine.execMts e o s
  | .rtd e o => Sys2Proof.Machine.execRtd e o s
  | .cfence e o => Sys2Proof.Machine.execCfence e o s
  | .sweep e o => Sys2Proof.Machine.execSweep e o s
  | .lda e o => Sys2Proof.Machine.execLda e o s
  | .ldaq e o => Sys2Proof.Machine.execLdaq e o s
  | .mac e o => Sys2Proof.Machine.execMac e o s
  | .msu e o => Sys2Proof.Machine.execMsu e o s
  | .aclr e o => Sys2Proof.Machine.execAclr e o s
  | .ard e o => Sys2Proof.Machine.execArd e o s
  | .awr e o => Sys2Proof.Machine.execAwr e o s
  | .tcor e o => Sys2Proof.Machine.execTcor e o s
  | .luti e o => Sys2Proof.Machine.execLuti e o s
  | .adds e o => Sys2Proof.Machine.execAdds e o s
  | .subs e o => Sys2Proof.Machine.execSubs e o s
  | .adds2 e o => Sys2Proof.Machine.execAdds2 e o s
  | .subs2 e o => Sys2Proof.Machine.execSubs2 e o s
  | .negs e o => Sys2Proof.Machine.execNegs e o s
  | .abss e o => Sys2Proof.Machine.execAbss e o s
  | .sath e o => Sys2Proof.Machine.execSath e o s
  | .shls e o => Sys2Proof.Machine.execShls e o s
  | .cbset e o => Sys2Proof.Machine.execCbset e o s
  | .ldcw e o => Sys2Proof.Machine.execLdcw e o s
  | .ldch e o => Sys2Proof.Machine.execLdch e o s
  | .stcw e o => Sys2Proof.Machine.execStcw e o s
  | .stch e o => Sys2Proof.Machine.execStch e o s
  | .sin e o => Sys2Proof.Machine.execSin e o s
  | .schk e o => Sys2Proof.Machine.execSchk e o s
  | .ein e o => Sys2Proof.Machine.execEin e o s
  | .mon e o => Sys2Proof.Machine.execMon e o s
  | .vset e o => Sys2Proof.Machine.execVset e o s
  | .rate e o => Sys2Proof.Machine.execRate e o s
  | .commitLand => Sys2Proof.Machine.execCommitLand s
  | .lagExpiry c => Sys2Proof.Machine.execLagExpiry c s
  | .stall => Sys2Proof.Machine.execStall s
  | .ramScrub found changed => Sys2Proof.Machine.execRamScrub found changed s
  | .selftestComplete c pass => Sys2Proof.Machine.execSelftestComplete c pass s
  | .copyComplete c bad => Sys2Proof.Machine.execCopyComplete c bad s
  | .voterFault => Sys2Proof.Machine.execVoterFault s
  | .phaseWrite q v => Sys2Proof.Machine.execPhaseWrite q v s
  | .commitProof q core => Sys2Proof.Machine.execCommitProof q core s
  | .sweepProof q core => Sys2Proof.Machine.execSweepProof q core s
  | .splitRequest q => Sys2Proof.Machine.execSplitRequest q s
  | .votedRequest q => Sys2Proof.Machine.execVotedRequest q s
  | .requestDrop => Sys2Proof.Machine.execRequestDrop s
  | .memoryScrub kind found => Sys2Proof.Machine.execMemoryScrub kind found s
  | .burstGrant new => Sys2Proof.Machine.execBurstGrant new s
  | .burstEnd => Sys2Proof.Machine.execBurstEnd s
  | .watchdogBite moved => Sys2Proof.Machine.execWatchdogBite moved s
  | .quiesce q => Sys2Proof.Machine.execQuiesce q s
  | .quiesceEnd q => Sys2Proof.Machine.execQuiesceEnd q s
  | .quiesceTimeout => Sys2Proof.Machine.execQuiesceTimeout s
  | .mapWrite q hi v => Sys2Proof.Machine.execMapWrite q hi v s
  | .cntclr q v => Sys2Proof.Machine.execCntclr q v s
  | .unitClaim q => Sys2Proof.Machine.execUnitClaim q s
  | .unitRelease q => Sys2Proof.Machine.execUnitRelease q s
  | .cvInit q => Sys2Proof.Machine.execCvInit q s
  | .cvCompare q => Sys2Proof.Machine.execCvCompare q s
  | .dataFeed q width v => Sys2Proof.Machine.execDataFeed q width v s
  | .absorbComplete u => Sys2Proof.Machine.execAbsorbComplete u s
  | .cvResultRead q => Sys2Proof.Machine.execCvResultRead q s
  | .mirrorRead p w => Sys2Proof.Machine.execMirrorRead p w s
  | .hostAccess p write addr be v => Sys2Proof.Machine.execHostAccess p write addr be v s
  | .readyTimeout p => Sys2Proof.Machine.execReadyTimeout p s
  | .proposal p gr v => Sys2Proof.Machine.execProposal p gr v s
  | .proposalExpiry => Sys2Proof.Machine.execProposalExpiry s
  | .queueRead p => Sys2Proof.Machine.execQueueRead p s
  | .token q v => Sys2Proof.Machine.execToken q v s
  | .demandWrite q v => Sys2Proof.Machine.execDemandWrite q v s
  | .halfPeriod n cls differ => Sys2Proof.Machine.execHalfPeriod n cls differ s
  | .leakageSample n high => Sys2Proof.Machine.execLeakageSample n high s
  | .faultClear q v => Sys2Proof.Machine.execFaultClear q v s
  | .periodStart x mv => Sys2Proof.Machine.execPeriodStart x mv s
  | .trip x => Sys2Proof.Machine.execTrip x s
  | .dutyLimit x => Sys2Proof.Machine.execDutyLimit x s
  | .currentLimitFault g => Sys2Proof.Machine.execCurrentLimitFault g s
  | .windowComparatorChange w st => Sys2Proof.Machine.execWindowComparatorChange w st s
  | .dipWarning => Sys2Proof.Machine.execDipWarning s
  | .dipClear => Sys2Proof.Machine.execDipClear s
  | .lowInputReset => Sys2Proof.Machine.execLowInputReset s
  | .powerOn straps cls0 cls1 => Sys2Proof.Machine.execPowerOn straps cls0 cls1 s
  | .softStartTimeout rail => Sys2Proof.Machine.execSoftStartTimeout rail s
  | .powerUpRetry => Sys2Proof.Machine.execPowerUpRetry s
  | .powerCycle q v => Sys2Proof.Machine.execPowerCycle q v s
  | .powerCycleEnd => Sys2Proof.Machine.execPowerCycleEnd s
  | .monitorMeasurement j margin temp fault => Sys2Proof.Machine.execMonitorMeasurement j margin temp fault s
  | .operatingHour => Sys2Proof.Machine.execOperatingHour s
  | .hoursWrite q v => Sys2Proof.Machine.execHoursWrite q v s
  | .resetBall => Sys2Proof.Machine.execResetBall s
  | .blockReset q v => Sys2Proof.Machine.execBlockReset q v s
  | .deviceResetRequest q v => Sys2Proof.Machine.execDeviceResetRequest q v s
  | .evacuationTimeout => Sys2Proof.Machine.execEvacuationTimeout s
  | .commitStart q => Sys2Proof.Machine.execCommitStart q s
  | .eraseDone => Sys2Proof.Machine.execEraseDone s
  | .chunk q v => Sys2Proof.Machine.execChunk q v s
  | .chunkDone ok => Sys2Proof.Machine.execChunkDone ok s
  | .commitFinish q => Sys2Proof.Machine.execCommitFinish q s
  | .commitAbort q => Sys2Proof.Machine.execCommitAbort q s
  | .commitTimeout => Sys2Proof.Machine.execCommitTimeout s
  | .record q v => Sys2Proof.Machine.execRecord q v s
  | .recordDone => Sys2Proof.Machine.execRecordDone s
  | .rootKick q v => Sys2Proof.Machine.execRootKick q v s
  | .rootWatchdog => Sys2Proof.Machine.execRootWatchdog s
  | .keeperWatchdog => Sys2Proof.Machine.execKeeperWatchdog s
  | .ladderWrite q v => Sys2Proof.Machine.execLadderWrite q v s
  | .ladderCounterClear => Sys2Proof.Machine.execLadderCounterClear s
  | .debugHalt => Sys2Proof.Machine.execDebugHalt s
  | .debugResume => Sys2Proof.Machine.execDebugResume s
  | .singleStep => Sys2Proof.Machine.execSingleStep s
  | .sysrst => Sys2Proof.Machine.execSysrst s
  | .dbDataAccess write v => Sys2Proof.Machine.execDbDataAccess write v s
  | .regdataAccess write v => Sys2Proof.Machine.execRegdataAccess write v s
  | .traceDump => Sys2Proof.Machine.execTraceDump s
  | .extest pins shift => Sys2Proof.Machine.execExtest pins shift s
  | .samplePreload pins shift => Sys2Proof.Machine.execSamplePreload pins shift s
  | .idcode => Sys2Proof.Machine.execIdcode s
  | .clamp => Sys2Proof.Machine.execClamp s
  | .highz => Sys2Proof.Machine.execHighz s
  | .debug write off v => Sys2Proof.Machine.execDebug write off v s
  | .bypass => Sys2Proof.Machine.execBypass s
  | .testLogicReset => Sys2Proof.Machine.execTestLogicReset s
  | .resetRelease straps => Sys2Proof.Machine.execResetRelease straps s
  | .baselineLimit j high => Sys2Proof.Machine.execBaselineLimit j high s
  | .holdoverQualityLoss => Sys2Proof.Machine.execHoldoverQualityLoss s
  | .fencingAgeOut c => Sys2Proof.Machine.execFencingAgeOut c s
  | .keeperSupplyLoss => Sys2Proof.Machine.execKeeperSupplyLoss s
  | .commitComplete => Sys2Proof.Machine.execCommitComplete s
  | .traceDumpComplete => Sys2Proof.Machine.execTraceDumpComplete s

end Sys2Proof.Machine
end

