-- ==== Sys2Proof/Safety.lean ====
section
/-! DEFINITION. What the statements call sound, in the terms they use: the canonical form of memory, a register map that kept every
field but those named, the safe state as entered, a host access that was given an error, and a device held in reset. -/

namespace Sys2Proof.Machine

/-- Memory is in canonical form: keys strictly rising, no byte listed that reads as it would unlisted. -/
def Memory.wf (m : Tab Byte) : Bool := Tab.wf memInit m

/-- Every register field whose key is not in `ks` reads in `t` as in `s`. -/
def Kept (ks : List Nat) (s t : State) : Prop := ∀ (f : Field) (i : Nat), f.key i ∉ ks → t.fld f i = s.fld f i

/-- The Heartwood has entered the safe state with misprint kind `kind`, no odd core and address `addr`, at network time `n`: the
record is written, nothing is ready and all three cores are stopped (10 Table HW-2). -/
def EnteredSafe (kind addr : Nat) (n : BitVec 64) (t : State) : Prop :=
  t.fld HW_STATUS.SAFE = 1 ∧ t.fld HW_MIS.KIND = kind ∧ t.fld HW_MIS.CORE = 3 ∧ t.fld HW_MISADDR.ADDR = addr
    ∧ t.fld HW_MISTIME.TIME = n.toNat % 2 ^ 32 ∧ t.ready = [] ∧ (∀ c, c < 3 → (t.eng c).run = .stopped)

/-- Port `p` has given the error response of `cause` for an access at host address `a`: the port's error record and the sticky bits
are set, the access is over, a read reads ones, and memory is as it was (12 R463, R464, R483). -/
def GaveError (p : Fin 3) (cause a : Nat) (write : Bool) (s t : State) : Prop :=
  t.fld HP_PERR.CAUSE p.val = cause ∧ t.fld HP_PERR.ADDR p.val = a % 2 ^ 24 ∧ t.fld HP_PERR.WRITE p.val = bit write
    ∧ t.fld HP_PSTATUS.ERR p.val = 1 ∧ t.fld HP_STATUS.ERRRESP = 1 ∧ (t.port p.val).acc = none ∧ t.mem = s.mem
    ∧ (write = false → Tab.get 0 t.delivered (1 + p.val) = 2 ^ 32 - 1)
    ∧ Kept [HP_PERR.CAUSE.key p.val, HP_PERR.ADDR.key p.val, HP_PERR.WRITE.key p.val, HP_PSTATUS.ERR.key p.val,
        HP_STATUS.ERRRESP.key 0, HP_STATUS.RDYTO.key 0] s t

/-- A reset of the device is asserted, with `cause` recorded by the keeper and the power stage at `p`: every engine is held, no
vital output runs, and flash and the queue of commands are as they were (14 R527, R532, 16 R559, R564). -/
def HeldInReset (cause : Nat) (p : PowerPhase) (s t : State) : Prop :=
  t.keeper.power = p ∧ t.keeper.cause = cause ∧ (∀ i, i < 10 → (t.eng i).run = .held)
    ∧ (∀ k, k < 0x800000 → t.byte k = s.byte k) ∧ t.pending = s.pending ∧ t.fld PW_VORUN.RUN = 0

end Sys2Proof.Machine
end

