-- ==== Sys2Proof/Certificates/Slice0/Obligations.lean ====
section
/-! DEFINITION. The statements for the provers. Each docstring says what its statement says, the rows of the command table it covers, and
the entries of the assumption log that a clause of it rests on. -/

open Sys2Proof Sys2Proof.Machine

/-- O1. For every command c, queue rest and state s: with c at the front of the queue, step of s is exec of c on s with the queue's
rest. On an empty queue step answers s with the time base and network time advanced by one TU and nothing else changed. Spec:
98_reader.md, R26. Rests on assumption log 1. -/
def Obligations.FrontCommandRunsElseOneTick : Prop :=
  (∀ (c : Instr) (rest : List Instr) (s : State),
    s.pending = c :: rest → step s = exec c { s with pending := rest })
  ∧ (∀ s : State, s.pending = [] → step s = .next { s with tb := s.tb + 1, now := s.now + 1#64 })

/-- O2. Every register field reads its reset column, the registers of every engine, network time, the epoch and the time state are
0, no output drives, the TAP holds IDCODE, Heartwood RAM reads 0, the mirror memory reads ones, memory is in canonical form, and
no command waits. Fields of reset value Image, Fuse, Strap and Keeper read 0 by the model's choice (log 3). Spec: R21, R230,
R341, R413, R477, R489, R609. Rests on assumption log 3, 4. -/
def Obligations.ResetStateIsAsSpecified : Prop :=
  (∀ (f : Field) (i : Nat), State.reset.fld f i = f.rst)
  ∧ (∀ i, (State.reset.eng i).w = Vector.replicate 16 0#32 ∧ (State.reset.eng i).flg = 0#32 ∧ (State.reset.eng i).pend = 0#16)
  ∧ State.reset.now = 0#64 ∧ State.reset.time.epoch = 0 ∧ State.reset.time.tq = 0
  ∧ (∀ n, (State.reset.vo n).drive = 0) ∧ State.reset.tap.ir = 2
  ∧ (∀ a, a < 2 ^ 32 → State.reset.byte (memKey 1 a) = 0#8) ∧ (∀ a, a < 0x4000 → State.reset.byte (memKey 11 a) = 0xFF#8)
  ∧ Memory.wf State.reset.mem = true ∧ State.reset.pending = []
  ∧ State.reset.fld ID_PART.PART = 0x0256 ∧ State.reset.fld HW_STATUS.SAFE = 0 ∧ State.reset.fld CK_CTRL.RUN = 0

/-- O3. For every command c and all states s and t: if exec of c on s answers next t, then the queue of t is the queue of s. A reset
of the device, a boot and a power cycle keep it too. Spec: 98_reader.md, 00_scope.md. -/
def Obligations.CommandsLeaveTheQueue : Prop :=
  ∀ (c : Instr) (s t : State), exec c s = .next t → t.pending = s.pending

/-- O4. For all states s and t: if memory of s is in canonical form (keys strictly rising, no byte listed that reads as it would
unlisted) and step of s answers next t, then memory of t is in canonical form. That it holds after reset is part of
ResetStateIsAsSpecified. Spec: R36, R559, R41. -/
def Obligations.StepsKeepMemoryCanonical : Prop :=
  ∀ s t : State, Memory.wf s.mem = true → step s = .next t → Memory.wf t.mem = true

/-- O5. For the Heartwood, the Root engine and each Sapwood engine: a write of CK_PORTSEL with PORT 6 or 7 leaves the state
unchanged; every other value of CK_PORTSEL and every value of FE_SYSSEL, BB_BOBSEL, CV_CVSEL, PW_PGSEL and PW_WCSEL is taken in
the writer's own copy, and nothing else changes. An access of the voted Heartwood is stated for one that can vote and is not
halted (State.canVote). Rows: REGISTER_WRITE. Spec: R19. -/
def Obligations.SelectRegistersKeepToTheirUnits : Prop :=
  ∀ (s : State) (q : Req) (v : Word), ((q = .hw ∧ s.canVote = true) ∨ ((q = .root ∨ ∃ k, q = .se k) ∧ s.arbHolds q = false)) →
    let sets := fun (off : BitVec 16) (f : Field) (n : Nat) =>
      ∃ t, exec (.registerWrite q off v) s = .next t ∧ t.fld f q.bank = v.toNat % n ∧ Kept [f.key q.bank] s t
        ∧ t = { s with regs := t.regs }
    (6 ≤ v.toNat % 8 → exec (.registerWrite q 0x5040#16 v) s = .next s)
    ∧ (v.toNat % 8 < 6 → sets 0x5040#16 CK_PORTSEL.PORT 8)
    ∧ sets 0x1000#16 FE_SYSSEL.SYS 64 ∧ sets 0x3000#16 BB_BOBSEL.BOB 256 ∧ sets 0x9000#16 CV_CVSEL.UNIT 8
    ∧ sets 0xB000#16 PW_PGSEL.PG 4 ∧ sets 0xB004#16 PW_WCSEL.WC 32

/-- O6. For every register of the DB page: a write by the Heartwood, an engine or a host has no effect but to count as rejected;
with SDBG 0 a write by the debugger has no effect but to set DB_STATUS.ACCERR; with SDBG 1 its write of DB_ADDR takes effect and
changes nothing else. An access of the voted Heartwood is stated for one that can vote and is not halted (State.canVote). Rows:
REGISTER_WRITE. Spec: R584. -/
def Obligations.DebugPageIsTheDebuggers : Prop :=
  ∀ (s : State) (q : Req) (p : Fin 3) (off : BitVec 16) (v : Word),
    off ∈ [0xF000#16, 0xF004#16, 0xF008#16, 0xF00C#16, 0xF010#16, 0xF014#16, 0xF018#16, 0xF01C#16, 0xF020#16] →
      (s.canVote = true → exec (.registerWrite .hw off v) s = .next (s.reject .hw))
      ∧ (s.absent q = false → ((q = .root ∨ q = .splitA ∨ q = .splitB ∨ ∃ k, q = .se k) ∧ s.arbHolds q = false) →
        exec (.registerWrite q off v) s = .next (s.reject q))
      ∧ (s.keeper.power = .up → s.fld RB_BOOT.FAIL = 0 → (s.port p.val).acc = none → s.fld HP_PCTRL.EN p.val = 1 →
          s.masked (.host p) = false → s.arbHolds (.host p) = false →
        ∃ t, exec (.registerWrite (.host p) off v) s = .next t ∧ t = { s.reject (.host p) with ports := t.ports }
          ∧ ∀ x, t.port x = s.port x)
      ∧ (s.masked .dbg = false → s.quiesced = false → s.debugOn = false →
        exec (.registerWrite .dbg off v) s = .next (s.setFld DB_STATUS.ACCERR 0 1))
      ∧ (s.masked .dbg = false → s.quiesced = false → s.debugOn = true →
        ∃ t, exec (.registerWrite .dbg 0xF00C#16 v) s = .next t ∧ t.fld DB_ADDR.ADDR = v.toNat ∧ Kept [DB_ADDR.ADDR.key 0] s t
          ∧ t = { s with regs := t.regs })

/-- O7. A voted write of PW_VOFAULT clears the fault bit of an output whose written bit is 1 and demand bit is 0, and its CAUSE;
with the demand bit 1 it has no effect on the output and sets CFGERR; a written 0 leaves the bit. No write of another requester
changes a fault bit, a cause or an output. An access of the voted Heartwood is stated for one that can vote and is not halted
(State.canVote). Rows: FAULT_CLEAR. Spec: R505. -/
def Obligations.FaultBitsAreCleared : Prop :=
  ∀ (s : State) (n : Fin 16) (q : Req) (v : Word),
    let dem := s.fbit PW_VODEM.DEM n.val
    let flt := s.fbit PW_VOFAULT.FLT n.val
    (s.canVote = true → ∃ t, exec (.faultClear .hw v) s = .next t ∧ t.fld PW_VODEM.DEM = s.fld PW_VODEM.DEM
      ∧ (v.toNat.testBit n.val = true → dem = false → t.fbit PW_VOFAULT.FLT n.val = false ∧ t.fld PW_VOST.CAUSE n.val = 0)
      ∧ (v.toNat.testBit n.val = true → dem = true → t.fbit PW_VOFAULT.FLT n.val = flt
          ∧ t.fld PW_VOST.CAUSE n.val = s.fld PW_VOST.CAUSE n.val ∧ t.fld PW_VOSTATUS.CFGERR = 1)
      ∧ (v.toNat.testBit n.val = false → t.fbit PW_VOFAULT.FLT n.val = flt
          ∧ t.fld PW_VOST.CAUSE n.val = s.fld PW_VOST.CAUSE n.val))
    ∧ (q.voted = false → ∃ t, exec (.faultClear q v) s = .next t ∧ t.fld PW_VOFAULT.FLT = s.fld PW_VOFAULT.FLT
        ∧ t.fld PW_VOST.CAUSE n.val = s.fld PW_VOST.CAUSE n.val ∧ t.vos = s.vos)

/-- O8. A voted FE_EXC write that meets the span, routing and excitation checks shows its MODE, IPK and FREQ, is due (ARM 0) or
staged (ARM 1) for the selected system, and changes nothing else; one that sets MODE to off is never refused and sets no status
bit. An access of the voted Heartwood is stated for one that can vote and is not halted (State.canVote). Rows: EXCITATION_WRITE,
EXCITATION_STAGE. Spec: R60, R65, 02_sensor_front_end.md. Rests on assumption log 26. -/
def Obligations.ExcitationWritesWaitForTheGrid : Prop :=
  (∀ (s : State) (v : Word),
    let i := s.fld FE_SYSSEL.SYS 11
    let e : Exc := { mode := v.toNat % 4, ipk := v.toNat / 2 ^ 4 % 2 ^ 9, freq := v.toNat / 2 ^ 16 % 2 ^ 6 }
    let ks := [FE_EXC.MODE.key i, FE_EXC.IPK.key i, FE_EXC.FREQ.key i, FE_EXC.ARM.key i]
    s.canVote = true → e.mode ≠ 3 → e.ipk ≤ 256 → s.routeErr i e = false → s.excErr i e = false →
      (∃ t, exec (.excitationWrite .hw v) s = .next t
        ∧ t.fld FE_EXC.MODE i = e.mode ∧ t.fld FE_EXC.IPK i = e.ipk ∧ t.fld FE_EXC.FREQ i = e.freq
        ∧ t.fld FE_EXC.ARM i = 0 ∧ Kept ks s t
        ∧ t.sys i = { s.sys i with due := some e, dueCounted := false }
        ∧ (∀ j, j ≠ i → t.sys j = s.sys j) ∧ t = { s with regs := t.regs, systems := t.systems })
      ∧ (∃ t, exec (.excitationStage .hw v) s = .next t
        ∧ t.fld FE_EXC.MODE i = e.mode ∧ t.fld FE_EXC.IPK i = e.ipk ∧ t.fld FE_EXC.FREQ i = e.freq
        ∧ t.fld FE_EXC.ARM i = 1 ∧ Kept ks s t
        ∧ t.sys i = { s.sys i with staged := some e }
        ∧ (∀ j, j ≠ i → t.sys j = s.sys j) ∧ t = { s with regs := t.regs, systems := t.systems }))
  ∧ (∀ (s : State) (v : Word), s.canVote = true → v.toNat % 4 = 0 → v.toNat / 2 ^ 4 % 2 ^ 9 ≤ 256 →
    let i := s.fld FE_SYSSEL.SYS 11
    ∃ t, exec (.excitationWrite .hw v) s = .next t ∧ t.fld FE_EXC.MODE i = 0
      ∧ ((t.sys i).due.map Exc.mode) = some 0 ∧ (∀ f k, f.addr = FE_STATUS.addr → f.lo < 32 → t.fld f k = s.fld f k))

/-- O9. Routing is taken while the system is off, in its register as in what is in force, due or staged (log 163), and else refused
with ROUTEERR; FE_TEST, FE_GAIN and FE_CTRL (the combinations of Table FE-4) take their values and their frame is stated; values
out of span set CFGERR, a second diagnostic DIAGREJ. A VW field (FE_HOLD) takes a voted write, and a write of the Root engine
leaves it and counts as rejected only when it would have changed it. An access of the voted Heartwood is stated for one that can
vote and is not halted (State.canVote). Rows: ROUTE_WRITE, TEST_ARM, GAIN_REQUEST, FE_CTRL_WRITE, RETIREMENT_REQUEST,
DIAGNOSTIC_REQUEST, REGISTER_WRITE. Spec: R15, R60, R61, R71, R76, R92, R97, Table FE-4. Rests on assumption log 163, 166. -/
def Obligations.FrontEndRegistersTakeOrRefuseWrites : Prop :=
  (∀ (s : State) (v : Word) (hi : Bool),
    let i := s.fld FE_SYSSEL.SYS 11
    s.canVote = true →
    (s.fld FE_EXC.MODE i ≠ 0 ∨ (s.sys i).exc.mode ≠ 0 ∨ (∃ e, (s.sys i).due = some e ∧ e.mode ≠ 0)
        ∨ (∃ e, (s.sys i).staged = some e ∧ e.mode ≠ 0) →
      exec (.routeWrite .hw hi v) s = .next (s.flag FE_STATUS.ROUTEERR evFE))
    ∧ (71 < v.toNat % 2 ^ 7 → exec (.retirementRequest .hw v) s = .next (s.flag FE_STATUS.CFGERR evFE))
    ∧ ((s.sys i).diag.isSome = true → exec (.diagnosticRequest .hw v) s = .next (s.flag FE_STATUS.DIAGREJ evFE))
    ∧ (v.toNat / 2 ^ 8 % 2 ^ 4 < 2 ∨ 12 < v.toNat / 2 ^ 8 % 2 ^ 4 →
        exec (.feCtrlWrite .hw v) s = .next (s.flag FE_STATUS.CFGERR evFE)))
  ∧ (∀ (s : State) (v : Word),
    let i := s.fld FE_SYSSEL.SYS 11
    s.canVote = true →
    (s.fld FE_EXC.MODE i = 0 → (s.sys i).exc.mode = 0 → (∀ e, (s.sys i).due = some e → e.mode = 0) →
        (∀ e, (s.sys i).staged = some e → e.mode = 0) →
      ∃ t, exec (.routeWrite .hw false v) s = .next t
        ∧ t.fld FE_ROUTE0.SENP i = v.toNat % 128 ∧ t.fld FE_ROUTE0.SENN i = v.toNat / 2 ^ 8 % 128
        ∧ t.fld FE_ROUTE0.EXCP i = v.toNat / 2 ^ 16 % 128 ∧ t.fld FE_ROUTE0.EXCN i = v.toNat / 2 ^ 24 % 128
        ∧ Kept [FE_ROUTE0.SENP.key i, FE_ROUTE0.SENN.key i, FE_ROUTE0.EXCP.key i, FE_ROUTE0.EXCN.key i] s t
        ∧ t = { s with regs := t.regs })
    ∧ (v.toNat / 2 ^ 16 % 2 ^ 8 ≠ 0 →
      ∃ t, exec (.testArm .hw v) s = .next t ∧ t.fld FE_TEST.ARM i = 1 ∧ t.fld FE_TEST.AMPL i = v.toNat % 2 ^ 8
        ∧ t.fld FE_TEST.DUR i = v.toNat / 2 ^ 16 % 2 ^ 8
        ∧ Kept [FE_TEST.AMPL.key i, FE_TEST.DUR.key i, FE_TEST.ARM.key i, FE_TEST.SKIP.key i] s t
        ∧ t = { s with regs := t.regs })
    ∧ (v.toNat % 2 = 0 → v.toNat / 2 % 4 ≠ s.fld FE_GAIN.RANGE i →
      ∃ t, exec (.gainRequest .hw v) s = .next t ∧ t.fld FE_GAIN.AUTO i = 0 ∧ t.fld FE_GAIN.FIX i = v.toNat / 2 % 4
        ∧ t.fld FE_GAIN.PEND i = 1 ∧ t.fld FE_GAIN.PRANGE i = v.toNat / 2 % 4 ∧ t.fld FE_GAIN.RANGE i = s.fld FE_GAIN.RANGE i
        ∧ Kept [FE_GAIN.AUTO.key i, FE_GAIN.FIX.key i, FE_GAIN.PEND.key i, FE_GAIN.PRANGE.key i] s t))
  ∧ (∀ (s : State) (v : Word),
    let notch := v.toNat / 2 % 8
    let auxt := v.toNat / 2 ^ 4 % 4
    let m := v.toNat / 2 ^ 8 % 16
    s.canVote = true →
    (2 ≤ m ∧ m ≤ 12 ∧ (notch, auxt) ∈ [(0, 0), (2, 0), (0, 1), (1, 1), (2, 1), (3, 1), (0, 2), (2, 2), (4, 2), (6, 2), (0, 3),
        (1, 3), (2, 3), (3, 3), (4, 3), (5, 3), (6, 3), (7, 3)] →
      ∃ t, exec (.feCtrlWrite .hw v) s = .next t ∧ t.fld FE_CTRL.RUN = v.toNat % 2 ∧ t.fld FE_CTRL.NOTCH = notch
        ∧ t.fld FE_CTRL.AUXT = auxt ∧ t.fld FE_CTRL.MUXSET = m)
    ∧ ((notch, auxt) ∉ [(0, 0), (2, 0), (0, 1), (1, 1), (2, 1), (3, 1), (0, 2), (2, 2), (4, 2), (6, 2), (0, 3),
        (1, 3), (2, 3), (3, 3), (4, 3), (5, 3), (6, 3), (7, 3)] →
      exec (.feCtrlWrite .hw v) s = .next (s.flag FE_STATUS.CFGERR evFE)))
  ∧ (∀ (s : State) (v : Word),
    let i := s.fld FE_SYSSEL.SYS 11
    let j := s.fld FE_SYSSEL.SYS 4
    (s.canVote = true → ∃ t, exec (.registerWrite .hw 0x110C#16 v) s = .next t
      ∧ t.fld FE_HOLD.HOLD i = v.toNat % 2 ^ 9 ∧ t.fld FE_HOLD.FLOOR i = v.toNat / 2 ^ 16 % 2 ^ 9
      ∧ Kept [FE_HOLD.HOLD.key i, FE_HOLD.FLOOR.key i] s t ∧ t = { s with regs := t.regs })
    ∧ (s.arbHolds .root = false →
        ∃ t, exec (.registerWrite .root 0x110C#16 v) s = .next t
          ∧ Kept [MI_ILONG.REJ.key (s.input .root)] s t ∧ t = { s with regs := t.regs }
          ∧ ((s.fld FE_HOLD.HOLD j = v.toNat % 2 ^ 9 ∧ s.fld FE_HOLD.FLOOR j = v.toNat / 2 ^ 16 % 2 ^ 9) → t.regs = s.regs)
          ∧ (¬ (s.fld FE_HOLD.HOLD j = v.toNat % 2 ^ 9 ∧ s.fld FE_HOLD.FLOOR j = v.toNat / 2 ^ 16 % 2 ^ 9) →
              t.fld MI_ILONG.REJ (s.input .root) = min (2 ^ 16 - 1) (s.fld MI_ILONG.REJ (s.input .root) + 1))))

/-- O10. A retirement request marks the slice; a diagnostic request is held; a completion writes FE_AUXRES with VALID 1 and ends the
diagnostic; a read of FE_RESULT delivers the reader's selected word and latches its time in the reader's FE_RESTIME alone. An
access of the voted Heartwood is stated for one that can vote and is not halted (State.canVote). Rows: RETIREMENT_REQUEST,
DIAGNOSTIC_REQUEST, DIAGNOSTIC_COMPLETE, RESULT_READ. Spec: R92, R95, R97, R104, 02_sensor_front_end.md. -/
def Obligations.FrontEndRequestsAndResults : Prop :=
  ∀ (s : State) (v : Word) (j : Fin 64) (value : Int) (o : Bool) (q : Req) (d : Diag),
    let i := s.fld FE_SYSSEL.SYS 11
    (s.canVote = true → v.toNat % 2 ^ 7 ≤ 71 → s.slice (v.toNat % 2 ^ 7) = 0 →
      ∃ t, exec (.retirementRequest .hw v) s = .next t ∧ t.slice (v.toNat % 2 ^ 7) = 1
        ∧ Kept [FE_SLICEST.ST.key (v.toNat % 2 ^ 7 / 16)] s t)
    ∧ (s.canVote = true → v.toNat % 8 ≤ 3 ∨ v.toNat % 8 = 5 → (s.sys i).diag = none →
      ∃ t, exec (.diagnosticRequest .hw v) s = .next t
        ∧ (t.sys i).diag = some { kind := v.toNat % 8, running := false, counted := false, ready := 0, pos := none }
        ∧ t.fld FE_DIAG.PEND i = 1 ∧ t.fld FE_DIAG.BUSY i = 0 ∧ Kept [FE_DIAG.PEND.key i, FE_DIAG.BUSY.key i] s t)
    ∧ ((s.sys j.val).diag = some d → d.running = true → d.kind ≤ 5 →
      ∃ t, exec (.diagnosticComplete j value o) s = .next t ∧ t.fld FE_AUXRES.VALID j.val = 1 ∧ t.fld FE_AUXRES.ABORT j.val = 0
        ∧ t.fld FE_AUXRES.KIND j.val = d.kind ∧ t.fld FE_AUXRES.VALUE j.val = (value % 2 ^ 24).toNat
        ∧ t.fld FE_AUXRES.OPEN j.val = (if d.kind = 3 ∧ o = true then 1 else 0)
        ∧ (t.sys j.val).diag = none ∧ t.fld FE_DIAG.BUSY j.val = 0)
    ∧ (s.absent q = false → ∃ t, exec (.resultRead q) s = .next t
        ∧ Tab.get 0 t.delivered q.bank = s.fld FE_RESULT.WORD (s.fld FE_SYSSEL.SYS q.bank)
        ∧ t.fld FE_RESTIME.TIME q.bank = (s.sys (s.fld FE_SYSSEL.SYS q.bank)).wordTime % 2 ^ 32
        ∧ Kept [FE_RESTIME.TIME.key q.bank] s t ∧ t = { s with regs := t.regs, delivered := t.delivered })

/-- O11. GRID_INSTANT brings network time to the coming instant, sets the head-blind bit of each head whose two systems are blind,
and advances the SEQ of exactly the systems with a word. A window closes, a settling ends and an injection ends at the instant
that is due for it. Rows: GRID_INSTANT, WINDOW_CLOSE, SETTLING_END, INJECTION_END. Spec: R54, R71, R79, R85, R86, R102, R104.
Rests on assumption log 31, 32, 62. -/
def Obligations.GridTimers : Prop :=
  ∀ (s : State) (g : GridIn) (k : Fin 32) (i : Fin 64) (j : Injection),
    (s.nowTu ≤ s.comingInstant.2 → s.comingInstant.2 < 2 ^ 64 →
      ∃ t, exec (.gridInstant g) s = .next t ∧ t.nowTu = s.comingInstant.2 ∧ t.gridNext = s.comingInstant.2 + 1
        ∧ t.tb = s.tb + (s.comingInstant.2 - s.nowTu)
        ∧ (∀ h, h < 32 → t.fbit FE_HEADBLIND.HB h = (t.blind (2 * h) && t.blind (2 * h + 1)))
        ∧ (∀ x, x < 64 → s.fld FE_GAIN.RANGE x < 4 →
            t.fld FE_RESULT.WORD x / 2 ^ 24 = if t.isWord x s.comingInstant.1 then (s.fld FE_RESULT.WORD x / 2 ^ 24 + 1) % 256
              else s.fld FE_RESULT.WORD x / 2 ^ 24))
    ∧ (s.window k.val = true → s.opens k.val = false → (s.head k.val).closing ≤ 1 →
      ∃ t, exec (.windowClose k) s = .next t ∧ t.window k.val = false
        ∧ (∀ h, h < 32 → h ≠ k.val → t.window h = s.window h) ∧ Kept [FE_WINDOW.WIN.key 0] s t)
    ∧ ((s.sys i.val).settle = 1 → s.isWord i.val s.comingInstant.1 = true →
      ∃ t, exec (.settlingEnd i) s = .next t ∧ (t.sys i.val).settle = 0 ∧ (t.sys i.val).maskSettle = false)
    ∧ ((s.sys i.val).inj = some j → j.left = 1 → s.isWord i.val s.comingInstant.1 = true →
      ∃ t, exec (.injectionEnd i) s = .next t
        ∧ (t.sys i.val).inj = some { j with left := 0, tail := 9, stop := t.nowTu }
        ∧ (∀ n, n ≠ i.val → t.sys n = s.sys n) ∧ t.regs = s.regs)

/-- O12. An edge of an acquired comparator changes its state and its edge time and no other comparator; an acquisition 50 ms after
its start takes a baseline in span and else sets BASEERR and is tried again after 1 s; a limit step changes BASE and sets
BASEERR. Rows: COMPARATOR_EDGE, BASELINE_ACQUISITION, BASELINE_RETRY, BASELINE_LIMIT. Spec: R140, R144, R145,
03_wheel_detection.md. -/
def Obligations.ComparatorsAndBaselines : Prop :=
  ∀ (s : State) (i : Fin 64) (high : Bool) (env : BitVec 24) (base : BitVec 16) (at_ : Nat),
    let b : Int := ((s.sys i.val).fine : Nat)
    let e : Int := ((env.toNat * 65536 : Nat) : Int)
    let d : Int := if s.fld WD_CMPCFG.POL i.val = 1 then e - b else b - e
    let pres : Prop := (s.fld WD_CMPCFG.PRES i.val : Int) * b ≤ 2000 * d
    let abs : Prop := 2000 * d < (s.fld WD_CMPCFG.ABS i.val : Int) * b
    (s.fld WD_CMPST.ACQ i.val = 1 → s.cmp i.val < 3 →
      (∀ st, (st = 1 ∧ pres) ∨ (st = 0 ∧ ¬ pres ∧ abs) → s.cmp i.val ≠ st →
        ∃ t, exec (.comparatorEdge i env) s = .next t ∧ t.cmp i.val = st
          ∧ t.fld WD_EDGET.TIME i.val = s.nowTu % 2 ^ 32
          ∧ (∀ j, j < 64 → j ≠ i.val → t.cmp j = s.cmp j ∧ t.fld WD_EDGET.TIME j = s.fld WD_EDGET.TIME j))
      ∧ (¬ pres → ¬ abs → exec (.comparatorEdge i env) s = .next s))
    ∧ ((s.sys i.val).acqAt = some at_ → s.baseOk i.val base.toNat = true →
      ∃ t, exec (.baselineAcquisition i base) s = .next t ∧ t.fld WD_CMPST.BASE i.val = base.toNat
        ∧ t.fld WD_CMPST.ACQ i.val = 1 ∧ (t.sys i.val).acqAt = none ∧ t.cmp i.val = s.cmp i.val ∧ at_ + 6250000 ≤ t.tb
        ∧ Kept [WD_CMPST.BASE.key i.val, WD_CMPST.ACQ.key i.val] s t)
    ∧ ((s.sys i.val).acqAt = some at_ → s.baseOk i.val base.toNat = false →
      ∃ t, exec (.baselineAcquisition i base) s = .next t ∧ t.fld WD_STATUS.BASEERR = 1
        ∧ t.fld WD_CMPST.ACQ i.val = s.fld WD_CMPST.ACQ i.val ∧ (t.sys i.val).retryAt = some (at_ + 125000000)
        ∧ t.cmp i.val = s.cmp i.val)
    ∧ ((s.sys i.val).retryAt = some at_ →
      ∃ t, exec (.baselineRetry i) s = .next t ∧ (t.sys i.val).acqAt = some (max s.tb at_) ∧ (t.sys i.val).retryAt = none
        ∧ t.regs = s.regs)
    ∧ (s.fld WD_CMPST.ACQ i.val = 1 → s.cmp i.val = 0 → s.isOpen (i.val / 2) = false →
      exec (.baselineLimit i high) s = .next ((setBase i.val (s.baseLimit i.val high) s).flag WD_STATUS.BASEERR evWD))

/-- O13. A claim without direction or beside a pending one is refused with CLAIMERR; a record in tolerance gives the code of Table
WD-11 and leaves the queue (log 35); none gives NOMATCH, or PENDING while the head is occupied; a head without HEN gives
NOTLOCAL. A pending claim ends as NOMATCH after AGE, and an unclaimed record becomes an orphan and is counted. An access of the
voted Heartwood is stated for one that can vote and is not halted (State.canVote). Rows: CLAIM, CLAIM_TIMEOUT, ORPHAN. Spec:
R152, R153, R156, Table WD-11. Rests on assumption log 35. -/
def Obligations.ClaimsAreResolvedAndAge : Prop :=
  (∀ (s : State) (v : Word) (r : Crossing),
    let k := v.toNat % 32
    let d := v.toNat / 2 ^ 5 % 4
    let h := s.head k
    s.canVote = true →
    ((d = 0 ∨ h.claim.isSome = true) → exec (.claim .hw v) s = .next (s.flag WD_STATUS.CLAIMERR evWD))
    ∧ (d ≠ 0 → h.claim = none → s.fld WD_HCFG.HEN k = 1 →
        h.queue.find? (fun x => s.inTolerance (s.fld WD_CLAIMT.TIME) x) = some r → r.dir ≤ 3 →
      ∃ t, exec (.claim .hw v) s = .next t
        ∧ t.fld WD_CLAIMRES.CODE = (if r.part = true ∨ r.dir = 3 ∨ d = 3 then 1 else if r.dir = d then 0 else 3)
        ∧ t.fld WD_CLAIMRES.RDIR = r.dir ∧ t.fld WD_CLAIMRES.HEAD = k
        ∧ t.fld WD_HCLM.CODE k = t.fld WD_CLAIMRES.CODE ∧ t.fld WD_HCLM.RDIR k = r.dir
        ∧ t.fld WD_HCLM.DUR k = min 0xFFFFFF (r.dur / 1250) ∧ (t.head k).queue = h.queue.erase r)
    ∧ (d ≠ 0 → h.claim = none → s.fld WD_HCFG.HEN k = 1 →
        h.queue.find? (fun x => s.inTolerance (s.fld WD_CLAIMT.TIME) x) = none →
      ∃ t, exec (.claim .hw v) s = .next t ∧ t.fld WD_CLAIMRES.CODE = (if h.phase = 0 then 2 else 4)
        ∧ t.fld WD_CLAIMRES.HEAD = k ∧ (t.head k).queue = h.queue
        ∧ (h.phase ≠ 0 → t.fld WD_HCLM.HELD k = 1 ∧
            (t.head k).claim = some { time := s.fld WD_CLAIMT.TIME, dir := d, since := s.tb }))
    ∧ (d ≠ 0 → h.claim = none → s.fld WD_HCFG.HEN k = 0 →
      ∃ t, exec (.claim .hw v) s = .next t ∧ t.fld WD_CLAIMRES.CODE = 5 ∧ (t.head k) = h))
  ∧ (∀ (s : State) (k : Fin 32) (c : ClaimSt) (r : Crossing) (rest : List Crossing),
    ((s.head k.val).claim = some c →
      ∃ t, exec (.claimTimeout k) s = .next t ∧ t.tb = max s.tb (c.since + s.fld WD_CTRL.AGE * 125000)
        ∧ t.fld WD_HCLM.CODE k.val = 2 ∧ t.fld WD_HCLM.HELD k.val = 0 ∧ t.fld WD_STATUS.CLAIMDONE = 1
        ∧ (t.head k.val).claim = none ∧ (t.head k.val).queue = (s.head k.val).queue)
    ∧ ((s.head k.val).queue = r :: rest →
      ∃ t, exec (.orphan k) s = .next t ∧ t.tb = max s.tb (r.last + s.fld WD_CTRL.AGE * 125000)
        ∧ (t.head k.val).queue = rest ∧ (t.head k.val).claim = (s.head k.val).claim
        ∧ t.fld WD_XCOUNT.ORPHANS = min 0xFFFF (s.fld WD_XCOUNT.ORPHANS + 1)
        ∧ t.fld WD_STATUS.ORPHAN = 1 ∧ t.fld WD_HCLM.CODE k.val = 2 ∧ t.fld WD_HCLM.RDIR k.val = r.dir % 4
        ∧ t.fld WD_HCLM.HELD k.val = s.fld WD_HCLM.HELD k.val))

/-- O14. A round whose two injections have ended sets PA and PB by the verdict of each; both pass gives CPEND, a failure FAIL and
PROOFFAIL. The engine's pass with CPEND restarts the age and clears staleness, its failure sets FAIL. A head in use becomes
stale when its age passes PROOFMAX. An access of the voted Heartwood is stated for one that can vote and is not halted
(State.canVote). Rows: COMPARATOR_PROOF, PROOFENG, PROOF_STALE. Spec: R157, R158, R159, R160, 03_wheel_detection.md. -/
def Obligations.ProofsOfHeads : Prop :=
  (∀ (s : State) (k : Fin 32) (m : Nat) (ja jb : Injection),
    (s.head k.val).rounds = [(m, [2 * k.val, 2 * k.val + 1])] → (s.sys (2 * k.val)).inj = some ja →
      (s.sys (2 * k.val + 1)).inj = some jb → ja.left + ja.tail = 0 → jb.left + jb.tail = 0 →
      ((s.injectionOk (2 * k.val) ja = true → s.injectionOk (2 * k.val + 1) jb = true →
          ∃ t, exec (.comparatorProof k) s = .next t ∧ t.fld WD_PROOF.PA k.val = 1 ∧ t.fld WD_PROOF.PB k.val = 1
            ∧ t.fld WD_PROOF.CPEND k.val = 1 ∧ t.fld WD_PROOF.FAIL k.val = s.fld WD_PROOF.FAIL k.val
            ∧ t.fld WD_PROOF.AGE k.val = s.fld WD_PROOF.AGE k.val)
        ∧ (s.injectionOk (2 * k.val) ja = false → s.injectionOk (2 * k.val + 1) jb = true →
          ∃ t, exec (.comparatorProof k) s = .next t ∧ t.fld WD_PROOF.PA k.val = 0 ∧ t.fld WD_PROOF.PB k.val = 1
            ∧ t.fld WD_PROOF.FAIL k.val = 1 ∧ t.fld WD_STATUS.PROOFFAIL = 1
            ∧ t.fld WD_PROOF.CPEND k.val = s.fld WD_PROOF.CPEND k.val)))
  ∧ (∀ (s : State) (k : Fin 32) (v : Word),
    let h := v.toNat % 32
    (s.canVote = true → v.toNat / 2 ^ 8 % 2 = 1 → s.fld WD_PROOF.CPEND h = 1 →
      ∃ t, exec (.proofeng .hw v) s = .next t ∧ t.fld WD_PROOF.AGE h = 0 ∧ t.proofAge h = 0 ∧ t.fld WD_PROOF.EP h = 1
        ∧ t.fld WD_PROOF.CPEND h = 0 ∧ t.fbit WD_PSTALE.STALE h = false)
    ∧ (s.canVote = true → v.toNat / 2 ^ 8 % 2 = 0 →
      ∃ t, exec (.proofeng .hw v) s = .next t ∧ t.fld WD_PROOF.FAIL h = 1 ∧ t.fld WD_STATUS.PROOFFAIL = 1
        ∧ t.fld WD_PROOF.EP h = 0 ∧ t.fld WD_PROOF.CPEND h = 0 ∧ t.fld WD_PROOF.AGE h = s.fld WD_PROOF.AGE h)
    ∧ (s.fld WD_HCFG.HEN k.val = 1 → s.fbit WD_PSTALE.STALE k.val = false →
      ∃ t, exec (.proofStale k) s = .next t ∧ t.fbit WD_PSTALE.STALE k.val = true ∧ t.fld WD_STATUS.PROOFSTALE = 1
        ∧ (s.fld WD_PROOF.AGE k.val ≠ 0xFFFF →
            (s.head k.val).proofAt + (s.fld WD_CTRL.PROOFMAX * 60 + 1) * 7500000000 ≤ t.tb)))

/-- O15. PASSSET and PASSCLR by the head's primary engine change that bit alone; by another engine they are rejected with PASSREJ. A
WD_HCFG write that changes HEN is held, and taken with the window closed where no phase change may come at that instant (log
173); the change of HEN clears the tally of the head and its passage flag. An access of the voted Heartwood is stated for one
that can vote and is not halted (State.canVote). Rows: PASSSET, PASSCLR, HCFG_WRITE, HEN_CHANGE. Spec: R161, R163, R127,
03_wheel_detection.md. Rests on assumption log 173. -/
def Obligations.PassageFlagsAndHeadConfiguration : Prop :=
  ∀ (s : State) (e : Fin 6) (k : Fin 32) (v : Word),
    (s.fld GR_HPLACE.PRIM k.val = e.val →
      (∃ t, exec (.passset (.se e) (BitVec.ofNat 32 (2 ^ k.val))) s = .next t ∧ t.passage k.val = true
        ∧ (∀ h, h < 32 → h ≠ k.val → t.passage h = s.passage h) ∧ Kept [WD_PASS.PASS.key 0] s t ∧ t = { s with regs := t.regs })
      ∧ (∃ t, exec (.passclr (.se e) (BitVec.ofNat 32 (2 ^ k.val))) s = .next t ∧ t.passage k.val = false
        ∧ (∀ h, h < 32 → h ≠ k.val → t.passage h = s.passage h) ∧ Kept [WD_PASS.PASS.key 0] s t ∧ t = { s with regs := t.regs }))
    ∧ (s.fld GR_HPLACE.PRIM k.val ≠ e.val →
      exec (.passset (.se e) (BitVec.ofNat 32 (2 ^ k.val))) s = .next ((s.reject (.se e)).flag WD_STATUS.PASSREJ evWD))
    ∧ (s.canVote = true → v.toNat / 2 ^ 12 % 16 ≤ 8 → 20 ≤ v.toNat / 2 ^ 16 % 256 → v.toNat / 2 ^ 11 % 2 ≠ s.fld WD_HCFG.HEN k.val →
      exec (.hcfgWrite .hw k v) s = .next (s.modHead k.val (fun h => { h with cfg := some v.toNat })))
    ∧ ((s.head k.val).cfg = some v.toNat → s.opens k.val = false → (s.head k.val).closing ≤ 1 → s.phaseNext k.val = false →
      ∃ t, exec (.henChange k) s = .next t ∧ t.fld WD_HCFG.HEN k.val = v.toNat / 2 ^ 11 % 2
        ∧ t.fld WD_HCFG.POINT k.val = v.toNat % 2 ^ 11 ∧ (t.head k.val).cfg = none
        ∧ (s.fld WD_HCFG.HEN k.val ≠ v.toNat / 2 ^ 11 % 2 →
            (t.head k.val).phase = 0 ∧ (t.head k.val).queue = [] ∧ (t.head k.val).armed = false
              ∧ t.passage k.val = false ∧ t.fld WD_XCOUNT.ORPHANS = s.fld WD_XCOUNT.ORPHANS))

/-- O16. A 16-byte push of an engine into its local ring, and of the DMA into its remote ring, stores exactly its 16 bytes at the
slot of the write index and advances it; a full ring or an inactive bobbin drops and counts it; any other access to the areas,
or one of a block with SHADOW set (log 146), is rejected. A push into the origin and shadow rings does the same; only an event
of a shadowed head changes its matching. For every value written, a voted acknowledgement of either inbound ring or both, of the
origin ring and of the shadow ring completes: within the entries present it moves the read indices named, beyond them it sets
CFGERR, and that of a bobbin locked by another waits. Nothing else changes. An access of the voted Heartwood is stated for one
that can vote and is not halted (State.canVote). Rows: INBOUND_PUSH, ORIGIN_PUSH, SHADOW_PUSH, INBACK, ORIGIN_ACK, SHADOW_ACK.
Spec: R170, R171, R313, R610, 04_sections_and_counting.md. Rests on assumption log 87, 146. -/
def Obligations.RingsArePushedAndAcknowledged : Prop :=
  (∀ (s : State) (e : Fin 6) (a : BitVec 18) (n : Fin 17) (v : Block),
    let b := a.toNat / 0x400
    let off := a.toNat % 0x400
    let wi := s.fld BB_INB.LWI b
    let full := (wi + 32 - s.fld BB_INB.LRI b) % 32 = 16
    let k := 0x28000000 + b * 0x400 + 0x200 + wi % 16 * 16
    let wr := s.fld BB_INB.RWI b
    let rfull := (wr + 32 - s.fld BB_INB.RRI b) % 32 = 16
    let kr := 0x28000000 + b * 0x400 + 0x300 + wr % 16 * 16
    (off % 16 = 0 → 0x200 ≤ off → off < 0x300 → v.getLsbD 127 = false →
      (s.fld BB_CFG.ACTIVE b = 1 → ¬ full →
        ∃ t, exec (.inboundPush (.se e) a 16 v) s = .next t
          ∧ (∀ x, x < 16 → t.byte (k + x) = BitVec.ofNat 8 (v.toNat / 256 ^ x))
          ∧ (∀ x, x < k ∨ k + 16 ≤ x → t.byte x = s.byte x)
          ∧ t.fld BB_INB.LWI b = (wi + 1) % 32 ∧ Kept [BB_INB.LWI.key b] s t
          ∧ t = { s with regs := t.regs, mem := t.mem, errs := t.errs })
      ∧ (s.fld BB_CFG.ACTIVE b = 0 →
        exec (.inboundPush (.se e) a 16 v) s = .next ((s.countFld BB_DROP.INACT b 1).flag BB_STATUS.INACTIVE evBB))
      ∧ (s.fld BB_CFG.ACTIVE b = 1 → full →
        exec (.inboundPush (.se e) a 16 v) s = .next ((s.countFld BB_DROP.FULL b 1).flag BB_STATUS.RINGFULL evBB)))
    ∧ (n ≠ 16 ∨ off % 16 ≠ 0 ∨ off < 0x200 ∨ 0x300 ≤ off ∨ v.getLsbD 127 = true →
        exec (.inboundPush (.se e) a n v) s = .next (s.reject (.se e)))
    ∧ (off % 16 = 0 → 0x300 ≤ off → v.getLsbD 127 = false →
      (s.fld BB_CFG.ACTIVE b = 1 → ¬ rfull →
        ∃ t, exec (.inboundPush .dma a 16 v) s = .next t
          ∧ (∀ x, x < 16 → t.byte (kr + x) = BitVec.ofNat 8 (v.toNat / 256 ^ x))
          ∧ (∀ x, x < kr ∨ kr + 16 ≤ x → t.byte x = s.byte x)
          ∧ t.fld BB_INB.RWI b = (wr + 1) % 32 ∧ Kept [BB_INB.RWI.key b] s t
          ∧ t = { s with regs := t.regs, mem := t.mem, errs := t.errs })
      ∧ (s.fld BB_CFG.ACTIVE b = 0 →
        exec (.inboundPush .dma a 16 v) s = .next ((s.countFld BB_DROP.INACT b 1).flag BB_STATUS.INACTIVE evBB))
      ∧ (s.fld BB_CFG.ACTIVE b = 1 → rfull →
        exec (.inboundPush .dma a 16 v) s = .next ((s.countFld BB_DROP.FULL b 1).flag BB_STATUS.RINGFULL evBB)))
    ∧ (n ≠ 16 ∨ off % 16 ≠ 0 ∨ off < 0x300 ∨ v.getLsbD 127 = true → exec (.inboundPush .dma a n v) s = .next (s.reject .dma)))
  ∧ (∀ (s : State) (e : Fin 6) (v : Block),
    let wo := s.fld BB_ORIGIDX.WI
    let ko := s.fld BB_ORIGBASE.BASE + wo % 64 * 16
    let ws := s.fld GR_SHIDX.WI
    let ks := s.fld GR_SHBASE.BASE + ws % 32 * 16
    let alone := ∀ k, k < 32 → s.fld WD_HCFG.HEN k = 1 → s.fld WD_HCFG.POINT k = v.toNat % 2048 → s.fld GR_HPLACE.SHAD k = 7
    ((wo + 128 - s.fld BB_ORIGIDX.RI) % 128 ≠ 64 → 0x20000000 ≤ ko → ko + 16 ≤ 0x20200000 →
      ∃ t, exec (.originPush e v) s = .next t ∧ t.fld BB_ORIGIDX.WI = (wo + 1) % 128
        ∧ (∀ x, x < 16 → t.byte (ko + x) = BitVec.ofNat 8 (v.toNat / 256 ^ x))
        ∧ (∀ x, x < ko ∨ ko + 16 ≤ x → t.byte x = s.byte x)
        ∧ Kept [BB_ORIGIDX.WI.key 0] s t ∧ t = { s with regs := t.regs, mem := t.mem, errs := t.errs, heads := t.heads }
        ∧ (v.toNat / 2 ^ 11 % 4 ≠ 0 → alone → t.heads = s.heads))
    ∧ ((wo + 128 - s.fld BB_ORIGIDX.RI) % 128 = 64 →
      exec (.originPush e v) s = .next ((s.countFld BB_ORIGIDX.DROP 0 1).flag BB_STATUS.ORIGFULL evBB))
    ∧ ((ws + 64 - s.fld GR_SHIDX.RI) % 64 ≠ 32 → 0x20000000 ≤ ks → ks + 16 ≤ 0x20200000 →
      ∃ t, exec (.shadowPush e v) s = .next t ∧ t.fld GR_SHIDX.WI = (ws + 1) % 64
        ∧ (∀ x, x < 15 → t.byte (ks + x) = BitVec.ofNat 8 (v.toNat / 256 ^ x))
        ∧ t.byte (ks + 15) = BitVec.ofNat 8 (v.toNat / 256 ^ 15) ||| 0x80#8
        ∧ (∀ x, x < ks ∨ ks + 16 ≤ x → t.byte x = s.byte x)
        ∧ Kept [GR_SHIDX.WI.key 0] s t ∧ t = { s with regs := t.regs, mem := t.mem, errs := t.errs, heads := t.heads }
        ∧ (alone → t.heads = s.heads))
    ∧ ((ws + 64 - s.fld GR_SHIDX.RI) % 64 = 32 →
      exec (.shadowPush e v) s = .next ((s.countFld GR_SHIDX.DROP 0 1).flag GR_STATUS.SHDROP evGR)))
  ∧ (∀ (s : State) (v : Word),
    let b := s.fld BB_BOBSEL.BOB 11
    let l := v.toNat % 32
    let r := v.toNat / 2 ^ 5 % 32
    let ls := v.toNat / 2 ^ 10 % 2 = 1
    let rs := v.toNat / 2 ^ 11 % 2 = 1
    let lok := (l + 32 - s.fld BB_INB.LRI b) % 32 ≤ (s.fld BB_INB.LWI b + 32 - s.fld BB_INB.LRI b) % 32
    let rok := (r + 32 - s.fld BB_INB.RRI b) % 32 ≤ (s.fld BB_INB.RWI b + 32 - s.fld BB_INB.RRI b) % 32
    let o := v.toNat / 2 ^ 7 % 128
    let h := GR_SHIDX.RI.of v.toNat
    let ook := (o + 128 - s.fld BB_ORIGIDX.RI) % 128 ≤ (s.fld BB_ORIGIDX.WI + 128 - s.fld BB_ORIGIDX.RI) % 128
    let hok := (h + 64 - s.fld GR_SHIDX.RI) % 64 ≤ (s.fld GR_SHIDX.WI + 64 - s.fld GR_SHIDX.RI) % 64
    s.canVote = true →
    (s.lockedFor .hw b = false →
      ((ls → lok) → (rs → rok) →
        ∃ t, exec (.inback .hw v) s = .next t ∧ (ls → t.fld BB_INB.LRI b = l) ∧ (¬ ls → t.fld BB_INB.LRI b = s.fld BB_INB.LRI b)
          ∧ (rs → t.fld BB_INB.RRI b = r) ∧ (¬ rs → t.fld BB_INB.RRI b = s.fld BB_INB.RRI b)
          ∧ Kept [BB_INB.LRI.key b, BB_INB.RRI.key b] s t ∧ t = { s with regs := t.regs })
      ∧ ((ls ∧ ¬ lok) ∨ (rs ∧ ¬ rok) → exec (.inback .hw v) s = .next (s.flag BB_STATUS.CFGERR evBB)))
    ∧ (s.lockedFor .hw b = true → exec (.inback .hw v) s = .next s)
    ∧ (ook →
      ∃ t, exec (.originAck .hw v) s = .next t ∧ t.fld BB_ORIGIDX.RI = o ∧ Kept [BB_ORIGIDX.RI.key 0] s t
        ∧ t = { s with regs := t.regs })
    ∧ (¬ ook → exec (.originAck .hw v) s = .next (s.flag BB_STATUS.CFGERR evBB))
    ∧ (hok →
      ∃ t, exec (.shadowAck .hw v) s = .next t ∧ t.fld GR_SHIDX.RI = h ∧ Kept [GR_SHIDX.RI.key 0] s t
        ∧ t = { s with regs := t.regs })
    ∧ (¬ hok → exec (.shadowAck .hw v) s = .next (s.flag GR_STATUS.CFGERR evGR)))

/-- O17. A free lock above every lock held is granted with its owner shown; one not above them is refused with LOCKORD; its holder
alone releases it (else LOCKREL); a freed lock goes to the next waiting host; a host that holds one for LOCKMAX loses it and is
masked. No other lock and no other register changes. An access of the voted Heartwood is stated for one that can vote and is not
halted (State.canVote). Rows: LOCK, UNLOCK, LOCK_GRANT, LOCK_BREAK. Spec: R204, R205, R206, R208, R450. -/
def Obligations.BobbinLocks : Prop :=
  ∀ (s : State) (b : BitVec 8) (p : Fin 3) (l : LockSt),
    (s.canVote = true → s.lockOf b.toNat = none → (s.heldBy .hw).length < 8 → (∀ x ∈ s.heldBy .hw, x < b.toNat) →
        (∀ w ∈ s.lockWait, w.bob ≠ b.toNat) →
      ∃ t, exec (.lock .hw b) s = .next t ∧ t.lockOf b.toNat = some { who := .hw, since := s.tb }
        ∧ t.fld BB_LOCKOWN.OWNER b.toNat = 12 ∧ (∀ x, x ≠ b.toNat → t.lockOf x = s.lockOf x)
        ∧ Kept [BB_LOCKOWN.OWNER.key b.toNat] s t)
    ∧ (s.canVote = true → (∃ x ∈ s.heldBy .hw, b.toNat ≤ x) → s.waitsLock .hw b.toNat = false →
      exec (.lock .hw b) s = .next (writeFault .hw 4 (0x30000000 + BB_LOCK.addr) (s.flag BB_STATUS.LOCKORD evBB)))
    ∧ (s.canVote = true → s.lockOf b.toNat = some l → l.who = .hw →
      ∃ t, exec (.unlock .hw b) s = .next t ∧ t.lockOf b.toNat = none ∧ t.fld BB_LOCKOWN.OWNER b.toNat = 15
        ∧ (∀ x, x ≠ b.toNat → t.lockOf x = s.lockOf x) ∧ Kept [BB_LOCKOWN.OWNER.key b.toNat] s t)
    ∧ (s.canVote = true → s.lockOf b.toNat = some l → l.who ≠ .hw → exec (.unlock .hw b) s = .next (s.flag BB_STATUS.LOCKREL evBB))
    ∧ (s.lockOf b.toNat = none → s.nextWaiter b.toNat = some (.host p) → s.fld (mapHost p.val) < 16 →
      ∃ t, exec (.lockGrant b) s = .next t ∧ t.lockOf b.toNat = some { who := .host p, since := s.tb }
        ∧ t.fld BB_LOCKOWN.OWNER b.toNat = s.fld (mapHost p.val) ∧ (t.port p.val).acc = none
        ∧ Kept [BB_LOCKOWN.OWNER.key b.toNat, MI_ILONG.LONG.key (s.fld (mapHost p.val))] s t)
    ∧ (s.heldBy (.host p) = [b.toNat] → s.lockOf b.toNat = some l → l.who = .host p → s.tb ≤ l.since + s.fld BB_CTRL.LOCKMAX * 125 →
        l.since ≤ s.tb → s.fld (mapHost p.val) < 13 →
      ∃ t, exec (.lockBreak false p) s = .next t ∧ t.lockOf b.toNat = none ∧ t.tb = l.since + s.fld BB_CTRL.LOCKMAX * 125
        ∧ t.fld BB_STATUS.LOCKBRK = 1 ∧ t.fld MI_STATUS.LOCKWD = 1 ∧ t.masked (.host p) = true)
    ∧ (∀ c, s.heldBy .dma = [c] → s.lockOf c = some l → l.who = .dma → l.since ≤ s.tb → s.waitsForLock .dma = true → s.rxHeld ≠ [] →
      ∃ t, exec (.lockBreak true p) s = .next t ∧ t.lockOf c = none ∧ t.rxHeld = [] ∧ t.rxq = s.rxq ∧ t.fld BB_STATUS.LOCKBRK = 1
        ∧ (∀ w ∈ t.lockWait, w.who ≠ .dma))

/-- O18. An agreed value of BB_CMD is taken once: an invalid code gives result 7, a bobbin that takes no commands 6, a full queue or
a bobbin with a queued command 5, and otherwise it is queued with result 1. CMDPOP removes the oldest; CMDDONE with result 2 to
4 writes BB_CMDRES and signals the three ports, any other result sets CFGERR. An access of the voted Heartwood is stated for one
that can vote and is not halted (State.canVote). Rows: PREPARATORY_RESET, CONDITIONAL_RESET, DIRECT_RESET,
CANCEL_RESET_PROCEDURE, FINGERPRINT_CLEARANCE, OPERATOR_COMMAND, INVALID_COMMAND, CMDPOP, CMDDONE. Spec: R194, R195, Table BB-8.
Rests on assumption log 37. -/
def Obligations.AgreedCommandsAreQueuedAndServed : Prop :=
  (∀ (s : State) (v : Nat),
    let b := v % 256
    let code := v / 2 ^ 8 % 16
    let tag := v / 2 ^ 16 % 2 ^ 16
    let c : Instr := if code = 1 then .preparatoryReset else if code = 2 then .conditionalReset else if code = 3 then .directReset
      else if code = 4 then .cancelResetProcedure else if code = 5 then .fingerprintClearance
      else if 8 ≤ code ∧ code ≤ 11 then .operatorCommand else .invalidCommand
    let valid := (1 ≤ code ∧ code ≤ 5) ∨ (8 ≤ code ∧ code ≤ 11)
    s.agreed.find? (fun p => p.1 == BB_CMD.addr) = some (BB_CMD.addr, v) →
      ∃ t, exec c s = .next t ∧ t.agreed = s.agreed.erase (BB_CMD.addr, v)
        ∧ t.fld BB_CMDRES.BOB = b ∧ t.fld BB_CMDRES.CODE = code ∧ t.fld BB_CMDRES.TAG = tag
        ∧ (¬ valid → t.fld BB_CMDRES.RESULT = 7 ∧ t.cmds = s.cmds)
        ∧ (valid → s.takesCommands b = false → t.fld BB_CMDRES.RESULT = 6 ∧ t.cmds = s.cmds)
        ∧ (valid → s.takesCommands b = true → (8 ≤ s.cmds.length ∨ ∃ x ∈ s.cmds, x.bob = b) →
            t.fld BB_CMDRES.RESULT = 5 ∧ t.cmds = s.cmds)
        ∧ (valid → s.takesCommands b = true → s.cmds.length < 8 → (∀ x ∈ s.cmds, x.bob ≠ b) →
            t.fld BB_CMDRES.RESULT = 1 ∧ t.cmds = s.cmds ++ [{ bob := b, code := code, tag := tag }]))
  ∧ (∀ (s : State) (v : Word),
    s.canVote = true →
    exec (.cmdpop .hw v) s = .next { s with cmds := s.cmds.tail }
    ∧ (2 ≤ v.toNat / 2 ^ 12 % 16 ∧ v.toNat / 2 ^ 12 % 16 ≤ 4 →
      ∃ t, exec (.cmddone .hw v) s = .next t ∧ t.fld BB_CMDRES.BOB = v.toNat % 2 ^ 8
        ∧ t.fld BB_CMDRES.CODE = v.toNat / 2 ^ 8 % 16 ∧ t.fld BB_CMDRES.RESULT = v.toNat / 2 ^ 12 % 16
        ∧ t.fld BB_CMDRES.TAG = v.toNat / 2 ^ 16 ∧ t.fld BB_STATUS.CMDDONE = 1
        ∧ (∀ p : Fin 3, t.fld HP_PSTATUS.CMD p.val = 1) ∧ t.cmds = s.cmds)
    ∧ (¬ (2 ≤ v.toNat / 2 ^ 12 % 16 ∧ v.toNat / 2 ^ 12 % 16 ≤ 4) →
      exec (.cmddone .hw v) s = .next (s.flag BB_STATUS.CFGERR evBB)))

/-- O19. A match of a bobbin runs with BUSY 1 and will give INACTIVE, NOSET, BROKEN or uneven, TIMEQ, or one of the outcomes of the
comparison, in that order; its completion writes FP_RESULT and FP_DETAIL (log 38: the result is computed at the start). An
evaluation of an active bobbin by the voted Heartwood, with no lock held and none left unfinished, takes every entry of the
origin ring and no time. An access of the voted Heartwood is stated for one that can vote and is not halted (State.canVote).
Rows: CLEARANCE_MATCH, LOCALISATION_MATCH, MATCH_COMPLETE, EVALUATION. Spec: R191, R220, R223, R226, R610, 05_fingerprints.md.
Rests on assumption log 38. -/
def Obligations.FingerprintMatchesAndEvaluation : Prop :=
  (∀ (s : State) (b : BitVec 8) (m : Match),
    let h := s.rdW (0x28000000 + b.toNat * 0x400 + 0x100)
    let tbl := s.rdW (0x28000000 + b.toNat * 0x400 + 0x14) / 2 ^ 5 % 8
    let rmt := h / 2 ^ 16 % 2 = 1
    let noset := s.fld FP_TOLA.SETLO tbl % 2 = 0 ∨ (rmt ∧ s.fld FP_TOLA.SETLO tbl / 4 % 2 = 0)
    let broken := h / 2 ^ 15 % 2 = 1 ∨ h / 2 ^ 12 % 2 = 1 ∨ h / 2 ^ 13 % 2 = 1
    let uneven := h % 64 ≠ h / 64 % 64 ∨ h % 64 < s.fld FP_TOLA.SETLO tbl / 2 ^ 24 % 64
    let timeq := rmt ∧ (h / 2 ^ 14 % 2 = 1 ∨ s.fld TM_STATUS.TQLOW = 1)
    (s.canVote = true → s.fp = none →
      (∃ t m', exec (.clearanceMatch .hw b) s = .next t ∧ t.fp = some m' ∧ t.fld FP_RESULT.BUSY = 1 ∧ m'.mode = 0
        ∧ m'.result / 16 % 256 = b.toNat ∧ Kept [FP_RESULT.BUSY.key 0] s t
        ∧ (s.fld BB_CFG.ACTIVE b.toNat ≠ 1 → m'.result % 16 = 9 ∧ m'.detail = 0)
        ∧ (s.fld BB_CFG.ACTIVE b.toNat = 1 → noset → m'.result % 16 = 8 ∧ m'.detail = 0)
        ∧ (s.fld BB_CFG.ACTIVE b.toNat = 1 → ¬ noset → broken ∨ uneven → m'.result % 16 = 5 ∧ m'.detail = 0)
        ∧ (s.fld BB_CFG.ACTIVE b.toNat = 1 → ¬ noset → ¬ (broken ∨ uneven) → timeq → m'.result % 16 = 6 ∧ m'.detail = 0)
        ∧ (s.fld BB_CFG.ACTIVE b.toNat = 1 → ¬ noset → ¬ (broken ∨ uneven) → ¬ timeq → m'.result % 16 ∈ [0, 1, 2, 7]))
      ∧ (∃ t m', exec (.localisationMatch .hw b) s = .next t ∧ t.fp = some m' ∧ t.fld FP_RESULT.BUSY = 1 ∧ m'.mode = 1
        ∧ Kept [FP_RESULT.BUSY.key 0] s t
        ∧ (s.fld BB_CFG.ACTIVE b.toNat ≠ 1 → m'.result % 16 = 9 ∧ m'.detail = 0)
        ∧ (s.fld BB_CFG.ACTIVE b.toNat = 1 → ¬ noset → ¬ broken → ¬ timeq → m'.result % 16 ∈ [0, 2, 3, 4])))
    ∧ (s.fp = some m →
      ∃ t, exec .matchComplete s = .next t ∧ t.fp = none ∧ t.fld FP_RESULT.BUSY = 0 ∧ t.fld FP_RESULT.CODE = m.result % 16
        ∧ t.fld FP_RESULT.BOB = m.result / 2 ^ 4 % 2 ^ 8 ∧ t.fld FP_RESULT.POS = m.result / 2 ^ 12 % 2 ^ 6
        ∧ t.fld FP_DETAIL.NPAIR = m.detail % 2 ^ 8 ∧ t.fld FP_DETAIL.NUNKU = m.detail / 2 ^ 24 % 2 ^ 8
        ∧ (m.result % 16 ≤ 1 → t.fld FP_STATUS.CONF = 1)))
  ∧ (∀ (s : State) (b : BitVec 8),
    s.fld BB_CFG.ACTIVE b.toNat = 1 → s.canVote = true → s.locks = [] → s.lockWait = [] → s.evalRest = [] →
      ∃ t, exec (.evaluation b) s = .next t ∧ t.fld BB_ORIGIDX.RI = s.fld BB_ORIGIDX.WI % 128 ∧ t.now = s.now ∧ t.tb = s.tb)

/-- O20. A valid Sync records its offset within the bound of the integral term and moves ACQUIRE, EPOCH and DEGRADED to LOCKED after
LOCKN Syncs within LOCKLIM, HOLDOVER back to ACQUIRE within STEPTHR unless its step is due (the terms of the servo hold then),
LOCKED to DEGRADED after STEPCONF beyond OFFLIM. Holdover starts after HOLDTO cycles without Sync, TQLOW follows when EST passes
CORRLIM, and a ranked node becomes master after its share of ANNTO. Rows: SYNC_RECEIVED, HOLDOVER_ENTRY, HOLDOVER_QUALITY_LOSS,
MASTER_TAKEOVER. Spec: R245, R246, R247, R251, R252, R253, R240. Rests on assumption log 51, 52. -/
def Obligations.SyncsAndHoldover : Prop :=
  (∀ (s : State) (src : BitVec 10) (p : Fin 6) (dom : BitVec 8) (j : BitVec 10) (safe : Bool) (o : Int),
    let held := s.time.tq = 3 ∧ (s.fld TM_SERVO.STEPTHR * 125 < o.natAbs ∨ s.time.stepDue = true)
    (safe = false ∨ s.ownsSlot j.toNat src.toNat = false ∨ dom.toNat ≠ s.fld TM_PROF.DOMAIN ∨ s.time.follow ≠ some src.toNat →
      exec (.syncReceived src p dom ⟨j, safe, o⟩) s = .next s)
    ∧ (s.syncValid src.toNat p.val dom.toNat j.toNat safe = true → s.time.tq ≠ 5 →
      ∃ t, exec (.syncReceived src p dom ⟨j, safe, o⟩) s = .next t ∧ t.time.off = o ∧ t.now = s.now ∧ t.tb = s.tb
        ∧ (¬ held → t.time.integ.natAbs ≤ 200000) ∧ (held → t.time.integ = s.time.integ ∧ t.fld TM_OSC.RATE = s.fld TM_OSC.RATE)
        ∧ t.time.lastSync = s.cycle
        ∧ t.fld TM_QUAL.OFFSET = ((max (-32767) (min 32767 o)) % 65536).toNat
        ∧ (s.time.tq ∈ [1, 4, 6] → o.natAbs ≤ s.fld TM_LIM.LOCKLIM → s.fld TM_CTRL.LOCKN ≤ s.time.lockRun + 1 → t.time.tq = 2)
        ∧ (s.time.tq ∈ [1, 4, 6] → s.fld TM_LIM.LOCKLIM < o.natAbs → 0 < s.fld TM_CTRL.LOCKN → t.time.tq = s.time.tq)
        ∧ (s.time.tq = 3 → s.time.stepDue = false → o.natAbs ≤ s.fld TM_SERVO.STEPTHR * 125 → t.time.tq = 1)
        ∧ (s.time.tq = 3 → s.time.stepDue = false → s.fld TM_SERVO.STEPTHR * 125 < o.natAbs →
            t.time.tq = 3 ∧ (t.time.stepDue = true ↔ s.fld TM_CTRL.STEPCONF ≤ s.time.stepRun + 1))
        ∧ (s.time.tq = 2 → s.fld TM_LIM.OFFLIM * 8 < o.natAbs → o.natAbs ≤ s.fld TM_SERVO.STEPTHR * 125 →
            s.fld TM_CTRL.STEPCONF ≤ s.time.offRun + 1 → t.time.tq = 6 ∧ t.fld TM_STATUS.OFFEXC = 1)))
  ∧ (∀ (s : State) (r : Nat),
    (s.time.tq ∈ [1, 2, 4, 6] → s.time.lastSync + s.fld TM_CTRL.HOLDTO ≤ s.cycle →
      ∃ t, exec .holdoverEntry s = .next t ∧ t.time.tq = 3 ∧ t.time.holdAt = s.tb ∧ t.time.holdEst = s.est
        ∧ t.time.integ = s.time.integ ∧ t.fld TM_STATUS.HOLDIN = 1
        ∧ t.fld TM_HOLD.HOLDN = min 255 (s.fld TM_HOLD.HOLDN + 1) ∧ t.now = s.now)
    ∧ (s.time.tq = 3 → s.fld TM_OSC.HOLDRATE ≠ 0 → s.fld TM_LIM.CORRLIM ≤ 12500 →
      ∃ t, exec .holdoverQualityLoss s = .next t ∧ t.fld TM_STATUS.TQLOW = 1 ∧ s.fld TM_LIM.CORRLIM < t.est ∧ t.time = s.time)
    ∧ (s.rank = some r → s.time.tq ≠ 5 → s.time.lastAnn + (r + 1) * s.fld TM_CTRL.ANNTO ≤ s.cycle →
      ∃ t, exec .masterTakeover s = .next t ∧ t.time.tq = 5 ∧ t.est = 0 ∧ t.time.epoch = s.time.epoch ∧ t.now = s.now
        ∧ t.fld TM_MASTER.MNODE = s.fld ID_NODE.NODE % 2 ^ 10 ∧ t.fld TM_MASTER.MRANK = r ∧ t.fld TM_MASTER.VALID = 1
        ∧ t.time.follow = none ∧ s.nowTu < t.time.masterFrom ∧ (∃ n, t.time.masterFrom = n * s.cycleLen)))

/-- O21. A read of TM_NOWLO delivers the low word and latches the high word, epoch and state in the reader's copy alone. A compare
armed for a time to come waits, one for a time that has passed signals at once, and a due one signals event 13 to its engine at
its time; the debugger has none. Rows: NOW_READ, COMPARE_ARM, COMPARE. Spec: R233, R263. Rests on assumption log 10, 50. -/
def Obligations.NowReadAndCompares : Prop :=
  (∀ (s : State) (q : Req), s.absent q = false → s.time.epoch < 16 → s.time.tq < 8 →
    ∃ t, exec (.nowRead q) s = .next t ∧ Tab.get 0 t.delivered q.bank = s.now.toNat % 2 ^ 32
      ∧ t.fld TM_NOWHI.THI q.bank = s.now.toNat / 2 ^ 32 ∧ t.fld TM_NOWX.EPOCH q.bank = s.time.epoch
      ∧ t.fld TM_NOWX.STATE q.bank = s.time.tq ∧ t.fld TM_NOWX.TQLOW q.bank = (if s.belowLimit then 1 else 0)
      ∧ Kept [TM_NOWHI.THI.key q.bank, TM_NOWX.EPOCH.key q.bank, TM_NOWX.STATE.key q.bank, TM_NOWX.TQLOW.key q.bank] s t
      ∧ t = { s with regs := t.regs, delivered := t.delivered })
  ∧ (∀ (s : State) (v : Word),
    let d := tdiff (s.fld TM_CMPT.TIME 4) s.nowTu
    (v.toNat % 16 = s.time.epoch → 0 < d →
      ∃ t, exec (.compareArm .root v) s = .next t ∧ t.fld TM_CMPC.ARM 4 = 1 ∧ t.fld TM_CMPC.EPOCH 4 = s.time.epoch
        ∧ Kept [TM_CMPC.ARM.key 4, TM_CMPC.EPOCH.key 4] s t ∧ t = { s with regs := t.regs })
    ∧ (v.toNat % 16 = s.time.epoch → d ≤ 0 →
      ∃ t, exec (.compareArm .root v) s = .next t ∧ t.fld TM_CMPC.ARM 4 = 0 ∧ (t.eng 9).pend.getLsbD 13 = true)
    ∧ (s.fld TM_CMPC.ARM 4 = 1 → s.fld TM_CMPC.EPOCH 4 = s.time.epoch →
      ∃ t, exec (.compare .root) s = .next t ∧ t.fld TM_CMPC.ARM 4 = 0 ∧ (t.eng 9).pend.getLsbD 13 = true
        ∧ t.tb = s.tb + d.toNat ∧ t.now = s.now + BitVec.ofNat 64 d.toNat)
    ∧ exec (.compareArm .dbg v) s = .next (s.reject .dbg))

/-- O22. Arming with a valid action, epoch and lead arms the channel, anything else is refused with LREF; disarming before the time
frees it; a copy fault stops it and tells the Heartwood. A due launch applies the staged excitation, starts the injection,
signals event 14, or moves the grid phase while RUN is 0; in EPOCH every due launch is held and has no effect. An access of the
voted Heartwood is stated for one that can vote and is not halted (State.canVote). Rows: LAUNCH_ARM, LAUNCH_DISARM,
LAUNCH_COPY_FAULT, EXCITE, INJECT, EVENT, GRID, OUTPUT. Spec: R256, R258, R259, R262, R264, Table TM-4. -/
def Obligations.LaunchesAreArmedAndFire : Prop :=
  (∀ (s : State) (c : Fin 16) (v : Word),
    let act := v.toNat % 8
    let lo := s.fld TM_LTGTLO.TGT c.val
    let hi := s.fld TM_LTGTHI.TGT c.val
    let ok := ((act = 1 ∨ act = 2) ∨ (act = 3 ∧ lo = 0 ∧ hi = 0) ∨ (act = 4 ∧ lo < 2 ^ 16 ∧ hi = 0) ∨ (act = 5 ∧ lo < 2 ^ 8 ∧ hi = 0))
      ∧ v.toNat / 2 ^ 4 % 16 = s.time.epoch
      ∧ ((s.fld TM_CTRL.LEAD * 1250 : Nat) : Int) ≤ tdiff (s.fld TM_LTIME.TIME c.val) s.nowTu
    (s.canVote = true → s.lst c.val ≠ 1 →
      ∃ t, exec (.launchArm .hw c v) s = .next t ∧ t.fld TM_LCFG.ACTION c.val = act
        ∧ t.fld TM_LCFG.EPOCH c.val = v.toNat / 2 ^ 4 % 16
        ∧ (ok → t.lst c.val = 1 ∧ t.fld TM_LCFG.ARM c.val = 1 ∧ t.fld TM_STATUS.LREF = s.fld TM_STATUS.LREF)
        ∧ (¬ ok → t.lst c.val = 4 ∧ t.fld TM_LCFG.ARM c.val = 0 ∧ t.fld TM_STATUS.LREF = 1))
    ∧ (s.canVote = true → s.lst c.val = 2 ∨ (s.lst c.val = 1 ∧ 0 < tdiff (s.fld TM_LTIME.TIME c.val) s.nowTu) →
      ∃ t, exec (.launchDisarm .hw c v) s = .next t ∧ t.lst c.val = 0 ∧ t.fld TM_LCFG.ARM c.val = 0
        ∧ (∀ d : Fin 16, d ≠ c → t.lst d.val = s.lst d.val))
    ∧ (∃ t, exec (.launchCopyFault c) s = .next t ∧ t.lst c.val = 6 ∧ t.fld TM_STATUS.LFAULT = 1 ∧ t.fld HW_EXTFLT.SRC = 1
        ∧ t.fld HW_EXTFLT.INDEX = c.val ∧ t.fld HW_STATUS.EXTFLT = 1))
  ∧ (∀ (s : State) (c : Fin 16) (i : Fin 64) (k : Fin 6) (e : Exc),
    let lo := s.fld TM_LTGTLO.TGT c.val
    let hi := s.fld TM_LTGTHI.TGT c.val
    s.time.tq ≠ 4 →
      (s.fireable c.val 1 = true → (targetSystems lo hi).contains i.val = true → (s.sys i.val).staged = some e →
        ∃ t, exec (.excite c) s = .next t ∧ t.lst c.val = 3 ∧ (t.sys i.val).due = some e ∧ (t.sys i.val).staged = none)
      ∧ (s.fireable c.val 2 = true → (targetSystems lo hi).contains i.val = true → s.fld FE_TEST.ARM i.val = 1 →
        ∃ t, exec (.inject c) s = .next t ∧ t.lst c.val = 3 ∧ (t.sys i.val).injDue.isSome = true ∧ t.fld FE_TEST.ARM i.val = 0)
      ∧ (s.fireable c.val 5 = true → lo.testBit (k.val + 2) = true → lo.testBit 1 = true →
        ∃ t, exec (.event c) s = .next t ∧ t.lst c.val = 3 ∧ (t.eng (3 + k.val)).pend.getLsbD 14 = true
          ∧ (t.eng 9).pend.getLsbD 14 = true)
      ∧ (s.fireable c.val 3 = true → s.fld FE_CTRL.RUN = 0 →
        ∃ t, exec (.grid c) s = .next t ∧ t.lst c.val = 3 ∧ t.fld TM_GRID.PHASEF = s.fld TM_GRID.PHASE % 2 ^ 14)
      ∧ (s.fireable c.val 3 = true → s.fld FE_CTRL.RUN = 1 →
        ∃ t, exec (.grid c) s = .next t ∧ t.lst c.val = 4 ∧ t.fld TM_STATUS.LREF = 1
          ∧ t.fld TM_GRID.PHASEF = s.fld TM_GRID.PHASEF))
  ∧ (∀ (s : State) (c : Fin 16), s.time.tq = 4 →
    (s.fireable c.val 1 = true → ∃ t, exec (.excite c) s = .next t ∧ t.lst c.val = 2 ∧ t.systems = s.systems)
    ∧ (s.fireable c.val 2 = true → ∃ t, exec (.inject c) s = .next t ∧ t.lst c.val = 2 ∧ t.systems = s.systems)
    ∧ (s.fireable c.val 3 = true → ∃ t, exec (.grid c) s = .next t ∧ t.lst c.val = 2
        ∧ t.fld TM_GRID.PHASEF = s.fld TM_GRID.PHASEF)
    ∧ (s.fireable c.val 4 = true → ∃ t, exec (.output c) s = .next t ∧ t.lst c.val = 2 ∧ t.vos = s.vos)
    ∧ (s.fireable c.val 5 = true → ∃ t, exec (.event c) s = .next t ∧ t.lst c.val = 2 ∧ t.engines = s.engines))

/-- O23. With the device running, one ring and no step due: network time reads the next multiple of the cycle length, the time base
has advanced by the same amount, the cycle count is one more, and STEP of every Sapwood engine and of the Root engine reads 0.
Rows: CYCLE_BOUNDARY. Spec: R4, R254, R346, 06_time_and_launch.md. Rests on assumption log 11, 120. -/
def Obligations.CycleBoundaryComes : Prop :=
  ∀ (s : State) (busy : List Nat),
    let b := nextMultiple s.cycleLen (max s.nowTu s.cycNext)
    s.running = true → s.joined 1 = false → s.time.stepDue = false → s.time.yields = none → s.keeper.resetReq = none → b < 2 ^ 64 →
      ∃ t, exec (.cycleBoundary busy) s = .next t ∧ t.nowTu = b ∧ t.tb = s.tb + (b - s.nowTu) ∧ t.cycle = s.cycle + 1
        ∧ t.cycNext = b + 1 ∧ (∀ i, 3 ≤ i → i ≤ 9 → (t.eng i).step = 0#32)

/-- O24. A frame that a joined port receives is discarded or counted by the first check that fails (FCS, header with ACCREJ and
PIDERR, safety code, a copy already seen), and stores nothing then; one that passes all is stored in the next buffer with RXWI
and RXOK counted when the DMA may write it there, and else leaves the ring as it is (masked; full with RXOVF; out of the ring
with BUFVIOL) or is held with its arrival time (waiting for a lock, or in a quiesce); a returned frame of the node itself sets
RETERR exactly when none of its slot and CYC was sent with its SCODE, those past their time-out included (log 180). A port
outside a started ring takes none. Rows: FRAME_RECEIVED. Spec: R269, R277, R290, R291, R292, R304. Rests on assumption log 54,
55, 59, 180. -/
def Obligations.FramesAreCheckedAndStored : Prop :=
  ∀ (s : State) (p : Fin 6) (l : List Byte) (r : Nat) (k : Prick),
    let me := s.fld ID_NODE.NODE
    let hc := s.headCheck r p.val k l
    let a := s.fld CK_RXBASE.BASE + s.rxNext * s.fld CK_RXGEOM.RXBLEN
    let fits := 16 + l.length ≤ s.fld CK_RXGEOM.RXBLEN ∧ 0x20000000 ≤ a ∧ a + 16 + l.length ≤ 0x20200000
    let old := (s.ring r).seen.any (fun x => x.1 == fSrc l && x.2.1 == fSlot l && x.2.2.1 == fCyc l)
    let mine := (s.ring r).rets ++ (s.ring r).late
    let own := fun (x : Ret) => x.slot = fSlot l ∧ x.cyc = fCyc l
    let sc := fle l (l.length - 8) 4
    let still := fun (t : State) => exec (.frameReceived p l) s = .next t ∧ t.rxq = s.rxq ∧ t.rxHeld = s.rxHeld ∧ t.mem = s.mem
    (s.portRing p.val = none → exec (.frameReceived p l) s = .next s)
    ∧ (s.portRing p.val = some r → (s.prick r = none ∨ s.portJoined p.val = false ∨ s.node r = 0 ∨ fType l = 4) →
      exec (.frameReceived p l) s = .next s)
    ∧ (s.portRing p.val = some r → s.prick r = some k → s.portJoined p.val = true → s.node r ≠ 0 → fType l ≠ 4 →
      (s.discards l = true → exec (.frameReceived p l) s = .next s)
      ∧ (s.discards l = false → fcsOk l = false →
        ∃ t, exec (.frameReceived p l) s = .next t ∧ t.rxq = s.rxq ∧ t.mem = s.mem ∧ t.node r = s.node r
          ∧ t.fld CK_PCNT2.FCSERR p.val = min 65535 (s.fld CK_PCNT2.FCSERR p.val + 1))
      ∧ (s.discards l = false → fcsOk l = true → fSrc l ≠ me →
        (hc ≠ .ok →
          ∃ t, exec (.frameReceived p l) s = .next t ∧ t.rxq = s.rxq ∧ t.lines = s.lines ∧ t.mem = s.mem
            ∧ t.fld CK_PCNT1.ACCREJ p.val = min 65535 (s.fld CK_PCNT1.ACCREJ p.val + 1) ∧ t.fld CK_STATUS.ACCREJ = 1
            ∧ (hc = .pid → t.fld CK_STATUS.PIDERR = 1))
        ∧ (hc = .ok → safeOk k l = false →
          ∃ t, exec (.frameReceived p l) s = .next t ∧ t.rxq = s.rxq ∧ t.mem = s.mem ∧ t.fld CK_STATUS.SCERR = 1
            ∧ t.fld CK_PCNT0.SCERR p.val = min 65535 (s.fld CK_PCNT0.SCERR p.val + 1))
        ∧ (hc = .ok → safeOk k l = true → old = true →
          ∃ t, exec (.frameReceived p l) s = .next t ∧ t.rxq = s.rxq ∧ t.mem = s.mem
            ∧ t.fld CK_PCNT0.RXOK p.val = s.fld CK_PCNT0.RXOK p.val)
        ∧ (hc = .ok → safeOk k l = true → old = false → s.masked .dma = true →
          ∃ t, still t ∧ t.fld CK_PCNT0.RXOK p.val = min 65535 (s.fld CK_PCNT0.RXOK p.val + 1))
        ∧ (hc = .ok → safeOk k l = true → old = false → s.masked .dma = false → s.dmaHolds = true →
          ∃ t, exec (.frameReceived p l) s = .next t ∧ t.rxq = s.rxq ∧ t.mem = s.mem
            ∧ t.rxHeld = s.rxHeld ++ [(p.val, r == 1, s.nowLow, l)]
            ∧ t.fld CK_PCNT0.RXOK p.val = min 65535 (s.fld CK_PCNT0.RXOK p.val + 1))
        ∧ (hc = .ok → safeOk k l = true → old = false → s.dmaHolds = false → s.rxHeld = [] →
            s.fld CK_RXGEOM.NRXB ≤ ringUsed 2048 (s.fld CK_RXWI.WI) (s.fld CK_RXRI.RI) →
          ∃ t, still t ∧ t.fld CK_STATUS.RXOVF = 1 ∧ t.fld CK_RXWI.WI = s.fld CK_RXWI.WI)
        ∧ (hc = .ok → safeOk k l = true → old = false → s.dmaHolds = false →
            ringUsed 2048 (s.fld CK_RXWI.WI) (s.fld CK_RXRI.RI) < s.fld CK_RXGEOM.NRXB →
          (fits → s.rxHeld = [] →
            ∃ t, exec (.frameReceived p l) s = .next t ∧ t.rxq = s.rxq ++ [(a, l.length)]
              ∧ t.fld CK_RXWI.WI = (s.fld CK_RXWI.WI + 1) % 2048
              ∧ t.fld CK_PCNT0.RXOK p.val = min 65535 (s.fld CK_PCNT0.RXOK p.val + 1)
              ∧ (s.fld CK_SSBASE.BASE = 0 →
                  (∀ i, i < (a % 16 + 16 + l.length + 15) / 16 → s.badBits (a / 16 * 16 + 16 * i) ≤ 2) →
                (∀ i, i < l.length → t.byte (a + 16 + i) = l[i]?.getD 0) ∧ (∀ y, y < a ∨ a + 16 + l.length ≤ y → t.byte y = s.byte y)))
          ∧ (¬ fits →
            ∃ t, still t ∧ t.fld CK_STATUS.BUFVIOL = 1
              ∧ t.fld CK_RXWI.WI = s.fld CK_RXWI.WI ∧ t.fld CK_PCNT0.RXOK p.val = s.fld CK_PCNT0.RXOK p.val)))
      ∧ (s.discards l = false → fcsOk l = true → fSrc l = me →
        ((∃ x ∈ mine, own x) → (∀ x ∈ mine, own x → x.scode ≠ sc) →
          ∃ t, still t ∧ t.lines = s.lines ∧ t.fld CK_STATUS.RETERR = 1)
        ∧ (((∀ x ∈ mine, ¬ own x) ∨ (∃ x ∈ mine, own x ∧ x.scode = sc)) →
          ∃ t, still t ∧ t.lines = s.lines ∧ t.fld CK_STATUS.RETERR = s.fld CK_STATUS.RETERR)))

/-- O25. The oldest stored frame leaves the queue, with no push where one of its blocks is uncorrectable; an event of a point with
no bobbin counts NOPOINT, one of a local point or from another node WRONGSRC, any other is pushed to each bobbin of the point,
or rejected where it has SHADOW set (log 146). RX_RELEASE within the frames stored moves RI and nothing else, beyond them it
sets CFGERR. A first valid frame with room in the ring joins the end of the queue. An access of the voted Heartwood is stated
for one that can vote and is not halted (State.canVote). Rows: HEVENT_DISPATCH, RX_RELEASE, FRAME_RECEIVED. Spec: R304, R305,
07_carrik_network.md. Rests on assumption log 146. -/
def Obligations.StoredFramesAreDispatchedInOrder : Prop :=
  ∀ (s : State) (a n : Nat) (rest : List (Nat × Nat)) (w : Word) (p : Fin 6) (f : List Byte) (r : Nat) (k : Prick),
    let l := s.rdL (a + 16) n
    let next := s.fld CK_RXBASE.BASE + s.rxNext * s.fld CK_RXGEOM.RXBLEN
    let valid := s.discards f = false ∧ fcsOk f = true ∧ s.headCheck r p.val k f = .ok ∧ safeOk k f = true
    let first := ∀ x ∈ (s.ring r).seen, ¬ (x.1 = fSrc f ∧ x.2.1 = fSlot f ∧ x.2.2.1 = fCyc f)
    let room := ringUsed 2048 (s.fld CK_RXWI.WI) (s.fld CK_RXRI.RI) < s.fld CK_RXGEOM.NRXB
      ∧ 16 + f.length ≤ s.fld CK_RXGEOM.RXBLEN ∧ 0x20000000 ≤ next ∧ next + 16 + f.length ≤ 0x20200000
    let u := { s with rxq := rest }
    let ri := w.toNat % 2048
    let blocks := fun (m : Nat) => ∀ i, i < (a % 16 + 16 + n + 15) / 16 → s.badBits (a / 16 * 16 + 16 * i) ≤ m
    (s.rxq = (a, n) :: rest → s.dmaHolds = false → s.rxHeld = [] →
      (∃ t, exec .heventDispatch s = .next t ∧ t.rxq = rest)
      ∧ (¬ blocks 2 → ∃ t, exec .heventDispatch s = .next t ∧ t.rxq = rest ∧ t.fld MI_STATUS.UE = 1
          ∧ ∀ b, t.fld BB_INB.RWI b = s.fld BB_INB.RWI b)
      ∧ ∀ v, blocks 0 → fType l ≠ 1 → frameEvents l = [v] →
        let e := s.pointEntry (v % 2048)
        (entryBobs e = [] →
          exec .heventDispatch s = .next (takeStatuses l (u.countFld CK_EVDROP.NOPOINT 0 1)))
        ∧ (entryBobs e ≠ [] → (entryLocal e = true ∨ entryNode e ≠ fSrc l) →
          exec .heventDispatch s = .next (takeStatuses l (u.countFld CK_EVDROP.WRONGSRC 0 1)))
        ∧ (entryBobs e ≠ [] → entryLocal e = false → entryNode e = fSrc l → v.testBit 127 = true →
          exec .heventDispatch s = .next (takeStatuses l ((entryBobs e).foldl (fun t _ => t.reject .dma) u)))
        ∧ (entryBobs e ≠ [] → entryLocal e = false → entryNode e = fSrc l → v.testBit 127 = false →
          exec .heventDispatch s = .next (takeStatuses l ((entryBobs e).foldl (fun t b => pushRing b true v t) u))))
    ∧ (s.canVote = true → (ri + 2048 - s.fld CK_RXRI.RI) % 2048 ≤ (s.fld CK_RXWI.WI + 2048 - s.fld CK_RXRI.RI) % 2048 → s.fld CK_RXRI.RI < 2048 →
        s.fld CK_RXWI.WI < 2048 →
      ∃ t, exec (.rxRelease .hw w) s = .next t ∧ t.fld CK_RXRI.RI = ri ∧ Kept [CK_RXRI.RI.key 0] s t
        ∧ t = { s with regs := t.regs })
    ∧ (s.canVote = true → (s.fld CK_RXWI.WI + 2048 - s.fld CK_RXRI.RI) % 2048 < (ri + 2048 - s.fld CK_RXRI.RI) % 2048 → s.fld CK_RXRI.RI < 2048 →
        s.fld CK_RXWI.WI < 2048 →
      exec (.rxRelease .hw w) s = .next (s.flag CK_STATUS.CFGERR evCK))
    ∧ (s.portRing p.val = some r → s.prick r = some k → s.portJoined p.val = true → s.node r ≠ 0 → fType f ≠ 4 →
        fSrc f ≠ s.fld ID_NODE.NODE → valid → first → room → s.dmaHolds = false → s.rxHeld = [] →
      ∃ t, exec (.frameReceived p f) s = .next t ∧ t.rxq = s.rxq ++ [(next, f.length)])

/-- O26. An enabled port that comes up is in TRAIN with no measurement; a training frame of 64 bytes is sent at most once a ms while
the DMA is not masked; four measurements give their mean, and a delay within the tolerance of the link joins the port, one
outside it makes it retry after 1 s with LINKERR; a port that goes down is DOWN. Rows: LINK_UP, LINK_DOWN, LINK_TRAINING,
RETRAIN, PDELAY_REQ, PDELAY_RESP. Spec: R242, R274, R293, 07_carrik_network.md. Rests on assumption log 56, 57. -/
def Obligations.PortsTrainAndJoin : Prop :=
  ∀ (s : State) (p : Fin 6) (dom : BitVec 8) (d : BitVec 16) (r : Nat) (k : Prick) (b c e : Nat) (more : List Nat),
    let m := (d.toNat + b + c + e) / 4
    let n := s.fld CK_PST.LINKD p.val * 16
    (s.fld CK_PCTRL.EN p.val = 1 → s.fld CK_PST.PSTATE p.val = 0 →
      ∃ t, exec (.linkUp p) s = .next t ∧ t.fld CK_PST.SYNC p.val = 1 ∧ t.fld CK_PST.PSTATE p.val = 1
        ∧ t.fld TM_PDELAY.VALID p.val = 0 ∧ t.fld TM_PDELAY.NMEAS p.val = 0
        ∧ Kept [CK_PST.SYNC.key p.val, CK_PST.PSTATE.key p.val, TM_PDELAY.VALID.key p.val, TM_PDELAY.NMEAS.key p.val] s t)
    ∧ (∃ t, exec (.linkDown p) s = .next t ∧ t.fld CK_PST.SYNC p.val = 0 ∧ t.fld CK_PST.PSTATE p.val = 0
        ∧ t.fld TM_PDELAY.VALID p.val = 0 ∧ t.fld TM_PDELAY.NMEAS p.val = 0 ∧ t.fld TM_PDELAY.DELAY p.val = 0
        ∧ t = { s with regs := t.regs, links := t.links })
    ∧ (s.fld CK_PST.PSTATE p.val = 1 → s.masked .dma = false →
      ∃ t, exec (.linkTraining p) s = .next t
        ∧ (t.link p.val).trainedAt = some t.tb ∧ (t.link p.val).owed = (s.link p.val).owed.drop 1
        ∧ (∀ u, (s.link p.val).trainedAt = some u → u + 125000 ≤ t.tb)
        ∧ (s.portRing p.val = some r → s.prick r = some k →
          ∃ x, x.length = 10 ∧ Tab.get [] t.lines p.val = s.frameOf r k 4 0 0 64
            (elemBytes 1 1 (t.tstat r) ++ elemBytes (if (s.link p.val).owed = [] then 4 else 5) 1 x))
        ∧ (s.portRing p.val = none → (Tab.get [] t.lines p.val).length = 64))
    ∧ (s.fld CK_PST.PSTATE p.val = 3 →
      ∃ t, exec (.retrain p) s = .next t ∧ t.fld CK_PST.PSTATE p.val = 1 ∧ t.fld TM_PDELAY.VALID p.val = 0
        ∧ t.tb = max s.tb (s.link p.val).retrainAt)
    ∧ (s.fld CK_PST.PSTATE p.val ≠ 0 → dom.toNat = s.fld TM_PROF.DOMAIN →
      exec (.pdelayReq ⟨p, dom⟩) s = .next (s.modLink p.val (fun x => { x with owed := x.owed ++ [s.tb] })))
    ∧ (dom.toNat ≠ s.fld TM_PROF.DOMAIN → exec (.pdelayReq ⟨p, dom⟩) s = .next s ∧ exec (.pdelayResp ⟨p, dom⟩ d) s = .next s)
    ∧ (s.fld CK_PST.PSTATE p.val ≠ 0 → dom.toNat = s.fld TM_PROF.DOMAIN → (s.link p.val).meas = b :: c :: e :: more → b < 2 ^ 16 → c < 2 ^ 16 → e < 2 ^ 16 →
        3 ≤ s.fld TM_PDELAY.NMEAS p.val →
      ∃ t, exec (.pdelayResp ⟨p, dom⟩ d) s = .next t ∧ t.fld TM_PDELAY.DELAY p.val = m ∧ t.fld TM_PDELAY.VALID p.val = 1
        ∧ (s.fld CK_PST.PSTATE p.val = 1 → ((m : Int) - n).natAbs ≤ s.linkTol p.val → t.fld CK_PST.PSTATE p.val = 2)
        ∧ (s.fld CK_PST.PSTATE p.val = 1 → s.linkTol p.val < ((m : Int) - n).natAbs →
            t.fld CK_PST.PSTATE p.val = 3 ∧ t.fld CK_STATUS.LINKERR = 1 ∧ (t.link p.val).retrainAt = t.tb + 125000000))

/-- O27. LISTEN ends in COLD START for an eligible node and else goes on; INTEGRATE that hears nothing returns to LISTEN; a frame
that does not return is noted at its deadline. A master that hears a better rank yields at the boundary when it is ACTIVE, at
once when not; a better master in LISTEN or INTEGRATE starts cold. Rows: LISTEN_TIMEOUT, INTEGRATE_TIMEOUT, RETURN_TIMEOUT,
ANNOUNCE_RECEIVED. Spec: R240, R294, R296, R299, Table CK-13. Rests on assumption log 53. -/
def Obligations.NodeStatesFollowTheirTimers : Prop :=
  ∀ (s : State) (r : Fin 2) (k : Prick) (u : Nat) (x : Ret) (rest : List Ret) (src nd : BitVec 10) (dom : BitVec 8) (rank : Fin 4)
    (ep : BitVec 4) (ph : BitVec 14) (est : BitVec 16),
    let wait := k.lbase * 125000 + s.fld ID_NODE.NODE * k.cslot
    (s.prick r.val = some k → s.node r.val = 1 → (s.ring r.val).listenAt = some u →
      (s.coldEligible r.val k = true →
        ∃ t, exec (.listenTimeout r) s = .next t ∧ t.node r.val = 2 ∧ t.tb = max s.tb u ∧ t.fld CK_STATUS.STCHG = 1
          ∧ t.fld CK_COLD.ATTEMPT = min 255 (s.fld CK_COLD.ATTEMPT + 1))
      ∧ (s.coldEligible r.val k = false →
        ∃ t, exec (.listenTimeout r) s = .next t ∧ t.node r.val = 1 ∧ t.tb = max s.tb u
          ∧ (t.ring r.val).listenAt = some (t.tb + wait) ∧ t.regs = s.regs))
    ∧ (s.prick r.val = some k → s.node r.val = 3 →
      ∃ t, exec (.integrateTimeout r) s = .next t ∧ t.node r.val = 1 ∧ t.fld CK_STATUS.STCHG = 1
        ∧ t.tb = max s.tb ((s.ring r.val).heardAt + k.lbase * 125000) ∧ (t.ring r.val).listenAt = some (t.tb + wait))
    ∧ ((s.ring r.val).rets = x :: rest →
      ∃ t, exec (.returnTimeout r) s = .next t ∧ t.tb = max s.tb x.due ∧ (t.ring r.val).rets = rest
        ∧ (t.ring r.val).late = (s.ring r.val).late ++ [x]
        ∧ (t.ring r.val).retFail = ((s.ring r.val).retFail || x.active) ∧ t.regs = s.regs)
    ∧ (dom.toNat = s.fld TM_PROF.DOMAIN → s.time.tq = 5 → rank.val < s.fld TM_MASTER.MRANK → s.node 0 = 4 →
      ∃ t, exec (.announceReceived src nd dom rank ep ph est) s = .next t ∧ t.time.tq = 5
        ∧ t.time.yields = some [src.toNat, nd.toNat, rank.val, ep.toNat, ph.toNat, est.toNat] ∧ t.regs = s.regs)
    ∧ (dom.toNat = s.fld TM_PROF.DOMAIN → s.time.tq = 5 → rank.val < s.fld TM_MASTER.MRANK → s.node 0 ≠ 4 →
      ∃ t, exec (.announceReceived src nd dom rank ep ph est) s = .next t ∧ t.time.tq = 0 ∧ t.time.follow = some src.toNat
        ∧ t.fld TM_MASTER.MNODE = nd.toNat ∧ t.fld TM_MASTER.MRANK = rank.val)
    ∧ (dom.toNat = s.fld TM_PROF.DOMAIN → s.time.tq = 5 → s.fld TM_MASTER.MRANK < rank.val →
        (s.node 0 = 1 ∨ s.node 0 = 3 ∨ s.node 0 = 5) →
      ∃ t, exec (.announceReceived src nd dom rank ep ph est) s = .next t ∧ t.node 0 = 2 ∧ t.time.tq = 5)

/-- O28. RUN 1 with an ETYPE of at least 0x600 starts the schedule in every joined ring when the checks pass, else sets FITERR and
stays off; RUN 0 ends every transmission and leaves the node OFF. TX_READY hands over the buffer of exactly the own slots
written and moves each to the other buffer; SUMMARY_READY does so for the train. An access of the voted Heartwood is stated for
one that can vote and is not halted (State.canVote). Rows: SCHEDULE_START, SCHEDULE_STOP, TX_READY, SUMMARY_READY. Spec: R279,
R280, R285, R303, 07_carrik_network.md. -/
def Obligations.SchedulesAndBuffers : Prop :=
  ∀ (s : State) (v : Word),
    let e := v.toNat / 2 ^ 16
    let u := s.setFld CK_CTRL.ETYPE 0 e
    s.canVote = true →
    (0x600 ≤ e → s.fld CK_CTRL.RUN = 0 →
      (u.myRings.all (fun r => u.prickOk r) = true → u.txOk = true → u.rxOk = true →
        ∃ t, exec (.scheduleStart .hw v) s = .next t ∧ t.fld CK_CTRL.RUN = 1 ∧ t.fld CK_CTRL.ETYPE = e
          ∧ t.fld CK_COLD.ATTEMPT = 0 ∧ ∀ r, r < 2 → s.joined r = true → t.node r = 1)
      ∧ (u.myRings.all (fun r => u.prickOk r) = false ∨ u.txOk = false ∨ u.rxOk = false →
        ∃ t, exec (.scheduleStart .hw v) s = .next t ∧ t.fld CK_CTRL.RUN = 0 ∧ t.fld CK_STATUS.FITERR = 1
          ∧ t.fld CK_NODEST.STATE = s.fld CK_NODEST.STATE))
    ∧ (e < 0x600 → exec (.scheduleStart .hw v) s = .next (s.flag CK_STATUS.CFGERR evCK))
    ∧ (0x600 ≤ e → e = s.fld CK_CTRL.ETYPE → s.fld CK_CTRL.RUN = 1 →
      ∃ t, exec (.scheduleStop .hw v) s = .next t ∧ t.fld CK_CTRL.RUN = 0 ∧ t.node 0 = 0 ∧ t.node 1 = 0 ∧ t.frames = []
        ∧ (t.ring 0).tx = none ∧ (t.ring 1).tx = none)
    ∧ (∃ t, exec (.txReady .hw v) s = .next t ∧ t = { s with regs := t.regs, ready := t.ready }
        ∧ Kept [CK_TXST.NEXT.key 0, CK_TXST.NEXT2.key 0] s t
        ∧ ∀ j, j < 8 →
          (v.toNat.testBit j = true → j < s.homeSlots →
            Tab.get [] t.ready j = (bit (s.fbit CK_TXST.NEXT j), s.tb)
                :: ((Tab.get [] s.ready j).filter (fun x => decide (x.2 < s.tb))).take 1 ∧ t.fbit CK_TXST.NEXT j = !s.fbit CK_TXST.NEXT j)
          ∧ (v.toNat.testBit j = false ∨ s.homeSlots ≤ j →
            Tab.get [] t.ready j = Tab.get [] s.ready j ∧ t.fbit CK_TXST.NEXT j = s.fbit CK_TXST.NEXT j))
    ∧ (v.toNat.testBit 16 = true → s.hasTrain 0 = true → s.fld CK_TXST2.SNEXT ≤ 1 →
      ∃ t, exec (.summaryReady .hw v) s = .next t ∧ (Tab.get [] t.ready 16).head? = some (s.fld CK_TXST2.SNEXT, s.tb)
        ∧ t.fld CK_TXST2.SNEXT = 1 - s.fld CK_TXST2.SNEXT)

/-- O29. A slot with no buffer ready sends a null frame released 16 us after the close; a release at the frame's instant sends it on
the joined ports alone when it fits its window or the node starts cold, with no joined port its events are given back, and
outside the window nothing is sent, with GUARDSHUT; a copy that differs sends nothing with FOOTCUT; a frame still on the line at
the slot's end is cut off there. Rows: BUFFER_CLOSE, FRAME_RELEASE, FOOTSIDE_CUTOFF. Spec: R280, R281, R282, R284, R286. -/
def Obligations.FramesAreSentInTheirWindows : Prop :=
  ∀ (s : State) (r : Fin 2) (j : BitVec 10) (k : Prick) (x : Nat) (f : TxFrame) (w : TxRun),
    let num := ((k.own (s.myPos r.val) 0).takeWhile (fun y => y != j.toNat)).length
    let rel := (s.ring r.val).copyRel
    let kc : Prick := { k with grel := rel }
    (s.prick r.val = some k → k.slot j.toNat = some x → s.fld CK_CTRL.RUN = 1 → s.joined r.val = true →
        slotOwner x = s.myPos r.val → slotKind x = 0 → s.arbHolds .dma = false → s.node r.val = 4 →
        Tab.get [] s.ready (r.val * 8 + num) = [] →
      ∃ t, exec (.bufferClose r j) s = .next t ∧ t.fld CK_STATUS.NULLTX = 1
        ∧ t.fld CK_NODECNT.NULLN = min 65535 (s.fld CK_NODECNT.NULLN + 1)
        ∧ ∃ g ∈ t.frames, g.ring = r.val ∧ g.slot = j.toNat ∧ g.rel % 2 ^ 64 = (t.nowTu + 2000) % 2 ^ 64)
    ∧ (s.frames.find? (fun g => g.ring == r.val && g.slot == j.toNat) = some f → s.prick r.val = some k →
        (s.node r.val = 4 ∨ s.node r.val = 2) → s.masked .dma = false → s.nowTu ≤ f.rel → f.rel < 2 ^ 64 →
      (s.copied r.val j.toNat = some x → f.rel % s.ringLen r.val = (slotStart x + rel) % s.ringLen r.val →
        (s.joinedPorts r.val ≠ [] → (s.node r.val = 2 ∨ kc.fits x (s.advanceNow f.rel).eff = true) → f.resps = [] →
          ∃ t, exec (.frameRelease r j false) s = .next t ∧ t.nowTu = f.rel ∧ t.frames = s.frames.erase f ∧ t.regs = s.regs
            ∧ (∀ p, p ∈ s.joinedPorts r.val → Tab.get [] t.lines p = f.bytes)
            ∧ (∀ p, p ∉ s.joinedPorts r.val → Tab.get [] t.lines p = Tab.get [] s.lines p))
        ∧ (s.joinedPorts r.val = [] → (s.node r.val = 2 ∨ kc.fits x (s.advanceNow f.rel).eff = true) →
          ∃ t, exec (.frameRelease r j false) s = .next t ∧ t.frames = s.frames.erase f ∧ t.lines = s.lines
            ∧ t.txEvents = f.events ++ s.txEvents)
        ∧ (s.node r.val = 4 → kc.fits x (s.advanceNow f.rel).eff = false →
          ∃ t, exec (.frameRelease r j false) s = .next t ∧ t.fld CK_STATUS.GUARDSHUT = 1 ∧ t.lines = s.lines
            ∧ t.fld CK_NODECNT.SKIPN = min 65535 (s.fld CK_NODECNT.SKIPN + 1) ∧ t.txEvents = f.events ++ s.txEvents))
      ∧ (∀ bad, (bad = true ∨ s.copied r.val j.toNat = none
            ∨ (s.copied r.val j.toNat = some x ∧ f.rel % s.ringLen r.val ≠ (slotStart x + rel) % s.ringLen r.val)) →
        ∃ t, exec (.frameRelease r j bad) s = .next t ∧ t.fld CK_STATUS.FOOTCUT = 1 ∧ t.lines = s.lines
          ∧ t.fld HW_EXTFLT.SRC = 2 ∧ t.fld HW_STATUS.EXTFLT = 1))
    ∧ (∀ e, (s.ring r.val).tx = some w → w.slotEnd = some e →
      let at_ := s.tb + (e - s.eff - s.nowTu)
      (at_ < w.ends →
        ∃ t, exec (.footsideCutoff r) s = .next t ∧ t.tb = at_ ∧ t.fld CK_STATUS.FOOTCUT = 1 ∧ (t.ring r.val).tx = none
          ∧ ∀ p, p ∈ s.joinedPorts r.val → t.fld CK_PCNT2.FOOTCUT p = min 65535 (s.fld CK_PCNT2.FOOTCUT p + 1))
      ∧ (w.ends ≤ at_ →
        ∃ t, exec (.footsideCutoff r) s = .next t ∧ t.tb = at_ ∧ (t.ring r.val).tx = none ∧ t.regs = s.regs))

/-- O30. A placement that the checks admit changes SHAD and restarts its time, any other is refused with PLANREJ; a hand-over is
ordered for a shadowed head and moves PRIM to the shadow when due with the window closed; a forced move is taken for a legal
engine; SEQ is written by the primary engine alone, SPASS bits by the shadow engine alone; a retired engine stops and leaves
every head it shadows. An event that the other engine of a shadowed head has written within 4 us is taken as its match, and the
Graft program orders no hand-over of a head with an unmatched event; a head whose primary engine is lost is moved to its shadow,
else to the spare, and to no engine where it fits nowhere. An access of the voted Heartwood is stated for one that can vote and
is not halted (State.canVote). Rows: PLACEMENT_WRITE, HAND_OVER_ORDER, FORCED_MOVE, SEQ_WRITE, HAND_OVER, SHPASS_WRITE,
ENGINE_RETIREMENT. Spec: R310, R311, R312, R313, R314, R315, R316, R554, R557. Rests on assumption log 158. -/
def Obligations.HeadsArePlaced : Prop :=
  ∀ (s : State) (k : Fin 32) (v : Word) (e : Fin 6),
    let prim := s.fld GR_HPLACE.PRIM k.val
    let old := s.fld GR_HPLACE.SHAD k.val
    let shad := v.toNat / 2 ^ 4 % 8
    let new := v.toNat % 8
    let hov := v.toNat / 2 ^ 8 % 2
    let u := s.atComing
    (s.canVote = true → prim ≠ 6 → shad ≠ 6 → v.toNat / 2 ^ 9 % 2 = 0 →
      (s.placeOk k.val prim shad = true → hov = 0 → shad ≠ old →
        ∃ t, exec (.placementWrite .hw k v) s = .next t ∧ t.fld GR_HPLACE.SHAD k.val = shad ∧ t.fld GR_HPLACE.PEND k.val = 0
          ∧ (t.head k.val).shadAt = s.tb ∧ Kept [GR_HPLACE.SHAD.key k.val, GR_HPLACE.PEND.key k.val] s t)
      ∧ (s.placeOk k.val prim shad = false → exec (.placementWrite .hw k v) s = .next (s.flag GR_STATUS.PLANREJ evGR))
      ∧ (shad = 7 → exec (.handOverOrder .hw k v) s = .next (s.flag GR_STATUS.PLANREJ evGR))
      ∧ (s.placeOk k.val prim shad = true → shad = old → shad ≠ 7 →
        exec (.handOverOrder .hw k v) s = .next (s.setFld GR_HPLACE.PEND k.val 1)))
    ∧ (s.canVote = true → new ≠ 6 → shad = old → shad ≠ 6 → hov = 0 →
      (s.placeOk k.val new shad = true →
        exec (.forcedMove .hw k v) s = .next (s.modHead k.val (fun h => { h with force := some new })))
      ∧ (s.placeOk k.val new shad = false → exec (.forcedMove .hw k v) s = .next (s.flag GR_STATUS.PLANREJ evGR)))
    ∧ (prim = e.val → exec (.seqWrite e k v) s = .next (s.setFld GR_HPLACE.SEQ k.val (v.toNat / 2 ^ 12 % 16)))
    ∧ (prim ≠ e.val → exec (.seqWrite e k v) s = .next (s.reject (.se e)))
    ∧ (u.handOverDue k.val = true → s.opens k.val = false → (s.head k.val).closing ≤ 1 →
      ∃ t, exec (.handOver k) s = .next t ∧ t.fld GR_HPLACE.PRIM k.val = u.fld GR_HPLACE.SHAD k.val % 8
        ∧ t.fld GR_HPLACE.SHAD k.val = 7 ∧ t.fld GR_HPLACE.PEND k.val = 0 ∧ t.fld GR_STATUS.HOVER = 1)
    ∧ (∃ t, exec (.shpassWrite (.se e) v) s = .next t ∧ Kept [GR_SHPASS.SPASS.key 0] s t ∧ t = { s with regs := t.regs }
        ∧ (s.fld GR_HPLACE.SHAD k.val = e.val → t.fbit GR_SHPASS.SPASS k.val = v.toNat.testBit k.val)
        ∧ (s.fld GR_HPLACE.SHAD k.val ≠ e.val → t.fbit GR_SHPASS.SPASS k.val = s.fbit GR_SHPASS.SPASS k.val))
    ∧ (s.canVote = true → v.toNat % 8 = e.val → s.seRetired e.val = false →
      ∃ t, exec (.engineRetirement .hw v) s = .next t ∧ t.seRetired e.val = true ∧ (t.eng (3 + e.val)).run = .stopped
        ∧ t.fld AG_STATUS.ENGRET = 1 ∧ (old = e.val → t.fld GR_HPLACE.SHAD k.val = 7)
        ∧ (old ≠ e.val → t.fld GR_HPLACE.SHAD k.val = old))
    ∧ (s.canVote = true → 6 ≤ v.toNat % 8 → exec (.engineRetirement .hw v) s = .next (s.flag AG_STATUS.CFGERR evAG))
    ∧ (∀ ev : Block, s.headOfPoint (ev.toNat % 2048) = some k.val → old ≠ 7 →
      let h := s.head k.val
      (ringUsed 128 (s.fld BB_ORIGIDX.WI) (s.fld BB_ORIGIDX.RI) ≠ 64 →
        ∃ t, exec (.originPush e ev) s = .next t
          ∧ (h.loneShad.find? (eventsMatch ev.toNat) = none → (t.head k.val).lone = h.lone ++ [ev.toNat])
          ∧ (∀ w, h.loneShad.find? (eventsMatch ev.toNat) = some w →
              (t.head k.val).lone = h.lone ∧ (t.head k.val).loneShad = h.loneShad.erase w))
      ∧ (ringUsed 64 (s.fld GR_SHIDX.WI) (s.fld GR_SHIDX.RI) ≠ 32 →
        ∃ t, exec (.shadowPush e ev) s = .next t
          ∧ (h.lone.find? (eventsMatch ev.toNat) = none → (t.head k.val).loneShad = h.loneShad ++ [ev.toNat])
          ∧ (∀ w, h.lone.find? (eventsMatch ev.toNat) = some w →
              (t.head k.val).loneShad = h.loneShad ∧ (t.head k.val).lone = h.lone.erase w)))
    ∧ (s.fld GR_HPLACE.PEND k.val ≠ 1 → (s.shadowMatches k.val = false ∨ old = 7) → (leaveHead e.val k.val s).fld GR_HPLACE.PEND k.val ≠ 1)
    ∧ (s.lostEngine prim = true → (s.head k.val).force = none →
      (∀ n, n = old → n < 6 → s.lostEngine n = false → s.placeOk k.val n 7 = true →
        ((rescueHead k.val s).head k.val).force = some n ∧ (rescueHead k.val s).fld GR_HPLACE.SHAD k.val = 7)
      ∧ (∀ n, n = s.fld GR_CTRL.SPARE → n < 6 → s.lostEngine n = false → old = 7 → s.placeOk k.val n 7 = true →
        ((rescueHead k.val s).head k.val).force = some n)
      ∧ ((∀ n, n < 6 → s.placeOk k.val n 7 = false) → old = 7 → ((rescueHead k.val s).head k.val).force = some 7))

/-- O31. Each agreed value of GR_CMD is taken once by a Heartwood that votes (log 175), with its result: 7 for an invalid code, 6
for a bobbin that is not here, 5 without a free slot, 1 with a slot in state OFFER for MIGRATE and MIGRATEANY, 4 with REASON 12
without a coordinator, 2 for RESUME, CANCEL and an evacuation of nothing; a retry after 16 cycles asks again while the
evacuation lasts. Rows: MIGRATE, MIGRATEANY, EVACUATE, RESUME, CANCEL, INVALID_ORDER, EVACUATION_RETRY. Spec: R320, R322, R328,
R330, Table GR-2. Rests on assumption log 101, 104, 106, 175. -/
def Obligations.MigrationOrders : Prop :=
  ∀ (s : State) (v x : Nat),
    let b := v % 256
    let code := v / 2 ^ 18 % 8
    let c : Instr := if code = 1 then .migrate else if code = 2 then .migrateAny else if code = 3 then .evacuate
      else if code = 4 then .resume else if code = 5 then .cancel else .invalidOrder
    let here := s.fld BB_CFG.ACTIVE b = 1 ∧ s.fld GR_BMODE.MODE b ≠ 1
    (s.agreed.find? (fun p => p.1 == GR_CMD.addr) = some (GR_CMD.addr, v) → s.canVote = true → s.keeper.resetReq = none →
      ((code = 0 ∨ 6 ≤ code) →
        ∃ t, exec c s = .next t ∧ t.fld GR_CMDRES.RESULT = 7 ∧ t.fld GR_CMDRES.BOB = b ∧ t.fld GR_CMDRES.CODE = code
          ∧ t.fld GR_CMDRES.TAG = v / 2 ^ 21 % 2 ^ 11 ∧ t.fld GR_STATUS.CMDDONE = 1 ∧ (∀ p : Fin 3, t.fld HP_PSTATUS.CMD p.val = 1)
          ∧ t.agreed = s.agreed.erase (GR_CMD.addr, v))
      ∧ (code = 4 → ∃ t, exec c s = .next t ∧ t.fld GR_CMDRES.RESULT = 2 ∧ t.fld GR_STATUS.EVAC = 0 ∧ t.migs = s.migs)
      ∧ (code = 3 → ∃ t, exec c s = .next t ∧ t.fld GR_STATUS.EVAC = 1 ∧ t.agreed = s.agreed.erase (GR_CMD.addr, v)
          ∧ ((∀ d, d < 256 → s.fld BB_CFG.ACTIVE d ≠ 1) → t.fld GR_CMDRES.RESULT = 2 ∧ t.fld GR_STATUS.EMPTY = 1))
      ∧ ((code = 1 ∨ code = 2 ∨ code = 5) → ¬ here → ∃ t, exec c s = .next t ∧ t.fld GR_CMDRES.RESULT = 6 ∧ t.migs = s.migs)
      ∧ ((code = 1 ∨ code = 2) → here → s.slotOf 0 b = none → s.freeSlot = none →
        ∃ t, exec c s = .next t ∧ t.fld GR_CMDRES.RESULT = 5 ∧ t.migs = s.migs)
      ∧ (code = 1 → here → s.slotOf 0 b = none → s.freeSlot = some x → s.fld GR_STATUS.EVAC = 0 →
        ∃ t, exec c s = .next t ∧ t.fld GR_CMDRES.RESULT = 1 ∧ t.fld GR_MIG.STATE x = 1 ∧ t.fld GR_MIG.ROLE x = 0
          ∧ t.fld GR_MIG.BOB x = b ∧ t.fld GR_MIG.PEER x = v / 2 ^ 8 % 1024 ∧ t.fld GR_BMODE.MODE b = 2
          ∧ t.fld GR_BMODE.SLOT b = x ∧ t.fld GR_STATUS.MIGSTART = 1)
      ∧ (code = 2 → here → s.slotOf 0 b = none → s.freeSlot = some x → s.fld GR_STATUS.EVAC = 0 →
        (s.fld GR_COORDST.VALID = 0 →
          ∃ t, exec c s = .next t ∧ t.fld GR_CMDRES.RESULT = 4 ∧ t.fld GR_CMDRES.REASON = 12 ∧ t.fld GR_STATUS.MIGABORT = 1)
        ∧ (s.fld GR_COORDST.VALID = 1 → s.fld GR_COORDST.ROLE ≠ 1 →
          ∃ t, exec c s = .next t ∧ t.fld GR_CMDRES.RESULT = 1 ∧ t.fld GR_MIG.STATE x = 1 ∧ t.fld GR_BMODE.MODE b = 2
            ∧ (t.mig x).waits = true))
      ∧ (code = 5 → here → s.slotOf 0 b = some x → (s.mig x).switched = false →
        ∃ t, exec c s = .next t ∧ t.fld GR_CMDRES.RESULT = 2 ∧ t.fld GR_MIG.STATE x = 0 ∧ t.fld GR_BMODE.MODE b = 0
          ∧ t.fld GR_STATUS.MIGABORT = 1))
    ∧ ∀ (d : BitVec 8) (r : Nat × Nat), s.canVote = true → s.graft.retry.find? (fun r => r.1 == d.toNat && decide (r.2 ≤ s.cycle)) = some r →
      (s.fld GR_STATUS.EVAC = 0 →
        ∃ t, exec (.evacuationRetry d) s = .next t ∧ t.graft.retry = s.graft.retry.erase r ∧ t.regs = s.regs)
      ∧ (s.fld GR_STATUS.EVAC = 1 → s.fld BB_CFG.ACTIVE d.toNat = 1 → s.fld GR_BMODE.MODE d.toNat = 0 →
          (∀ q ∈ s.graft.retry.erase r, q.1 ≠ d.toNat) →
          (∀ n, n < 256 → n ≠ d.toNat → s.fld BB_CFG.ACTIVE n = 1 → s.fld GR_BMODE.MODE n = 0 → ∃ q ∈ s.graft.retry.erase r, q.1 = n) →
          s.freeSlot = some x → s.fld GR_COORDST.VALID = 1 → s.fld GR_COORDST.ROLE ≠ 1 →
        ∃ t, exec (.evacuationRetry d) s = .next t ∧ t.fld GR_MIG.STATE x = 1 ∧ t.fld GR_MIG.BOB x = d.toNat
          ∧ t.fld GR_MIG.ROLE x = 0 ∧ t.fld GR_BMODE.MODE d.toNat = 2 ∧ (t.mig x).waits = true)

/-- O32. For a clustered node whose Heartwood votes (log 175) and a message for it: ALIVE is heard and a higher term ends a
coordinator; LOAD is noted; REQ is planned, beside the plans of its search (log 177), or refused; PLAN names the peer; OFFER is
accepted into a free bobbin or refused with its reason; ACCEPT gives the source C0; REFUSE and ABORT end the migration with
their reason; SNAP appends its segment; DIGEST counts agreement over consecutive cycles; READY has SWITCH sent; the release of a
frame in cycle n fixes C0 of an ACCEPT in it, and C_h and the switch of a SWITCH in it, as n + 2; SWITCH and OWN move the
directory; a silent coordinator is taken over. Rows: ALIVE, LOAD, REQ, PLAN, OFFER, ACCEPT, REFUSE, SNAP, DIGEST, READY, SWITCH,
ABORT, OWN, COORDINATOR_TAKEOVER. Spec: R318, R319, R321, R322, R324, R326, R328, R335, R336. Rests on assumption log 60, 61,
103, 105, 107, 175, 177. -/
def Obligations.GraftMessagesTakeEffect : Prop :=
  ∀ (s : State) (r : Fin 2) (m : GMsg) (x n tb : Nat),
    let org := m.origin.toNat
    let b := m.sbob.toNat
    let v := fle m.body 0 16
    let count := if (s.mig x).agreeAt = s.cycNear (v % 65536) then (s.mig x).agree + 1 else 1
    let agreeing := (Tab.get 0 s.graft.peers org).testBit 0 = false ∧
      ((s.mig x).own.find? (fun o => o.1 == s.cycNear (v % 65536))).bind Prod.snd
        = some (v / 2 ^ 32 % 2 ^ 13, v / 2 ^ 64 % 2 ^ 32, v / 2 ^ 96 % 2 ^ 32)
    (s.canVote = true → s.fld GR_COORD.VC = 1 → org ≠ s.me → (m.bcast = true ∨ m.dst.toNat = s.me) →
      (∃ t, exec (.alive r m) s = .next t ∧ (org, m.term.toNat, s.cycle) ∈ t.graft.heard
        ∧ (s.fld GR_COORDST.ROLE = 1 → s.termOf s.me < m.term.toNat → t.fld GR_COORDST.ROLE = 2)
        ∧ (s.graft.heard = [] → 0 < s.fld GR_CTRL.CTO →
            t.fld GR_COORDST.CUR = org ∧ t.fld GR_COORDST.TERM = m.term.toNat ∧ t.fld GR_COORDST.VALID = 1))
      ∧ (s.fld GR_COORDST.ROLE = 1 →
        ∃ t, exec (.load r m) s = .next t ∧ Tab.get 0 t.graft.loads org = fle m.body 0 2 % 4096 + 65536 ∧ t.regs = s.regs)
      ∧ (s.fld GR_COORDST.ROLE = 1 → s.chooseTarget org b = some n →
        ∃ t, exec (.req r m) s = .next t ∧ t.regs = s.regs
          ∧ t.graft.plans = s.graft.plans.filter (fun p => !(p.1 == org && p.2.1 == b)) ++ s.tried org b ++ [(org, b, n, s.cycle)]
          ∧ ∃ y ∈ Tab.get [] t.gmsgs 0, y.1 = 0x04 ∧ y.2.dst = m.origin ∧ y.2.sbob = m.sbob ∧ y.2.body = leBytes 2 n)
      ∧ (s.fld GR_COORDST.ROLE = 1 → s.chooseTarget org b = none →
        ∃ t, exec (.req r m) s = .next t ∧ t.regs = s.regs
          ∧ ∃ y ∈ Tab.get [] t.gmsgs 0, y.1 = 0x07 ∧ y.2.dst = m.origin ∧ y.2.body = [12#8])
      ∧ (s.slotOf 0 b = some x → s.fld GR_COORDST.VALID = 1 → s.fld GR_COORDST.CUR = org → (s.mig x).waits = true →
        ∃ t, exec (.plan r m) s = .next t ∧ t.fld GR_MIG.PEER x = fle m.body 0 2 % 1024 ∧ (t.mig x).waits = false
          ∧ Kept [GR_MIG.PEER.key x] s t)
      ∧ (s.offerReason r.val org (offerOf m.body) = 0 → s.freeSlot = some x → (List.range 256).find? s.freeBob = some tb →
        ∃ t, exec (.offer r m) s = .next t ∧ t.fld GR_MIG.STATE x = 1 ∧ t.fld GR_MIG.ROLE x = 1 ∧ t.fld GR_MIG.BOB x = tb
          ∧ t.fld GR_MIG.PBOB x = b ∧ t.fld GR_MIG.PEER x = org ∧ (t.mig x).c0 = 0 ∧ t.fld GR_STATUS.MIGSTART = 1
          ∧ ∃ y ∈ Tab.get [] t.gmsgs 0, y.1 = 0x06 ∧ y.2.dst = m.origin ∧ y.2.sbob = m.sbob ∧ y.2.body.take 2 = leBytes 2 tb)
      ∧ (s.offerReason r.val org (offerOf m.body) ≠ 0 →
        ∃ t, exec (.offer r m) s = .next t ∧ t.regs = s.regs ∧ t.migs = s.migs
          ∧ ∃ y ∈ Tab.get [] t.gmsgs 0, y.1 = 0x07 ∧ y.2.dst = m.origin ∧ y.2.sbob = m.sbob
            ∧ y.2.body = leBytes 1 (s.offerReason r.val org (offerOf m.body)))
      ∧ (s.slotFor 0 b org = some x → s.migState x = 1 → (s.mig x).c0 = 0 → (s.mig x).waits = false →
        ∃ t, exec (.accept r m) s = .next t ∧ t.fld GR_MIG.PBOB x = fle m.body 0 1 ∧ (t.mig x).c0 = s.cycNear (fle m.body 2 2)
          ∧ Kept [GR_MIG.PBOB.key x] s t)
      ∧ (s.slotOf 0 b = some x → s.migState x = 1 → s.fld GR_MIG.PEER x = org → (s.mig x).code = 1 → (s.mig x).waits = false →
        ∃ t, exec (.refuse r m) s = .next t ∧ t.migState x = 0 ∧ t.fld GR_CMDRES.RESULT = 4
          ∧ t.fld GR_CMDRES.REASON = fle m.body 0 1 % 16 ∧ t.fld GR_BMODE.MODE b = 0 ∧ t.fld GR_STATUS.MIGABORT = 1)
      ∧ (s.slotFor 1 b org = some x → s.migState x = 2 → m.seg.toNat = (s.mig x).seg →
        ∃ t, exec (.snap r m) s = .next t ∧ (t.mig x).bytes = (s.mig x).bytes ++ m.body ∧ (t.mig x).seg = (s.mig x).seg + 1
          ∧ t.regs = s.regs)
      ∧ (s.slotFor 1 b org = some x → s.migState x = 4 →
        ∃ t, exec (.digest r m) s = .next t ∧ t.regs = s.regs ∧ (agreeing → (t.mig x).agree = count)
          ∧ (¬ agreeing → (t.mig x).agree = 0)
          ∧ (agreeing → s.fld GR_CTRL.MIGMIN ≤ count → (t.mig x).ready = true))
      ∧ (s.slotFor 0 b org = some x → s.migState x = 3 →
        ∃ t, exec (.ready r m) s = .next t ∧ t.migState x = 5 ∧ (t.mig x).ch = (s.mig x).ch ∧ Kept [GR_MIG.STATE.key x] s t
          ∧ ∃ y ∈ Tab.get [] t.gmsgs 0, y.1 = 0x0B ∧ y.2.bcast = true)
      ∧ (r = 0 → (s.ringNodes 0).contains org = true →
        ∃ t, exec (.switch r m) s = .next t ∧ t.regs = s.regs ∧ t.mem = s.mem
          ∧ t.graft.moves = s.graft.moves ++ [⟨fle m.body 0 10 % 2 ^ 17, fle m.body 0 10 / 2 ^ 32 % 2 ^ 10,
              fle m.body 0 10 / 2 ^ 42 % 2 ^ 3, fle m.body 0 10 / 2 ^ 48 % 2 ^ 8, fle m.body 0 10 / 2 ^ 64 % 2 ^ 16⟩])
      ∧ (s.slotFor 0 b org = some x → (s.mig x).switched = false → (s.mig x).code ≠ 0 →
        ∃ t, exec (.abort r m) s = .next t ∧ t.migState x = 0 ∧ t.fld GR_CMDRES.RESULT = 3
          ∧ t.fld GR_CMDRES.REASON = fle m.body 0 1 % 16 ∧ t.fld GR_BMODE.MODE b = 0 ∧ t.fld GR_STATUS.MIGABORT = 1)
      ∧ (s.fld GR_STATUS.LEARN = 1 → m.body.length = 4 → fle m.body 0 4 / 2 ^ 8 % 2 ^ 17 < s.fld GR_CANOPY.NEND →
          s.badBits (canopyAddr (fle m.body 0 4 / 2 ^ 8 % 2 ^ 17) / 16 * 16) ≤ 2 →
        ∃ t, exec (.own r m) s = .next t ∧ t.regs = s.regs
          ∧ epNode (t.endpoint (fle m.body 0 4 / 2 ^ 8 % 2 ^ 17)) = org
          ∧ epBob (t.endpoint (fle m.body 0 4 / 2 ^ 8 % 2 ^ 17)) = fle m.body 0 4 % 256))
    ∧ (∀ f : TxFrame, f.ring = 0 → org = s.me →
      (f.msgs = [(0x06, m)] → s.migAt 1 1 b = some x → (((msgsSent n f s).mig x).c0 = n + 2))
      ∧ (f.msgs = [(0x0B, m)] → s.migAt 0 5 b = some x →
        ((msgsSent n f s).mig x).ch = n + 2 ∧ ((msgsSent n f s).mig x).switched = true
          ∧ (msgsSent n f s).graft.moves = s.graft.moves ++ [moveOf m.body]))
    ∧ (s.canVote = true → s.fld GR_COORDST.ROLE = 2 → s.fld GR_CTRL.CTO ≤ s.cycle → (∀ h ∈ s.graft.heard, h.2.2 + s.fld GR_CTRL.CTO ≤ s.cycle) →
      ∃ t, exec .coordinatorTakeover s = .next t ∧ t.fld GR_COORDST.ROLE = 1
        ∧ (s.me, (s.fld GR_COORDST.TERM + 1) % 64, s.cycle) ∈ t.graft.heard)

/-- O33. Where a Heartwood votes (log 175): a target collects from C0, once ACCEPT is released, as an active bobbin in silent mode;
the source takes its snapshot K cycles later; a whole snapshot is installed in the record; the switch at C_h ends the migration,
leaving the target active and the source inactive with result 2; a late migration is aborted with its reason; learning ends
after 40 cycles with the sections this node owns active. Rows: MIGRATION_COLLECT, MIGRATION_SNAPSHOT, INSTALL, OWNERSHIP_SWITCH,
MIGRATION_TIMEOUT, LEARNING_END. Spec: R323, R324, R325, R327, R328, R336. Rests on assumption log 108, 175. -/
def Obligations.MigrationsRunThroughTheirSteps : Prop :=
  ∀ (s : State) (x : Fin 8) (c reason : Nat),
    let y := s.mig x.val
    let b := s.fld GR_MIG.BOB x.val
    let role := s.fld GR_MIG.ROLE x.val
    b < 256 → s.canVote = true →
      (s.migState x.val = 1 → role = 1 → y.c0 ≠ 0 → y.sid < 2 ^ 17 →
        ∃ t, exec (.migrationCollect x) s = .next t ∧ t.migState x.val = 2 ∧ t.fld BB_CFG.ACTIVE b = 1 ∧ t.fld GR_BSID.SID b = y.sid
          ∧ t.fld GR_BSID.VALID b = 1 ∧ t.fld GR_BMODE.MODE b = 1 ∧ t.fld GR_BMODE.SLOT b = x.val
          ∧ t.tb = s.tb + (y.c0 * s.ringLen 0 - s.nowTu))
      ∧ (s.migState x.val = 1 → role = 0 → y.c0 ≠ 0 →
        ∃ t, exec (.migrationSnapshot x) s = .next t ∧ t.migState x.val = 3 ∧ (t.mig x.val).bytes = s.snapshot b
          ∧ (t.mig x.val).seg = 1 ∧ t.tb = s.tb + ((y.c0 + s.migK y.holdt) * s.ringLen 0 - s.nowTu)
          ∧ Kept [GR_MIG.STATE.key x.val] s t)
      ∧ (s.migState x.val = 2 → role = 1 → 528 ≤ y.bytes.length →
        ∃ t, exec (.install x) s = .next t ∧ t.migState x.val = 4 ∧ (t.mig x.val).inst = some s.cycle
          ∧ (∀ j, j < 0x40 → t.byte (0x28000000 + b * 0x400 + j) = y.bytes[j]?.getD 0#8) ∧ Kept [GR_MIG.STATE.key x.val] s t)
      ∧ (y.ch ≠ 0 → s.migState x.val ≠ 0 → y.switched = true → s.keeper.resetReq = none →
        ∃ t, exec (.ownershipSwitch x) s = .next t ∧ t.migState x.val = 0 ∧ t.fld GR_BMODE.MODE b = 0
          ∧ t.fld GR_STATUS.MIGDONE = 1 ∧ t.tb = s.tb + (y.ch * s.ringLen 0 - s.nowTu)
          ∧ (role = 1 → t.fld BB_CFG.ACTIVE b = s.fld BB_CFG.ACTIVE b)
          ∧ (role = 0 → t.fld BB_CFG.ACTIVE b = 0 ∧ t.fld GR_BSID.VALID b = 0 ∧ t.fld GR_CMDRES.RESULT = 2
              ∧ t.fld GR_CMDRES.BOB = b))
      ∧ (s.migLate x.val = some reason →
        ∃ t, exec (.migrationTimeout x) s = .next t ∧ t.migState x.val = 0 ∧ t.fld GR_STATUS.MIGABORT = 1
          ∧ t.fld GR_BMODE.MODE b = 0 ∧ (role = 0 → y.code ≠ 0 → t.fld GR_CMDRES.RESULT = 3 ∧ t.fld GR_CMDRES.REASON = reason))
      ∧ (s.graft.active = some c → s.graft.learned = false → s.fld GR_COORD.VC = 1 → c + 40 ≤ s.cycle →
        ∃ t, exec .learningEnd s = .next t ∧ t.fld GR_STATUS.LEARN = 0 ∧ t.graft.learned = true ∧ t.mem = s.mem
          ∧ (s.fld GR_BSID.VALID b = 1 → epNode (s.endpoint (s.fld GR_BSID.SID b)) = s.me →
              epBob (s.endpoint (s.fld GR_BSID.SID b)) = b → t.fld BB_CFG.ACTIVE b = 1)
          ∧ (¬ (s.fld GR_BSID.VALID b = 1 ∧ epNode (s.endpoint (s.fld GR_BSID.SID b)) = s.me
              ∧ epBob (s.endpoint (s.fld GR_BSID.SID b)) = b) → t.fld BB_CFG.ACTIVE b = s.fld BB_CFG.ACTIVE b))

/-- O34. With the operand fields of its form, each instruction answers the state with D set to the result of Table KM-11 and the
flags it names set from the exact result, every other flag and register unchanged, one step counted and the PC at the next word.
Rows: ADD, ADC, SUB, SBC, AND, OR, XOR, ANDN, CMP, TST, MIN, MAX, MINU, MAXU, SEL, CLZ, SXH, SXB, ZXH, ZXB, NOP. Spec: R349,
R350, Table KM-11. -/
def Obligations.RegisterArithmetic : Prop :=
  ∀ (s : State) (e : Eng) (o : ROp), s.mayStart e = true → s.fetchOk e = true →
    let a := s.reg e o.a
    let b := s.reg e o.b
    let f := s.flg e
    let ci : Nat := if f.getLsbD 2 then 1 else 0
    let nz := fun (r : Word) => setFlag (setFlag f 0 (decide (r.toNat = 0))) 1 (decide (2 ^ 31 ≤ r.toNat))
    let ovf := fun (x : Int) => decide (x < -(2 ^ 31) ∨ 2 ^ 31 ≤ x)
    let sumF := fun (c : Nat) => setFlag (setFlag (nz (BitVec.ofNat 32 (a.toNat + b.toNat + c))) 2
      (decide (2 ^ 32 ≤ a.toNat + b.toNat + c))) 3 (ovf (a.toInt + b.toInt + c))
    let difF := fun (c : Nat) => setFlag (setFlag (nz (BitVec.ofInt 32 (a.toInt - b.toInt - c))) 2
      (decide (b.toNat + c ≤ a.toNat))) 3 (ovf (a.toInt - b.toInt - c))
    let ran := fun (t : State) => (Host.Outcome.next (finish e 1 (s.nextPc e 1) t) : Host.Outcome State Fault Refusal)
    (o.dab = true →
      (∀ i c, ((i = Instr.add e o ∧ c = 0) ∨ (i = .adc e o ∧ c = ci)) →
        exec i s = ran ((s.setReg e o.d (BitVec.ofNat 32 (a.toNat + b.toNat + c))).setFlg e (sumF c)))
      ∧ (∀ i c, ((i = Instr.sub e o ∧ c = 0) ∨ (i = .sbc e o ∧ c = 1 - ci)) →
        exec i s = ran ((s.setReg e o.d (BitVec.ofInt 32 (a.toInt - b.toInt - c))).setFlg e (difF c)))
      ∧ (∀ i r, ((i = Instr.and_ e o ∧ r = a &&& b) ∨ (i = .or_ e o ∧ r = a ||| b) ∨ (i = .xor_ e o ∧ r = a ^^^ b)
          ∨ (i = .andn e o ∧ r = a &&& ~~~b)) → exec i s = ran ((s.setReg e o.d r).setFlg e (nz r)))
      ∧ (∀ i r, ((i = Instr.min e o ∧ r = if a.toInt ≤ b.toInt then a else b) ∨ (i = .max e o ∧ r = if a.toInt ≤ b.toInt then b else a)
          ∨ (i = .minu e o ∧ r = if a.toNat ≤ b.toNat then a else b) ∨ (i = .maxu e o ∧ r = if a.toNat ≤ b.toNat then b else a)) →
          exec i s = ran (s.setReg e o.d r)))
    ∧ (o.ab = true → exec (.cmp e o) s = ran (s.setFlg e (difF 0)) ∧ exec (.tst e o) s = ran (s.setFlg e (nz (a &&& b))))
    ∧ (o.da = true →
      (∀ n, n ≤ 32 → a.toNat < 2 ^ (32 - n) → (n < 32 → 2 ^ (31 - n) ≤ a.toNat) →
        exec (.clz e o) s = ran (s.setReg e o.d (BitVec.ofNat 32 n)))
      ∧ (∀ i r, ((i = Instr.sxh e o ∧ r = BitVec.ofInt 32 (BitVec.ofNat 16 a.toNat).toInt)
          ∨ (i = .sxb e o ∧ r = BitVec.ofInt 32 (BitVec.ofNat 8 a.toNat).toInt)
          ∨ (i = .zxh e o ∧ r = BitVec.ofNat 32 (a.toNat % 2 ^ 16)) ∨ (i = .zxb e o ∧ r = BitVec.ofNat 32 (a.toNat % 2 ^ 8))) →
          exec i s = ran (s.setReg e o.d r)))
    ∧ (o.x = false → o.aux.toNat < 16 →
      exec (.sel e o) s = ran (s.setReg e o.d (if condHolds o.aux.toNat f then a else b)))
    ∧ (o.none = true → exec (.nop e o) s = ran s)

/-- O35. Shifts by every amount, with C the last bit shifted out; the low and high products, the rounded Q1.31 product with its
saturation; quotients and remainders truncated toward zero, by zero, and of the most negative number by -1 (V of REM there is
left open). Rows: SHL, SHR, SAR, ROR, SHLI, SHRI, SARI, RORI, MUL, MULH, MULHU, MULQ, DIV, DIVU, REM, REMU. Spec: R349, R351,
R352, R353. Rests on assumption log 20. -/
def Obligations.ShiftsProductsQuotients : Prop :=
  ∀ (s : State) (e : Eng) (o : ROp), s.mayStart e = true → s.fetchOk e = true →
    let a := s.reg e o.a
    let b := s.reg e o.b
    let f := s.flg e
    let nz := fun (r : Word) => setFlag (setFlag f 0 (decide (r.toNat = 0))) 1 (decide (2 ^ 31 ≤ r.toNat))
    let ran := fun (k : Nat) (t : State) => (Host.Outcome.next (finish e k (s.nextPc e 1) t) : Host.Outcome State Fault Refusal)
    let put := fun (k : Nat) (r fl : Word) => ran k ((s.setReg e o.d r).setFlg e fl)
    (∀ i j n, ((i = Instr.shl e o ∧ j = Instr.shr e o ∧ o.dab = true ∧ n = b.toNat % 256)
        ∨ (i = Instr.shli e o ∧ j = Instr.shri e o ∧ o.da5 = true ∧ n = o.aux.toNat)) →
      exec i s = put 1 (BitVec.ofNat 32 (a.toNat * 2 ^ n))
        (if n = 0 then nz a else setFlag (nz (BitVec.ofNat 32 (a.toNat * 2 ^ n))) 2 ((a.toNat * 2 ^ n).testBit 32))
      ∧ exec j s = put 1 (BitVec.ofNat 32 (a.toNat / 2 ^ n))
        (if n = 0 then nz a else setFlag (nz (BitVec.ofNat 32 (a.toNat / 2 ^ n))) 2 (a.toNat.testBit (n - 1))))
    ∧ (∀ i j n, ((i = Instr.sar e o ∧ j = Instr.ror e o ∧ o.dab = true ∧ n = b.toNat % 256)
        ∨ (i = Instr.sari e o ∧ j = Instr.rori e o ∧ o.da5 = true ∧ n = o.aux.toNat)) →
      exec i s = put 1 (BitVec.ofInt 32 (a.toInt / 2 ^ n))
        (if n = 0 then nz a else setFlag (nz (BitVec.ofInt 32 (a.toInt / 2 ^ n))) 2 (a.getLsbD (min n 32 - 1)))
      ∧ exec j s = put 1 (a.rotateRight (n % 32))
        (if n % 32 = 0 then nz a else setFlag (nz (a.rotateRight (n % 32))) 2 (a.getLsbD (n % 32 - 1))))
    ∧ (o.dab = true →
      (∀ i r, ((i = Instr.mul e o ∧ r = BitVec.ofNat 32 (a.toNat * b.toNat))
          ∨ (i = .mulh e o ∧ r = BitVec.ofInt 32 (a.toInt * b.toInt / 2 ^ 32))
          ∨ (i = .mulhu e o ∧ r = BitVec.ofNat 32 (a.toNat * b.toNat / 2 ^ 32))) → exec i s = put 2 r (nz r))
      ∧ (let x := (a.toInt * b.toInt + 2 ^ 30) / 2 ^ 31
        (x < 2 ^ 31 → exec (.mulq e o) s = put 2 (BitVec.ofInt 32 x) (nz (BitVec.ofInt 32 x)))
        ∧ (a = 0x80000000#32 → b = 0x80000000#32 → exec (.mulq e o) s = put 2 0x7FFFFFFF#32 (setFlag (nz 0x7FFFFFFF#32) 4 true)))
      ∧ (b = 0#32 → ∀ i r, ((i = Instr.div e o ∧ r = 0#32) ∨ (i = .divu e o ∧ r = 0#32) ∨ (i = .rem e o ∧ r = a)
          ∨ (i = .remu e o ∧ r = a)) → exec i s = put 34 r (setFlag (nz r) 3 true))
      ∧ (b ≠ 0#32 → ∀ i r, ((i = Instr.divu e o ∧ r = BitVec.ofNat 32 (a.toNat / b.toNat))
          ∨ (i = .remu e o ∧ r = BitVec.ofNat 32 (a.toNat % b.toNat))
          ∨ (i = .div e o ∧ (a ≠ 0x80000000#32 ∨ b ≠ 0xFFFFFFFF#32) ∧ r = BitVec.ofInt 32 (a.toInt.tdiv b.toInt))
          ∨ (i = .rem e o ∧ (a ≠ 0x80000000#32 ∨ b ≠ 0xFFFFFFFF#32) ∧ r = BitVec.ofInt 32 (a.toInt.tmod b.toInt))) →
          exec i s = put 34 r (setFlag (nz r) 3 false))
      ∧ (a = 0x80000000#32 → b = 0xFFFFFFFF#32 →
        exec (.div e o) s = put 34 a (setFlag (nz a) 3 true)
        ∧ ∃ v, exec (.rem e o) s = put 34 0#32 (setFlag (nz 0#32) 3 v)))

/-- O36. IMM17 sign-extended for ADDI, CMPI and MOVI and zero-extended for ANDI, ORI, XORI and TSTI, or the extension word, gives
the result and flags; one step and word more with the extension; an extended form whose IMM17 is not 0 is an illegal
instruction. Rows: ADDI, ANDI, ORI, XORI, CMPI, MOVI, TSTI. Spec: R343, R344, R346, R351. -/
def Obligations.Immediates : Prop :=
  ∀ (s : State) (e : Eng) (o : IOp), s.mayStart e = true → s.fetchOk e (wordsOf o.ext) = true →
    let a := s.reg e o.a
    let f := s.flg e
    let w := if o.ext = none then 1 else 2
    let im : Word := match o.ext with | some v => v | none => BitVec.ofInt 32 o.imm.toInt
    let iu : Word := match o.ext with | some v => v | none => BitVec.ofNat 32 o.imm.toNat
    let nz := fun (r : Word) => setFlag (setFlag f 0 (decide (r.toNat = 0))) 1 (decide (2 ^ 31 ≤ r.toNat))
    let ovf := fun (x : Int) => decide (x < -(2 ^ 31) ∨ 2 ^ 31 ≤ x)
    let ran := fun (t : State) => (Host.Outcome.next (finish e w (s.nextPc e w) t) : Host.Outcome State Fault Refusal)
    ((o.ext = none ∨ o.imm = 0#17) →
      exec (.addi e o) s = ran ((s.setReg e o.d (BitVec.ofNat 32 (a.toNat + im.toNat))).setFlg e
        (setFlag (setFlag (nz (BitVec.ofNat 32 (a.toNat + im.toNat))) 2 (decide (2 ^ 32 ≤ a.toNat + im.toNat))) 3
          (ovf (a.toInt + im.toInt))))
      ∧ (∀ i r, ((i = Instr.andi e o ∧ r = a &&& iu) ∨ (i = .ori e o ∧ r = a ||| iu) ∨ (i = .xori e o ∧ r = a ^^^ iu)) →
        exec i s = ran ((s.setReg e o.d r).setFlg e (nz r)))
      ∧ (o.a = 0 → exec (.movi e o) s = ran (s.setReg e o.d im))
      ∧ (o.d = 0 → exec (.tsti e o) s = ran (s.setFlg e (nz (a &&& iu)))
        ∧ exec (.cmpi e o) s = ran (s.setFlg e (setFlag (setFlag (nz (BitVec.ofInt 32 (a.toInt - im.toInt))) 2
          (decide (im.toNat ≤ a.toNat))) 3 (ovf (a.toInt - im.toInt))))))
    ∧ (¬ (o.ext = none ∨ o.imm = 0#17) →
      exec (.addi e o) s = .next (takeFault e 1 0 (s.eng e.idx).pc.toNat s))

/-- O37. For an address the engine may read at once, each load puts the bytes at the address, extended as its form says, into D and
changes no memory; LDQ fills four registers and no other; an address that Table KM-13 refuses takes that fault with the address.
Rows: LDW, LDH, LDHU, LDB, LDBU, LDX, LDQ. Spec: R354, R357, Table KM-8, Table KM-13. Rests on assumption log 21, 22. -/
def Obligations.LoadsReadMemory : Prop :=
  ∀ (s : State) (e : Eng) (o : IOp) (x : ROp) (fn : BitVec 7) (n c d : Nat) (sg : Bool),
    s.mayStart e = true → s.fetchOk e (wordsOf o.ext) = true → (n = 1 ∨ n = 2 ∨ (n = 4 ∧ sg = false)) →
      let w := wordsOf o.ext
      let load : Instr := if n = 4 then .ldw e o else if n = 2 then (if sg then .ldh e o else .ldhu e o)
        else if sg then .ldb e o else .ldbu e o
      let fno : Nat := if n = 4 then 0 else if n = 2 then (if sg then 1 else 2) else if sg then 3 else 4
      let ext := fun (v : Nat) => if sg then BitVec.ofInt 32 (BitVec.ofNat (8 * n) v).toInt else BitVec.ofNat 32 v
      let near := fun (a : Nat) => regionOf a ≠ .dev ∧ s.badBits (engKey e a) = 0 ∧
        (regionOf a = .hwram ∨ (s.votes e = false ∧ ((regionOf a).arbitrated = false ∨ s.arbHolds (s.reqOf e) = false)))
      (o.extOk = true → let a := (s.reg e o.a + o.simm).toNat
        (accessFault e (s.votes e) a n false = none → near a →
          exec load s = .next (finish e (1 + w) (s.nextPc e w) (s.setReg e o.d (ext (s.rd (engKey e a) n)))))
        ∧ (accessFault e (s.votes e) a n false = some (c, d) → exec load s = .next (takeFault e c d a s))
        ∧ (blockReg o.d = true → accessFault e (s.votes e) a 16 false = none → near a →
          ∃ t, exec (.ldq e o) s = .next t ∧ t.mem = s.mem ∧ t.flg e = s.flg e ∧ (t.eng e.idx).pc = s.nextPc e w
            ∧ (∀ j : Fin 16, j.val < 4 → t.reg e (o.d + j) = BitVec.ofNat 32 (s.rd (engKey e a + 4 * j.val) 4))
            ∧ (∀ j : Fin 16, (j.val < o.d.val ∨ o.d.val + 4 ≤ j.val) → t.reg e j = s.reg e j))
        ∧ (blockReg o.d = true → accessFault e (s.votes e) a 16 false = some (c, d) →
          exec (.ldq e o) s = .next (takeFault e c d a s)))
      ∧ (x.x = false → x.aux.toNat < 4 → fn.toNat = fno →
        let a := (s.reg e x.a + (s.reg e x.b <<< x.aux.toNat)).toNat
        (accessFault e (s.votes e) a n false = none → near a →
          exec (.ldx e x fn) s = .next (finish e 2 (s.nextPc e 1) (s.setReg e x.d (ext (s.rd (engKey e a) n)))))
        ∧ (accessFault e (s.votes e) a n false = some (c, d) → exec (.ldx e x fn) s = .next (takeFault e c d a s)))

/-- O38. For local memory and unlocked shared memory each store writes exactly the bytes at its address from D and nothing else; a
voted store outside the sphere adds the write to the open group of its core; STQ stores four registers; an address that Table
KM-13 refuses takes that fault. Rows: STW, STH, STB, STX, STQ. Spec: R30, R354, R384, Table KM-8. Rests on assumption log 21,
22. -/
def Obligations.StoresWriteMemory : Prop :=
  ∀ (s : State) (e : Eng) (o : IOp) (x : ROp) (fn : BitVec 7) (n c d : Nat),
    s.mayStart e = true → s.fetchOk e (wordsOf o.ext) = true → (n = 1 ∨ n = 2 ∨ n = 4) →
      let w := wordsOf o.ext
      let store : Instr := if n = 4 then .stw e o else if n = 2 then .sth e o else .stb e o
      let fno : Nat := if n = 4 then 0 else if n = 2 then 1 else 2
      let near := fun (a : Nat) => regionOf a = .lram ∨ regionOf a = .hwram ∨
        (regionOf a = .shared ∧ s.votes e = false ∧ s.inOrigin a = false ∧ s.inShadow a = false ∧ s.arbHolds (s.reqOf e) = false)
      let far := fun (a : Nat) => s.votes e = true ∧ regionOf a ≠ .hwram ∧ engPerm e true a true = .ok
      (o.extOk = true → let a := (s.reg e o.a + o.simm).toNat
        (accessFault e (s.votes e) a n true = none → near a → s.badBits (engKey e a) = 0 →
          exec store s = .next (finish e (1 + w) (s.nextPc e w) (s.wr (engKey e a) n ((s.reg e o.d).toNat % 256 ^ n))))
        ∧ (accessFault e (s.votes e) a n true = none → far a →
          exec store s = .next (finish e (1 + w) (s.nextPc e w) (pushWrite e.idx (mkWrite a n ((s.reg e o.d).toNat % 256 ^ n)) s)))
        ∧ (accessFault e (s.votes e) a n true = some (c, d) → exec store s = .next (takeFault e c d a s))
        ∧ (blockReg o.d = true → accessFault e (s.votes e) a 16 true = none → near a →
          ∃ t, exec (.stq e o) s = .next t ∧ (t.eng e.idx).pc = s.nextPc e w ∧ (∀ j : Fin 16, t.reg e j = s.reg e j)
            ∧ (∀ i, i < 16 → t.byte (engKey e a + i) = BitVec.ofNat 8 ((s.reg e (o.d + Fin.ofNat 16 (i / 4))).toNat / 256 ^ (i % 4)))
            ∧ (∀ k, k < engKey e a ∨ engKey e a + 16 ≤ k → t.byte k = s.byte k))
        ∧ (blockReg o.d = true → accessFault e (s.votes e) a 16 true = some (c, d) →
          exec (.stq e o) s = .next (takeFault e c d a s)))
      ∧ (x.x = false → x.aux.toNat < 4 → fn.toNat = fno →
        let a := (s.reg e x.a + (s.reg e x.b <<< x.aux.toNat)).toNat
        (accessFault e (s.votes e) a n true = none → near a → s.badBits (engKey e a) = 0 →
          exec (.stx e x fn) s = .next (finish e 2 (s.nextPc e 1) (s.wr (engKey e a) n ((s.reg e x.d).toNat % 256 ^ n))))
        ∧ (accessFault e (s.votes e) a n true = some (c, d) → exec (.stx e x fn) s = .next (takeFault e c d a s)))

/-- O39. A branch goes to its target when its condition holds and to the next word else, and links W15 only when taken; MFS reads
PC, FLG, CAUSE, STEP, CAPS and EVP; MTS writes FLG and a legal EVP and faults on others; RTD restores FLG and PC from the stack
and moves W14. Rows: B, BL, BR, BLR, MFS, MTS, RTD. Spec: R350, R356, R358, Table KM-2, Table KM-7. Rests on assumption log 41. -/
def Obligations.BranchesAndSpecialRegisters : Prop :=
  ∀ (s : State) (e : Eng) (o : BOp) (x : ROp), s.mayStart e = true → s.fetchOk e (wordsOf o.ext) = true →
    let en := s.eng e.idx
    let w := if o.ext = none then 1 else 2
    let target : Word := match o.ext with | some v => v | none => en.pc + BitVec.ofInt 32 (4 * o.off.toInt)
    let next := en.pc + BitVec.ofNat 32 (4 * w)
    let a := s.reg e x.a
    let ran := fun (k : Nat) (pc : Word) (t : State) => (Host.Outcome.next (finish e k pc t) : Host.Outcome State Fault Refusal)
    ((o.ext = none ∨ o.off = 0#21) →
      (condHolds o.cond.val en.flg = true →
        exec (.b e o) s = ran (w + 1) target s ∧ exec (.bl e o) s = ran (w + 1) target (s.setReg e 15 next))
      ∧ (condHolds o.cond.val en.flg = false → exec (.b e o) s = ran (w + 1) next s ∧ exec (.bl e o) s = ran (w + 1) next s))
    ∧ (x.onlyA = true →
      exec (.br e x) s = ran 2 a s ∧ exec (.blr e x) s = ran 2 a (s.setReg e 15 (en.pc + 4#32)))
    ∧ (x.a = 0 → x.b = 0 → x.x = false →
      ∀ v : Word, ((x.aux = 0#6 ∧ v = en.pc) ∨ (x.aux = 1#6 ∧ v = en.flg)
          ∨ (x.aux = 2#6 ∧ v = BitVec.ofNat 32 (en.code.toNat + 256 * en.detail.toNat + 65536 * en.pend.toNat))
          ∨ (x.aux = 3#6 ∧ v = en.step) ∨ (x.aux = 4#6 ∧ v = s.caps e) ∨ (x.aux = 5#6 ∧ v = en.evp &&& 0xFFFFFFF0#32)) →
        exec (.mfs e x) s = ran 1 (en.pc + 4#32) (s.setReg e x.d v))
    ∧ (x.d = 0 → x.b = 0 → x.x = false →
      let then_ := fun (t : State) => (Host.Outcome.next (if t.between e then takeEvent e t else t) : Host.Outcome State Fault Refusal)
      (x.aux = 1#6 → exec (.mts e x) s = then_ (finish e 1 (en.pc + 4#32) (s.setFlg e (a &&& 0xFFFF007F#32))))
      ∧ (x.aux = 5#6 → a.toNat % 16 = 0 → inInstrMem e a.toNat = true →
        exec (.mts e x) s = then_ (finish e 1 (en.pc + 4#32) (s.modEng e.idx (fun y => { y with evp := a }))))
      ∧ (x.aux = 5#6 → (a.toNat % 16 ≠ 0 ∨ inInstrMem e a.toNat = false) → exec (.mts e x) s = .next (takeFault e 6 1 0 s))
      ∧ (x.aux ≠ 1#6 → x.aux ≠ 5#6 → exec (.mts e x) s = .next (takeFault e 1 0 en.pc.toNat s)))
    ∧ (x.none = true →
      let sp := (s.reg e 14).toNat
      let v := s.rd (engKey e sp) 16
      (accessFault e (s.votes e) sp 16 false = none → s.badBits (engKey e sp) = 0 →
          (regionOf sp = .hwram ∨ (s.votes e = false ∧ ((regionOf sp).arbitrated = false ∨ s.arbHolds (s.reqOf e) = false))) →
        let t := finish e 6 (BitVec.ofNat 32 (v / 2 ^ 32))
          ((s.setFlg e (BitVec.ofNat 32 v &&& 0xFFFF007F#32)).setReg e 14 (s.reg e 14 + 16#32))
        exec (.rtd e x) s = .next (if t.between e then takeEvent e t else t))
      ∧ (∀ c d, accessFault e (s.votes e) sp 16 false = some (c, d) → exec (.rtd e x) s = .next (takeFault e c d sp s)))

/-- O40. Entry pushes FLG, the return PC, the address and CAUSE at W14 - 16, clears EI, sets DSP, goes to EVP (bits 3:0 read 0) plus
its slot and counts 6 steps, ends any wait in the middle of an instruction, and changes no other register or byte; without a
writable stack the engine stops. TRAP, the lowest qualifying event between two instructions, WAIT and BRK enter it, wait or halt
as their rules say. An instruction fetched off its word, outside instruction memory or from a block with an uncorrectable error
takes the fetch fault with code 5 and PC as address; a correctable block is corrected first. Rows: TRAP, WAIT, BRK,
EVENT_DISPATCH. Spec: R357, R360, R361, R362, R363, R364. Rests on assumption log 42, 157. -/
def Obligations.DispatchIsEntered : Prop :=
  ∀ (s : State) (e : Eng) (x : ROp),
    let en := s.eng e.idx
    let next := en.pc + 4#32
    let u := if s.votes e then closeGroup e.idx .plain s else s
    let fin := finish e 1 next u
    (∀ slot code detail : Nat, ∀ ret adr : Word, code < 256 → detail < 256 → en.w[14].toNat % 16 = 0 → 16 ≤ en.w[14].toNat →
        s.blockWritable e (en.w[14].toNat - 16) = true →
        (s.votes e = false ∨ regionOf (en.w[14].toNat - 16) = .hwram) →
      let t := dispatchEntry e slot code detail ret.toNat adr.toNat s
      let k := engKey e (en.w[14].toNat - 16)
      t.reg e 14 = s.reg e 14 - 16#32 ∧ (∀ j : Fin 16, j ≠ 14 → t.reg e j = s.reg e j)
        ∧ t.rd k 4 = en.flg.toNat ∧ t.rd (k + 4) 4 = ret.toNat ∧ t.rd (k + 8) 4 = adr.toNat
        ∧ t.rd (k + 12) 4 = code + 256 * detail + 65536 * en.pend.toNat
        ∧ (∀ j, j < k ∨ k + 16 ≤ j → t.byte j = s.byte j)
        ∧ (t.eng e.idx).code.toNat = code ∧ (t.eng e.idx).detail.toNat = detail
        ∧ t.flg e = setFlag (setFlag en.flg 5 false) 6 true ∧ (t.eng e.idx).pc = (en.evp &&& 0xFFFFFFF0#32) + BitVec.ofNat 32 slot
        ∧ (t.eng e.idx).midway = false
        ∧ (t.eng e.idx).step.toNat = min (2 ^ 32 - 1) (en.step.toNat + 6))
    ∧ ((en.w[14].toNat % 16 ≠ 0 ∨ en.w[14].toNat < 16 ∨ s.blockWritable e (en.w[14].toNat - 16) = false) →
      ∀ slot code detail ret adr, ((dispatchEntry e slot code detail ret adr s).eng e.idx).run = .stopped)
    ∧ (∀ ev, s.alive e = true → en.midway = false → en.qualify = some ev →
      exec (.eventDispatch e) s = .next (dispatchEntry e 0x8 (0x40 + ev) 0 en.pc.toNat 0
        (s.modEng e.idx (fun y => { y with pend := y.pend &&& ~~~(1#16 <<< ev) }))))
    ∧ (s.mayStart e = true → s.fetchOk e = true → x.d = 0 → x.a = 0 → x.b = 0 → x.x = false →
      (en.flg.getLsbD 6 = false →
        exec (.trap e x) s = .next (dispatchEntry e 0x4 0x80 x.aux.toNat next.toNat 0 (finish e 1 next s)))
      ∧ (en.flg.getLsbD 6 = true → ∃ t, exec (.trap e x) s = .next t ∧ (t.eng e.idx).run = .stopped)
      ∧ (x.aux = 0#6 →
        ((u.eng e.idx).qualify = none →
          ((u.eng e.idx).wakes = true → exec (.wait e x) s = .next fin)
          ∧ ((u.eng e.idx).wakes = false →
            exec (.wait e x) s = .next (addSteps e 1 (u.modEng e.idx (fun y =>
              { y with pc := next, midway := false, run := if y.run = .stopped then .stopped else .waiting })))))
        ∧ (s.fld RB_STRAP.SDBG = 0 → exec (.brk e x) s = .next (takeFault e 1 0 en.pc.toNat s))
        ∧ (s.fld RB_STRAP.SDBG = 1 → (s.votes e = false ∨ (u.core e.idx).closed = []) → (fin.eng e.idx).run ≠ .stopped →
          ∃ t, exec (.brk e x) s = .next t ∧ (t.eng e.idx).run = .halted ∧ (t.eng e.idx).pc = next ∧ t.fld DB_STATUS.BRK = 1)))
    ∧ (s.alive e = true → en.qualify.isSome = true → s.fetchOk e = true → x.none = true →
      exec (.wait e x) s = .next (takeEvent e fin))
    ∧ (s.mayStart e = true → s.fetchShared e en.pc.toNat = false →
      ((en.pc.toNat % 4 ≠ 0 ∨ inInstrMem e en.pc.toNat = false) → exec (.nop e x) s = .next (takeFault e 5 0 en.pc.toNat s))
      ∧ (en.pc.toNat % 4 = 0 → inInstrMem e en.pc.toNat = true →
        let k := engKey e en.pc.toNat
        let p := s.ueInput e en.pc.toNat
        (3 ≤ s.badBits k → exec (.nop e x) s = .next (takeFault e 5 0 en.pc.toNat (s.recordUe p k false)))
        ∧ (s.badBits k = 1 ∨ s.badBits k = 2 → x.none = true →
          exec (.nop e x) s = .next (finish e 1 next (s.correct k)))))

/-- O41. Each instruction of the Sapwood profile gives the clamped result of its form with Q set exactly when it was clamped; MAC
and MSU in their four forms, TCOR over four samples, LUTI at and beyond the end of its table, and the saturating forms on words
and half-words. Rows: MAC, MSU, ACLR, ARD, AWR, TCOR, LUTI, ADDS, SUBS, ADDS2, SUBS2, NEGS, ABSS, SATH, SHLS. Spec: R369, R370,
R373, R374, Table KM-15. Rests on assumption log 23, 48. -/
def Obligations.SignalArithmetic : Prop :=
  ∀ (s : State) (k : Fin 6) (o : ROp), s.mayStart (.se k) = true → s.fetchOk (.se k) = true → o.x = false →
    let e : Eng := .se k
    let a := s.reg e o.a
    let b := s.reg e o.b
    let f := s.flg e
    let i := o.aux.toNat % 2
    let m := if i = 0 then (s.eng e.idx).m0.toInt else (s.eng e.idx).m1.toInt
    let half := fun (v : Nat) => (BitVec.ofNat 16 v).toInt
    let hi := fun (w : Word) => half (w.toNat / 2 ^ 16)
    let lo := fun (w : Word) => half w.toNat
    let clamp := fun (w : Nat) (x : Int) => max (-(2 ^ (w - 1) : Int)) (min ((2 ^ (w - 1) : Int) - 1) x)
    let nz := fun (r : Word) => setFlag (setFlag f 0 (decide (r.toNat = 0))) 1 (decide (2 ^ 31 ≤ r.toNat))
    let q := fun (w : Nat) (x : Int) (fl : Word) => if clamp w x = x then fl else setFlag fl 4 true
    let ran := fun (n : Nat) (t : State) => (Host.Outcome.next (finish e n (s.nextPc e 1) t) : Host.Outcome State Fault Refusal)
    (o.aux.toNat < 8 → o.d = 0 →
      (∀ ins sg x, ((ins = Instr.mac e o ∧ sg = (1 : Int)) ∨ (ins = .msu e o ∧ sg = -1)) →
          ((o.aux.toNat / 2 = 0 ∧ x = lo a * lo b + hi a * hi b) ∨ (o.aux.toNat / 2 = 1 ∧ x = lo a * hi b + hi a * lo b)
            ∨ (o.aux.toNat / 2 = 2 ∧ hi b = 0 ∧ x = a.toInt * lo b / 32768)
            ∨ (o.aux.toNat / 2 = 3 ∧ o.b = 0 ∧ x = lo a * lo a + hi a * hi a)) →
        exec ins s = ran 1 ((s.setAcc e i (clamp 40 (m + sg * x))).setFlg e (q 40 (m + sg * x) f)))
      ∧ (o.aux.toNat / 2 = 2 → hi b ≠ 0 → ∀ ins, (ins = Instr.mac e o ∨ ins = .msu e o) →
        ∃ d, exec ins s = .next (takeFault e 6 d 0 s)))
    ∧ (o.aux.toNat < 2 → o.d = 0 → o.b = 0 →
      (o.a = 0 → exec (.aclr e o) s = ran 1 (s.setAcc e i 0)) ∧ exec (.awr e o) s = ran 1 (s.setAcc e i a.toInt))
    ∧ (o.a = 0 → o.b = 0 →
      let n := o.aux.toNat / 2
      let v := if n = 0 then m else (m + 2 ^ (n - 1)) / 2 ^ n
      exec (.ard e o) s = ran 2 ((s.setReg e o.d (BitVec.ofInt 32 (clamp 32 v))).setFlg e (q 32 v f)))
    ∧ (o.d = 0 → o.aux = 0#6 → a.toNat % 8 = 0 → b.toNat % 8 = 0 → 0x40000000 ≤ a.toNat → a.toNat + 8 ≤ 0x40020000 →
        0x40000000 ≤ b.toNat → b.toNat + 8 ≤ 0x40020000 → s.badBits (engKey e a.toNat) = 0 → s.badBits (engKey e b.toNat) = 0 →
      let x := fun (j : Nat) => half (s.rd (engKey e (a.toNat + 2 * j)) 2)
      let y := fun (j : Nat) => half (s.rd (engKey e (b.toNat + 2 * j)) 2)
      let v0 := (s.eng e.idx).m0.toInt + (x 0 * y 0 + x 1 * y 1 + x 2 * y 2 + x 3 * y 3)
      let v1 := (s.eng e.idx).m1.toInt + (x 0 * x 0 + x 1 * x 1 + x 2 * x 2 + x 3 * x 3)
      ∃ t, exec (.tcor e o) s = .next t ∧ (t.eng e.idx).m0.toInt = clamp 40 v0 ∧ (t.eng e.idx).m1.toInt = clamp 40 v1
        ∧ t.flg e = q 40 v1 (q 40 v0 f) ∧ t.mem = s.mem ∧ (t.eng e.idx).pc = s.nextPc e 1
        ∧ (o.a ≠ o.b → t.reg e o.a = a + 8#32 ∧ t.reg e o.b = b + 8#32)
        ∧ (∀ j : Fin 16, j ≠ o.a → j ≠ o.b → t.reg e j = s.reg e j))
    ∧ (o.aux ≠ 0#6 → a.toNat % 2 = 0 → 0x40000000 ≤ a.toNat → a.toNat + 2 * o.aux.toNat + 2 ≤ 0x40020000 →
        (∀ j, j ≤ o.aux.toNat → s.badBits (engKey e (a.toNat + 2 * j)) = 0) →
      let y := fun (j : Nat) => half (s.rd (engKey e (a.toNat + 2 * j)) 2)
      let n := b.toNat / 2 ^ 16
      exec (.luti e o) s = ran 5 (s.setReg e o.d (BitVec.ofInt 32
        (if o.aux.toNat ≤ n then y o.aux.toNat else y n + (y (n + 1) - y n) * (b.toNat % 2 ^ 16 : Nat) / 65536))))
    ∧ (∀ ins w x, ((ins = Instr.adds e o ∧ o.dab = true ∧ w = 32 ∧ x = a.toInt + b.toInt)
        ∨ (ins = .subs e o ∧ o.dab = true ∧ w = 32 ∧ x = a.toInt - b.toInt) ∨ (ins = .negs e o ∧ o.da = true ∧ w = 32 ∧ x = -a.toInt)
        ∨ (ins = .abss e o ∧ o.da = true ∧ w = 32 ∧ x = (a.toInt.natAbs : Int))
        ∨ (ins = .shls e o ∧ o.da5 = true ∧ w = 32 ∧ x = a.toInt * 2 ^ o.aux.toNat)
        ∨ (ins = .sath e o ∧ o.da = true ∧ w = 16 ∧ x = a.toInt)) →
      exec ins s = ran 1 ((s.setReg e o.d (BitVec.ofInt 32 (clamp w x))).setFlg e (q w x (nz (BitVec.ofInt 32 (clamp w x))))))
    ∧ (o.dab = true → ∀ ins x0 x1, ((ins = Instr.adds2 e o ∧ x0 = lo a + lo b ∧ x1 = hi a + hi b)
        ∨ (ins = .subs2 e o ∧ x0 = lo a - lo b ∧ x1 = hi a - hi b)) →
      ∃ r, lo r = clamp 16 x0 ∧ hi r = clamp 16 x1 ∧ exec ins s = ran 1 ((s.setReg e o.d r).setFlg e (q 16 x1 (q 16 x0 f))))

/-- O42. CBSET takes a legal buffer and faults on others; circular accesses read or write at A and move A within the buffer, and
fault outside it; SIN takes the word of an owned latch, waits on an empty one and faults on another's; SCHK tells whether a word
waits; EIN takes the oldest edge record. Rows: CBSET, LDCW, LDCH, STCW, STCH, SIN, SCHK, EIN. Spec: R371, R372, R375. Rests on
assumption log 7, 22. -/
def Obligations.CircularAndStreamAccess : Prop :=
  ∀ (s : State) (k : Fin 6) (o : ROp), s.mayStart (.se k) = true → s.fetchOk (.se k) = true → o.x = false →
    let e : Eng := .se k
    let en := s.eng e.idx
    let a := s.reg e o.a
    let b := s.reg e o.b
    let f := s.flg e
    let i : Fin 4 := Fin.ofNat 4 o.aux.toNat
    let base := en.cbBase[i]
    let len := en.cbLen[i]
    let inc := (BitVec.ofNat 4 (o.aux.toNat / 4)).toInt
    let moved := fun (n : Nat) => base + BitVec.ofInt 32 ((((a - base).toNat : Int) + inc * n) % len)
    let ran := fun (n : Nat) (t : State) => (Host.Outcome.next (finish e n (s.nextPc e 1) t) : Host.Outcome State Fault Refusal)
    let near := fun (n : Nat) => a.toNat % n = 0 ∧ 0x40000000 ≤ a.toNat ∧ a.toNat < 0x40020000 ∧ s.badBits (engKey e a.toNat) = 0
    (o.aux.toNat < 4 → o.d = 0 →
      ((a.toNat % 4 = 0 ∧ b.toNat % 4 = 0 ∧ 4 ≤ b.toNat ∧ b.toNat ≤ 65536) →
        ∃ t, exec (.cbset e o) s = .next t ∧ (t.eng e.idx).cbBase[i] = a ∧ (t.eng e.idx).cbLen[i] = b.toNat
          ∧ (∀ j : Fin 4, j ≠ i → (t.eng e.idx).cbBase[j] = en.cbBase[j] ∧ (t.eng e.idx).cbLen[j] = en.cbLen[j])
          ∧ (t.eng e.idx).w = en.w ∧ t.flg e = f ∧ t.mem = s.mem ∧ (t.eng e.idx).pc = s.nextPc e 1)
      ∧ (¬ (a.toNat % 4 = 0 ∧ b.toNat % 4 = 0 ∧ 4 ≤ b.toNat ∧ b.toNat ≤ 65536) →
        exec (.cbset e o) s = .next (takeFault e 6 2 0 s)))
    ∧ (o.b = 0 →
      ((a - base).toNat < len →
        (near 4 → exec (.ldcw e o) s = ran 2 ((s.setReg e o.d (BitVec.ofNat 32 (s.rd (engKey e a.toNat) 4))).setReg e o.a (moved 4)))
        ∧ (near 2 → exec (.ldch e o) s
            = ran 2 ((s.setReg e o.d (BitVec.ofInt 32 (BitVec.ofNat 16 (s.rd (engKey e a.toNat) 2)).toInt)).setReg e o.a (moved 2)))
        ∧ (near 4 → exec (.stcw e o) s
            = ran 2 ((s.wr (engKey e a.toNat) 4 ((s.reg e o.d).toNat % 256 ^ 4)).setReg e o.a (moved 4)))
        ∧ (near 2 → exec (.stch e o) s
            = ran 2 ((s.wr (engKey e a.toNat) 2 ((s.reg e o.d).toNat % 256 ^ 2)).setReg e o.a (moved 2))))
      ∧ (len ≤ (a - base).toNat → ∀ ins, (ins = Instr.ldcw e o ∨ ins = .ldch e o ∨ ins = .stcw e o ∨ ins = .stch e o) →
        exec ins s = .next (takeFault e 6 2 a.toNat s)))
    ∧ (o.a = 0 → o.b = 0 → o.d.val % 2 = 0 → o.d.val ≤ 12 →
      (s.hasLatch e.idx o.aux.toNat = false → exec (.sin e o) s = .next (takeFault e 7 o.aux.toNat 0 s))
      ∧ (s.hasLatch e.idx o.aux.toNat = true → s.latchOf e.idx o.aux.toNat = none → exec (.sin e o) s = .next s)
      ∧ (∀ w t, s.hasLatch e.idx o.aux.toNat = true → s.latchOf e.idx o.aux.toNat = some (w, t) →
        exec (.sin e o) s = ran 2 (((s.clearLatch e.idx o.aux.toNat).setReg e o.d (BitVec.ofNat 32 w)).setReg e (o.d + 1)
          (BitVec.ofNat 32 t)))
      ∧ (o.aux = 0#6 → s.edgeFifo e.idx = [] → exec (.ein e o) s = ran 3 (s.setFlg e (setFlag f 0 true)))
      ∧ (∀ r rest, o.aux = 0#6 → s.edgeFifo e.idx = r :: rest →
        exec (.ein e o) s = ran 3 ((((s.setEdgeFifo e.idx rest).setReg e o.d (BitVec.ofNat 32 r)).setReg e (o.d + 1)
          (BitVec.ofNat 32 (r / 2 ^ 32))).setFlg e (setFlag f 0 false))))
    ∧ (o.a = 0 → o.b = 0 → o.d = 0 →
      exec (.schk e o) s = ran 1 (s.setFlg e (setFlag f 0
        (decide (s.hasLatch e.idx o.aux.toNat = false ∨ s.latchOf e.idx o.aux.toNat = none)))))

/-- O43. MON and RATE read their registers or fault beyond them, VSET requests 800 to 1,050 mV and refuses others with V; on a
Sapwood engine they are illegal. CFENCE and SWEEP wait for the closed groups; the first core at a SWEEP raises the sweep signal,
at whose delivery index every core gives its signature, and the others complete; LDA and LDAQ of Heartwood RAM read it, and of
shared RAM wait for a second core and then both complete. Rows: MON, VSET, RATE, CFENCE, SWEEP, LDA, LDAQ. Spec: R338, R365,
R366, R367, R376, R390. Rests on assumption log 7, 40. -/
def Obligations.RootAndHeartwoodProfiles : Prop :=
  (∀ (s : State) (o : ROp), s.mayStart .root = true → s.fetchOk .root = true → o.x = false →
    let f := s.flg .root
    let mv := (s.reg .root o.a).toNat
    let ran := fun (n : Nat) (t : State) => (Host.Outcome.next (finish .root n (s.nextPc .root 1) t) : Host.Outcome State Fault Refusal)
    (o.a = 0 → o.b = 0 →
      (o.aux.toNat ≤ 47 → exec (.mon .root o) s = ran 4 (s.setReg .root o.d (BitVec.ofNat 32 (s.fld AG_MON.READING o.aux.toNat))))
      ∧ (47 < o.aux.toNat → exec (.mon .root o) s = .next (takeFault .root 6 4 0 s))
      ∧ (o.aux.toNat ≤ 7 → exec (.rate .root o) s = ran 2 (s.setReg .root o.d (BitVec.ofNat 32 (s.fld AG_RATE.RATE o.aux.toNat))))
      ∧ (7 < o.aux.toNat → exec (.rate .root o) s = .next (takeFault .root 6 4 0 s)))
    ∧ (o.d = 0 → o.b = 0 → o.aux = 0#6 →
      (800 ≤ mv → mv ≤ 1050 →
        ∃ t, exec (.vset .root o) s = .next t ∧ t.fld PW_PGSET.SETPT 0 = mv ∧ t.flg .root = setFlag f 3 false
          ∧ Kept [PW_PGSET.SETPT.key 0, PW_PGSET.ACT.key 0] s t ∧ (t.eng 9).pc = s.nextPc .root 1)
      ∧ ((mv < 800 ∨ 1050 < mv) → exec (.vset .root o) s = ran 2 (s.setFlg .root (setFlag f 3 true))))
    ∧ ∀ k : Fin 6, s.mayStart (.se k) = true → s.fetchOk (.se k) = true →
        ∀ ins, (ins = Instr.mon (.se k) o ∨ ins = .vset (.se k) o ∨ ins = .rate (.se k) o) →
          exec ins s = .next (takeFault (.se k) 1 0 (s.eng (3 + k.val)).pc.toNat s))
  ∧ (∀ (s : State) (e : Eng) (x : ROp) (o : IOp), e.idx < 3 → s.mayStart e = true → s.fetchOk e (wordsOf o.ext) = true →
    let c := e.idx
    let u := closeGroup c .plain s
    let w := wordsOf o.ext
    let a := (s.reg e o.a + o.simm).toNat
    let ran := fun (n : Nat) (t : State) => (Host.Outcome.next (finish e n (s.nextPc e 1) t) : Host.Outcome State Fault Refusal)
    (x.none = true → s.isSplit = true → exec (.cfence e x) s = ran 2 s ∧ exec (.sweep e x) s = ran 64 s)
    ∧ (x.none = true → s.isSplit = false →
      ((u.core c).closed = [] → exec (.cfence e x) s = ran 2 u)
      ∧ ((u.core c).closed ≠ [] → exec (.cfence e x) s = .next (midway e u) ∧ exec (.sweep e x) s = .next (midway e u))
      ∧ ((u.core c).closed = [] →
        ((∀ p ∈ (u.core c).sigs, p.1 ≠ .sweep (u.eng c).retire) →
          exec (.sweep e x) s = ran 64 (u.toHeart (.sweep (u.eng c).retire)))
        ∧ ((∃ p ∈ (u.core c).sigs, p.1 = .sweep (u.eng c).retire) → exec (.sweep e x) s = ran 64 u)))
    ∧ (o.extOk = true → (s.core c).openG = [] → (s.core c).closed = [] → regionOf a = .hwram → s.badBits (engKey e a) = 0 →
      (a % 4 = 0 →
        exec (.lda e o) s = .next (finish e (2 + w) (s.nextPc e w) (s.setReg e o.d (BitVec.ofNat 32 (s.rd (engKey e a) 4)))))
      ∧ (a % 16 = 0 → blockReg o.d = true →
        ∃ t, exec (.ldaq e o) s = .next t ∧ t.mem = s.mem ∧ t.flg e = s.flg e ∧ (t.eng c).pc = s.nextPc e w
          ∧ (∀ j : Fin 16, j.val < 4 → t.reg e (o.d + j) = BitVec.ofNat 32 (s.rd (engKey e a + 4 * j.val) 4))
          ∧ (∀ j : Fin 16, (j.val < o.d.val ∨ o.d.val + 4 ≤ j.val) → t.reg e j = s.reg e j)))
    ∧ (o.extOk = true → s.isSplit = false → (s.core c).openG = [] → (s.core c).closed = [] → a % 4 = 0 → regionOf a = .shared →
        s.arbHolds .hw = false → s.badBits a = 0 →
      (s.heart.reads = [] →
        exec (.lda e o) s = .next (midway e (s.modHeart (fun h =>
          { h with reads := [{ reqs := [(c, a, 4)], val := none, taken := [], time := s.tb }] }))))
      ∧ (∀ d t, d ≠ c → s.heart.reads = [{ reqs := [(d, a, 4)], val := none, taken := [], time := t }] →
        ∃ z, exec (.lda e o) s = .next z ∧ z.reg e o.d = BitVec.ofNat 32 (s.rd a 4) ∧ (z.eng c).pc = s.nextPc e w ∧ z.mem = s.mem)))

/-- O44. A block that two of three cores present alike lands whole and alone and is expected of the third; of three waiting copies
the pair that agreed first lands; none lands while the cores are halted; no agreement among the copies present is the safe state
with kind 5; one copy too few waits; a core later than LAG, owing nothing else, is fenced out of three with its record, and in a
pair means the safe state; a group that no second copy joins stalls with kind 7; a voter fault is kind 6. Rows: COMMIT_LAND,
LAG_EXPIRY, STALL, VOTER_FAULT. Spec: R385, R386, R387, R400, R403, R405, R412, R416, R418, Table HW-2. Rests on assumption log
47. -/
def Obligations.VoterDecides : Prop :=
  ∀ s : State, s.isSafe = false → s.isSplit = false →
    (∀ g0 g1 r0 r1 w, s.voting = [0, 1, 2] → (s.core 0).closed = g0 :: r0 → (s.core 1).closed = g1 :: r1 →
        (s.core 2).closed = [] → s.heartHalted = false → s.heart.test = none → g0.writes = [w] → g1.writes = [w] → g0.why = .plain →
        w.mask = BitVec.allOnes 16 → w.blk % 16 = 0 → regionOf w.blk = .shared → s.inOrigin w.blk = false →
        s.inShadow w.blk = false → s.fld DB_TRCFG.KIND ≠ 1 →
      ∃ t, exec .commitLand s = .next t ∧ t.rd w.blk 16 = w.img.toNat
        ∧ (∀ k, (k < w.blk ∨ w.blk + 16 ≤ k) → t.byte k = s.byte k)
        ∧ (t.core 0).closed = r0 ∧ (t.core 1).closed = r1 ∧ t.voting = [0, 1, 2]
        ∧ (t.core 2).expect = (s.core 2).expect ++ [{ g0 with time := max g0.time g1.time }]
        ∧ t.fld HW_GRP.MAXW = max (s.fld HW_GRP.MAXW) 1)
    ∧ (s.heartHalted = true → exec .commitLand s = .next s)
    ∧ (∀ g0 g1 g2 r0 r1 r2, s.voting = [0, 1, 2] → (s.core 0).closed = g0 :: r0 → (s.core 1).closed = g1 :: r1 →
        (s.core 2).closed = g2 :: r2 → s.heart.test = none → g0.writes = g1.writes → g0.writes = g2.writes →
        max g0.time g2.time < max g0.time g1.time → max g0.time g2.time ≤ max g1.time g2.time →
      s.agreeing = some (0, 2, { g0 with time := max g0.time g2.time }))
    ∧ (s.heartHalted = false → s.agreeing = none → 2 ≤ s.voting.length → (∀ c ∈ s.voting, (s.core c).closed ≠ []) →
      ∃ t a, exec .commitLand s = .next t ∧ EnteredSafe 5 a s.now t ∧ t.mem = s.mem)
    ∧ (s.agreeing = none → s.firstCopies.length < s.voting.length → exec .commitLand s = .next s)
    ∧ (∀ (c : Fin 3) g rest, s.coreState c.val = 0 → (s.core c.val).expect = g :: rest → s.lateRead c.val = none →
        (∀ p ∈ s.heart.stops, p.1 ≠ c.val) → (∀ d, d < 3 → (s.core d).marked = none ∧ (s.core d).swept = none) →
      let u := s.advanceTo (g.time + s.lagTu)
      let n := (s.core c.val).phaseFences + 1
      (s.voting.length = 3 → s.heart.test = none →
        ∃ t, exec (.lagExpiry c) s = .next t ∧ t.fld HW_MIS.KIND = 1 ∧ t.fld HW_MIS.CORE = c.val ∧ t.fld HW_MIS.INJ = 0
          ∧ t.fld HW_MISTIME.TIME = u.now.toNat % 2 ^ 32 ∧ t.fld HW_STATUS.FENCE = 1
          ∧ t.coreState c.val = (if s.fld HW_PHASE.PHASE = 1 ∨ s.fld HW_CTRL.RSLIM < n then 1 else 2)
          ∧ (t.core c.val).phaseFences = n ∧ (∀ d, d < 3 → d ≠ c.val → t.coreState d = s.coreState d) ∧ t.mem = s.mem)
      ∧ (s.voting.length = 2 →
        ∃ t a, exec (.lagExpiry c) s = .next t ∧ EnteredSafe 5 a u.now t))
    ∧ (∀ c g, s.firstCopies = [(c, g)] →
      ∃ t, exec .stall s = .next t ∧ EnteredSafe 7 0 (s.advanceTo (g.time + s.stallTu)).now t)
    ∧ (s.twoAgree = true → exec .stall s = .next s)
    ∧ ∃ t, exec .voterFault s = .next t ∧ EnteredSafe 6 0 s.now t ∧ t.mem = s.mem

/-- O45. A signal is delivered when the core has reached its index or waits, and not before; a sweep signal has it give its
signature; the scrubber corrects a block and marks the core of a block whose hash changed (log 40); a self-test leaves free
values in the RAM (log 86), and one that failed, or too many fencings of which this was one, retires the core; a copy of two
equal RAMs makes the third equal and changes nothing else, and RAMs unequal at one retire index are the safe state, while at two
the copier goes on (log 182); a fencing ages out after 24 h. Rows: SIGNAL_DELIVERY, RAM_SCRUB, SELFTEST_COMPLETE, COPY_COMPLETE,
FENCING_AGE_OUT. Spec: R393, R394, R398, R404, R405, R406, R407, R409, R432, R434. Rests on assumption log 40, 86, 182. -/
def Obligations.CoresAreRestored : Prop :=
  ∀ (s : State) (c : Fin 3) (k : Nat) (v : Block),
    let many := s.fld HW_CTRL.MISMAX < (s.core c.val).fenceTimes.length
    let retired := fun (t : State) => t.coreState c.val = 4 ∧ (t.eng c.val).run = .stopped ∧ t.fld HW_STATUS.RETIRE = 1
      ∧ t.keeper.retired = s.keeper.retired ||| 2 ^ c.val ∧ (s.fld ID_BOOT.HWMODE = 0 → t.heart.modeNext = some 1)
    (s.isSafe = false → s.coreState c.val = 0 →
      (∀ e d rest, (s.core c.val).sigs = (.event e, d) :: rest → e < 16 → s.fld DB_TRCFG.KIND ≠ 2 →
        ((d ≤ (s.eng c.val).retire ∨ (s.eng c.val).waits = true) → s.heart.stepping.contains c.val = false →
          ∃ t, exec (.signalDelivery c) s = .next t ∧ (t.core c.val).sigs = rest ∧ t.regs = s.regs ∧ t.mem = s.mem
            ∧ (t.eng c.val) = { s.eng c.val with retire := max (s.eng c.val).retire d,
                                                 pend := (s.eng c.val).pend ||| (1#16 <<< e) })
        ∧ ((s.eng c.val).retire < d → (s.eng c.val).waits = false → exec (.signalDelivery c) s = .next s))
      ∧ (∀ n d rest, (s.core c.val).sigs = (.sweep n, d) :: rest → s.fld DB_TRCFG.KIND ≠ 2 → (s.core c.val).openG = [] →
          (s.core c.val).closed = [] → (s.core c.val).swept = none →
        ((d ≤ (s.eng c.val).retire ∨ (s.eng c.val).waits = true) → (∃ x ∈ s.voting, x ≠ c.val ∧ (s.core x).swept = none) →
          ∃ t, exec (.signalDelivery c) s = .next t ∧ (t.core c.val).sigs = rest ∧ t.mem = s.mem
            ∧ (t.core c.val).swept = some ((reachIndex c.val d s).markSig c.val))
        ∧ ((s.eng c.val).retire < d → (s.eng c.val).waits = false → exec (.signalDelivery c) s = .next s)))
    ∧ (s.errs = [] → kindOfKey k = 1 →
      ∃ t, exec (.ramScrub [(k, 1)] []) s = .next t ∧ t.badBits k = 0 ∧ t.mem = s.mem
        ∧ t.fld MI_CE.CE1 1 = min 65535 (s.fld MI_CE.CE1 1 + 1) ∧ t.fld MI_STATUS.CE = 1
        ∧ t.fld MI_UE.PASSN 1 = min 65535 (s.fld MI_UE.PASSN 1 + 1))
    ∧ (s.errs = [] → s.isSplit = false → kindOfKey k = 1 → k % 16 = 0 →
      let d := k / 2 ^ 32 - 1
      ∃ t, exec (.ramScrub [] [(k, v)]) s = .next t ∧ t.rd k 16 = v.toNat
        ∧ ((t.core d).sigDiff = true ↔ ((s.core d).sigDiff = true ∨ (s.core d).silent ≠ []
            ∨ Config.blockHash (k % 2 ^ 32) (BitVec.ofNat 128 (s.rd k 16)) ≠ Config.blockHash (k % 2 ^ 32) v)))
    ∧ (s.isSafe = false → s.isSplit = false → s.coreState c.val = 1 →
      (∃ t, exec (.selftestComplete c false) s = .next t ∧ retired t ∧ t.fld HW_STATUS.STFAIL = 1)
      ∧ ((s.core c.val).counted = true → many → ∃ t, exec (.selftestComplete c true) s = .next t ∧ retired t)
      ∧ (((s.core c.val).counted = false ∨ ¬ many) →
        ∃ t, exec (.selftestComplete c true) s = .next t ∧ t.coreState c.val = 2 ∧ Kept [(coreField c.val).key 0] s t
          ∧ (∀ x, x < 0x100000 →
            t.byte (memKey (1 + c.val) (0x10000000 + x)) = BitVec.ofNat 8 (Config.freeValue (s.free + x)))
          ∧ (∀ y, y / 2 ^ 32 ≠ 1 + c.val → t.byte y = s.byte y)))
    ∧ (s.isSafe = false → s.isSplit = true → s.coreState c.val = 1 →
      ∀ p, ∃ t, exec (.selftestComplete c p) s = .next t ∧ t.heart.hcTest = some p ∧ t.regs = s.regs)
    ∧ (∀ a b, s.isSafe = false → s.coreState c.val = 2 → s.voting = [a, b] → Memory.wf s.mem = true →
      (s.coreRam a = s.coreRam b →
        (∃ t, exec (.copyComplete c false) s = .next t ∧ t.coreState c.val = 3
          ∧ (∀ x, x < 2 ^ 32 → t.byte (memKey (1 + c.val) x) = s.byte (memKey (1 + a) x))
          ∧ (∀ y, y / 2 ^ 32 ≠ 1 + c.val → t.byte y = s.byte y))
        ∧ (∃ t, exec (.copyComplete c true) s = .next t ∧ retired t ∧ t.fld HW_STATUS.STFAIL = 1))
      ∧ (s.coreRam a ≠ s.coreRam b →
        ((s.eng a).retire = (s.eng b).retire → ∃ t, exec (.copyComplete c false) s = .next t ∧ EnteredSafe 5 0 s.now t)
        ∧ ((s.eng a).retire ≠ (s.eng b).retire → exec (.copyComplete c false) s = .next s)))
    ∧ (∀ x rest, (s.core c.val).fenceTimes = x :: rest →
      ∃ t, exec (.fencingAgeOut c) s = .next t ∧ (t.core c.val).fenceTimes = rest
        ∧ t.fld (countField c.val) = min 255 rest.length ∧ x + 10800000000000 ≤ t.tb)

/-- O46. Where the requester may act (a Heartwood that votes; HA and HB in split mode): a phase other than 0 is taken and clears the
fencings of the phase, 0 sets CFGERR; a proof is armed only in phase 2 with three cores and none armed; split is accepted only
with no active bobbin, output or launch, else MODEREF; both split cores asking within two cycle lengths start the hand-over, and
a single request is dropped with MODEREF after them. A mode that does not fit the mode in force sets CFGERR, another requester
is rejected. Rows: PHASE_WRITE, COMMIT_PROOF, SWEEP_PROOF, SPLIT_REQUEST, VOTED_REQUEST, REQUEST_DROP. Spec: R412, R414, R425,
R426, R427. -/
def Obligations.HeartwoodRequests : Prop :=
  ∀ (s : State) (v : Word) (core : BitVec 2),
    let two := 2 * s.cycleLen
    let split := s.isSplit = true ∧ s.isSafe = false
    (s.canVote = true → v.toNat % 4 ≠ 0 →
      ∃ t, exec (.phaseWrite .hw v) s = .next t ∧ t.fld HW_PHASE.PHASE = v.toNat % 4 ∧ Kept [HW_PHASE.PHASE.key 0] s t
        ∧ (∀ c, c < 3 → (t.core c).phaseFences = 0) ∧ t.mem = s.mem ∧ t.engines = s.engines)
    ∧ (s.canVote = true → v.toNat % 4 = 0 →
      ∃ t, exec (.phaseWrite .hw v) s = .next t ∧ t.fld HW_PHASE.PHASE = s.fld HW_PHASE.PHASE ∧ t.fld HW_STATUS.CFGERR = 1
        ∧ Kept [HW_STATUS.CFGERR.key 0] s t)
    ∧ (let ok := s.fld HW_PHASE.PHASE = 2 ∧ s.voting.length = 3 ∧ s.heart.test = none ∧ core ≠ 3
       let bad := s.flag HW_STATUS.CFGERR evHW
       s.canVote = true →
       let armed := fun (p : Proof) => s.modHeart (fun h => { h with test := some p })
       (ok → exec (.commitProof .hw core) s
            = .next (armed { core := core.toNat, kind := 0, skip := (s.core core.toNat).expect.length, caught := false })
          ∧ exec (.sweepProof .hw core) s
            = .next (armed { core := core.toNat, kind := 1, skip := 0, caught := false }))
       ∧ (¬ ok → exec (.commitProof .hw core) s = .next bad ∧ exec (.sweepProof .hw core) s = .next bad))
    ∧ (let ok := s.voting.length = 3 ∧ (∀ b, b < 256 → s.fld BB_CFG.ACTIVE b = 0) ∧ s.fld PW_VORUN.RUN = 0
          ∧ ∀ c, c < 16 → s.fld TM_LCFG.ARM c = 0
       s.canVote = true →
       (ok → exec (.splitRequest .hw) s = .next (s.modHeart (fun h => { h with splitDue := true })))
       ∧ (¬ ok → exec (.splitRequest .hw) s = .next (s.flag HW_STATUS.MODEREF evHW)))
    ∧ (s.canVote = true → exec (.votedRequest .hw) s = .next (s.flag HW_STATUS.CFGERR evHW))
    ∧ (split → exec (.splitRequest .splitA) s = .next (s.flag HW_STATUS.CFGERR evHW))
    ∧ exec (.splitRequest .root) s = .next (s.reject .root)
    ∧ (split → s.heart.reqB = none → (∀ a, s.heart.reqA = some a → s.tb ≤ a + two) →
      ∃ t, exec (.votedRequest .splitA) s = .next t ∧ t.heart.reqA = some s.tb ∧ t.fld HW_PHASE.REQ = 1
        ∧ Kept [HW_PHASE.REQ.key 0] s t)
    ∧ (∀ b, split → s.heart.reqA = none → s.heart.reqB = some b → b + two < s.tb →
      ∃ t, exec (.votedRequest .splitA) s = .next t ∧ t.heart.reqA = some s.tb ∧ t.heart.reqB = none ∧ t.fld HW_PHASE.REQ = 1
        ∧ t.fld HW_STATUS.MODEREF = 1)
    ∧ (∀ b, split → s.heart.reqB = some b → b ≤ s.tb → (s.heart.reqA.isSome = true ∨ s.tb ≤ b + two) →
      ∃ t, exec (.votedRequest .splitA) s = .next t ∧ t.heart.reqA = some s.tb ∧ t.heart.reqB = some b ∧ t.fld HW_PHASE.REQ = 3
        ∧ (s.tb ≤ b + two → s.coreState 2 ≠ 4 → t.coreState 2 = 1)
        ∧ (s.tb ≤ b + two → s.coreState 2 = 4 → t.heart.hcTest = some false))
    ∧ (∀ a, s.heart.reqA = some a → s.heart.reqB = none →
      (a + two < s.tb →
        ∃ t, exec .requestDrop s = .next t ∧ t.heart.reqA = none ∧ t.heart.reqB = none ∧ t.fld HW_PHASE.REQ = 0
          ∧ t.fld HW_STATUS.MODEREF = 1)
      ∧ (s.tb ≤ a + two → exec .requestDrop s = .next s))

/-- O47. The scrubber corrects a correctable block (flash stays) and records an uncorrectable one; a grant runs one burst of the
chosen request, else of the first to arrive, else of the highest input waiting, takes turns on a shared input (in the order of
log 162), goes on with a train of the Heartwood, and counts waits and grants; a burst's end frees the arbiter and completes a
quiesce; the watchdog masks exactly the input of the burst that runs, records it, and on the Heartwood's input enters the safe
state. Rows: MEMORY_SCRUB, BURST_GRANT, BURST_END, WATCHDOG_BITE. Spec: R434, R436, R437, R440, R441, R445, R447, R449, R451.
Rests on assumption log 95, 162. -/
def Obligations.MemoryAndArbiter : Prop :=
  ∀ (s : State) (kind : Fin 6) (k : Nat),
    let up := fun (f : Field) (i : Nat) => min (2 ^ f.w - 1) (s.fld f i + 1)
    (kind.val ≠ 1 → kindOfKey k = kind.val → s.errs = [] →
      (∃ t, exec (.memoryScrub kind [(k, 2)]) s = .next t ∧ t.badBits k = (if kind.val = 0 then 2 else 0) ∧ t.mem = s.mem
        ∧ t.fld MI_CE.CE2 kind.val = up MI_CE.CE2 kind.val ∧ t.fld MI_STATUS.CE = 1
        ∧ t.fld MI_UE.PASSN kind.val = up MI_UE.PASSN kind.val
        ∧ Kept [MI_CE.CE2.key kind.val, MI_UE.PASSN.key kind.val, MI_STATUS.CE.key 0] s t)
      ∧ (∃ t, exec (.memoryScrub kind [(k, 3)]) s = .next t ∧ t.badBits k = 3 ∧ t.mem = s.mem
        ∧ t.fld MI_UEADDR.ADDR = k % 2 ^ 32 / 16 * 16 ∧ t.fld MI_UEINFO.KIND = kind.val ∧ t.fld MI_UEINFO.INPUT = 15
        ∧ t.fld MI_UEINFO.WRITE = 0 ∧ t.fld MI_UE.UE kind.val = up MI_UE.UE kind.val ∧ t.fld MI_STATUS.UE = 1
        ∧ t.fld MI_UE.PASSN kind.val = up MI_UE.PASSN kind.val))
    ∧ (s.arb.running = none → s.fld DB_TRCFG.KIND ≠ 3 →
      (∀ r : ArbReq, let i := s.input r.who
        let w : Waiting := ⟨i, r.who, s.tb - r.age, r.target, r.blocks, false⟩
        let n := if r.target = .dev ∨ r.target = .diag then min 1 r.blocks else min 8 r.blocks
        s.arb.chosen = none → s.arb.waiting = [] → s.mayChoose i = true → r.age ≤ s.tb → s.fld MI_ILONG.LONG i < 2 ^ 16 →
        ∃ t, exec (.burstGrant [r]) s = .next t ∧ t.arb.running = some ({ w with blocks := n }, s.tb) ∧ t.arb.waiting = []
          ∧ ((r.who.trains = false ∨ r.blocks ≤ n) → t.arb.chosen = none)
          ∧ (r.who.trains = true → n < r.blocks →
              t.arb.chosen = some { w with since := s.tb, blocks := r.blocks - n, counted := true })
          ∧ t.fld MI_IGRANT.GRANTS i = up MI_IGRANT.GRANTS i
          ∧ t.fld MI_ILONG.LONG i = max (s.fld MI_ILONG.LONG i) (min 65535 r.age)
          ∧ Kept [MI_IGRANT.GRANTS.key i, MI_ILONG.LONG.key i] s t)
      ∧ (∀ r0 r1 : ArbReq, s.arb.chosen = none → s.arb.waiting = [] → s.mayChoose (s.input r0.who) = true →
          s.mayChoose (s.input r1.who) = true → r1.age < r0.age → r0.age ≤ s.tb → r0.who.trains = false →
        ∃ t w n, exec (.burstGrant [r0, r1]) s = .next t ∧ t.arb.running = some (w, n) ∧ w.who = r0.who)
      ∧ (∀ w0 w1 : Waiting, s.arb.chosen = none → (s.arb.waiting = [w0, w1] ∨ s.arb.waiting = [w1, w0]) →
          w0.input < w1.input → s.mayChoose w0.input = true → s.mayChoose w1.input = true → w0.counted = false →
        ∃ t, exec (.burstGrant []) s = .next t ∧ t.arb.running = some ({ w1 with blocks := w1.burst }, s.tb)
          ∧ t.fld MI_IWAIT.WAITS w0.input = up MI_IWAIT.WAITS w0.input ∧ t.fld MI_IWAIT.WAITS w1.input = s.fld MI_IWAIT.WAITS w1.input
          ∧ (w1.rest s.tb = [] → t.arb.chosen = some { w0 with counted := true } ∧ t.arb.waiting = [])
          ∧ (∀ x, w1.rest s.tb = [x] → t.arb.chosen = some x ∧ t.arb.waiting = [{ w0 with counted := true }]))
      ∧ (∀ w0 w1 : Waiting, s.arb.chosen = none → (s.arb.waiting = [w0, w1] ∨ s.arb.waiting = [w1, w0]) → w0.input = w1.input →
          s.mayChoose w0.input = true →
          ((s.arb.last = .dbg ∧ w0.who = .dbg ∧ w1.who = .trace) ∨ (s.arb.last = .trace ∧ w0.who = .trace ∧ w1.who = .commit)
            ∨ (s.arb.last = .commit ∧ w0.who = .commit ∧ w1.who = .dbg) ∨ (s.arb.lastCore = .splitA ∧ w0.who = .splitA ∧ w1.who = .splitB)
            ∨ (s.arb.lastCore = .splitB ∧ w0.who = .splitB ∧ w1.who = .splitA)) →
        ∃ t, exec (.burstGrant []) s = .next t ∧ t.arb.running = some ({ w1 with blocks := w1.burst }, s.tb)
          ∧ (t.arb.last = w1.who ∨ t.arb.lastCore = w1.who) ∧ t.arb.chosen = some { w0 with counted := true })
      ∧ (∀ w x : Waiting, s.arb.chosen = some w → s.arb.waiting = [x] → s.mayChoose x.input = true → w.rest s.tb = [] →
        ∃ t, exec (.burstGrant []) s = .next t ∧ t.arb.running = some ({ w with blocks := w.burst }, s.tb)
          ∧ t.arb.chosen = some { x with counted := true } ∧ t.arb.waiting = []))
    ∧ (∀ (w : Waiting) (b : Nat) (moved : Fin 9), s.arb.running = some (w, b) →
      (∃ t, exec .burstEnd s = .next t ∧ t.arb = { s.arb with running := none } ∧ Kept [MI_STATUS.QUIESCED.key 0] s t ∧ t.mem = s.mem
        ∧ (s.quiesced = true → (∀ x, s.arb.chosen = some x → 12 ≤ x.input) → t.fld MI_STATUS.QUIESCED = 1)
        ∧ (s.quiesced = false → t.fld MI_STATUS.QUIESCED = s.fld MI_STATUS.QUIESCED))
      ∧ (w.input < 13 → s.fld MI_MASK.MASK < 2 ^ 13 →
        ∃ t, exec (.watchdogBite moved) s = .next t ∧ t.arb.running = none ∧ (∀ x, t.arb.chosen = some x → x.input ≠ w.input)
          ∧ t.fld MI_WDOG.INPUT = w.input ∧ t.fld MI_WDOG.CAUSE = 1 ∧ t.fld MI_WDOG.BLK = moved.val
          ∧ t.fld MI_WDTIME.TIME = (s.advanceTo (b + 1000)).now.toNat % 2 ^ 32 ∧ t.fbit MI_MASK.MASK w.input = true
          ∧ (∀ j, j ≠ w.input → t.fbit MI_MASK.MASK j = s.fbit MI_MASK.MASK j) ∧ t.fld MI_STATUS.WDOG = 1 ∧ t.mem = s.mem
          ∧ (w.input = 12 → s.isSafe = false → EnteredSafe 6 0 (s.advanceTo (b + 1000)).now t)))

/-- O48. A quiesce is in force at once, counts the requests that it holds as waits, and is complete when no low input runs or is
chosen; it ends by a write or after QMAX with QTO, and the frames that the DMA held are then stored; the map is changed only
while quiesced, to distinct inputs below 12, else MAPREJ; a changed map and CNTCLR clear the counters of every input but REJ. An
access of the voted Heartwood is stated for one that can vote and is not halted (State.canVote). Rows: QUIESCE, QUIESCE_END,
QUIESCE_TIMEOUT, MAP_WRITE, CNTCLR. Spec: R445, R447, R448, R439, Table MI-8. -/
def Obligations.QuiesceAndMap : Prop :=
  ∀ (s : State) (v : Word) (q : Req),
    let low := fun (o : Option Waiting) => ∃ x, o = some x ∧ x.input < 12
    let ins := (List.range 8).map (fun i => v.toNat / 16 ^ i % 16)
      ++ [s.fld MI_MAP1.SE3, s.fld MI_MAP1.SE4, s.fld MI_MAP1.SE5, s.fld MI_MAP1.DMA]
    let cleared := fun (t : State) => ∀ i, i < 13 → t.fld MI_IGRANT.GRANTS i = 0 ∧ t.fld MI_IWAIT.WAITS i = 0
      ∧ t.fld MI_ILONG.LONG i = 0 ∧ t.fld MI_ILONG.REJ i = s.fld MI_ILONG.REJ i
    (s.canVote = true → s.quiesced = false →
      ∃ t, exec (.quiesce .hw) s = .next t ∧ t.quiesced = true
        ∧ t.arb = { s.arb with quiesceAt := s.tb, waiting := s.arb.waiting.map (fun w => if w.input < 12 then { w with counted := true } else w) }
        ∧ Kept ([MI_QUIESCE.REQ.key 0, MI_STATUS.QUIESCED.key 0] ++ (List.range 12).map (fun i => MI_IWAIT.WAITS.key i)) s t
        ∧ (∀ w, s.arb.waiting = [w] → w.counted = false → w.input < 12 →
            t.fld MI_IWAIT.WAITS w.input = min 65535 (s.fld MI_IWAIT.WAITS w.input + 1))
        ∧ (¬ low (s.arb.running.map Prod.fst) → ¬ low s.arb.chosen → t.fld MI_STATUS.QUIESCED = 1)
        ∧ ((low (s.arb.running.map Prod.fst) ∨ low s.arb.chosen) → t.fld MI_STATUS.QUIESCED = s.fld MI_STATUS.QUIESCED))
    ∧ (s.canVote = true →
      ∃ t, exec (.quiesceEnd .hw) s = .next t ∧ t.quiesced = false ∧ t.fld MI_STATUS.QUIESCED = 0 ∧ t.arb = s.arb
        ∧ (s.rxHeld = [] → Kept [MI_QUIESCE.REQ.key 0, MI_STATUS.QUIESCED.key 0] s t)
        ∧ (s.masked .dma = false → s.waitsForLock .dma = false → t.rxHeld = []))
    ∧ (s.quiesced = true →
      ∃ t, exec .quiesceTimeout s = .next t ∧ t.quiesced = false ∧ t.fld MI_STATUS.QUIESCED = 0 ∧ t.fld MI_STATUS.QTO = 1
        ∧ s.arb.quiesceAt + s.fld MI_CTRL.QMAX * 125 ≤ t.tb)
    ∧ (s.canVote = true → s.fld MI_STATUS.QUIESCED = 1 → ins.Nodup → (∀ i ∈ ins, i < 12) →
      ∃ t, exec (.mapWrite .hw false v) s = .next t ∧ (∀ p : Fin 3, t.input (.host p) = v.toNat / 16 ^ (1 + p.val) % 16)
        ∧ t.input .dbg = v.toNat % 16 ∧ t.input .root = v.toNat / 16 ^ 4 % 16 ∧ t.input .dma = s.input .dma
        ∧ t.fld MI_MAP0.SE0 = v.toNat / 16 ^ 5 % 16 ∧ t.fld MI_MAP0.SE1 = v.toNat / 16 ^ 6 % 16
        ∧ t.fld MI_MAP0.SE2 = v.toNat / 16 ^ 7 % 16 ∧ (s.input .dbg < 16 → t.input .dbg ≠ s.input .dbg → cleared t))
    ∧ (s.canVote = true → (s.fld MI_STATUS.QUIESCED ≠ 1 ∨ ¬ ins.Nodup ∨ ∃ i ∈ ins, 12 ≤ i) → s.fld MI_MAP1.SE3 < 16 → s.fld MI_MAP1.SE4 < 16 →
        s.fld MI_MAP1.SE5 < 16 → s.fld MI_MAP1.DMA < 16 →
      exec (.mapWrite .hw false v) s = .next (s.flag MI_STATUS.MAPREJ evMI))
    ∧ (s.canVote = true → ∃ t, exec (.cntclr .hw v) s = .next t ∧ cleared t ∧ t = { s with regs := t.regs })
    ∧ (q.voted = false → s.absent q = false → exec (.cntclr q v) s = .next (s.reject q))

/-- O49. A free unit goes to the requester that claims it; hosts, other owners and Carrik's units are refused with OWNREJ, and
nothing of a unit is changed by a requester that does not own it; INIT loads width, polynomial and start value; data feed
absorbs what was fed before, and so does a claim or release; the result is the reflected, inverted remainder of every byte
absorbed; a comparison sets MATCH or MISM of that unit alone. Rows: UNIT_CLAIM, UNIT_RELEASE, CV_INIT, CV_COMPARE, DATA_FEED,
ABSORB_COMPLETE, CV_RESULT_READ. Spec: R452, R453, R454, R455, R456, R457, R458. -/
def Obligations.CheckValueUnits : Prop :=
  ∀ (s : State) (q : Req) (u : Fin 8) (v : Word) (width : Fin 3),
    let w := s.fld CV_CFG.WIDTH u.val
    let a := (s.cv u.val).bytes.foldl (fun c b => crcByte (s.cv u.val).width (s.cv u.val).poly.toNat (s.cv u.val).refin c b.toNat)
      (s.cv u.val).crc.toNat
    let ab := cvAbsorb u.val s
    let same := fun (t : State) => ∀ x, x ≠ u.val → t.cv x = s.cv x
    let res := fun (c : Nat) => ((if s.isSet CV_CFG.REFOUT u.val then revBits (s.cv u.val).width c else c)
      ^^^ s.fld CV_XOROUT.XOROUT u.val) % 2 ^ (s.cv u.val).width
    let hold := fun (t : State) => Kept [CV_UST.BUSY.key u.val, CV_UST.NBYTES.key u.val, CV_UST.LAST.key u.val,
      CV_STATUS.MATCH.key 0, CV_STATUS.MISM.key 0, CV_RESULT.RESULT.key u.val] s t
    s.fld CV_CVSEL.UNIT q.bank = u.val → s.absent q = false →
      ((∀ p, q ≠ .host p) → s.cvCarrik u.val = false → (s.cv u.val).owner = none →
        ∃ t, exec (.unitClaim q) s = .next t ∧ t.cv u.val = { ab.cv u.val with owner := some q } ∧ same t
          ∧ Kept [CV_UST.BUSY.key u.val] s t
          ∧ t.cvOwnCode u.val = s.input q)
      ∧ (∀ p, q = .host p → exec (.unitClaim q) s = .next ((ab.setFld CV_STATUS.OWNREJ 0 1).reject q))
      ∧ ((∀ p, q ≠ .host p) → (s.cvCarrik u.val = true ∨ ∃ o, (s.cv u.val).owner = some o ∧ o ≠ q) →
        exec (.unitClaim q) s = .next (ab.setFld CV_STATUS.OWNREJ 0 1))
      ∧ (s.cvOwns q u.val = false → exec (.unitRelease q) s = .next ((ab.setFld CV_STATUS.OWNREJ 0 1).reject q))
      ∧ (s.cvOwns q u.val = false → ∀ c, (c = Instr.cvInit q ∨ c = .cvCompare q ∨ c = .dataFeed q width v) →
        exec c s = .next ((s.setFld CV_STATUS.OWNREJ 0 1).reject q))
      ∧ (s.cvOwns q u.val = true →
        ((∀ p, q ≠ .host p) →
          ∃ t, exec (.unitRelease q) s = .next t ∧ t.cv u.val = { ab.cv u.val with owner := none } ∧ same t
            ∧ Kept [CV_UST.BUSY.key u.val] s t)
        ∧ (w ≤ 32 →
          ∃ t, exec (.cvInit q) s = .next t ∧ (t.cv u.val).crc.toNat = s.fld CV_INIT.INIT u.val % 2 ^ w ∧ (t.cv u.val).width = w
            ∧ (t.cv u.val).poly.toNat = s.fld CV_POLY.POLY u.val % 2 ^ w ∧ (t.cv u.val).refin = s.isSet CV_CFG.REFIN u.val
            ∧ (t.cv u.val).bytes = [] ∧ (t.cv u.val).owner = some q ∧ same t ∧ t.fld CV_UST.NBYTES u.val = 0 ∧ hold t)
        ∧ (∃ t, exec (.dataFeed q width v) s = .next t ∧ t.fld CV_UST.BUSY u.val = 1 ∧ same t ∧ hold t
            ∧ (t.cv u.val).bytes = (List.range (2 ^ width.val)).map (fun j => BitVec.ofNat 8 (v.toNat / 256 ^ j))
            ∧ t.fld CV_UST.NBYTES u.val = min 65535 (s.fld CV_UST.NBYTES u.val + 2 ^ width.val)
            ∧ (t.cv u.val).crc = BitVec.ofNat 32 a)
        ∧ (a < 2 ^ 32 → s.fld CV_STATUS.MATCH < 256 → s.fld CV_STATUS.MISM < 256 →
          (res a = s.fld CV_EXPECT.EXPECT u.val % 2 ^ (s.cv u.val).width →
            ∃ t, exec (.cvCompare q) s = .next t ∧ t.fld CV_UST.LAST u.val = 1 ∧ t.fbit CV_STATUS.MATCH u.val = true ∧ same t
              ∧ t.fld CV_STATUS.MISM = s.fld CV_STATUS.MISM ∧ hold t)
          ∧ (res a ≠ s.fld CV_EXPECT.EXPECT u.val % 2 ^ (s.cv u.val).width →
            ∃ t, exec (.cvCompare q) s = .next t ∧ t.fld CV_UST.LAST u.val = 2 ∧ t.fbit CV_STATUS.MISM u.val = true ∧ same t
              ∧ t.fld CV_STATUS.MATCH = s.fld CV_STATUS.MATCH ∧ hold t ∧ (t.eng 9).pend = (s.eng 9).pend ||| (1#16 <<< evCV))))
      ∧ (∃ t, exec (.absorbComplete u) s = .next t ∧ t.fld CV_UST.BUSY u.val = 0 ∧ (t.cv u.val).bytes = []
          ∧ (t.cv u.val).crc = BitVec.ofNat 32 a ∧ same t ∧ Kept [CV_UST.BUSY.key u.val] s t)
      ∧ (a < 2 ^ 32 → (s.cv u.val).width ≤ 32 →
        ∃ t, exec (.cvResultRead q) s = .next t ∧ Tab.get 0 t.delivered q.bank = res a ∧ t.fld CV_RESULT.RESULT u.val = res a
          ∧ t.fld CV_UST.BUSY u.val = 0 ∧ hold t)

/-- O50. A mirror read gives the mirror word, all ones in the safe state; a disabled port, a misaligned or unmapped address, a write
of memory, byte enables, an unassigned offset and a masked input give the error response with their cause and change nothing
else; a held arbiter makes the access wait; a memory word is read, a register written in the port's own copy, the oldest event
taken. Rows: MIRROR_READ, HOST_ACCESS, QUEUE_READ. Spec: R461, R463, R464, R467, R468, R469, R481, R483, R447. Rests on
assumption log 10, 21. -/
def Obligations.HostCycles : Prop :=
  ∀ (s : State) (p : Fin 3) (w : BitVec 12) (write : Bool) (addr : Word) (be : BitVec 4) (v : Word),
    let a := addr.toNat
    let q : Req := .host p
    let got := fun (x : Nat) (t : State) => Tab.get 0 t.delivered (1 + p.val) = x ∧ t.regs = s.regs ∧ t.mem = s.mem ∧ t.errs = s.errs
    let target := if a < 0x600000 then 0x20000000 + (a - 0x400000) else 0x28000000 + (a - 0x600000)
    let ram := (0x400000 ≤ a ∧ a < 0x5FC000) ∨ (0x600000 ≤ a ∧ a < 0x640000)
    s.keeper.power = .up → s.fld RB_BOOT.FAIL = 0 → (s.port p.val).acc = none →
      (s.isSafe = true → ∃ t, exec (.mirrorRead p w) s = .next t ∧ got (2 ^ 32 - 1) t)
      ∧ (s.isSafe = false → s.badBits (memKey 11 (4 * w.toNat)) = 0 →
        ∃ t, exec (.mirrorRead p w) s = .next t ∧ got (s.rd (memKey 11 (4 * w.toNat)) 4) t)
      ∧ (s.fld HP_PCTRL.EN p.val ≠ 1 → (0x4000 ≤ a ∨ a % 4 ≠ 0 ∨ write = true) →
        ∃ t, exec (.hostAccess p write addr be v) s = .next t ∧ GaveError p 8 a write s t)
      ∧ (s.fld HP_PCTRL.EN p.val = 1 →
        (∀ cause, ((a % 4 ≠ 0 ∧ cause = 4) ∨ (a % 4 = 0 ∧ 0x640000 ≤ a ∧ cause = 1) ∨ (a % 4 = 0 ∧ ram ∧ write = true ∧ cause = 2)
              ∨ (a % 4 = 0 ∧ 0x10000 ≤ a ∧ a < 0x20000 ∧ be ≠ 15 ∧ cause = 4)
              ∨ (a % 4 = 0 ∧ 0x10000 ≤ a ∧ a < 0x20000 ∧ be = 15 ∧ findReg (a % 65536) = none ∧ cause = 3)) →
          ∃ t, exec (.hostAccess p write addr be v) s = .next t ∧ GaveError p cause a write s t)
        ∧ (a % 4 = 0 → ram → s.masked q = true →
          ∃ t, exec (.hostAccess p false addr be v) s = .next t ∧ GaveError p 6 a false s t)
        ∧ (a % 4 = 0 → ram → s.masked q = false → s.arbHolds q = true →
          ∃ t, exec (.hostAccess p false addr be v) s = .next t ∧ t.regs = s.regs ∧ t.mem = s.mem
            ∧ (t.port p.val).acc = some { write := false, addr := a, be := be.toNat, val := v.toNat, since := s.tb })
        ∧ (a % 4 = 0 → ram → s.masked q = false → s.arbHolds q = false → s.badBits target = 0 →
          ∃ t, exec (.hostAccess p false addr be v) s = .next t ∧ got (s.rd target 4) t)
        ∧ (a % 4 = 0 → ram → s.masked q = false → s.arbHolds q = false → s.badBits target = 3 →
          ∃ t, exec (.hostAccess p false addr be v) s = .next t ∧ t.fld HP_PERR.CAUSE p.val = 5 ∧ t.fld MI_STATUS.UE = 1 ∧ t.mem = s.mem)
        ∧ (a = 0x11000 → s.masked q = false → s.arbHolds q = false →
          ∃ t, exec (.hostAccess p true addr 15 v) s = .next t ∧ t.fld FE_SYSSEL.SYS (1 + p.val) = v.toNat % 64
            ∧ Kept [FE_SYSSEL.SYS.key (1 + p.val)] s t ∧ t.mem = s.mem)
        ∧ (s.masked q = false → s.arbHolds q = false → ∀ e rest, (s.port p.val).queue = e :: rest → s.fld HP_PSTATUS.MODE p.val = 0 →
          ∃ t, exec (.queueRead p) s = .next t ∧ Tab.get 0 t.delivered (1 + p.val) = e % 2 ^ 32 ∧ (t.port p.val).queue = rest
            ∧ t.fld HP_QHI.EHI p.val = e / 2 ^ 32 % 2 ^ 32 ∧ Kept [HP_QHI.EHI.key p.val] s t))

/-- O51. A host write of an AW register alone registers its port's proposal and agrees on nothing; the same value from a second port
within AGREEW is agreed once with both ports shown, another value sets DISAGREE; the third port's concurrence is shown in the
agreement's record (log 183); a masked port ends with cause 6, a held one waits; a proposal left alone expires; an access that
waits for RDYTO ends with cause 7; in the safe state a proposal ends with cause 9. Rows: READY_TIMEOUT, PROPOSAL,
PROPOSAL_EXPIRY. Spec: R468, R470, R471, R472, R473, R476. Rests on assumption log 37, 83, 183. -/
def Obligations.ProposalsNeedTwoPorts : Prop :=
  ∀ (s : State) (p r : Fin 3) (gr : Bool) (v : Word),
    let reg := if gr then GR_CMD.addr else BB_CMD.addr
    let host : Req := .host p
    let w := s.fld HP_CTRL.AGREEW * 12500
    let others := fun (t : State) => ∀ x, x ≠ p.val → x ≠ r.val → t.port x = s.port x
    (∀ a : HostAcc, (s.port p.val).acc = some a →
      ∃ t, exec (.readyTimeout p) s = .next t ∧ GaveError p 7 a.addr a.write s t ∧ t.fld HP_STATUS.RDYTO = 1
        ∧ (∀ b, t.waitsLock (.host p) b = false) ∧ a.since + s.fld HP_CTRL.RDYTO * 125 ≤ t.tb)
    ∧ (s.keeper.power = .up → s.fld RB_BOOT.FAIL = 0 → (s.port p.val).acc = none → s.fld HP_PCTRL.EN p.val = 1 →
      (s.masked host = true →
        ∃ t, exec (.proposal p gr v) s = .next t ∧ GaveError p 6 (0x10000 + reg) true s t ∧ t.agreed = s.agreed)
      ∧ (s.masked host = false → s.isSafe = true →
        ∃ t, exec (.proposal p gr v) s = .next t ∧ GaveError p 9 (0x10000 + reg) true s t ∧ t.agreed = s.agreed)
      ∧ (s.masked host = false → s.isSafe = false → s.arbHolds host = true →
        ∃ t, exec (.proposal p gr v) s = .next t ∧ t.regs = s.regs ∧ t.agreed = s.agreed ∧ (t.port p.val).props = (s.port p.val).props
          ∧ (t.port p.val).acc = some { write := true, addr := 0x10000 + reg, be := 15, val := v.toNat, since := s.tb })
      ∧ (s.masked host = false → s.isSafe = false → s.arbHolds host = false → s.agreements = [] →
        ((∀ x, x ≠ p.val → (s.port x).props = []) →
          ∃ t, exec (.proposal p gr v) s = .next t ∧ t.regs = s.regs ∧ t.agreed = s.agreed
            ∧ (t.port p.val).props = (s.port p.val).props.filter (fun x => x.reg != reg) ++ [⟨reg, v.toNat, s.tb⟩]
            ∧ ∀ x, x ≠ p.val → t.port x = s.port x)
        ∧ (∀ (y : Proposal), r ≠ p → (s.port r.val).props = [y] → (∀ x, x ≠ p.val → x ≠ r.val → (s.port x).props = []) →
            y.reg = reg → s.tb ≤ y.stamp + w →
          (y.val = v.toNat →
            ∃ t, exec (.proposal p gr v) s = .next t ∧ t.agreed = s.agreed ++ [(reg, v.toNat)] ∧ (t.port r.val).props = []
              ∧ (t.port p.val).props = (s.port p.val).props.filter (fun x => x.reg != reg) ∧ others t
              ∧ t.fld HP_AGRST.ADDR = reg ∧ t.fld HP_AGRST.PORTS = 2 ^ p.val + 2 ^ r.val ∧ t.fld HP_AGRST.EVENT = 1
              ∧ t.fld HP_AGRVAL.VALUE = v.toNat ∧ t.fld HP_STATUS.AGREED = 1
              ∧ ∀ f ∈ (if gr then GR_CMD.fields else BB_CMD.fields), t.fld f = f.of v.toNat)
          ∧ (y.val ≠ v.toNat →
            ∃ t, exec (.proposal p gr v) s = .next t ∧ t.agreed = s.agreed ∧ (t.port r.val).props = [y] ∧ others t
              ∧ (t.port p.val).props = (s.port p.val).props.filter (fun x => x.reg != reg) ++ [⟨reg, v.toNat, s.tb⟩]
              ∧ t.fld HP_STATUS.DISAGREE = 1)))
      ∧ (∀ g : Agreement, s.masked host = false → s.isSafe = false → s.arbHolds host = false → s.agreements = [g] → g.reg = reg → g.val = v.toNat → s.tb ≤ g.time + w →
          (g.ports = [r.val] ∨ g.ports = [(p.val + 1) % 3, (p.val + 2) % 3]) → r ≠ p →
        ∃ t, exec (.proposal p gr v) s = .next t ∧ t.agreed = s.agreed ∧ (t.port p.val).props = (s.port p.val).props
          ∧ t.fld HP_AGRST.PORTS = 2 ^ p.val + (if g.ports = [r.val] then 2 ^ r.val else 7 - 2 ^ p.val) ∧ t.fld HP_AGRST.ADDR = reg
          ∧ t.fld HP_AGRVAL.VALUE = v.toNat ∧ t.fld HP_AGRST.EVENT = 1
          ∧ Kept [HP_AGRST.PORTS.key 0, HP_AGRST.ADDR.key 0, HP_AGRST.EVENT.key 0, HP_AGRVAL.VALUE.key 0] s t))
    ∧ (∀ (y : Proposal), (s.port p.val).props = [y] → (∀ x, x < 3 → x ≠ p.val → (s.port x).props = []) → y.reg < 2 ^ 16 →
      ∃ t, exec .proposalExpiry s = .next t ∧ (t.port p.val).props = [] ∧ t.fld HP_PSTATUS.AGRFAIL p.val = 1
        ∧ t.fld HP_STATUS.EXPIRED = 1 ∧ t.fld HP_AGRST.EVENT = 2 ∧ t.fld HP_AGRST.ADDR = y.reg
        ∧ t.fld HP_AGRST.PORTS = 2 ^ p.val ∧ y.stamp + w ≤ t.tb ∧ t.agreed = s.agreed)

/-- O52. A voted token with the challenge of its cycle keeps its output live to the end of the cycle after it (at the TU of a
boundary still to be made, of the cycle that begins there), any other sets TOKREJ and changes no output; a demand bit is taken
unless its output is faulted; an OUTPUT launch copies the staged bits of its targets; an output starts its train exactly when
demand, liveness, no fault and no safe state meet. No other output changes. An access of the voted Heartwood is stated for one
that can vote and is not halted (State.canVote). Rows: TOKEN, DEMAND_WRITE, OUTPUT. Spec: R493, R494, R495, R496, R497. Rests on
assumption log 63. -/
def Obligations.TokensAndDemand : Prop :=
  ∀ (s : State) (n : Fin 16) (v : Word) (c : Fin 16),
    let o := s.vo n.val
    let dem := s.fbit PW_VODEM.DEM n.val
    let flt := s.fbit PW_VOFAULT.FLT n.val
    let canVote := s.canVote = true
    let mid := s.atBoundary = false
    let fits := v.toNat % 2 ^ 16 = s.fld PW_VOCHAL.CYC ∧ v.toNat / 2 ^ 20 % 256 = s.fld PW_VOCHAL.CHAL
    let starts := fun (t : State) => (t.vo n.val).drive = 1 ∧ (t.vo n.val).halfAt = t.tb ∧ t.fbit PW_VORUN.RUN n.val = true
      ∧ t.fld PW_VOST.STATE n.val = 2
    (v.toNat / 2 ^ 16 % 16 = n.val →
      (canVote → mid → fits → ∃ t, exec (.token .hw v) s = .next t ∧ (t.vo n.val).live = 2 ∧ t.fld PW_VOST.TOKCYC n.val = v.toNat % 2 ^ 16
        ∧ t.fbit PW_VORUN.LIVE n.val = true ∧ t.fld PW_VODEM.DEM = s.fld PW_VODEM.DEM ∧ (∀ m, m ≠ n.val → t.vo m = s.vo m)
        ∧ (dem = true → flt = false → s.isSafe = false → o.run = false → o.drive = 0 → starts t))
      ∧ (canVote → s.atBoundary = true → v.toNat % 2 ^ 16 = s.nowTu / s.cycleLen % 2 ^ 16 →
          v.toNat / 2 ^ 20 % 256 = nextChallenge (s.fld PW_VOCHAL.CHAL) →
        ∃ t, exec (.token .hw v) s = .next t ∧ (t.vo n.val).live = 3 ∧ t.fbit PW_VORUN.LIVE n.val = true)
      ∧ (canVote → mid → ¬ fits → ∃ t, exec (.token .hw v) s = .next t ∧ t.vos = s.vos ∧ t.fld PW_VOSTATUS.TOKREJ = 1
        ∧ t.fld PW_VOST.TOKREJN n.val = min 63 (s.fld PW_VOST.TOKREJN n.val + 1)
        ∧ Kept [PW_VOSTATUS.TOKREJ.key 0, PW_VOST.TOKREJN.key n.val] s t)
      ∧ exec (.token .root v) s = .next (s.reject .root))
    ∧ (canVote → ∃ t, exec (.demandWrite .hw v) s = .next t ∧ t.fbit PW_VODEM.DEM n.val = (v.toNat.testBit n.val && !flt)
        ∧ (v.toNat.testBit n.val = true → flt = true → t.fld PW_VOSTATUS.CFGERR = 1)
        ∧ (v.toNat.testBit n.val = true → flt = false → o.live ≠ 0 → s.isSafe = false → o.run = false → o.drive = 0 → starts t)
        ∧ (v.toNat.testBit n.val = false → (t.vo n.val).run = false ∧ (t.vo n.val).drive = o.drive))
    ∧ (s.time.tq ≠ 4 → s.fireable c.val 4 = true →
      ∃ t, exec (.output c) s = .next t ∧ t.lst c.val = 3
        ∧ t.fbit PW_VODEM.DEM n.val = (if (s.fld TM_LTGTLO.TGT c.val).testBit n.val ∧ ¬ (s.fbit PW_VOSTAGE.STAGE n.val = true ∧ flt = true)
            then s.fbit PW_VOSTAGE.STAGE n.val else dem)
        ∧ ((s.fld TM_LTGTLO.TGT c.val).testBit n.val = true → s.fbit PW_VOSTAGE.STAGE n.val = true → flt = false → o.live ≠ 0 →
            s.isSafe = false → o.run = false → o.drive = 0 → starts t))

/-- O53. Each half lasts half a period and alternates the two signals; an over sample stops the output at once with CAUSE 1; FAILN
under samples stop it at the period's end with CAUSE 2; a copy mismatch drives the period to its end with CAUSE 4, where a train
starts anew exactly if the run condition holds and the copies agree there; ten high samples of a stopped output latch CAUSE 3.
No other output changes. Rows: HALF_PERIOD, LEAKAGE_SAMPLE. Spec: R490, R491, R500, R501, R502, R503. Rests on assumption log
63, 64, 65. -/
def Obligations.TrainsAreReadBack : Prop :=
  ∀ (s : State) (n : Fin 16) (cls : Fin 3),
    let o := s.vo n.val
    let flt := s.fbit PW_VOFAULT.FLT n.val
    let p := 1250000 / s.fld PW_VOCFG.FREQ n.val
    let half := if o.drive = 1 then p / 2 else p - p / 2
    let low := if cls.val = 0 ∧ 2 ≤ o.halves then o.low + 1 else 0
    let under := cls.val = 0 ∧ s.fld PW_VOCFG.FAILN n.val = low ∧ low ≠ 0
    (s.fld PW_VOCFG.FREQ n.val ≠ 0 → (o.drive = 1 ∨ o.drive = 2) → flt = false →
      (∀ d, cls.val = 2 →
        ∃ t, exec (.halfPeriod n cls d) s = .next t ∧ (t.vo n.val).drive = 0 ∧ t.fbit PW_VOFAULT.FLT n.val = true
          ∧ t.fld PW_VOST.CAUSE n.val = 1 ∧ t.fld PW_VOST.STATE n.val = 3 ∧ t.fld PW_VOST.LASTI n.val = 2
          ∧ t.fld PW_VOSTATUS.OVER = 1 ∧ t.fbit PW_VORUN.RUN n.val = false ∧ ∀ m, m ≠ n.val → t.vo m = s.vo m)
      ∧ (cls.val ≠ 2 → o.copyBad = false → s.tb ≤ o.halfAt + half / 2 →
        ∃ t, exec (.halfPeriod n cls false) s = .next t ∧ t.tb = o.halfAt + half ∧ t.fld PW_VOST.LASTI n.val = cls.val
          ∧ (t.vo n.val).drive = (if o.drive = 1 then 2 else if (o.run = true ∨ s.voRun n.val = true) ∧ ¬ under then 1 else 0)
          ∧ ((t.vo n.val).drive ≠ 0 → (t.vo n.val).halfAt = t.tb ∧ ((o.run = true ∨ o.drive = 1) → (t.vo n.val).low = low))
          ∧ t.fbit PW_VOFAULT.FLT n.val = decide under
          ∧ (under → t.fld PW_VOST.CAUSE n.val = 2 ∧ t.fld PW_VOSTATUS.UNDER = 1 ∧ (t.vo n.val).run = false)
          ∧ ∀ m, m ≠ n.val → t.vo m = s.vo m)
      ∧ (cls.val = 1 → o.copyBad = false → (o.drive = 1 ∨ o.run = true) →
        ∃ t, exec (.halfPeriod n cls true) s = .next t ∧ (t.vo n.val).drive = 3 - o.drive ∧ (t.vo n.val).copyBad = true
          ∧ t.fbit PW_VOFAULT.FLT n.val = true ∧ t.fld PW_VOST.CAUSE n.val = 4 ∧ t.fld PW_VOSTATUS.COPY = 1))
    ∧ (∀ d, s.fld PW_VOCFG.FREQ n.val ≠ 0 → (o.drive = 1 ∨ o.drive = 2) → o.copyBad = true → cls.val = 1 →
      ∃ t, exec (.halfPeriod n cls d) s = .next t ∧ (t.vo n.val).copyBad = false ∧ t.tb = max (max s.tb (o.halfAt + half / 2)) (o.halfAt + half)
        ∧ (d = true → t.fbit PW_VOFAULT.FLT n.val = true ∧ t.fld PW_VOSTATUS.COPY = 1)
        ∧ (if s.voRun n.val = true ∧ d = false then (t.vo n.val).drive = 1 ∧ (t.vo n.val).halfAt = t.tb
            else (t.vo n.val).drive = 0 ∧ t.fbit PW_VORUN.RUN n.val = false))
    ∧ (∀ high d, o.drive = 0 → exec (.halfPeriod n cls d) s = .next s
      ∧ ∃ t, exec (.leakageSample n high) s = .next t ∧ (t.vo n.val).leak = (if high then min 10 (o.leak + 1) else 0)
        ∧ (t.vo n.val).leakAt = t.tb ∧ o.leakAt + 12500 ≤ t.tb
        ∧ (high = true → 9 ≤ o.leak → flt = false →
          t.fbit PW_VOFAULT.FLT n.val = true ∧ t.fld PW_VOST.CAUSE n.val = 3 ∧ t.fld PW_VOSTATUS.LEAK = 1)
        ∧ ((high = false ∨ o.leak < 9) → t.regs = s.regs))

/-- O54. Power-on starts the sequence with its straps and classes; a rail outside its window 2 ms after its soft-start fails it; a
retry and the end of a power cycle come 200 ms later; a power cycle by the Root engine holds the device in reset, a fourth one
holds it for good, any other write is rejected; loss of the keeper's supply clears its counters; low input resets with cause 2.
An access of the voted Heartwood is stated for one that can vote and is not halted (State.canVote). Rows: POWER_ON,
SOFT_START_TIMEOUT, POWER_UP_RETRY, POWER_CYCLE, POWER_CYCLE_END, KEEPER_SUPPLY_LOSS, LOW_INPUT_RESET. Spec: R516, R527, R532,
R533, R559, R580, Table PW-2. Rests on assumption log 12. -/
def Obligations.PowerStageRuns : Prop :=
  ∀ (s : State) (v : Word) (straps : BitVec 2) (c0 c1 : BitVec 4) (rail : Fin 3) (x : Nat),
    let n := s.fld RB_CAUSE.PCYCN
    let wc := if rail.val = 0 then 4 else if rail.val = 1 then 5 else 6
    let at0 := if rail.val = 0 then 12 else if rail.val = 1 then 10 else 11
    let timed := fun (d : Nat) (p : Nat → PowerPhase) (t : State) => t.keeper = { s.keeper with power := p t.tb } ∧ x + d ≤ t.tb
      ∧ t.mem = s.mem ∧ t.engines = s.engines
    (s.keeper.power = .dead →
      ∃ t, exec (.powerOn straps c0 c1) s = .next t ∧ HeldInReset 0 (.sequence 0) s t ∧ t.keeper.straps = straps.toNat
        ∧ t.fld PW_SRC.F0CLS = c0.toNat ∧ t.fld PW_SRC.F1CLS = c1.toNat)
    ∧ (s.keeper.power = .sequence x → s.fld PW_WCST.STATE wc ≠ 1 →
      ∃ t, exec (.softStartTimeout (rail.castLE (by decide))) s = .next t ∧ timed (at0 * 125000 + 250000) .failed t)
    ∧ (s.keeper.power = .failed x →
      ∃ t, exec .powerUpRetry s = .next t ∧ timed 25000000 .sequence t ∧ t.fld PW_WCST.STATE wc = 3)
    ∧ (s.keeper.power = .cycling x → ∃ t, exec .powerCycleEnd s = .next t ∧ timed 25000000 .sequence t ∧ t.regs = s.regs)
    ∧ (v.toNat % 2 ^ 16 = 0x5AC3 →
      (n < 3 → ∃ t, exec (.powerCycle .root v) s = .next t ∧ HeldInReset 4 (.cycling 0) s t ∧ t.fld RB_CAUSE.PCYCN = n + 1)
      ∧ (3 ≤ n → ∃ t, exec (.powerCycle .root v) s = .next t ∧ HeldInReset 4 .hold s t))
    ∧ (v.toNat % 2 ^ 16 ≠ 0x5AC3 → exec (.powerCycle .root v) s = .next (s.reject .root))
    ∧ (s.canVote = true → exec (.powerCycle .hw v) s = .next (s.reject .hw))
    ∧ (∃ t, exec .keeperSupplyLoss s = .next t ∧ HeldInReset 0 .dead s t ∧ t.fld RB_CAUSE.PCYCN = 0 ∧ t.fld RB_CAUSE.DRSTN = 0
        ∧ t.keeper.retired = 0)
    ∧ (s.fld PW_STATUS.WARN = 1 → ∃ t, exec .lowInputReset s = .next t ∧ HeldInReset 2 (.sequence 0) s t)
    ∧ (s.fld PW_STATUS.WARN ≠ 1 → exec .lowInputReset s = .next s)

/-- O55. At a period start the gate turns on and integral and trip level follow the clamped sums of R520 from the sampled rail;
phase B follows phase A; the gate turns off after the blanking window when the sensed signal with the ramp of R519 reaches the
trip level, and at the duty limit, and the low-side gate is on from 16 ns after it to 16 ns before the period ends; 1,024
periods at the limit reset the device for PG0 and PG1 and stop PG3. Rows: PERIOD_START, TRIP, DUTY_LIMIT, CURRENT_LIMIT_FAULT.
Spec: R518, R519, R520, R521. -/
def Obligations.GeneratorPeriods : Prop :=
  ∀ (s : State) (x : Fin 5) (mv sense : BitVec 16) (g : Fin 4),
    let j := x.val - 1
    let u := s.advanceTo (s.nextPeriod x.val)
    let act := u.actNow j
    let top : Int := if j = 2 then (s.fld PW_PGCFG.DMAX 2 * 32 : Nat) else (s.fld PW_PGLOOP.ILIM j : Nat)
    let e : Int := (act : Int) - (mv.toNat : Int)
    let i := max 0 (min top (((s.pg j).integ : Int) + (s.fld PW_PGLOOP.KI j : Int) * e / 256))
    let blanked := (s.phase x.val).start + s.fld PW_PGCFG.BLANK j
    let ramp := s.fld PW_PGRAMP.SLOPE j * (max s.tb blanked - blanked)
    let level := (s.pg j).th * 625
    let follows := fun (t : State) => (t.phase x.val).fall = t.tb ∧ ∀ d, s.pgRuns j = true →
      (t.advanceTo (t.tb + d)).lowSide x.val
        = decide (2 ≤ d ∧ t.tb + d + 2 < (s.phase x.val).start + (s.phase x.val).period)
    let th := max 0 (min top ((s.fld PW_PGLOOP.KP j : Int) * e / 16 + i))
    (s.pgRuns j = true → act < 2 ^ 16 → top < 2 ^ 12 →
      ∃ t, exec (.periodStart x mv) s = .next t
        ∧ t.phase x.val = { high := true, start := u.tb, period := s.fld PW_PGCFG.PERIOD j, fall := 0 } ∧ t.tb = u.tb
        ∧ (x.val = 1 → t.regs = s.regs ∧ t.pgs = s.pgs)
        ∧ (x.val ≠ 1 → t.fld PW_PGSET.ACT j = act ∧ ((t.pg j).integ : Int) = i ∧ ((t.pg j).th : Int) = th
            ∧ (x.val = 0 → (t.fld PW_WCCFG.THI 0 : Int) = th ∧ (t.fld PW_WCCFG.THI 1 : Int) = th)
            ∧ (x.val = 2 → (t.fld PW_WCCFG.THI 2 : Int) = th) ∧ (x.val = 4 → (t.fld PW_WCCFG.THI 3 : Int) = th)
            ∧ (j ≠ 2 → th = top → t.fld PW_PGST.LIMP j = min 65535 (s.fld PW_PGST.LIMP j + 1)
                ∧ (t.pg j).limRun = min 1024 ((s.pg j).limRun + 1))
            ∧ ((j = 2 ∨ th ≠ top) → (t.pg j).limRun = 0)))
    ∧ ((s.phase x.val).high = true →
      (x.val ≠ 3 →
        (level ≤ sense.toNat * 625 + ramp → ∃ t, exec (.trip ⟨x, sense⟩) s = .next t ∧ (t.phase x.val).high = false ∧ t.regs = s.regs
          ∧ t.tb = max s.tb blanked ∧ follows t)
        ∧ (sense.toNat * 625 + ramp < level → exec (.trip ⟨x, sense⟩) s = .next s))
      ∧ (x.val ≠ 3 → ∃ t, exec (.dutyLimit x) s = .next t ∧ (t.phase x.val).high = false ∧ follows t ∧ t.regs = s.regs
        ∧ (s.phase x.val).start + s.fld PW_PGCFG.DMAX j * (s.phase x.val).period / 128 ≤ t.tb)
      ∧ (x.val = 3 → ∃ t, exec (.dutyLimit x) s = .next t ∧ (t.phase 3).high = false ∧ follows t ∧ t.regs = s.regs))
    ∧ (1024 ≤ (s.pg g.val).limRun →
      ((g.val = 0 ∨ g.val = 1) → ∃ t, exec (.currentLimitFault g) s = .next t ∧ HeldInReset 3 (.sequence 0) s t)
      ∧ (g.val = 3 → ∃ t, exec (.currentLimitFault g) s = .next t ∧ t.fld PW_PGST.STATE 3 = 4 ∧ t.fld PW_STATUS.PGFLT = 1
        ∧ (t.phase 4).high = false ∧ t.fld PW_STATUS.EXCOK = 0))
    ∧ ((s.pg g.val).limRun < 1024 → exec (.currentLimitFault g) s = .next s)

/-- O56. A comparator shows its new band, counts and flags as its number says, and a rail that leaves its window resets the device;
a dip sets WARN, suspends a commit and is timed (rounded, log 81); a measurement writes its reading and AG_WORST shows a least
valid margin; the margin program steps the core setpoint by R543 (made at a measurement a choice of the model, log 154); hours
count with time, and only the Root engine's first write sets them. An access of the voted Heartwood is stated for one that can
vote and is not halted (State.canVote). Rows: WINDOW_COMPARATOR_CHANGE, DIP_WARNING, DIP_CLEAR, MONITOR_MEASUREMENT,
OPERATING_HOUR, HOURS_WRITE. Spec: R525, R526, R527, R529, R531, R538, R540, R543, R544, R548, R549. Rests on assumption log 67,
81, 154. -/
def Obligations.SupervisionAndMonitors : Prop :=
  (∀ (s : State) (w : Fin 32) (st : Fin 3),
    let old := s.fld PW_WCST.STATE w.val
    let ran := fun (ks : List Nat) (t : State) => exec (.windowComparatorChange w st) s = .next t ∧ t.fld PW_WCST.STATE w.val = st.val
      ∧ Kept (PW_WCST.STATE.key w.val :: PW_WCST.LOWN.key w.val :: PW_WCST.HIGHN.key w.val :: ks) s t ∧ t.mem = s.mem
    let counted := fun (t : State) =>
      t.fld PW_WCST.LOWN w.val = (if st.val = 0 then min 255 (s.fld PW_WCST.LOWN w.val + 1) else s.fld PW_WCST.LOWN w.val)
      ∧ t.fld PW_WCST.HIGHN w.val = (if st.val = 2 then min 255 (s.fld PW_WCST.HIGHN w.val + 1) else s.fld PW_WCST.HIGHN w.val)
    (s.keeper.power = .up →
      (old = st.val → exec (.windowComparatorChange w st) s = .next s)
      ∧ (old ≠ st.val →
        ((w.val = 4 ∨ w.val = 5 ∨ w.val = 6) → st.val ≠ 1 →
          ∃ t, exec (.windowComparatorChange w st) s = .next t ∧ HeldInReset 3 (.sequence 0) s t)
        ∧ (w.val = 24 → old = 1 → s.pgRuns 3 = true →
          ∃ t, exec (.windowComparatorChange w st) s = .next t ∧ t.fld PW_WCST.STATE 24 = st.val ∧ t.fld PW_PGST.STATE 3 = 4
            ∧ t.fld PW_STATUS.EXCFLT = 1 ∧ t.fld PW_STATUS.EXCOK = 0 ∧ (t.phase 4).high = false)
        ∧ ((w.val < 4 ∨ (7 ≤ w.val ∧ w.val < 24)) → ∃ t, ran [] t)
        ∧ (w.val = 25 → ∃ t, ran [PW_SRC.F0.key 0, PW_STATUS.SRCCHG.key 0] t ∧ counted t ∧ t.fld PW_SRC.F0 = bit (st.val != 0)
            ∧ t.fld PW_STATUS.SRCCHG = 1)
        ∧ (w.val = 28 → ∃ t, ran [PW_STATUS.THERM.key 0] t ∧ counted t ∧ (st.val = 2 → t.fld PW_STATUS.THERM = 1))
        ∧ (29 ≤ w.val → ∃ t, ran [PW_STATUS.GPCHG.key 0] t ∧ counted t ∧ t.fld PW_STATUS.GPCHG = 1)))
    ∧ (s.keeper.power = .up → s.fld RB_BOOT.FAIL = 0 →
      (s.fld PW_STATUS.WARN = 0 →
        ∃ t, exec .dipWarning s = .next t ∧ t.fld PW_STATUS.WARN = 1 ∧ t.fld PW_STATUS.DIPW = 1 ∧ t.dip = true
          ∧ t.fld PW_DIP.DIPN = min 65535 (s.fld PW_DIP.DIPN + 1) ∧ t.fld PW_DIPTIME.TIME = s.now.toNat % 2 ^ 32
          ∧ (s.committing = true → t.fld RB_CST.SUSP = 1)
          ∧ Kept [PW_STATUS.WARN.key 0, PW_STATUS.DIPW.key 0, PW_DIP.DIPN.key 0, PW_DIPTIME.TIME.key 0, RB_CST.SUSP.key 0] s t)
      ∧ (s.fld PW_STATUS.WARN = 1 →
        ∃ t, exec .dipClear s = .next t ∧ t.fld PW_STATUS.WARN = 0 ∧ t.fld PW_STATUS.DIPEND = 1 ∧ t.dip = false
          ∧ s.keeper.dipAt + s.fld PW_CTRL.DIPCLR * 12500 ≤ t.tb ∧ t.fld RB_CST.SUSP = 0
          ∧ t.fld PW_DIP.LASTD = min 65535 ((t.tb - s.keeper.dipAt + 6250) / 12500))))
  ∧ (∀ (s : State) (i : Fin 48) (margin : BitVec 16) (temp : BitVec 8) (v : Word),
    let kind := if i.val < 20 then i.val % 2 else if i.val < 22 then 1 else if i.val < 24 then 0 else if i.val < 37 then 2
      else if i.val < 47 then 3 else 4
    let slew := if s.actNow 0 = s.fld PW_PGSET.SETPT 0 then 0 else 1
    let base := margin.toNat + kind * 2 ^ 16 + temp.toNat * 2 ^ 20 + slew * 2 ^ 30
    let reads := fun (t : State) (j : Nat) => t.fld AG_MON.READING j
    let u := s.setFld AG_MON.READING i.val (base + 2 ^ 28)
    let sp := s.fld PW_PGSET.SETPT 0
    let tm : Int := (5 * s.fld AG_CTRL.TMARG : Nat)
    let due := s.marginRuns = true ∧ s.restored = true ∧ s.trimAt + s.fld AG_CTRL.TRIMT * 1250000 ≤ s.tb
    (s.marginRuns = false → ∃ t, exec (.monitorMeasurement i margin temp false) s = .next t ∧ reads t i.val = base + 2 ^ 28
        ∧ (∀ j, j ≠ i.val → reads t j = reads s j)
        ∧ Kept [AG_MON.READING.key i.val, AG_WORST.MARGIN.key 0, AG_WORST.MON.key 0] s t ∧ t = { s with regs := t.regs }
        ∧ (i.val < 37 → ∃ j, j < 37 ∧ t.fld AG_WORST.MON = j ∧ t.fld AG_WORST.MARGIN = reads t j % 2 ^ 16
            ∧ (reads t j).testBit 28 = true
            ∧ ∀ x, x < 37 → (reads t x).testBit 28 = true →
                (BitVec.ofNat 16 (reads t j)).toInt ≤ (BitVec.ofNat 16 (reads t x)).toInt))
    ∧ (∀ fault, ∃ t, exec (.monitorMeasurement i margin temp fault) s = .next t
        ∧ reads t i.val = base + (if fault then 2 ^ 29 else 2 ^ 28) ∧ (fault = true → t.fld AG_STATUS.MONFLT = 1))
    ∧ (∀ w, due → u.trimMargin = some w → s.actNow 0 = sp → sp ≤ 1050 →
      ∃ t, exec (.monitorMeasurement i margin temp false) s = .next t ∧ t.trimAt = s.tb
        ∧ (w < tm → t.fld PW_PGSET.SETPT 0 = min 1050 (sp + 5)) ∧ (tm + 20 < w → t.fld PW_PGSET.SETPT 0 = max 800 (sp - 5))
        ∧ (tm ≤ w → w ≤ tm + 20 → t.fld PW_PGSET.SETPT 0 = sp) ∧ (w < tm → sp = 1050 → t.fld AG_PLAN.CEIL = 1 ∧ t.fld AG_STATUS.CEIL = 1)
        ∧ (tm ≤ w → t.fld AG_PLAN.CEIL = 0 ∨ s.fld AG_PLAN.CEIL ≠ 1))
    ∧ (s.fld AG_HOURS.HOURS + 1 < 2 ^ 24 →
      ∃ t, exec .operatingHour s = .next t ∧ t.fld AG_HOURS.HOURS = s.fld AG_HOURS.HOURS + 1
        ∧ t.tb = (s.tb / 450000000000 + 1) * 450000000000
        ∧ (s.marginRuns = false ∨ s.fld AG_HOURS.HOURS + 1 < s.trendAt + 168 → Kept [AG_HOURS.HOURS.key 0, AG_STATUS.LOGERR.key 0] s t)
        ∧ (s.marginRuns = true → s.trendAt + 168 ≤ s.fld AG_HOURS.HOURS + 1 → s.mayRecord = true →
          t.commit.record = some (1, 0) ∧ t.fld RB_STATUS.RECBUSY = 1
          ∧ ∃ b, t.plan.body = some b ∧ b.length = 64 ∧ b.take 4 = leBytes 4 (s.fld AG_HOURS.HOURS + 1)
            ∧ ∀ i, i < 48 → b[16 + i]? = some (BitVec.ofNat 8 (pminCode (Tab.get none s.plan.least i))))
        ∧ (s.trendAt + 168 + 24 ≤ s.fld AG_HOURS.HOURS + 1 → t.fld AG_STATUS.LOGERR = 1))
    ∧ (s.hoursSet = false →
      ∃ t, exec (.hoursWrite .root v) s = .next t ∧ t.fld AG_HOURS.HOURS = v.toNat % 2 ^ 24 ∧ t.hoursSet = true
        ∧ Kept [AG_HOURS.HOURS.key 0] s t)
    ∧ (s.hoursSet = true → exec (.hoursWrite .root v) s = .next (s.reject .root))
    ∧ (s.canVote = true → exec (.hoursWrite .hw v) s = .next (s.reject .hw)))

/-- O57. Each reset holds every engine with its cause and keeps flash; counted resets beyond LADMAX become a power cycle and after
three the hold; a release boots; wrong keys and requesters are rejected. A block reset brings its engine, port or DMA to its
reset state, clears its RAM, unmasks its input and drops its locks; its heads have left it though GR_HPLACE still names it (log
70). An access of the voted Heartwood is stated for one that can vote and is not halted (State.canVote). Rows: RESET_BALL,
RESET_RELEASE, DEVICE_RESET_REQUEST, EVACUATION_TIMEOUT, SYSRST, KEEPER_WATCHDOG, BLOCK_RESET. Spec: R559, R564, R577, R579,
R580, Table RB-2, Table RB-3. Rests on assumption log 70, 90. -/
def Obligations.ResetsTakePlace : Prop :=
  ∀ (s : State) (v : Word) (straps : BitVec 2) (k : Fin 6) (p : Fin 3) (x c : Nat),
    let key := v.toNat % 2 ^ 16 = 0x6B5E
    let n := s.fld RB_CAUSE.DRSTN + 1
    let ladder := fun (cause : Nat) (i : Instr) =>
      (n ≤ s.fld RB_CTRL.LADMAX → n < 16 →
        ∃ u, HeldInReset cause .up s u ∧ u.fld RB_CAUSE.DRSTN = n ∧ exec i s = .next (releaseReset u))
      ∧ (s.fld RB_CTRL.LADMAX < n → s.fld RB_CAUSE.PCYCN < 3 →
        ∃ t, exec i s = .next t ∧ HeldInReset 4 (.cycling 0) s t ∧ t.fld RB_CAUSE.PCYCN = s.fld RB_CAUSE.PCYCN + 1)
      ∧ (s.fld RB_CTRL.LADMAX < n → 3 ≤ s.fld RB_CAUSE.PCYCN → ∃ t, exec i s = .next t ∧ HeldInReset 4 .hold s t)
    let brst := v.toNat / 2 ^ 16 = 0x6B5E
    let blk := v.toNat % 16
    (s.keeper.power = .up →
      ∃ t, exec .resetBall s = .next t ∧ HeldInReset 1 .ballLow s t ∧ t.fld RB_CAUSE.DRSTN = 0 ∧ t.fld RB_CAUSE.PCYCN = 0)
    ∧ (s.keeper.power = .ballLow →
      exec (.resetRelease straps) s = .next (releaseReset (s.modKeeper (fun k => { k with straps := straps.toNat }))))
    ∧ (s.keeper.power = .holdLow → exec (.resetRelease straps) s
        = .next (s.modKeeper (fun k => { k with straps := straps.toNat, held := true, power := .sequence s.tb })))
    ∧ (key → v.toNat / 2 ^ 16 % 2 = 0 → ladder 6 (.deviceResetRequest .root v) ∧ (s.canVote = true → ladder 7 (.deviceResetRequest .hw v)))
    ∧ (¬ key → exec (.deviceResetRequest .root v) s = .next (s.reject .root))
    ∧ exec (.deviceResetRequest .dbg v) s = .next (s.reject .dbg)
    ∧ (s.keeper.resetReq = some (c, x) → ladder c .evacuationTimeout)
    ∧ (s.keeper.resetReq = none → exec .evacuationTimeout s = .next s)
    ∧ (s.debugOn = true → s.masked .dbg = false → s.quiesced = false →
      ∃ u, HeldInReset 8 .up s u ∧ exec .sysrst s = .next (releaseReset u))
    ∧ (s.keeper.power = .up → s.fld RB_BOOT.FAIL = 0 → (s.eng 9).run ≠ .halted → s.fld RB_CAUSE.PCYCN < 3 →
      ∃ t, exec .keeperWatchdog s = .next t ∧ HeldInReset 5 (.cycling 0) s t ∧ t.fld RB_CAUSE.PCYCN = s.fld RB_CAUSE.PCYCN + 1)
    ∧ (s.canVote = true → ¬ brst → exec (.blockReset .hw v) s = .next (s.reject .hw))
    ∧ (brst → blk = 4 → exec (.blockReset .root v) s = .next (s.reject .root))
    ∧ (s.canVote = true → brst → 12 ≤ blk → exec (.blockReset .hw v) s = .next (s.flag RB_STATUS.CFGERR evRB))
    ∧ (s.canVote = true → brst → blk = 4 → s.fld ID_BOOT.BANK ≤ 1 →
      ∃ t, exec (.blockReset .hw v) s = .next t ∧ t.eng 9 = { Engine.reset with pc := s.entryAt 0x1C, evp := s.entryAt 0x1C &&& 0xFFFFFFF0#32 }
        ∧ (∀ a, a < 2 ^ 32 → t.byte (memKey 10 a) = 0#8) ∧ t.masked .root = false ∧ (∀ y ∈ t.lockWait, y.who ≠ .root))
    ∧ (s.canVote = true → brst → blk = 5 + k.val → s.seRetired k.val = false → s.fld ID_BOOT.BANK ≤ 1 →
      ∃ t, exec (.blockReset .hw v) s = .next t ∧ (t.eng (3 + k.val)).pc = s.entryAt (0x20 + 4 * k.val)
        ∧ (t.eng (3 + k.val)).run = .running ∧ t.edgeFifo (3 + k.val) = [] ∧ t.masked (.se k) = false
        ∧ (∀ a, a < 2 ^ 32 → t.byte (memKey (4 + k.val) a) = 0#8)
        ∧ (∀ h, h < 32 → t.fld GR_HPLACE.PRIM h = s.fld GR_HPLACE.PRIM h ∧ t.fld GR_HPLACE.SHAD h = s.fld GR_HPLACE.SHAD h
            ∧ ((s.fld GR_HPLACE.PRIM h = k.val ∨ s.fld GR_HPLACE.SHAD h = k.val) → k.val ∈ (t.head h).gone)))
    ∧ (s.canVote = true → brst → blk = 1 + p.val →
      ∃ t, exec (.blockReset .hw v) s = .next t ∧ (t.port p.val).queue = [] ∧ (t.port p.val).props = [] ∧ t.masked (.host p) = false
        ∧ (∀ w, w < 72 → t.fld HP_DIRTY.D (p.val * 72 + w) = 2 ^ 32 - 1) ∧ t.fld HP_POV.DEV p.val = 0
        ∧ t.fld HP_PSTATUS.ERR p.val = 0 ∧ t.mem = s.mem)
    ∧ (s.canVote = true → brst → blk = 11 →
      ∃ t, exec (.blockReset .hw v) s = .next t ∧ t.fld CK_RXRI.RI = s.fld CK_RXWI.WI % 2 ^ CK_RXRI.RI.w ∧ t.ready = [] ∧ t.rxq = [])

/-- O58. START, erase, chunks in order and FINISH move the commit through its states and write exactly the new bank; every failure
ends it with its reason and the pointer unchanged; a command in the wrong state sets CFGERR (log 72); completion with every fit
check passed writes the next pointer record, with the image bank switched, into a pointer sector and nothing else, and leaves
the running image; a dip holds every step of the commit unit. The debugger drives it in boot failure with its own words. An
access of the voted Heartwood is stated for one that can vote and is not halted (State.canVote). Rows: COMMIT_START, ERASE_DONE,
CHUNK, CHUNK_DONE, COMMIT_FINISH, COMMIT_ABORT, COMMIT_TIMEOUT, COMMIT_COMPLETE. Spec: R529, R571, R572, R573. Rests on
assumption log 72, 73, 78, 92. -/
def Obligations.ConfigurationCommits : Prop :=
  ∀ (s : State) (v : Word) (q : Req),
    let bad := s.flag RB_STATUS.CFGERR evRB
    let off := v.toNat % 2 ^ 18
    let len := v.toNat / 2 ^ 18 % 2 ^ 13
    let a := s.fld RB_CSTAGE.ADDR
    let dst := s.newBank + s.commit.off * 16
    let sz := s.commit.len * 16
    let failed := fun (r : Nat) (t : State) => t.fld RB_CST.STATE = 6 ∧ t.fld RB_CST.FAILR = r ∧ t.fld RB_STATUS.CMTFAIL = 1
      ∧ t.fld RB_STATUS.CMTBUSY = 0 ∧ t.fld RB_PTR.SEQ = s.fld RB_PTR.SEQ ∧ (∀ k, k < 0x800000 → t.byte k = s.byte k)
    let dip := s.fld PW_STATUS.WARN = 1
    let busy := s.fld RB_STATUS.CMTBUSY = 1 ∨ s.fld RB_STATUS.RECBUSY = 1
    let may := (q = .hw ∧ s.canVote = true) ∨ (q = .dbg ∧ s.fld RB_BOOT.FAIL = 1 ∧ s.fld RB_STRAP.SDBG = 1 ∧ s.fld DB_TGT.TGT = 8)
    let fromDbg := s.fld RB_BOOT.FAIL = 1 ∧ s.commit.buf ≠ []
    let inRam := 0x20000000 ≤ a ∧ a + sz ≤ 0x20200000
    let word := fun (i : Nat) => (s.commit.buf[i / 4]?).getD 0 / 256 ^ (i % 4) % 256
    let ptr := ptrBase s.pointer.sector
    let other := ptrBase (1 - s.pointer.sector)
    (dip → ∀ c ∈ [Instr.eraseDone, .chunkDone true, .chunkDone false, .commitTimeout, .commitComplete], exec c s = .next s)
    ∧ (may → ¬ busy →
      ∃ t, exec (.commitStart q) s = .next t ∧ t.fld RB_CST.STATE = 1 ∧ t.fld RB_STATUS.CMTBUSY = 1 ∧ t.fld RB_CST.FAILR = 0
        ∧ t.commit.start = s.tb ∧ t.commit.next = 0 ∧ t.mem = s.mem)
    ∧ (may → busy → exec (.commitStart q) s = .next bad)
    ∧ (¬ may → s.absent q = false → ∀ c ∈ [Instr.commitStart q, .chunk q v, .commitFinish q, .commitAbort q], exec c s = .next (s.reject q))
    ∧ (s.fld RB_CST.STATE = 1 → ¬ dip →
      ∃ t, exec .eraseDone s = .next t ∧ t.fld RB_CST.STATE = 2 ∧ Kept [RB_CST.STATE.key 0] s t
        ∧ (∀ k, s.newBank ≤ k → k < s.newBank + 0x380000 → t.byte k = 0xFF#8)
        ∧ (∀ k, (k < s.newBank ∨ s.newBank + 0x380000 ≤ k) → t.byte k = s.byte k))
    ∧ (may → s.fld RB_CST.STATE = 2 → 1 ≤ len → len ≤ 4096 →
      (off = s.commit.next → (off + len) * 16 ≤ min 0x380000 (s.newLen off) →
        ∃ t, exec (.chunk q v) s = .next t ∧ t.fld RB_CST.STATE = 3 ∧ t.commit = { s.commit with off := off, len := len } ∧ t.mem = s.mem)
      ∧ ((off ≠ s.commit.next ∨ min 0x380000 (s.newLen off) < (off + len) * 16) →
        ∃ t, exec (.chunk q v) s = .next t ∧ failed 5 t ∧ t.mem = s.mem))
    ∧ (may → (s.fld RB_CST.STATE ≠ 2 ∨ len = 0 ∨ 4096 < len) → exec (.chunk q v) s = .next bad)
    ∧ (s.fld RB_CST.STATE = 3 → ¬ dip → s.newBank + 0x380000 ≤ 0x800000 → dst + sz ≤ s.newBank + 0x380000 →
      (fromDbg ∨ (inRam ∧ ∀ i, i * 16 < sz → s.badBits (a + 16 * i) ≤ 2) →
        (∃ t, exec (.chunkDone true) s = .next t ∧ t.fld RB_CST.STATE = 2 ∧ t.fld RB_STATUS.CHUNK = 1
          ∧ t.commit.next = s.commit.off + s.commit.len ∧ (¬ fromDbg → ∀ i, i < sz → t.byte (dst + i) = s.byte (a + i))
          ∧ (fromDbg → ∀ i, i < sz → (t.byte (dst + i)).toNat = word i) ∧ (∀ k, (k < dst ∨ dst + sz ≤ k) → t.byte k = s.byte k))
        ∧ (∃ t, exec (.chunkDone false) s = .next t ∧ failed 6 t ∧ t.mem = s.mem))
      ∧ (¬ fromDbg → ∀ ok, (inRam → (∃ i, i * 16 < sz ∧ s.badBits (a + 16 * i) = 3) →
            ∃ t, exec (.chunkDone ok) s = .next t ∧ failed 7 t ∧ t.mem = s.mem)
          ∧ (¬ inRam → ∃ t r, exec (.chunkDone ok) s = .next t ∧ failed r t ∧ t.mem = s.mem)))
    ∧ (may → s.fld RB_CST.STATE = 2 → exec (.commitFinish q) s = .next (s.setFld RB_CST.STATE 0 4))
    ∧ (may → s.fld RB_CST.STATE ≠ 2 → exec (.commitFinish q) s = .next bad)
    ∧ (may → (s.fld RB_CST.STATE = 0 ∨ 4 < s.fld RB_CST.STATE) → exec (.commitAbort q) s = .next bad)
    ∧ (1 ≤ s.fld RB_CST.STATE → s.fld RB_CST.STATE ≤ 4 →
      (may → ∃ t, exec (.commitAbort q) s = .next t ∧ failed 4 t ∧ t.mem = s.mem)
      ∧ (¬ dip → ∃ t, exec .commitTimeout s = .next t ∧ failed 1 t ∧ t.mem = s.mem))
    ∧ (s.fld RB_CST.STATE = 4 → ¬ dip →
      (375000000 < s.elapsed → ∃ t, exec .commitComplete s = .next t ∧ failed 1 t ∧ t.mem = s.mem)
      ∧ (s.elapsed ≤ 375000000 →
        (∀ code item kind, s.fit s.newImage s.newBank = some (code, item, kind) → code < 256 → item < 2 ^ 16 →
          ∃ t, exec .commitComplete s = .next t ∧ failed (if code < 3 then 2 else 3) t ∧ t.fld RB_FIT.CODE = code
            ∧ t.fld RB_FIT.STAGE = 1 ∧ t.fld RB_FIT.ITEM = item ∧ t.fld RB_STATUS.FITREF = 1)
        ∧ (s.fit s.newImage s.newBank = none →
          ∃ t, exec .commitComplete s = .next t ∧ t.fld RB_CST.STATE = 5 ∧ t.fld RB_STATUS.CMTDONE = 1 ∧ t.fld RB_STATUS.CMTBUSY = 0
            ∧ t.fld RB_PTR.SEQ = (s.pointer.seq + 1) % 2 ^ 32 ∧ t.fld ID_IMAGE.IMAGEID = s.fld ID_IMAGE.IMAGEID
            ∧ t.fld ID_BOOT.BANK = s.fld ID_BOOT.BANK
            ∧ (∃ k, ((ptr ≤ k ∧ k < ptr + 0x8000) ∨ (other ≤ k ∧ k < other + 0x8000)) ∧ t.rdW k = (s.pointer.seq + 1) % 2 ^ 32
                ∧ t.rdW (k + 4) = s.rdW (s.newBank + 8) ∧ t.rdW (k + 8) = 1 - s.pointer.image + 2 * s.pointer.records
                ∧ t.rdW (k + 12) = crc32c (t.rdL k 12))
            ∧ (∀ k, (k < ptr ∨ ptr + 0x8000 ≤ k) → (k < other ∨ other + 0x8000 ≤ k) → t.byte k = s.byte k))))

/-- O59. A record request from shared RAM by the Root engine or the Heartwood is taken while nothing is busy, and its completion
writes exactly one 80-byte entry with its body (for a request of the margin program the body that it holds, log 159), or fails
on an uncorrectable block; kicks with the key restart the watchdog, which sets RWDOG after RWDT full cycles (log 84); RB_LADDER
writes one entry of the recovery log; ten minutes of service clear the counters. The eight commands of a commit move
RB_CST.STATE through 1 to 6 as R572 and R573 say. An access of the voted Heartwood is stated for one that can vote and is not
halted (State.canVote). Rows: RECORD, RECORD_DONE, ROOT_KICK, ROOT_WATCHDOG, LADDER_WRITE, LADDER_COUNTER_CLEAR, COMMIT_START,
ERASE_DONE, CHUNK, CHUNK_DONE, COMMIT_FINISH, COMMIT_ABORT, COMMIT_TIMEOUT, COMMIT_COMPLETE. Spec: R566, R572, R573, R575, R576,
R578, R580, R581. Rests on assumption log 71, 84. -/
def Obligations.RecordsAndWatchdogs : Prop :=
  (∀ (s : State) (q : Req) (v : Word) (a : Nat),
    let kind := v.toNat % 16
    let body := v.toNat / 16 * 16
    let driver := q = .root ∨ (q = .hw ∧ s.canVote = true)
    let fits := 1 ≤ kind ∧ kind ≤ 3 ∧ 0x20000000 ≤ body ∧ body + 64 ≤ 0x20200000
    let idle := s.fld RB_STATUS.CMTBUSY ≠ 1 ∧ s.fld RB_STATUS.RECBUSY ≠ 1
    let n := s.recNext s.pointer.records
    let at0 := recBase s.pointer.records + 80 * n
    let i := Tab.get 0 s.logs 1 % 64
    (driver → fits → idle →
      ∃ t, exec (.record q v) s = .next t ∧ t.commit.record = some (kind, body) ∧ Kept [RB_STATUS.RECBUSY.key 0] s t
        ∧ t.fld RB_STATUS.RECBUSY = 1 ∧ t.mem = s.mem)
    ∧ (driver → (¬ fits ∨ ¬ idle) → exec (.record q v) s = .next (s.flag RB_STATUS.RECFAIL evRB))
    ∧ (¬ driver → s.absent q = false → exec (.record q v) s = .next (s.reject q) ∧ exec (.ladderWrite q v) s = .next (s.reject q))
    ∧ (∀ k b, s.commit.record = some (k, a) → s.plan.body = some b → b.length = 64 → k ≤ 3 → s.fld PW_STATUS.WARN ≠ 1 → n < 6144 →
        ∃ t, exec .recordDone s = .next t ∧ t.fld RB_STATUS.RECDONE = 1 ∧ t.fld RB_STATUS.RECBUSY = 0 ∧ t.commit.record = none
          ∧ t.plan.body = none ∧ (t.byte at0).toNat = k ∧ (∀ j, j < 64 → some (t.byte (at0 + 16 + j)) = b[j]?)
          ∧ (∀ y, (y < at0 ∨ at0 + 80 ≤ y) → t.byte y = s.byte y))
    ∧ (∀ k, s.commit.record = some (k, a) → s.plan.body = none → k ≤ 3 → s.fld PW_STATUS.WARN ≠ 1 → 0x20000000 ≤ a → a + 64 ≤ 0x20200000 → a % 16 = 0 →
      ((∀ j, j < 4 → s.badBits (a + 16 * j) = 0) → n < 6144 →
        ∃ t, exec .recordDone s = .next t ∧ t.fld RB_STATUS.RECDONE = 1 ∧ t.fld RB_STATUS.RECBUSY = 0 ∧ t.commit.record = none
          ∧ (t.byte at0).toNat = k ∧ (∀ j, j < 64 → t.byte (at0 + 16 + j) = s.byte (a + j))
          ∧ (∀ y, (y < at0 ∨ at0 + 80 ≤ y) → t.byte y = s.byte y))
      ∧ ((∃ j, j < 4 ∧ s.badBits (a + 16 * j) = 3) →
        ∃ t, exec .recordDone s = .next t ∧ t.fld RB_STATUS.RECFAIL = 1 ∧ t.fld RB_STATUS.RECBUSY = 0 ∧ t.mem = s.mem))
    ∧ (v.toNat % 2 ^ 16 = 0xC0DE →
        exec (.rootKick .root v) s = .next (s.modKeeper (fun k => { k with kick := s.tb, rkick := s.cycle })))
    ∧ (v.toNat % 2 ^ 16 ≠ 0xC0DE → exec (.rootKick .root v) s = .next s)
    ∧ (q ≠ .root → s.absent q = false → exec (.rootKick q v) s = .next (s.reject q))
    ∧ (s.keeper.rkick + s.fld RB_CTRL.RWDT < s.cycle →
      ∃ t, exec .rootWatchdog s = .next t ∧ t.fld RB_STATUS.RWDOG = 1 ∧ Kept [RB_STATUS.RWDOG.key 0] s t ∧ t.mem = s.mem)
    ∧ (s.cycle ≤ s.keeper.rkick + s.fld RB_CTRL.RWDT → exec .rootWatchdog s = .next s)
    ∧ (driver → s.fld AG_HOURS.HOURS < 2 ^ 32 →
      ∃ t, exec (.ladderWrite q v) s = .next t ∧ t.regs = s.regs
        ∧ t.rd (0x38000200 + 16 * i) 4 = v.toNat ∧ t.rd (0x38000204 + 16 * i) 4 = s.now.toNat % 2 ^ 32
        ∧ t.rd (0x38000208 + 16 * i) 4 = s.fld AG_HOURS.HOURS ∧ t.rd (0x3800020C + 16 * i) 4 = 0
        ∧ (∀ y, (y < 0x38000200 + 16 * i ∨ 0x38000210 + 16 * i ≤ y) → t.byte y = s.byte y))
    ∧ (∀ x, s.keeper.serviceAt = some x →
      ∃ t, exec .ladderCounterClear s = .next t ∧ t.fld RB_CAUSE.DRSTN = 0 ∧ t.fld RB_CAUSE.PCYCN = 0
        ∧ Kept [RB_CAUSE.DRSTN.key 0, RB_CAUSE.PCYCN.key 0] s t ∧ x + 75000000000 ≤ t.tb)
    ∧ (s.keeper.serviceAt = none → exec .ladderCounterClear s = .next s))
  ∧ (∀ (s : State) (v : Word),
    let st := s.fld RB_CST.STATE
    let off := v.toNat % 2 ^ 18
    let len := v.toNat / 2 ^ 18 % 2 ^ 13
    let a := s.fld RB_CSTAGE.ADDR
    let sz := s.commit.len * 16
    let calm := s.fld PW_STATUS.WARN ≠ 1
    let underway := 1 ≤ st ∧ st ≤ 4
    let moves := fun (c : Instr) (n : Nat) => ∃ t, exec c s = .next t ∧ t.fld RB_CST.STATE = n
    (s.canVote = true → s.fld RB_STATUS.CMTBUSY ≠ 1 → s.fld RB_STATUS.RECBUSY ≠ 1 → moves (.commitStart .hw) 1)
    ∧ (st = 1 → calm → moves .eraseDone 2)
    ∧ (s.canVote = true → st = 2 → 1 ≤ len → len ≤ 4096 → off = s.commit.next → (off + len) * 16 ≤ min 0x380000 (s.newLen off) → moves (.chunk .hw v) 3)
    ∧ (st = 3 → calm → s.fld RB_BOOT.FAIL = 0 → 0x20000000 ≤ a → a + sz ≤ 0x20200000 → (∀ i, i * 16 < sz → s.badBits (a + 16 * i) ≤ 2) →
      moves (.chunkDone true) 2)
    ∧ (s.canVote = true → st = 2 → moves (.commitFinish .hw) 4)
    ∧ (s.canVote = true → underway → moves (.commitAbort .hw) 6)
    ∧ (underway → calm → moves .commitTimeout 6)
    ∧ (st = 4 → calm → s.elapsed ≤ 375000000 → s.fit s.newImage s.newBank = none → moves .commitComplete 5))

/-- O60. With SDBG 0 every debugger order sets ACCERR and nothing else; with it 1 a target halts, resumes and steps, a halted one
gives and takes its registers, its RAM is read and written word by word, a range it may only read is read through DB_DATA (log
153) and never written, and a dump copies the newest entries oldest first (log 76). Each TAP instruction captures its register;
with SDBG 0 all but IDCODE and SAMPLE act as BYPASS; none changes an output. Rows: DEBUG_HALT, DEBUG_RESUME, SINGLE_STEP,
DB_DATA_ACCESS, REGDATA_ACCESS, TRACE_DUMP, TRACE_DUMP_COMPLETE, EXTEST, SAMPLE_PRELOAD, IDCODE, CLAMP, HIGHZ, DEBUG, BYPASS,
TEST_LOGIC_RESET. Spec: R428, R429, R430, R584, R585, R586, R608, R609, Table EL-15. Rests on assumption log 76, 94, 153. -/
def Obligations.DebuggerAndTestAccess : Prop :=
  (∀ (s : State) (k : Fin 6) (v : Word) (write : Bool),
    let off := ∀ c, (c = Instr.debugHalt ∨ c = .debugResume ∨ c = .singleStep ∨ c = .sysrst ∨ c = .traceDump
      ∨ c = .dbDataAccess true v ∨ c = .regdataAccess true v) → exec c s = .next (s.setFld DB_STATUS.ACCERR 0 1)
    let tgt := s.fld DB_TGT.TGT
    let e := 3 + k.val
    let a := s.fld DB_ADDR.ADDR
    let ak := memKey (1 + e) a
    let inRam := 0x40000000 ≤ a ∧ a < 0x40020000 ∧ a % 4 = 0
    let shown := a % 4 = 0 ∧ (a < 0x800000 ∨ (0x20000000 ≤ a ∧ a < 0x20200000)
      ∨ (0x28000000 ≤ a ∧ a < 0x28040000) ∨ (0x38000000 ≤ a ∧ a < 0x38010000))
    let r := s.fld DB_REGSEL.REG
    let d := s.fld DB_TRCFG.DEPTH
    let n := Tab.get 0 s.logs 3
    let base := s.rdW (s.bankBase + 0x44)
    (s.masked .dbg = false → s.quiesced = false →
      (s.debugOn = false → off)
      ∧ (s.debugOn = true →
        (tgt = 2 + k.val →
          ((s.eng e).run = .running → (s.eng e).midway = false →
            exec .debugHalt s = .next (s.modEng e (fun x => { x with run := .halted })))
          ∧ ((s.eng e).run = .running → (s.eng e).midway = true →
            ∃ t, exec .debugHalt s = .next t ∧ t.engines = s.engines ∧ e ∈ t.heart.stepping ∧ t.regs = s.regs ∧ t.mem = s.mem)
          ∧ ((s.eng e).run = .halted → e ∉ s.heart.parked →
            (∃ t, exec .debugResume s = .next t ∧ t.eng e = { s.eng e with run := .running } ∧ t.regs = s.regs ∧ t.mem = s.mem)
            ∧ (∃ t, exec .singleStep s = .next t ∧ (t.eng e).run = .running ∧ e ∈ t.heart.stepping ∧ t.regs = s.regs)
            ∧ (r < 16 →
              (∃ t, exec (.regdataAccess false v) s = .next t ∧ Tab.get 0 t.delivered 0 = ((s.eng e).w[r]?.getD 0).toNat
                ∧ t.engines = s.engines ∧ Kept [DB_REGDATA.DATA.key 0] s t)
              ∧ (∃ t, exec (.regdataAccess true v) s = .next t ∧ (t.eng e).w[r]? = some v
                ∧ (∀ j : Fin 16, j.val ≠ r → (t.eng e).w[j] = (s.eng e).w[j]) ∧ (t.eng e).pc = (s.eng e).pc)))
          ∧ ((s.eng e).run ≠ .halted →
            ∃ t, exec (.regdataAccess write v) s = .next t ∧ t.fld DB_STATUS.ACCERR = 1 ∧ t.engines = s.engines)
          ∧ (inRam → s.badBits ak = 0 →
            (∃ t, exec (.dbDataAccess false v) s = .next t ∧ Tab.get 0 t.delivered 0 = s.rd ak 4 ∧ t.fld DB_ADDR.ADDR = (a + 4) % 2 ^ 32
              ∧ t.mem = s.mem)
            ∧ (∃ t, exec (.dbDataAccess true v) s = .next t ∧ t.rd ak 4 = v.toNat ∧ t.fld DB_ADDR.ADDR = (a + 4) % 2 ^ 32
              ∧ (∀ y, (y < ak ∨ ak + 4 ≤ y) → t.byte y = s.byte y)))
          ∧ (¬ inRam →
            (∃ t, exec (.dbDataAccess true v) s = .next t ∧ t.fld DB_STATUS.ACCERR = 1 ∧ t.mem = s.mem ∧ t.fld DB_ADDR.ADDR = a)
            ∧ (shown → s.badBits a = 0 →
              ∃ t, exec (.dbDataAccess false v) s = .next t ∧ Tab.get 0 t.delivered 0 = s.rd a 4 ∧ t.fld DB_ADDR.ADDR = (a + 4) % 2 ^ 32
                ∧ t.mem = s.mem)
            ∧ (¬ shown →
              ∃ t, exec (.dbDataAccess false v) s = .next t ∧ t.fld DB_STATUS.ACCERR = 1 ∧ t.mem = s.mem ∧ t.fld DB_ADDR.ADDR = a)))
        ∧ (tgt = 0 → s.isSplit = false →
          ∃ t, exec .debugHalt s = .next t ∧ (∀ c ∈ s.voting, (t.core c).sigs = (s.core c).sigs ++ [(.halt, s.maxRetire + 1)])
            ∧ t.engines = s.engines ∧ t.regs = s.regs)
        ∧ exec .traceDump s = .next (s.setFld DB_TRDUMP.BUSY 0 1)))
    ∧ (s.fld DB_TRDUMP.BUSY = 1 → s.rdW s.bankBase = 0x7A110256 → 16 * d ≤ s.rdW (s.bankBase + 0x48) → 0x20000000 ≤ base →
        base + 16 * d ≤ 0x20200000 → d ≤ 1024 →
      ∃ t, exec .traceDumpComplete s = .next t ∧ t.fld DB_TRDUMP.BUSY = 0
        ∧ (∀ j i, j < d → i < 16 → t.byte (base + 16 * j + i) = s.byte (0x38004000 + (n + 1024 - d + j) % 1024 * 16 + i)))
    ∧ (s.fld DB_TRDUMP.BUSY ≠ 1 → exec .traceDumpComplete s = .next s))
  ∧ (∀ (s : State) (pins shift : BitVec 273) (w : Bool) (off : BitVec 12) (v : Word),
    let bypassed : State := { s with tap := { s.tap with ir := 0x3F, dr := 0 } }
    let idcode := (s.fld ID_PART.REV - 0x41) * 2 ^ 28 + s.fld ID_PART.PART * 2 ^ 12 + s.fld ID_VENDOR.VENDOR % 2 ^ 11 * 2 + 1
    exec (.samplePreload pins shift) s = .next { s with tap := { ir := 0x01, dr := pins.toNat, latch := shift.toNat } }
    ∧ exec .idcode s = .next { s with tap := { s.tap with ir := 0x02, dr := idcode } }
    ∧ exec .bypass s = .next bypassed
    ∧ exec .testLogicReset s = .next { s with tap := { s.tap with ir := 0x02 } }
    ∧ (s.debugOn = false → ∀ c, (c = Instr.extest pins shift ∨ c = .clamp ∨ c = .highz ∨ c = .debug w off v) →
        exec c s = .next bypassed)
    ∧ (s.debugOn = true →
      exec (.extest pins shift) s = .next { s with tap := { ir := 0x00, dr := pins.toNat, latch := shift.toNat } }
      ∧ exec .clamp s = .next { s with tap := { s.tap with ir := 0x04, dr := 0 } }
      ∧ exec .highz s = .next { s with tap := { s.tap with ir := 0x05, dr := 0 } }
      ∧ (s.masked .dbg = false → s.quiesced = false →
        (s.fld DB_TGT.TGT < 16 → ∃ t, exec (.debug false 0x008#12 v) s = .next t ∧ t.tap.ir = 0x10 ∧ t.tap.dr = s.fld DB_TGT.TGT
            ∧ t.regs = s.regs ∧ t.mem = s.mem ∧ t.engines = s.engines)
        ∧ (∃ t, exec (.debug true 0x00C#12 v) s = .next t ∧ t.tap.ir = 0x10 ∧ t.fld DB_ADDR.ADDR = v.toNat
            ∧ Kept [DB_ADDR.ADDR.key 0] s t ∧ t.mem = s.mem ∧ t.engines = s.engines))))
end

