-- ==== Sys2Proof/Laws/Tab.lean ====
section
/-! SUPPORT. Sparse maps: what a read gives after a write, that every change keeps the canonical form, and that maps in canonical form
with equal reads are equal. -/

namespace Sys2Proof.Machine

variable {α : Type}

/-! ### Reads after writes -/

@[simp] theorem Tab.get_nil (d : α) (k : Nat) : Tab.get d [] k = d := rfl

theorem Tab.get_insert_self (d : α) (m : Tab α) (k : Nat) (v : α) : Tab.get d (Tab.insert k v m) k = v := by
  induction m with
  | nil => simp [Tab.insert, Tab.get]
  | cons p t ih =>
    obtain ⟨k', v'⟩ := p
    simp only [Tab.insert]
    split
    · simp [Tab.get]
    · split
      · simp [Tab.get]
      · rename_i h
        simp [Tab.get, Ne.symm h, ih]

theorem Tab.get_insert_ne (d : α) (m : Tab α) {k j : Nat} (v : α) (h : j ≠ k) :
    Tab.get d (Tab.insert k v m) j = Tab.get d m j := by
  induction m with
  | nil => simp [Tab.insert, Tab.get, h.symm]
  | cons p t ih =>
    obtain ⟨k', v'⟩ := p
    simp only [Tab.insert]
    split
    · simp [Tab.get, h.symm]
    · split
      · rename_i h'
        simp [Tab.get, ← h', h.symm]
      · simp [Tab.get, ih]

theorem Tab.get_erase_self (d : α) (m : Tab α) (k : Nat) : Tab.get d (Tab.erase k m) k = d := by
  induction m with
  | nil => rfl
  | cons p t ih =>
    obtain ⟨k', v'⟩ := p
    simp only [Tab.erase]
    split
    · exact ih
    · rename_i h
      simp [Tab.get, Ne.symm h, ih]

theorem Tab.get_erase_ne (d : α) (m : Tab α) {k j : Nat} (h : j ≠ k) : Tab.get d (Tab.erase k m) j = Tab.get d m j := by
  induction m with
  | nil => rfl
  | cons p t ih =>
    obtain ⟨k', v'⟩ := p
    simp only [Tab.erase]
    split
    · rename_i h'
      simp [Tab.get, ← h', h.symm, ih]
    · simp [Tab.get, ih]

@[simp] theorem Tab.get_set_self [DecidableEq α] (d : α) (m : Tab α) (k : Nat) (v : α) :
    Tab.get d (Tab.set d m k v) k = v := by
  unfold Tab.set
  split
  · rename_i h
    rw [Tab.get_erase_self, h]
  · exact Tab.get_insert_self d m k v

theorem Tab.get_set_ne [DecidableEq α] (d d' : α) (m : Tab α) {k j : Nat} (v : α) (h : j ≠ k) :
    Tab.get d' (Tab.set d m k v) j = Tab.get d' m j := by
  unfold Tab.set
  split
  · exact Tab.get_erase_ne d' m h
  · exact Tab.get_insert_ne d' m v h

theorem Tab.get_filter_of_true (d : α) (p : Nat × α → Bool) (m : Tab α) (k : Nat) (h : ∀ v, p (k, v) = true) :
    Tab.get d (m.filter p) k = Tab.get d m k := by
  induction m with
  | nil => rfl
  | cons q t ih =>
    obtain ⟨k', v'⟩ := q
    by_cases hk : k' = k
    · subst hk
      simp [h, Tab.get]
    · by_cases hp : p (k', v') = true <;> simp [hp, Tab.get, hk, ih]

theorem Tab.get_filter_of_false (d : α) (p : Nat × α → Bool) (m : Tab α) (k : Nat) (h : ∀ v, p (k, v) = false) :
    Tab.get d (m.filter p) k = d := by
  induction m with
  | nil => rfl
  | cons q t ih =>
    obtain ⟨k', v'⟩ := q
    by_cases hk : k' = k
    · subst hk
      simp [h, ih]
    · by_cases hp : p (k', v') = true <;> simp [hp, Tab.get, hk, ih]

/-! ### The canonical form -/

theorem Tab.risesFrom_mono {b c : Nat} (h : c ≤ b) {m : Tab α} (hm : Tab.risesFrom b m = true) : Tab.risesFrom c m = true := by
  cases m with
  | nil => rfl
  | cons p t =>
    obtain ⟨k, v⟩ := p
    simp only [Tab.risesFrom, Bool.and_eq_true, decide_eq_true_eq] at hm ⊢
    exact ⟨by omega, hm.2⟩

theorem Tab.rising_of_risesFrom {b : Nat} {m : Tab α} (hm : Tab.risesFrom b m = true) : Tab.rising m = true := by
  cases m with
  | nil => rfl
  | cons p t =>
    simp only [Tab.risesFrom, Bool.and_eq_true] at hm
    exact hm.2

theorem Tab.risesFrom_insert {b k : Nat} (v : α) (hb : b < k) {m : Tab α} (hm : Tab.risesFrom b m = true) :
    Tab.risesFrom b (Tab.insert k v m) = true := by
  induction m generalizing b with
  | nil => simp [Tab.insert, Tab.risesFrom, hb]
  | cons p t ih =>
    obtain ⟨k', v'⟩ := p
    simp only [Tab.risesFrom, Bool.and_eq_true, decide_eq_true_eq] at hm
    simp only [Tab.insert]
    split
    · rename_i h
      simp [Tab.risesFrom, hb, h, hm.2]
    · split
      · rename_i h
        subst h
        simp [Tab.risesFrom, hb, hm.2]
      · simp only [Tab.risesFrom, Bool.and_eq_true, decide_eq_true_eq]
        exact ⟨hm.1, ih (by omega) hm.2⟩

theorem Tab.rising_insert (k : Nat) (v : α) {m : Tab α} (hm : Tab.rising m = true) : Tab.rising (Tab.insert k v m) = true := by
  cases m with
  | nil => rfl
  | cons p t =>
    obtain ⟨k', v'⟩ := p
    simp only [Tab.rising] at hm
    simp only [Tab.insert]
    split
    · rename_i h
      simp [Tab.rising, Tab.risesFrom, h, hm]
    · split
      · rename_i h
        subst h
        exact hm
      · exact Tab.risesFrom_insert v (by omega) hm

theorem Tab.risesFrom_erase {b : Nat} (k : Nat) {m : Tab α} (hm : Tab.risesFrom b m = true) :
    Tab.risesFrom b (Tab.erase k m) = true := by
  induction m generalizing b with
  | nil => rfl
  | cons p t ih =>
    obtain ⟨k', v'⟩ := p
    simp only [Tab.risesFrom, Bool.and_eq_true, decide_eq_true_eq] at hm
    simp only [Tab.erase]
    split
    · exact Tab.risesFrom_mono (Nat.le_of_lt hm.1) (ih hm.2)
    · simp only [Tab.risesFrom, Bool.and_eq_true, decide_eq_true_eq]
      exact ⟨hm.1, ih hm.2⟩

theorem Tab.rising_erase (k : Nat) {m : Tab α} (hm : Tab.rising m = true) : Tab.rising (Tab.erase k m) = true := by
  cases m with
  | nil => rfl
  | cons p t =>
    obtain ⟨k', v'⟩ := p
    simp only [Tab.rising] at hm
    simp only [Tab.erase]
    split
    · exact Tab.rising_of_risesFrom (Tab.risesFrom_erase k hm)
    · exact Tab.risesFrom_erase k hm

theorem Tab.risesFrom_filter {b : Nat} (p : Nat × α → Bool) {m : Tab α} (hm : Tab.risesFrom b m = true) :
    Tab.risesFrom b (m.filter p) = true := by
  induction m generalizing b with
  | nil => rfl
  | cons q t ih =>
    obtain ⟨k', v'⟩ := q
    simp only [Tab.risesFrom, Bool.and_eq_true, decide_eq_true_eq] at hm
    by_cases hp : p (k', v') = true
    · simp only [List.filter_cons_of_pos hp, Tab.risesFrom, Bool.and_eq_true, decide_eq_true_eq]
      exact ⟨hm.1, ih hm.2⟩
    · rw [List.filter_cons_of_neg hp]
      exact Tab.risesFrom_mono (Nat.le_of_lt hm.1) (ih hm.2)

theorem Tab.rising_filter (p : Nat × α → Bool) {m : Tab α} (hm : Tab.rising m = true) : Tab.rising (m.filter p) = true := by
  cases m with
  | nil => rfl
  | cons q t =>
    by_cases hp : p q = true
    · rw [List.filter_cons_of_pos hp]
      exact Tab.risesFrom_filter p hm
    · rw [List.filter_cons_of_neg hp]
      exact Tab.rising_of_risesFrom (Tab.risesFrom_filter p hm)

theorem Tab.proper_insert [DecidableEq α] {d : Nat → α} {k : Nat} {v : α} (hv : v ≠ d k) {m : Tab α}
    (hm : Tab.proper d m = true) : Tab.proper d (Tab.insert k v m) = true := by
  induction m with
  | nil => simp [Tab.insert, Tab.proper, hv]
  | cons p t ih =>
    obtain ⟨k', v'⟩ := p
    simp only [Tab.proper, Bool.and_eq_true, decide_eq_true_eq] at hm
    simp only [Tab.insert]
    split
    · simp [Tab.proper, hv, hm]
    · split
      · simp [Tab.proper, hv, hm.2]
      · simp only [Tab.proper, Bool.and_eq_true, decide_eq_true_eq]
        exact ⟨hm.1, ih hm.2⟩

theorem Tab.proper_erase [DecidableEq α] {d : Nat → α} (k : Nat) {m : Tab α} (hm : Tab.proper d m = true) :
    Tab.proper d (Tab.erase k m) = true := by
  induction m with
  | nil => rfl
  | cons p t ih =>
    obtain ⟨k', v'⟩ := p
    simp only [Tab.proper, Bool.and_eq_true, decide_eq_true_eq] at hm
    simp only [Tab.erase]
    split
    · exact ih hm.2
    · simp only [Tab.proper, Bool.and_eq_true, decide_eq_true_eq]
      exact ⟨hm.1, ih hm.2⟩

theorem Tab.proper_filter [DecidableEq α] {d : Nat → α} (p : Nat × α → Bool) {m : Tab α} (hm : Tab.proper d m = true) :
    Tab.proper d (m.filter p) = true := by
  induction m with
  | nil => rfl
  | cons q t ih =>
    obtain ⟨k', v'⟩ := q
    simp only [Tab.proper, Bool.and_eq_true, decide_eq_true_eq] at hm
    by_cases hp : p (k', v') = true
    · simp only [List.filter_cons_of_pos hp, Tab.proper, Bool.and_eq_true, decide_eq_true_eq]
      exact ⟨hm.1, ih hm.2⟩
    · rw [List.filter_cons_of_neg hp]
      exact ih hm.2

/-- A write keeps the canonical form. -/
theorem Tab.wf_set [DecidableEq α] {d : Nat → α} {m : Tab α} (k : Nat) (v : α) (hm : Tab.wf d m = true) :
    Tab.wf d (Tab.set (d k) m k v) = true := by
  simp only [Tab.wf, Bool.and_eq_true] at hm ⊢
  unfold Tab.set
  split
  · exact ⟨Tab.rising_erase k hm.1, Tab.proper_erase k hm.2⟩
  · rename_i h
    exact ⟨Tab.rising_insert k v hm.1, Tab.proper_insert h hm.2⟩

/-- Removing entries keeps the canonical form. -/
theorem Tab.wf_filter [DecidableEq α] {d : Nat → α} {m : Tab α} (p : Nat × α → Bool) (hm : Tab.wf d m = true) :
    Tab.wf d (m.filter p) = true := by
  simp only [Tab.wf, Bool.and_eq_true] at hm ⊢
  exact ⟨Tab.rising_filter p hm.1, Tab.proper_filter p hm.2⟩

theorem Tab.risesFrom_append {c : Nat} {n : Tab α} (hn : Tab.risesFrom c n = true) {m : Tab α} :
    ∀ {b : Nat}, b ≤ c → Tab.risesFrom b m = true → (∀ p ∈ m, p.1 ≤ c) → Tab.risesFrom b (m ++ n) = true := by
  induction m with
  | nil => intro b hb _ _; exact Tab.risesFrom_mono hb hn
  | cons x t ih =>
    obtain ⟨k, v⟩ := x
    intro b hb hm hc
    simp only [Tab.risesFrom, Bool.and_eq_true, decide_eq_true_eq, List.cons_append] at hm ⊢
    exact ⟨hm.1, ih (hc _ (List.mem_cons_self ..)) hm.2 (fun p hp => hc p (List.mem_cons_of_mem _ hp))⟩

theorem Tab.risesFrom_of_rising {b : Nat} {m : Tab α} (hm : Tab.rising m = true) (h : ∀ p ∈ m, b < p.1) :
    Tab.risesFrom b m = true := by
  cases m with
  | nil => rfl
  | cons x t =>
    obtain ⟨k, v⟩ := x
    simp only [Tab.risesFrom, Bool.and_eq_true, decide_eq_true_eq]
    exact ⟨h _ (List.mem_cons_self ..), hm⟩

theorem Tab.proper_append [DecidableEq α] {d : Nat → α} {m n : Tab α} (hm : Tab.proper d m = true) (hn : Tab.proper d n = true) :
    Tab.proper d (m ++ n) = true := by
  induction m with
  | nil => exact hn
  | cons x t ih =>
    simp only [Tab.proper, Bool.and_eq_true, List.cons_append] at hm ⊢
    exact ⟨hm.1, ih hm.2⟩

/-- Maps whose keys lie on the two sides of a bound join to one in canonical form. -/
theorem Tab.wf_append [DecidableEq α] {d : Nat → α} {m n : Tab α} (c : Nat) (hm : Tab.wf d m = true) (hn : Tab.wf d n = true)
    (hl : ∀ p ∈ m, p.1 ≤ c) (hr : ∀ p ∈ n, c < p.1) : Tab.wf d (m ++ n) = true := by
  simp only [Tab.wf, Bool.and_eq_true] at hm hn ⊢
  have hn' := Tab.risesFrom_of_rising hn.1 hr
  refine ⟨?_, Tab.proper_append hm.2 hn.2⟩
  cases m with
  | nil => exact hn.1
  | cons x t =>
    obtain ⟨k, v⟩ := x
    exact Tab.risesFrom_append hn' (hl _ (List.mem_cons_self ..)) hm.1 (fun p hp => hl p (List.mem_cons_of_mem _ hp))

@[simp] theorem Tab.wf_nil [DecidableEq α] (d : Nat → α) : Tab.wf d [] = true := rfl

theorem Tab.get_of_risesFrom (d : α) {b k : Nat} (h : k ≤ b) {m : Tab α} (hm : Tab.risesFrom b m = true) : Tab.get d m k = d := by
  induction m generalizing b with
  | nil => rfl
  | cons p t ih =>
    obtain ⟨k', v'⟩ := p
    simp only [Tab.risesFrom, Bool.and_eq_true, decide_eq_true_eq] at hm
    have : k' ≠ k := by omega
    simp [Tab.get, this, ih (b := k') (by omega) hm.2]

/-- In canonical form, equal reads mean equal maps. -/
theorem Tab.eq_of_get_eq [DecidableEq α] {d : Nat → α} {m n : Tab α} (hm : Tab.wf d m = true) (hn : Tab.wf d n = true)
    (h : ∀ k, Tab.get (d k) m k = Tab.get (d k) n k) : m = n := by
  induction m generalizing n with
  | nil =>
    cases n with
    | nil => rfl
    | cons q u =>
      obtain ⟨k, v⟩ := q
      simp only [Tab.wf, Tab.proper, Bool.and_eq_true, decide_eq_true_eq] at hn
      have := h k
      simp only [Tab.get, if_true] at this
      exact absurd this.symm hn.2.1
  | cons p t ih =>
    obtain ⟨k, v⟩ := p
    simp only [Tab.wf, Tab.rising, Tab.proper, Bool.and_eq_true, decide_eq_true_eq] at hm
    cases n with
    | nil =>
      have := h k
      simp only [Tab.get, if_true] at this
      exact absurd this hm.2.1
    | cons q u =>
      obtain ⟨j, w⟩ := q
      simp only [Tab.wf, Tab.rising, Tab.proper, Bool.and_eq_true, decide_eq_true_eq] at hn
      have hkj : k = j := by
        rcases Nat.lt_trichotomy k j with hl | he | hg
        · have := h k
          rw [show Tab.get (d k) ((k, v) :: t) k = v from by simp [Tab.get],
            show Tab.get (d k) ((j, w) :: u) k = Tab.get (d k) u k from by simp [Tab.get, Nat.ne_of_gt hl],
            Tab.get_of_risesFrom _ (Nat.le_of_lt hl) hn.1] at this
          exact absurd this hm.2.1
        · exact he
        · have := h j
          rw [show Tab.get (d j) ((j, w) :: u) j = w from by simp [Tab.get],
            show Tab.get (d j) ((k, v) :: t) j = Tab.get (d j) t j from by simp [Tab.get, Nat.ne_of_gt hg],
            Tab.get_of_risesFrom _ (Nat.le_of_lt hg) hm.1] at this
          exact absurd this.symm hn.2.1
      subst hkj
      have hv : v = w := by simpa [Tab.get] using h k
      subst hv
      have htu : t = u := by
        refine ih ?_ ?_ ?_
        · simp only [Tab.wf, Bool.and_eq_true]
          exact ⟨Tab.rising_of_risesFrom hm.1, hm.2.2⟩
        · simp only [Tab.wf, Bool.and_eq_true]
          exact ⟨Tab.rising_of_risesFrom hn.1, hn.2.2⟩
        · intro x
          by_cases hx : k = x
          · subst hx
            rw [Tab.get_of_risesFrom _ (Nat.le_refl _) hm.1, Tab.get_of_risesFrom _ (Nat.le_refl _) hn.1]
          · simpa [Tab.get, hx] using h x
      rw [htu]

end Sys2Proof.Machine
end

