-- ==== Sys2Proof/Laws/State.lean ====
section
/-! SUPPORT. One lemma per field of the state for each update of one piece of it: the fields it leaves, and what its own piece reads
after it. -/

namespace Sys2Proof.Machine

variable (s : State) (f : Field) (i j v : Nat) (b : Bool) (y : Byte) (l : List Nat) (o : Option (Nat × Nat))
variable (g0 : Engine → Engine) (g1 : Core → Core) (g2 : Heart → Heart) (g3 : CvUnit → CvUnit) (g4 : SysSt → SysSt) (g5 : HeadSt → HeadSt) (g6 : Keeper → Keeper) (g7 : PgSt → PgSt) (g8 : PhaseSt → PhaseSt) (g9 : GraftSt → GraftSt) (g10 : MigSt → MigSt) (g11 : Port → Port) (g12 : Arbiter → Arbiter) (g13 : RingSt → RingSt) (g14 : PortSt → PortSt) (g15 : PtSt → PtSt) (g16 : SecSt → SecSt) (g17 : TimeSt → TimeSt) (g18 : VoSt → VoSt)

/-! ### setFld -/

@[simp] theorem State.setFld_mem : (s.setFld f i v).mem = s.mem := rfl
@[simp] theorem State.setFld_errs : (s.setFld f i v).errs = s.errs := rfl
@[simp] theorem State.setFld_tb : (s.setFld f i v).tb = s.tb := rfl
@[simp] theorem State.setFld_now : (s.setFld f i v).now = s.now := rfl
@[simp] theorem State.setFld_cycle : (s.setFld f i v).cycle = s.cycle := rfl
@[simp] theorem State.setFld_engines : (s.setFld f i v).engines = s.engines := rfl
@[simp] theorem State.setFld_cores : (s.setFld f i v).cores = s.cores := rfl
@[simp] theorem State.setFld_heart : (s.setFld f i v).heart = s.heart := rfl
@[simp] theorem State.setFld_arb : (s.setFld f i v).arb = s.arb := rfl
@[simp] theorem State.setFld_passes : (s.setFld f i v).passes = s.passes := rfl
@[simp] theorem State.setFld_cvs : (s.setFld f i v).cvs = s.cvs := rfl
@[simp] theorem State.setFld_free : (s.setFld f i v).free = s.free := rfl
@[simp] theorem State.setFld_pending : (s.setFld f i v).pending = s.pending := rfl
@[simp] theorem State.setFld_systems : (s.setFld f i v).systems = s.systems := rfl
@[simp] theorem State.setFld_heads : (s.setFld f i v).heads = s.heads := rfl
@[simp] theorem State.setFld_gridNext : (s.setFld f i v).gridNext = s.gridNext := rfl
@[simp] theorem State.setFld_latches : (s.setFld f i v).latches = s.latches := rfl
@[simp] theorem State.setFld_edges : (s.setFld f i v).edges = s.edges := rfl
@[simp] theorem State.setFld_dets : (s.setFld f i v).dets = s.dets := rfl
@[simp] theorem State.setFld_slices : (s.setFld f i v).slices = s.slices := rfl
@[simp] theorem State.setFld_badSlices : (s.setFld f i v).badSlices = s.badSlices := rfl
@[simp] theorem State.setFld_dip : (s.setFld f i v).dip = s.dip := rfl
@[simp] theorem State.setFld_tables : (s.setFld f i v).tables = s.tables := rfl
@[simp] theorem State.setFld_delivered : (s.setFld f i v).delivered = s.delivered := rfl
@[simp] theorem State.setFld_ports : (s.setFld f i v).ports = s.ports := rfl
@[simp] theorem State.setFld_agreements : (s.setFld f i v).agreements = s.agreements := rfl
@[simp] theorem State.setFld_agreed : (s.setFld f i v).agreed = s.agreed := rfl
@[simp] theorem State.setFld_locks : (s.setFld f i v).locks = s.locks := rfl
@[simp] theorem State.setFld_lockWait : (s.setFld f i v).lockWait = s.lockWait := rfl
@[simp] theorem State.setFld_cmds : (s.setFld f i v).cmds = s.cmds := rfl
@[simp] theorem State.setFld_fp : (s.setFld f i v).fp = s.fp := rfl
@[simp] theorem State.setFld_time : (s.setFld f i v).time = s.time := rfl
@[simp] theorem State.setFld_cycNext : (s.setFld f i v).cycNext = s.cycNext := rfl
@[simp] theorem State.setFld_rings : (s.setFld f i v).rings = s.rings := rfl
@[simp] theorem State.setFld_links : (s.setFld f i v).links = s.links := rfl
@[simp] theorem State.setFld_ready : (s.setFld f i v).ready = s.ready := rfl
@[simp] theorem State.setFld_frames : (s.setFld f i v).frames = s.frames := rfl
@[simp] theorem State.setFld_closes : (s.setFld f i v).closes = s.closes := rfl
@[simp] theorem State.setFld_rxq : (s.setFld f i v).rxq = s.rxq := rfl
@[simp] theorem State.setFld_rxHeld : (s.setFld f i v).rxHeld = s.rxHeld := rfl
@[simp] theorem State.setFld_lines : (s.setFld f i v).lines = s.lines := rfl
@[simp] theorem State.setFld_rxNext : (s.setFld f i v).rxNext = s.rxNext := rfl
@[simp] theorem State.setFld_logs : (s.setFld f i v).logs = s.logs := rfl
@[simp] theorem State.setFld_gmsgs : (s.setFld f i v).gmsgs = s.gmsgs := rfl
@[simp] theorem State.setFld_migs : (s.setFld f i v).migs = s.migs := rfl
@[simp] theorem State.setFld_graft : (s.setFld f i v).graft = s.graft := rfl
@[simp] theorem State.setFld_secs : (s.setFld f i v).secs = s.secs := rfl
@[simp] theorem State.setFld_pts : (s.setFld f i v).pts = s.pts := rfl
@[simp] theorem State.setFld_remotes : (s.setFld f i v).remotes = s.remotes := rfl
@[simp] theorem State.setFld_claims : (s.setFld f i v).claims = s.claims := rfl
@[simp] theorem State.setFld_txEvents : (s.setFld f i v).txEvents = s.txEvents := rfl
@[simp] theorem State.setFld_accum : (s.setFld f i v).accum = s.accum := rfl
@[simp] theorem State.setFld_evalRest : (s.setFld f i v).evalRest = s.evalRest := rfl
@[simp] theorem State.setFld_results : (s.setFld f i v).results = s.results := rfl
@[simp] theorem State.setFld_takens : (s.setFld f i v).takens = s.takens := rfl
@[simp] theorem State.setFld_steps : (s.setFld f i v).steps = s.steps := rfl
@[simp] theorem State.setFld_vos : (s.setFld f i v).vos = s.vos := rfl
@[simp] theorem State.setFld_pgs : (s.setFld f i v).pgs = s.pgs := rfl
@[simp] theorem State.setFld_phases : (s.setFld f i v).phases = s.phases := rfl
@[simp] theorem State.setFld_keeper : (s.setFld f i v).keeper = s.keeper := rfl
@[simp] theorem State.setFld_commit : (s.setFld f i v).commit = s.commit := rfl
@[simp] theorem State.setFld_tap : (s.setFld f i v).tap = s.tap := rfl
@[simp] theorem State.setFld_hoursSet : (s.setFld f i v).hoursSet = s.hoursSet := rfl
@[simp] theorem State.setFld_trendAt : (s.setFld f i v).trendAt = s.trendAt := rfl
@[simp] theorem State.setFld_trimAt : (s.setFld f i v).trimAt = s.trimAt := rfl
@[simp] theorem State.setFld_restored : (s.setFld f i v).restored = s.restored := rfl
@[simp] theorem State.setFld_plan : (s.setFld f i v).plan = s.plan := rfl
@[simp] theorem State.setFld_byte : (s.setFld f i v).byte j = s.byte j := rfl
@[simp] theorem State.setFld_eng : (s.setFld f i v).eng j = s.eng j := rfl
@[simp] theorem State.setFld_core : (s.setFld f i v).core j = s.core j := rfl
@[simp] theorem State.setFld_badBits : (s.setFld f i v).badBits j = s.badBits j := rfl

/-! ### putFbit -/

@[simp] theorem State.putFbit_mem : (s.putFbit f i v b).mem = s.mem := rfl
@[simp] theorem State.putFbit_errs : (s.putFbit f i v b).errs = s.errs := rfl
@[simp] theorem State.putFbit_tb : (s.putFbit f i v b).tb = s.tb := rfl
@[simp] theorem State.putFbit_now : (s.putFbit f i v b).now = s.now := rfl
@[simp] theorem State.putFbit_cycle : (s.putFbit f i v b).cycle = s.cycle := rfl
@[simp] theorem State.putFbit_engines : (s.putFbit f i v b).engines = s.engines := rfl
@[simp] theorem State.putFbit_cores : (s.putFbit f i v b).cores = s.cores := rfl
@[simp] theorem State.putFbit_heart : (s.putFbit f i v b).heart = s.heart := rfl
@[simp] theorem State.putFbit_arb : (s.putFbit f i v b).arb = s.arb := rfl
@[simp] theorem State.putFbit_passes : (s.putFbit f i v b).passes = s.passes := rfl
@[simp] theorem State.putFbit_cvs : (s.putFbit f i v b).cvs = s.cvs := rfl
@[simp] theorem State.putFbit_free : (s.putFbit f i v b).free = s.free := rfl
@[simp] theorem State.putFbit_pending : (s.putFbit f i v b).pending = s.pending := rfl
@[simp] theorem State.putFbit_systems : (s.putFbit f i v b).systems = s.systems := rfl
@[simp] theorem State.putFbit_heads : (s.putFbit f i v b).heads = s.heads := rfl
@[simp] theorem State.putFbit_gridNext : (s.putFbit f i v b).gridNext = s.gridNext := rfl
@[simp] theorem State.putFbit_latches : (s.putFbit f i v b).latches = s.latches := rfl
@[simp] theorem State.putFbit_edges : (s.putFbit f i v b).edges = s.edges := rfl
@[simp] theorem State.putFbit_dets : (s.putFbit f i v b).dets = s.dets := rfl
@[simp] theorem State.putFbit_slices : (s.putFbit f i v b).slices = s.slices := rfl
@[simp] theorem State.putFbit_badSlices : (s.putFbit f i v b).badSlices = s.badSlices := rfl
@[simp] theorem State.putFbit_dip : (s.putFbit f i v b).dip = s.dip := rfl
@[simp] theorem State.putFbit_tables : (s.putFbit f i v b).tables = s.tables := rfl
@[simp] theorem State.putFbit_delivered : (s.putFbit f i v b).delivered = s.delivered := rfl
@[simp] theorem State.putFbit_ports : (s.putFbit f i v b).ports = s.ports := rfl
@[simp] theorem State.putFbit_agreements : (s.putFbit f i v b).agreements = s.agreements := rfl
@[simp] theorem State.putFbit_agreed : (s.putFbit f i v b).agreed = s.agreed := rfl
@[simp] theorem State.putFbit_locks : (s.putFbit f i v b).locks = s.locks := rfl
@[simp] theorem State.putFbit_lockWait : (s.putFbit f i v b).lockWait = s.lockWait := rfl
@[simp] theorem State.putFbit_cmds : (s.putFbit f i v b).cmds = s.cmds := rfl
@[simp] theorem State.putFbit_fp : (s.putFbit f i v b).fp = s.fp := rfl
@[simp] theorem State.putFbit_time : (s.putFbit f i v b).time = s.time := rfl
@[simp] theorem State.putFbit_cycNext : (s.putFbit f i v b).cycNext = s.cycNext := rfl
@[simp] theorem State.putFbit_rings : (s.putFbit f i v b).rings = s.rings := rfl
@[simp] theorem State.putFbit_links : (s.putFbit f i v b).links = s.links := rfl
@[simp] theorem State.putFbit_ready : (s.putFbit f i v b).ready = s.ready := rfl
@[simp] theorem State.putFbit_frames : (s.putFbit f i v b).frames = s.frames := rfl
@[simp] theorem State.putFbit_closes : (s.putFbit f i v b).closes = s.closes := rfl
@[simp] theorem State.putFbit_rxq : (s.putFbit f i v b).rxq = s.rxq := rfl
@[simp] theorem State.putFbit_rxHeld : (s.putFbit f i v b).rxHeld = s.rxHeld := rfl
@[simp] theorem State.putFbit_lines : (s.putFbit f i v b).lines = s.lines := rfl
@[simp] theorem State.putFbit_rxNext : (s.putFbit f i v b).rxNext = s.rxNext := rfl
@[simp] theorem State.putFbit_logs : (s.putFbit f i v b).logs = s.logs := rfl
@[simp] theorem State.putFbit_gmsgs : (s.putFbit f i v b).gmsgs = s.gmsgs := rfl
@[simp] theorem State.putFbit_migs : (s.putFbit f i v b).migs = s.migs := rfl
@[simp] theorem State.putFbit_graft : (s.putFbit f i v b).graft = s.graft := rfl
@[simp] theorem State.putFbit_secs : (s.putFbit f i v b).secs = s.secs := rfl
@[simp] theorem State.putFbit_pts : (s.putFbit f i v b).pts = s.pts := rfl
@[simp] theorem State.putFbit_remotes : (s.putFbit f i v b).remotes = s.remotes := rfl
@[simp] theorem State.putFbit_claims : (s.putFbit f i v b).claims = s.claims := rfl
@[simp] theorem State.putFbit_txEvents : (s.putFbit f i v b).txEvents = s.txEvents := rfl
@[simp] theorem State.putFbit_accum : (s.putFbit f i v b).accum = s.accum := rfl
@[simp] theorem State.putFbit_evalRest : (s.putFbit f i v b).evalRest = s.evalRest := rfl
@[simp] theorem State.putFbit_results : (s.putFbit f i v b).results = s.results := rfl
@[simp] theorem State.putFbit_takens : (s.putFbit f i v b).takens = s.takens := rfl
@[simp] theorem State.putFbit_steps : (s.putFbit f i v b).steps = s.steps := rfl
@[simp] theorem State.putFbit_vos : (s.putFbit f i v b).vos = s.vos := rfl
@[simp] theorem State.putFbit_pgs : (s.putFbit f i v b).pgs = s.pgs := rfl
@[simp] theorem State.putFbit_phases : (s.putFbit f i v b).phases = s.phases := rfl
@[simp] theorem State.putFbit_keeper : (s.putFbit f i v b).keeper = s.keeper := rfl
@[simp] theorem State.putFbit_commit : (s.putFbit f i v b).commit = s.commit := rfl
@[simp] theorem State.putFbit_tap : (s.putFbit f i v b).tap = s.tap := rfl
@[simp] theorem State.putFbit_hoursSet : (s.putFbit f i v b).hoursSet = s.hoursSet := rfl
@[simp] theorem State.putFbit_trendAt : (s.putFbit f i v b).trendAt = s.trendAt := rfl
@[simp] theorem State.putFbit_trimAt : (s.putFbit f i v b).trimAt = s.trimAt := rfl
@[simp] theorem State.putFbit_restored : (s.putFbit f i v b).restored = s.restored := rfl
@[simp] theorem State.putFbit_plan : (s.putFbit f i v b).plan = s.plan := rfl
@[simp] theorem State.putFbit_byte : (s.putFbit f i v b).byte j = s.byte j := rfl
@[simp] theorem State.putFbit_eng : (s.putFbit f i v b).eng j = s.eng j := rfl
@[simp] theorem State.putFbit_core : (s.putFbit f i v b).core j = s.core j := rfl
@[simp] theorem State.putFbit_badBits : (s.putFbit f i v b).badBits j = s.badBits j := rfl

/-! ### countFld -/

@[simp] theorem State.countFld_mem : (s.countFld f i v).mem = s.mem := rfl
@[simp] theorem State.countFld_errs : (s.countFld f i v).errs = s.errs := rfl
@[simp] theorem State.countFld_tb : (s.countFld f i v).tb = s.tb := rfl
@[simp] theorem State.countFld_now : (s.countFld f i v).now = s.now := rfl
@[simp] theorem State.countFld_cycle : (s.countFld f i v).cycle = s.cycle := rfl
@[simp] theorem State.countFld_engines : (s.countFld f i v).engines = s.engines := rfl
@[simp] theorem State.countFld_cores : (s.countFld f i v).cores = s.cores := rfl
@[simp] theorem State.countFld_heart : (s.countFld f i v).heart = s.heart := rfl
@[simp] theorem State.countFld_arb : (s.countFld f i v).arb = s.arb := rfl
@[simp] theorem State.countFld_passes : (s.countFld f i v).passes = s.passes := rfl
@[simp] theorem State.countFld_cvs : (s.countFld f i v).cvs = s.cvs := rfl
@[simp] theorem State.countFld_free : (s.countFld f i v).free = s.free := rfl
@[simp] theorem State.countFld_pending : (s.countFld f i v).pending = s.pending := rfl
@[simp] theorem State.countFld_systems : (s.countFld f i v).systems = s.systems := rfl
@[simp] theorem State.countFld_heads : (s.countFld f i v).heads = s.heads := rfl
@[simp] theorem State.countFld_gridNext : (s.countFld f i v).gridNext = s.gridNext := rfl
@[simp] theorem State.countFld_latches : (s.countFld f i v).latches = s.latches := rfl
@[simp] theorem State.countFld_edges : (s.countFld f i v).edges = s.edges := rfl
@[simp] theorem State.countFld_dets : (s.countFld f i v).dets = s.dets := rfl
@[simp] theorem State.countFld_slices : (s.countFld f i v).slices = s.slices := rfl
@[simp] theorem State.countFld_badSlices : (s.countFld f i v).badSlices = s.badSlices := rfl
@[simp] theorem State.countFld_dip : (s.countFld f i v).dip = s.dip := rfl
@[simp] theorem State.countFld_tables : (s.countFld f i v).tables = s.tables := rfl
@[simp] theorem State.countFld_delivered : (s.countFld f i v).delivered = s.delivered := rfl
@[simp] theorem State.countFld_ports : (s.countFld f i v).ports = s.ports := rfl
@[simp] theorem State.countFld_agreements : (s.countFld f i v).agreements = s.agreements := rfl
@[simp] theorem State.countFld_agreed : (s.countFld f i v).agreed = s.agreed := rfl
@[simp] theorem State.countFld_locks : (s.countFld f i v).locks = s.locks := rfl
@[simp] theorem State.countFld_lockWait : (s.countFld f i v).lockWait = s.lockWait := rfl
@[simp] theorem State.countFld_cmds : (s.countFld f i v).cmds = s.cmds := rfl
@[simp] theorem State.countFld_fp : (s.countFld f i v).fp = s.fp := rfl
@[simp] theorem State.countFld_time : (s.countFld f i v).time = s.time := rfl
@[simp] theorem State.countFld_cycNext : (s.countFld f i v).cycNext = s.cycNext := rfl
@[simp] theorem State.countFld_rings : (s.countFld f i v).rings = s.rings := rfl
@[simp] theorem State.countFld_links : (s.countFld f i v).links = s.links := rfl
@[simp] theorem State.countFld_ready : (s.countFld f i v).ready = s.ready := rfl
@[simp] theorem State.countFld_frames : (s.countFld f i v).frames = s.frames := rfl
@[simp] theorem State.countFld_closes : (s.countFld f i v).closes = s.closes := rfl
@[simp] theorem State.countFld_rxq : (s.countFld f i v).rxq = s.rxq := rfl
@[simp] theorem State.countFld_rxHeld : (s.countFld f i v).rxHeld = s.rxHeld := rfl
@[simp] theorem State.countFld_lines : (s.countFld f i v).lines = s.lines := rfl
@[simp] theorem State.countFld_rxNext : (s.countFld f i v).rxNext = s.rxNext := rfl
@[simp] theorem State.countFld_logs : (s.countFld f i v).logs = s.logs := rfl
@[simp] theorem State.countFld_gmsgs : (s.countFld f i v).gmsgs = s.gmsgs := rfl
@[simp] theorem State.countFld_migs : (s.countFld f i v).migs = s.migs := rfl
@[simp] theorem State.countFld_graft : (s.countFld f i v).graft = s.graft := rfl
@[simp] theorem State.countFld_secs : (s.countFld f i v).secs = s.secs := rfl
@[simp] theorem State.countFld_pts : (s.countFld f i v).pts = s.pts := rfl
@[simp] theorem State.countFld_remotes : (s.countFld f i v).remotes = s.remotes := rfl
@[simp] theorem State.countFld_claims : (s.countFld f i v).claims = s.claims := rfl
@[simp] theorem State.countFld_txEvents : (s.countFld f i v).txEvents = s.txEvents := rfl
@[simp] theorem State.countFld_accum : (s.countFld f i v).accum = s.accum := rfl
@[simp] theorem State.countFld_evalRest : (s.countFld f i v).evalRest = s.evalRest := rfl
@[simp] theorem State.countFld_results : (s.countFld f i v).results = s.results := rfl
@[simp] theorem State.countFld_takens : (s.countFld f i v).takens = s.takens := rfl
@[simp] theorem State.countFld_steps : (s.countFld f i v).steps = s.steps := rfl
@[simp] theorem State.countFld_vos : (s.countFld f i v).vos = s.vos := rfl
@[simp] theorem State.countFld_pgs : (s.countFld f i v).pgs = s.pgs := rfl
@[simp] theorem State.countFld_phases : (s.countFld f i v).phases = s.phases := rfl
@[simp] theorem State.countFld_keeper : (s.countFld f i v).keeper = s.keeper := rfl
@[simp] theorem State.countFld_commit : (s.countFld f i v).commit = s.commit := rfl
@[simp] theorem State.countFld_tap : (s.countFld f i v).tap = s.tap := rfl
@[simp] theorem State.countFld_hoursSet : (s.countFld f i v).hoursSet = s.hoursSet := rfl
@[simp] theorem State.countFld_trendAt : (s.countFld f i v).trendAt = s.trendAt := rfl
@[simp] theorem State.countFld_trimAt : (s.countFld f i v).trimAt = s.trimAt := rfl
@[simp] theorem State.countFld_restored : (s.countFld f i v).restored = s.restored := rfl
@[simp] theorem State.countFld_plan : (s.countFld f i v).plan = s.plan := rfl
@[simp] theorem State.countFld_byte : (s.countFld f i v).byte j = s.byte j := rfl
@[simp] theorem State.countFld_eng : (s.countFld f i v).eng j = s.eng j := rfl
@[simp] theorem State.countFld_core : (s.countFld f i v).core j = s.core j := rfl
@[simp] theorem State.countFld_badBits : (s.countFld f i v).badBits j = s.badBits j := rfl

/-! ### setByte -/

@[simp] theorem State.setByte_regs : (s.setByte i y).regs = s.regs := rfl
@[simp] theorem State.setByte_errs : (s.setByte i y).errs = s.errs := rfl
@[simp] theorem State.setByte_tb : (s.setByte i y).tb = s.tb := rfl
@[simp] theorem State.setByte_now : (s.setByte i y).now = s.now := rfl
@[simp] theorem State.setByte_cycle : (s.setByte i y).cycle = s.cycle := rfl
@[simp] theorem State.setByte_engines : (s.setByte i y).engines = s.engines := rfl
@[simp] theorem State.setByte_cores : (s.setByte i y).cores = s.cores := rfl
@[simp] theorem State.setByte_heart : (s.setByte i y).heart = s.heart := rfl
@[simp] theorem State.setByte_arb : (s.setByte i y).arb = s.arb := rfl
@[simp] theorem State.setByte_passes : (s.setByte i y).passes = s.passes := rfl
@[simp] theorem State.setByte_cvs : (s.setByte i y).cvs = s.cvs := rfl
@[simp] theorem State.setByte_free : (s.setByte i y).free = s.free := rfl
@[simp] theorem State.setByte_pending : (s.setByte i y).pending = s.pending := rfl
@[simp] theorem State.setByte_systems : (s.setByte i y).systems = s.systems := rfl
@[simp] theorem State.setByte_heads : (s.setByte i y).heads = s.heads := rfl
@[simp] theorem State.setByte_gridNext : (s.setByte i y).gridNext = s.gridNext := rfl
@[simp] theorem State.setByte_latches : (s.setByte i y).latches = s.latches := rfl
@[simp] theorem State.setByte_edges : (s.setByte i y).edges = s.edges := rfl
@[simp] theorem State.setByte_dets : (s.setByte i y).dets = s.dets := rfl
@[simp] theorem State.setByte_slices : (s.setByte i y).slices = s.slices := rfl
@[simp] theorem State.setByte_badSlices : (s.setByte i y).badSlices = s.badSlices := rfl
@[simp] theorem State.setByte_dip : (s.setByte i y).dip = s.dip := rfl
@[simp] theorem State.setByte_tables : (s.setByte i y).tables = s.tables := rfl
@[simp] theorem State.setByte_delivered : (s.setByte i y).delivered = s.delivered := rfl
@[simp] theorem State.setByte_ports : (s.setByte i y).ports = s.ports := rfl
@[simp] theorem State.setByte_agreements : (s.setByte i y).agreements = s.agreements := rfl
@[simp] theorem State.setByte_agreed : (s.setByte i y).agreed = s.agreed := rfl
@[simp] theorem State.setByte_locks : (s.setByte i y).locks = s.locks := rfl
@[simp] theorem State.setByte_lockWait : (s.setByte i y).lockWait = s.lockWait := rfl
@[simp] theorem State.setByte_cmds : (s.setByte i y).cmds = s.cmds := rfl
@[simp] theorem State.setByte_fp : (s.setByte i y).fp = s.fp := rfl
@[simp] theorem State.setByte_time : (s.setByte i y).time = s.time := rfl
@[simp] theorem State.setByte_cycNext : (s.setByte i y).cycNext = s.cycNext := rfl
@[simp] theorem State.setByte_rings : (s.setByte i y).rings = s.rings := rfl
@[simp] theorem State.setByte_links : (s.setByte i y).links = s.links := rfl
@[simp] theorem State.setByte_ready : (s.setByte i y).ready = s.ready := rfl
@[simp] theorem State.setByte_frames : (s.setByte i y).frames = s.frames := rfl
@[simp] theorem State.setByte_closes : (s.setByte i y).closes = s.closes := rfl
@[simp] theorem State.setByte_rxq : (s.setByte i y).rxq = s.rxq := rfl
@[simp] theorem State.setByte_rxHeld : (s.setByte i y).rxHeld = s.rxHeld := rfl
@[simp] theorem State.setByte_lines : (s.setByte i y).lines = s.lines := rfl
@[simp] theorem State.setByte_rxNext : (s.setByte i y).rxNext = s.rxNext := rfl
@[simp] theorem State.setByte_logs : (s.setByte i y).logs = s.logs := rfl
@[simp] theorem State.setByte_gmsgs : (s.setByte i y).gmsgs = s.gmsgs := rfl
@[simp] theorem State.setByte_migs : (s.setByte i y).migs = s.migs := rfl
@[simp] theorem State.setByte_graft : (s.setByte i y).graft = s.graft := rfl
@[simp] theorem State.setByte_secs : (s.setByte i y).secs = s.secs := rfl
@[simp] theorem State.setByte_pts : (s.setByte i y).pts = s.pts := rfl
@[simp] theorem State.setByte_remotes : (s.setByte i y).remotes = s.remotes := rfl
@[simp] theorem State.setByte_claims : (s.setByte i y).claims = s.claims := rfl
@[simp] theorem State.setByte_txEvents : (s.setByte i y).txEvents = s.txEvents := rfl
@[simp] theorem State.setByte_accum : (s.setByte i y).accum = s.accum := rfl
@[simp] theorem State.setByte_evalRest : (s.setByte i y).evalRest = s.evalRest := rfl
@[simp] theorem State.setByte_results : (s.setByte i y).results = s.results := rfl
@[simp] theorem State.setByte_takens : (s.setByte i y).takens = s.takens := rfl
@[simp] theorem State.setByte_steps : (s.setByte i y).steps = s.steps := rfl
@[simp] theorem State.setByte_vos : (s.setByte i y).vos = s.vos := rfl
@[simp] theorem State.setByte_pgs : (s.setByte i y).pgs = s.pgs := rfl
@[simp] theorem State.setByte_phases : (s.setByte i y).phases = s.phases := rfl
@[simp] theorem State.setByte_keeper : (s.setByte i y).keeper = s.keeper := rfl
@[simp] theorem State.setByte_commit : (s.setByte i y).commit = s.commit := rfl
@[simp] theorem State.setByte_tap : (s.setByte i y).tap = s.tap := rfl
@[simp] theorem State.setByte_hoursSet : (s.setByte i y).hoursSet = s.hoursSet := rfl
@[simp] theorem State.setByte_trendAt : (s.setByte i y).trendAt = s.trendAt := rfl
@[simp] theorem State.setByte_trimAt : (s.setByte i y).trimAt = s.trimAt := rfl
@[simp] theorem State.setByte_restored : (s.setByte i y).restored = s.restored := rfl
@[simp] theorem State.setByte_plan : (s.setByte i y).plan = s.plan := rfl
@[simp] theorem State.setByte_fld (f₁ : Field) : (s.setByte i y).fld f₁ j = s.fld f₁ j := rfl
@[simp] theorem State.setByte_eng : (s.setByte i y).eng j = s.eng j := rfl
@[simp] theorem State.setByte_core : (s.setByte i y).core j = s.core j := rfl
@[simp] theorem State.setByte_badBits : (s.setByte i y).badBits j = s.badBits j := rfl

/-! ### setBad -/

@[simp] theorem State.setBad_regs : (s.setBad i v).regs = s.regs := rfl
@[simp] theorem State.setBad_mem : (s.setBad i v).mem = s.mem := rfl
@[simp] theorem State.setBad_tb : (s.setBad i v).tb = s.tb := rfl
@[simp] theorem State.setBad_now : (s.setBad i v).now = s.now := rfl
@[simp] theorem State.setBad_cycle : (s.setBad i v).cycle = s.cycle := rfl
@[simp] theorem State.setBad_engines : (s.setBad i v).engines = s.engines := rfl
@[simp] theorem State.setBad_cores : (s.setBad i v).cores = s.cores := rfl
@[simp] theorem State.setBad_heart : (s.setBad i v).heart = s.heart := rfl
@[simp] theorem State.setBad_arb : (s.setBad i v).arb = s.arb := rfl
@[simp] theorem State.setBad_passes : (s.setBad i v).passes = s.passes := rfl
@[simp] theorem State.setBad_cvs : (s.setBad i v).cvs = s.cvs := rfl
@[simp] theorem State.setBad_free : (s.setBad i v).free = s.free := rfl
@[simp] theorem State.setBad_pending : (s.setBad i v).pending = s.pending := rfl
@[simp] theorem State.setBad_systems : (s.setBad i v).systems = s.systems := rfl
@[simp] theorem State.setBad_heads : (s.setBad i v).heads = s.heads := rfl
@[simp] theorem State.setBad_gridNext : (s.setBad i v).gridNext = s.gridNext := rfl
@[simp] theorem State.setBad_latches : (s.setBad i v).latches = s.latches := rfl
@[simp] theorem State.setBad_edges : (s.setBad i v).edges = s.edges := rfl
@[simp] theorem State.setBad_dets : (s.setBad i v).dets = s.dets := rfl
@[simp] theorem State.setBad_slices : (s.setBad i v).slices = s.slices := rfl
@[simp] theorem State.setBad_badSlices : (s.setBad i v).badSlices = s.badSlices := rfl
@[simp] theorem State.setBad_dip : (s.setBad i v).dip = s.dip := rfl
@[simp] theorem State.setBad_tables : (s.setBad i v).tables = s.tables := rfl
@[simp] theorem State.setBad_delivered : (s.setBad i v).delivered = s.delivered := rfl
@[simp] theorem State.setBad_ports : (s.setBad i v).ports = s.ports := rfl
@[simp] theorem State.setBad_agreements : (s.setBad i v).agreements = s.agreements := rfl
@[simp] theorem State.setBad_agreed : (s.setBad i v).agreed = s.agreed := rfl
@[simp] theorem State.setBad_locks : (s.setBad i v).locks = s.locks := rfl
@[simp] theorem State.setBad_lockWait : (s.setBad i v).lockWait = s.lockWait := rfl
@[simp] theorem State.setBad_cmds : (s.setBad i v).cmds = s.cmds := rfl
@[simp] theorem State.setBad_fp : (s.setBad i v).fp = s.fp := rfl
@[simp] theorem State.setBad_time : (s.setBad i v).time = s.time := rfl
@[simp] theorem State.setBad_cycNext : (s.setBad i v).cycNext = s.cycNext := rfl
@[simp] theorem State.setBad_rings : (s.setBad i v).rings = s.rings := rfl
@[simp] theorem State.setBad_links : (s.setBad i v).links = s.links := rfl
@[simp] theorem State.setBad_ready : (s.setBad i v).ready = s.ready := rfl
@[simp] theorem State.setBad_frames : (s.setBad i v).frames = s.frames := rfl
@[simp] theorem State.setBad_closes : (s.setBad i v).closes = s.closes := rfl
@[simp] theorem State.setBad_rxq : (s.setBad i v).rxq = s.rxq := rfl
@[simp] theorem State.setBad_rxHeld : (s.setBad i v).rxHeld = s.rxHeld := rfl
@[simp] theorem State.setBad_lines : (s.setBad i v).lines = s.lines := rfl
@[simp] theorem State.setBad_rxNext : (s.setBad i v).rxNext = s.rxNext := rfl
@[simp] theorem State.setBad_logs : (s.setBad i v).logs = s.logs := rfl
@[simp] theorem State.setBad_gmsgs : (s.setBad i v).gmsgs = s.gmsgs := rfl
@[simp] theorem State.setBad_migs : (s.setBad i v).migs = s.migs := rfl
@[simp] theorem State.setBad_graft : (s.setBad i v).graft = s.graft := rfl
@[simp] theorem State.setBad_secs : (s.setBad i v).secs = s.secs := rfl
@[simp] theorem State.setBad_pts : (s.setBad i v).pts = s.pts := rfl
@[simp] theorem State.setBad_remotes : (s.setBad i v).remotes = s.remotes := rfl
@[simp] theorem State.setBad_claims : (s.setBad i v).claims = s.claims := rfl
@[simp] theorem State.setBad_txEvents : (s.setBad i v).txEvents = s.txEvents := rfl
@[simp] theorem State.setBad_accum : (s.setBad i v).accum = s.accum := rfl
@[simp] theorem State.setBad_evalRest : (s.setBad i v).evalRest = s.evalRest := rfl
@[simp] theorem State.setBad_results : (s.setBad i v).results = s.results := rfl
@[simp] theorem State.setBad_takens : (s.setBad i v).takens = s.takens := rfl
@[simp] theorem State.setBad_steps : (s.setBad i v).steps = s.steps := rfl
@[simp] theorem State.setBad_vos : (s.setBad i v).vos = s.vos := rfl
@[simp] theorem State.setBad_pgs : (s.setBad i v).pgs = s.pgs := rfl
@[simp] theorem State.setBad_phases : (s.setBad i v).phases = s.phases := rfl
@[simp] theorem State.setBad_keeper : (s.setBad i v).keeper = s.keeper := rfl
@[simp] theorem State.setBad_commit : (s.setBad i v).commit = s.commit := rfl
@[simp] theorem State.setBad_tap : (s.setBad i v).tap = s.tap := rfl
@[simp] theorem State.setBad_hoursSet : (s.setBad i v).hoursSet = s.hoursSet := rfl
@[simp] theorem State.setBad_trendAt : (s.setBad i v).trendAt = s.trendAt := rfl
@[simp] theorem State.setBad_trimAt : (s.setBad i v).trimAt = s.trimAt := rfl
@[simp] theorem State.setBad_restored : (s.setBad i v).restored = s.restored := rfl
@[simp] theorem State.setBad_plan : (s.setBad i v).plan = s.plan := rfl
@[simp] theorem State.setBad_fld (f₁ : Field) : (s.setBad i v).fld f₁ j = s.fld f₁ j := rfl
@[simp] theorem State.setBad_byte : (s.setBad i v).byte j = s.byte j := rfl
@[simp] theorem State.setBad_eng : (s.setBad i v).eng j = s.eng j := rfl
@[simp] theorem State.setBad_core : (s.setBad i v).core j = s.core j := rfl

/-! ### advance -/

@[simp] theorem State.advance_regs : (s.advance v).regs = s.regs := rfl
@[simp] theorem State.advance_mem : (s.advance v).mem = s.mem := rfl
@[simp] theorem State.advance_errs : (s.advance v).errs = s.errs := rfl
@[simp] theorem State.advance_cycle : (s.advance v).cycle = s.cycle := rfl
@[simp] theorem State.advance_engines : (s.advance v).engines = s.engines := rfl
@[simp] theorem State.advance_cores : (s.advance v).cores = s.cores := rfl
@[simp] theorem State.advance_heart : (s.advance v).heart = s.heart := rfl
@[simp] theorem State.advance_arb : (s.advance v).arb = s.arb := rfl
@[simp] theorem State.advance_passes : (s.advance v).passes = s.passes := rfl
@[simp] theorem State.advance_cvs : (s.advance v).cvs = s.cvs := rfl
@[simp] theorem State.advance_free : (s.advance v).free = s.free := rfl
@[simp] theorem State.advance_pending : (s.advance v).pending = s.pending := rfl
@[simp] theorem State.advance_systems : (s.advance v).systems = s.systems := rfl
@[simp] theorem State.advance_heads : (s.advance v).heads = s.heads := rfl
@[simp] theorem State.advance_gridNext : (s.advance v).gridNext = s.gridNext := rfl
@[simp] theorem State.advance_latches : (s.advance v).latches = s.latches := rfl
@[simp] theorem State.advance_edges : (s.advance v).edges = s.edges := rfl
@[simp] theorem State.advance_dets : (s.advance v).dets = s.dets := rfl
@[simp] theorem State.advance_slices : (s.advance v).slices = s.slices := rfl
@[simp] theorem State.advance_badSlices : (s.advance v).badSlices = s.badSlices := rfl
@[simp] theorem State.advance_dip : (s.advance v).dip = s.dip := rfl
@[simp] theorem State.advance_tables : (s.advance v).tables = s.tables := rfl
@[simp] theorem State.advance_delivered : (s.advance v).delivered = s.delivered := rfl
@[simp] theorem State.advance_ports : (s.advance v).ports = s.ports := rfl
@[simp] theorem State.advance_agreements : (s.advance v).agreements = s.agreements := rfl
@[simp] theorem State.advance_agreed : (s.advance v).agreed = s.agreed := rfl
@[simp] theorem State.advance_locks : (s.advance v).locks = s.locks := rfl
@[simp] theorem State.advance_lockWait : (s.advance v).lockWait = s.lockWait := rfl
@[simp] theorem State.advance_cmds : (s.advance v).cmds = s.cmds := rfl
@[simp] theorem State.advance_fp : (s.advance v).fp = s.fp := rfl
@[simp] theorem State.advance_time : (s.advance v).time = s.time := rfl
@[simp] theorem State.advance_cycNext : (s.advance v).cycNext = s.cycNext := rfl
@[simp] theorem State.advance_rings : (s.advance v).rings = s.rings := rfl
@[simp] theorem State.advance_links : (s.advance v).links = s.links := rfl
@[simp] theorem State.advance_ready : (s.advance v).ready = s.ready := rfl
@[simp] theorem State.advance_frames : (s.advance v).frames = s.frames := rfl
@[simp] theorem State.advance_closes : (s.advance v).closes = s.closes := rfl
@[simp] theorem State.advance_rxq : (s.advance v).rxq = s.rxq := rfl
@[simp] theorem State.advance_rxHeld : (s.advance v).rxHeld = s.rxHeld := rfl
@[simp] theorem State.advance_lines : (s.advance v).lines = s.lines := rfl
@[simp] theorem State.advance_rxNext : (s.advance v).rxNext = s.rxNext := rfl
@[simp] theorem State.advance_logs : (s.advance v).logs = s.logs := rfl
@[simp] theorem State.advance_gmsgs : (s.advance v).gmsgs = s.gmsgs := rfl
@[simp] theorem State.advance_migs : (s.advance v).migs = s.migs := rfl
@[simp] theorem State.advance_graft : (s.advance v).graft = s.graft := rfl
@[simp] theorem State.advance_secs : (s.advance v).secs = s.secs := rfl
@[simp] theorem State.advance_pts : (s.advance v).pts = s.pts := rfl
@[simp] theorem State.advance_remotes : (s.advance v).remotes = s.remotes := rfl
@[simp] theorem State.advance_claims : (s.advance v).claims = s.claims := rfl
@[simp] theorem State.advance_txEvents : (s.advance v).txEvents = s.txEvents := rfl
@[simp] theorem State.advance_accum : (s.advance v).accum = s.accum := rfl
@[simp] theorem State.advance_evalRest : (s.advance v).evalRest = s.evalRest := rfl
@[simp] theorem State.advance_results : (s.advance v).results = s.results := rfl
@[simp] theorem State.advance_takens : (s.advance v).takens = s.takens := rfl
@[simp] theorem State.advance_steps : (s.advance v).steps = s.steps := rfl
@[simp] theorem State.advance_vos : (s.advance v).vos = s.vos := rfl
@[simp] theorem State.advance_pgs : (s.advance v).pgs = s.pgs := rfl
@[simp] theorem State.advance_phases : (s.advance v).phases = s.phases := rfl
@[simp] theorem State.advance_keeper : (s.advance v).keeper = s.keeper := rfl
@[simp] theorem State.advance_commit : (s.advance v).commit = s.commit := rfl
@[simp] theorem State.advance_tap : (s.advance v).tap = s.tap := rfl
@[simp] theorem State.advance_hoursSet : (s.advance v).hoursSet = s.hoursSet := rfl
@[simp] theorem State.advance_trendAt : (s.advance v).trendAt = s.trendAt := rfl
@[simp] theorem State.advance_trimAt : (s.advance v).trimAt = s.trimAt := rfl
@[simp] theorem State.advance_restored : (s.advance v).restored = s.restored := rfl
@[simp] theorem State.advance_plan : (s.advance v).plan = s.plan := rfl
@[simp] theorem State.advance_fld (f₁ : Field) : (s.advance v).fld f₁ j = s.fld f₁ j := rfl
@[simp] theorem State.advance_byte : (s.advance v).byte j = s.byte j := rfl
@[simp] theorem State.advance_eng : (s.advance v).eng j = s.eng j := rfl
@[simp] theorem State.advance_core : (s.advance v).core j = s.core j := rfl
@[simp] theorem State.advance_badBits : (s.advance v).badBits j = s.badBits j := rfl

/-! ### advanceTo -/

@[simp] theorem State.advanceTo_regs : (s.advanceTo v).regs = s.regs := rfl
@[simp] theorem State.advanceTo_mem : (s.advanceTo v).mem = s.mem := rfl
@[simp] theorem State.advanceTo_errs : (s.advanceTo v).errs = s.errs := rfl
@[simp] theorem State.advanceTo_cycle : (s.advanceTo v).cycle = s.cycle := rfl
@[simp] theorem State.advanceTo_engines : (s.advanceTo v).engines = s.engines := rfl
@[simp] theorem State.advanceTo_cores : (s.advanceTo v).cores = s.cores := rfl
@[simp] theorem State.advanceTo_heart : (s.advanceTo v).heart = s.heart := rfl
@[simp] theorem State.advanceTo_arb : (s.advanceTo v).arb = s.arb := rfl
@[simp] theorem State.advanceTo_passes : (s.advanceTo v).passes = s.passes := rfl
@[simp] theorem State.advanceTo_cvs : (s.advanceTo v).cvs = s.cvs := rfl
@[simp] theorem State.advanceTo_free : (s.advanceTo v).free = s.free := rfl
@[simp] theorem State.advanceTo_pending : (s.advanceTo v).pending = s.pending := rfl
@[simp] theorem State.advanceTo_systems : (s.advanceTo v).systems = s.systems := rfl
@[simp] theorem State.advanceTo_heads : (s.advanceTo v).heads = s.heads := rfl
@[simp] theorem State.advanceTo_gridNext : (s.advanceTo v).gridNext = s.gridNext := rfl
@[simp] theorem State.advanceTo_latches : (s.advanceTo v).latches = s.latches := rfl
@[simp] theorem State.advanceTo_edges : (s.advanceTo v).edges = s.edges := rfl
@[simp] theorem State.advanceTo_dets : (s.advanceTo v).dets = s.dets := rfl
@[simp] theorem State.advanceTo_slices : (s.advanceTo v).slices = s.slices := rfl
@[simp] theorem State.advanceTo_badSlices : (s.advanceTo v).badSlices = s.badSlices := rfl
@[simp] theorem State.advanceTo_dip : (s.advanceTo v).dip = s.dip := rfl
@[simp] theorem State.advanceTo_tables : (s.advanceTo v).tables = s.tables := rfl
@[simp] theorem State.advanceTo_delivered : (s.advanceTo v).delivered = s.delivered := rfl
@[simp] theorem State.advanceTo_ports : (s.advanceTo v).ports = s.ports := rfl
@[simp] theorem State.advanceTo_agreements : (s.advanceTo v).agreements = s.agreements := rfl
@[simp] theorem State.advanceTo_agreed : (s.advanceTo v).agreed = s.agreed := rfl
@[simp] theorem State.advanceTo_locks : (s.advanceTo v).locks = s.locks := rfl
@[simp] theorem State.advanceTo_lockWait : (s.advanceTo v).lockWait = s.lockWait := rfl
@[simp] theorem State.advanceTo_cmds : (s.advanceTo v).cmds = s.cmds := rfl
@[simp] theorem State.advanceTo_fp : (s.advanceTo v).fp = s.fp := rfl
@[simp] theorem State.advanceTo_time : (s.advanceTo v).time = s.time := rfl
@[simp] theorem State.advanceTo_cycNext : (s.advanceTo v).cycNext = s.cycNext := rfl
@[simp] theorem State.advanceTo_rings : (s.advanceTo v).rings = s.rings := rfl
@[simp] theorem State.advanceTo_links : (s.advanceTo v).links = s.links := rfl
@[simp] theorem State.advanceTo_ready : (s.advanceTo v).ready = s.ready := rfl
@[simp] theorem State.advanceTo_frames : (s.advanceTo v).frames = s.frames := rfl
@[simp] theorem State.advanceTo_closes : (s.advanceTo v).closes = s.closes := rfl
@[simp] theorem State.advanceTo_rxq : (s.advanceTo v).rxq = s.rxq := rfl
@[simp] theorem State.advanceTo_rxHeld : (s.advanceTo v).rxHeld = s.rxHeld := rfl
@[simp] theorem State.advanceTo_lines : (s.advanceTo v).lines = s.lines := rfl
@[simp] theorem State.advanceTo_rxNext : (s.advanceTo v).rxNext = s.rxNext := rfl
@[simp] theorem State.advanceTo_logs : (s.advanceTo v).logs = s.logs := rfl
@[simp] theorem State.advanceTo_gmsgs : (s.advanceTo v).gmsgs = s.gmsgs := rfl
@[simp] theorem State.advanceTo_migs : (s.advanceTo v).migs = s.migs := rfl
@[simp] theorem State.advanceTo_graft : (s.advanceTo v).graft = s.graft := rfl
@[simp] theorem State.advanceTo_secs : (s.advanceTo v).secs = s.secs := rfl
@[simp] theorem State.advanceTo_pts : (s.advanceTo v).pts = s.pts := rfl
@[simp] theorem State.advanceTo_remotes : (s.advanceTo v).remotes = s.remotes := rfl
@[simp] theorem State.advanceTo_claims : (s.advanceTo v).claims = s.claims := rfl
@[simp] theorem State.advanceTo_txEvents : (s.advanceTo v).txEvents = s.txEvents := rfl
@[simp] theorem State.advanceTo_accum : (s.advanceTo v).accum = s.accum := rfl
@[simp] theorem State.advanceTo_evalRest : (s.advanceTo v).evalRest = s.evalRest := rfl
@[simp] theorem State.advanceTo_results : (s.advanceTo v).results = s.results := rfl
@[simp] theorem State.advanceTo_takens : (s.advanceTo v).takens = s.takens := rfl
@[simp] theorem State.advanceTo_steps : (s.advanceTo v).steps = s.steps := rfl
@[simp] theorem State.advanceTo_vos : (s.advanceTo v).vos = s.vos := rfl
@[simp] theorem State.advanceTo_pgs : (s.advanceTo v).pgs = s.pgs := rfl
@[simp] theorem State.advanceTo_phases : (s.advanceTo v).phases = s.phases := rfl
@[simp] theorem State.advanceTo_keeper : (s.advanceTo v).keeper = s.keeper := rfl
@[simp] theorem State.advanceTo_commit : (s.advanceTo v).commit = s.commit := rfl
@[simp] theorem State.advanceTo_tap : (s.advanceTo v).tap = s.tap := rfl
@[simp] theorem State.advanceTo_hoursSet : (s.advanceTo v).hoursSet = s.hoursSet := rfl
@[simp] theorem State.advanceTo_trendAt : (s.advanceTo v).trendAt = s.trendAt := rfl
@[simp] theorem State.advanceTo_trimAt : (s.advanceTo v).trimAt = s.trimAt := rfl
@[simp] theorem State.advanceTo_restored : (s.advanceTo v).restored = s.restored := rfl
@[simp] theorem State.advanceTo_plan : (s.advanceTo v).plan = s.plan := rfl
@[simp] theorem State.advanceTo_fld (f₁ : Field) : (s.advanceTo v).fld f₁ j = s.fld f₁ j := rfl
@[simp] theorem State.advanceTo_byte : (s.advanceTo v).byte j = s.byte j := rfl
@[simp] theorem State.advanceTo_eng : (s.advanceTo v).eng j = s.eng j := rfl
@[simp] theorem State.advanceTo_core : (s.advanceTo v).core j = s.core j := rfl
@[simp] theorem State.advanceTo_badBits : (s.advanceTo v).badBits j = s.badBits j := rfl

/-! ### modEng -/

@[simp] theorem State.modEng_regs : (s.modEng i g0).regs = s.regs := rfl
@[simp] theorem State.modEng_mem : (s.modEng i g0).mem = s.mem := rfl
@[simp] theorem State.modEng_errs : (s.modEng i g0).errs = s.errs := rfl
@[simp] theorem State.modEng_tb : (s.modEng i g0).tb = s.tb := rfl
@[simp] theorem State.modEng_now : (s.modEng i g0).now = s.now := rfl
@[simp] theorem State.modEng_cycle : (s.modEng i g0).cycle = s.cycle := rfl
@[simp] theorem State.modEng_cores : (s.modEng i g0).cores = s.cores := rfl
@[simp] theorem State.modEng_heart : (s.modEng i g0).heart = s.heart := rfl
@[simp] theorem State.modEng_arb : (s.modEng i g0).arb = s.arb := rfl
@[simp] theorem State.modEng_passes : (s.modEng i g0).passes = s.passes := rfl
@[simp] theorem State.modEng_cvs : (s.modEng i g0).cvs = s.cvs := rfl
@[simp] theorem State.modEng_free : (s.modEng i g0).free = s.free := rfl
@[simp] theorem State.modEng_pending : (s.modEng i g0).pending = s.pending := rfl
@[simp] theorem State.modEng_systems : (s.modEng i g0).systems = s.systems := rfl
@[simp] theorem State.modEng_heads : (s.modEng i g0).heads = s.heads := rfl
@[simp] theorem State.modEng_gridNext : (s.modEng i g0).gridNext = s.gridNext := rfl
@[simp] theorem State.modEng_latches : (s.modEng i g0).latches = s.latches := rfl
@[simp] theorem State.modEng_edges : (s.modEng i g0).edges = s.edges := rfl
@[simp] theorem State.modEng_dets : (s.modEng i g0).dets = s.dets := rfl
@[simp] theorem State.modEng_slices : (s.modEng i g0).slices = s.slices := rfl
@[simp] theorem State.modEng_badSlices : (s.modEng i g0).badSlices = s.badSlices := rfl
@[simp] theorem State.modEng_dip : (s.modEng i g0).dip = s.dip := rfl
@[simp] theorem State.modEng_tables : (s.modEng i g0).tables = s.tables := rfl
@[simp] theorem State.modEng_delivered : (s.modEng i g0).delivered = s.delivered := rfl
@[simp] theorem State.modEng_ports : (s.modEng i g0).ports = s.ports := rfl
@[simp] theorem State.modEng_agreements : (s.modEng i g0).agreements = s.agreements := rfl
@[simp] theorem State.modEng_agreed : (s.modEng i g0).agreed = s.agreed := rfl
@[simp] theorem State.modEng_locks : (s.modEng i g0).locks = s.locks := rfl
@[simp] theorem State.modEng_lockWait : (s.modEng i g0).lockWait = s.lockWait := rfl
@[simp] theorem State.modEng_cmds : (s.modEng i g0).cmds = s.cmds := rfl
@[simp] theorem State.modEng_fp : (s.modEng i g0).fp = s.fp := rfl
@[simp] theorem State.modEng_time : (s.modEng i g0).time = s.time := rfl
@[simp] theorem State.modEng_cycNext : (s.modEng i g0).cycNext = s.cycNext := rfl
@[simp] theorem State.modEng_rings : (s.modEng i g0).rings = s.rings := rfl
@[simp] theorem State.modEng_links : (s.modEng i g0).links = s.links := rfl
@[simp] theorem State.modEng_ready : (s.modEng i g0).ready = s.ready := rfl
@[simp] theorem State.modEng_frames : (s.modEng i g0).frames = s.frames := rfl
@[simp] theorem State.modEng_closes : (s.modEng i g0).closes = s.closes := rfl
@[simp] theorem State.modEng_rxq : (s.modEng i g0).rxq = s.rxq := rfl
@[simp] theorem State.modEng_rxHeld : (s.modEng i g0).rxHeld = s.rxHeld := rfl
@[simp] theorem State.modEng_lines : (s.modEng i g0).lines = s.lines := rfl
@[simp] theorem State.modEng_rxNext : (s.modEng i g0).rxNext = s.rxNext := rfl
@[simp] theorem State.modEng_logs : (s.modEng i g0).logs = s.logs := rfl
@[simp] theorem State.modEng_gmsgs : (s.modEng i g0).gmsgs = s.gmsgs := rfl
@[simp] theorem State.modEng_migs : (s.modEng i g0).migs = s.migs := rfl
@[simp] theorem State.modEng_graft : (s.modEng i g0).graft = s.graft := rfl
@[simp] theorem State.modEng_secs : (s.modEng i g0).secs = s.secs := rfl
@[simp] theorem State.modEng_pts : (s.modEng i g0).pts = s.pts := rfl
@[simp] theorem State.modEng_remotes : (s.modEng i g0).remotes = s.remotes := rfl
@[simp] theorem State.modEng_claims : (s.modEng i g0).claims = s.claims := rfl
@[simp] theorem State.modEng_txEvents : (s.modEng i g0).txEvents = s.txEvents := rfl
@[simp] theorem State.modEng_accum : (s.modEng i g0).accum = s.accum := rfl
@[simp] theorem State.modEng_evalRest : (s.modEng i g0).evalRest = s.evalRest := rfl
@[simp] theorem State.modEng_results : (s.modEng i g0).results = s.results := rfl
@[simp] theorem State.modEng_takens : (s.modEng i g0).takens = s.takens := rfl
@[simp] theorem State.modEng_steps : (s.modEng i g0).steps = s.steps := rfl
@[simp] theorem State.modEng_vos : (s.modEng i g0).vos = s.vos := rfl
@[simp] theorem State.modEng_pgs : (s.modEng i g0).pgs = s.pgs := rfl
@[simp] theorem State.modEng_phases : (s.modEng i g0).phases = s.phases := rfl
@[simp] theorem State.modEng_keeper : (s.modEng i g0).keeper = s.keeper := rfl
@[simp] theorem State.modEng_commit : (s.modEng i g0).commit = s.commit := rfl
@[simp] theorem State.modEng_tap : (s.modEng i g0).tap = s.tap := rfl
@[simp] theorem State.modEng_hoursSet : (s.modEng i g0).hoursSet = s.hoursSet := rfl
@[simp] theorem State.modEng_trendAt : (s.modEng i g0).trendAt = s.trendAt := rfl
@[simp] theorem State.modEng_trimAt : (s.modEng i g0).trimAt = s.trimAt := rfl
@[simp] theorem State.modEng_restored : (s.modEng i g0).restored = s.restored := rfl
@[simp] theorem State.modEng_plan : (s.modEng i g0).plan = s.plan := rfl
@[simp] theorem State.modEng_fld (f₁ : Field) : (s.modEng i g0).fld f₁ j = s.fld f₁ j := rfl
@[simp] theorem State.modEng_byte : (s.modEng i g0).byte j = s.byte j := rfl
@[simp] theorem State.modEng_core : (s.modEng i g0).core j = s.core j := rfl
@[simp] theorem State.modEng_badBits : (s.modEng i g0).badBits j = s.badBits j := rfl
@[simp] theorem State.modEng_eng_self : (s.modEng i g0).eng i = g0 (s.eng i) := Tab.get_set_self _ _ _ _
theorem State.modEng_eng_ne (h : j ≠ i) : (s.modEng i g0).eng j = s.eng j := Tab.get_set_ne _ _ _ _ h

/-! ### pendEng -/

@[simp] theorem State.pendEng_regs : (s.pendEng i v).regs = s.regs := rfl
@[simp] theorem State.pendEng_mem : (s.pendEng i v).mem = s.mem := rfl
@[simp] theorem State.pendEng_errs : (s.pendEng i v).errs = s.errs := rfl
@[simp] theorem State.pendEng_tb : (s.pendEng i v).tb = s.tb := rfl
@[simp] theorem State.pendEng_now : (s.pendEng i v).now = s.now := rfl
@[simp] theorem State.pendEng_cycle : (s.pendEng i v).cycle = s.cycle := rfl
@[simp] theorem State.pendEng_cores : (s.pendEng i v).cores = s.cores := rfl
@[simp] theorem State.pendEng_heart : (s.pendEng i v).heart = s.heart := rfl
@[simp] theorem State.pendEng_arb : (s.pendEng i v).arb = s.arb := rfl
@[simp] theorem State.pendEng_passes : (s.pendEng i v).passes = s.passes := rfl
@[simp] theorem State.pendEng_cvs : (s.pendEng i v).cvs = s.cvs := rfl
@[simp] theorem State.pendEng_free : (s.pendEng i v).free = s.free := rfl
@[simp] theorem State.pendEng_pending : (s.pendEng i v).pending = s.pending := rfl
@[simp] theorem State.pendEng_systems : (s.pendEng i v).systems = s.systems := rfl
@[simp] theorem State.pendEng_heads : (s.pendEng i v).heads = s.heads := rfl
@[simp] theorem State.pendEng_gridNext : (s.pendEng i v).gridNext = s.gridNext := rfl
@[simp] theorem State.pendEng_latches : (s.pendEng i v).latches = s.latches := rfl
@[simp] theorem State.pendEng_edges : (s.pendEng i v).edges = s.edges := rfl
@[simp] theorem State.pendEng_dets : (s.pendEng i v).dets = s.dets := rfl
@[simp] theorem State.pendEng_slices : (s.pendEng i v).slices = s.slices := rfl
@[simp] theorem State.pendEng_badSlices : (s.pendEng i v).badSlices = s.badSlices := rfl
@[simp] theorem State.pendEng_dip : (s.pendEng i v).dip = s.dip := rfl
@[simp] theorem State.pendEng_tables : (s.pendEng i v).tables = s.tables := rfl
@[simp] theorem State.pendEng_delivered : (s.pendEng i v).delivered = s.delivered := rfl
@[simp] theorem State.pendEng_ports : (s.pendEng i v).ports = s.ports := rfl
@[simp] theorem State.pendEng_agreements : (s.pendEng i v).agreements = s.agreements := rfl
@[simp] theorem State.pendEng_agreed : (s.pendEng i v).agreed = s.agreed := rfl
@[simp] theorem State.pendEng_locks : (s.pendEng i v).locks = s.locks := rfl
@[simp] theorem State.pendEng_lockWait : (s.pendEng i v).lockWait = s.lockWait := rfl
@[simp] theorem State.pendEng_cmds : (s.pendEng i v).cmds = s.cmds := rfl
@[simp] theorem State.pendEng_fp : (s.pendEng i v).fp = s.fp := rfl
@[simp] theorem State.pendEng_time : (s.pendEng i v).time = s.time := rfl
@[simp] theorem State.pendEng_cycNext : (s.pendEng i v).cycNext = s.cycNext := rfl
@[simp] theorem State.pendEng_rings : (s.pendEng i v).rings = s.rings := rfl
@[simp] theorem State.pendEng_links : (s.pendEng i v).links = s.links := rfl
@[simp] theorem State.pendEng_ready : (s.pendEng i v).ready = s.ready := rfl
@[simp] theorem State.pendEng_frames : (s.pendEng i v).frames = s.frames := rfl
@[simp] theorem State.pendEng_closes : (s.pendEng i v).closes = s.closes := rfl
@[simp] theorem State.pendEng_rxq : (s.pendEng i v).rxq = s.rxq := rfl
@[simp] theorem State.pendEng_rxHeld : (s.pendEng i v).rxHeld = s.rxHeld := rfl
@[simp] theorem State.pendEng_lines : (s.pendEng i v).lines = s.lines := rfl
@[simp] theorem State.pendEng_rxNext : (s.pendEng i v).rxNext = s.rxNext := rfl
@[simp] theorem State.pendEng_logs : (s.pendEng i v).logs = s.logs := rfl
@[simp] theorem State.pendEng_gmsgs : (s.pendEng i v).gmsgs = s.gmsgs := rfl
@[simp] theorem State.pendEng_migs : (s.pendEng i v).migs = s.migs := rfl
@[simp] theorem State.pendEng_graft : (s.pendEng i v).graft = s.graft := rfl
@[simp] theorem State.pendEng_secs : (s.pendEng i v).secs = s.secs := rfl
@[simp] theorem State.pendEng_pts : (s.pendEng i v).pts = s.pts := rfl
@[simp] theorem State.pendEng_remotes : (s.pendEng i v).remotes = s.remotes := rfl
@[simp] theorem State.pendEng_claims : (s.pendEng i v).claims = s.claims := rfl
@[simp] theorem State.pendEng_txEvents : (s.pendEng i v).txEvents = s.txEvents := rfl
@[simp] theorem State.pendEng_accum : (s.pendEng i v).accum = s.accum := rfl
@[simp] theorem State.pendEng_evalRest : (s.pendEng i v).evalRest = s.evalRest := rfl
@[simp] theorem State.pendEng_results : (s.pendEng i v).results = s.results := rfl
@[simp] theorem State.pendEng_takens : (s.pendEng i v).takens = s.takens := rfl
@[simp] theorem State.pendEng_steps : (s.pendEng i v).steps = s.steps := rfl
@[simp] theorem State.pendEng_vos : (s.pendEng i v).vos = s.vos := rfl
@[simp] theorem State.pendEng_pgs : (s.pendEng i v).pgs = s.pgs := rfl
@[simp] theorem State.pendEng_phases : (s.pendEng i v).phases = s.phases := rfl
@[simp] theorem State.pendEng_keeper : (s.pendEng i v).keeper = s.keeper := rfl
@[simp] theorem State.pendEng_commit : (s.pendEng i v).commit = s.commit := rfl
@[simp] theorem State.pendEng_tap : (s.pendEng i v).tap = s.tap := rfl
@[simp] theorem State.pendEng_hoursSet : (s.pendEng i v).hoursSet = s.hoursSet := rfl
@[simp] theorem State.pendEng_trendAt : (s.pendEng i v).trendAt = s.trendAt := rfl
@[simp] theorem State.pendEng_trimAt : (s.pendEng i v).trimAt = s.trimAt := rfl
@[simp] theorem State.pendEng_restored : (s.pendEng i v).restored = s.restored := rfl
@[simp] theorem State.pendEng_plan : (s.pendEng i v).plan = s.plan := rfl
@[simp] theorem State.pendEng_fld (f₁ : Field) : (s.pendEng i v).fld f₁ j = s.fld f₁ j := rfl
@[simp] theorem State.pendEng_byte : (s.pendEng i v).byte j = s.byte j := rfl
@[simp] theorem State.pendEng_core : (s.pendEng i v).core j = s.core j := rfl
@[simp] theorem State.pendEng_badBits : (s.pendEng i v).badBits j = s.badBits j := rfl

/-! ### modCore -/

@[simp] theorem State.modCore_regs : (s.modCore i g1).regs = s.regs := rfl
@[simp] theorem State.modCore_mem : (s.modCore i g1).mem = s.mem := rfl
@[simp] theorem State.modCore_errs : (s.modCore i g1).errs = s.errs := rfl
@[simp] theorem State.modCore_tb : (s.modCore i g1).tb = s.tb := rfl
@[simp] theorem State.modCore_now : (s.modCore i g1).now = s.now := rfl
@[simp] theorem State.modCore_cycle : (s.modCore i g1).cycle = s.cycle := rfl
@[simp] theorem State.modCore_engines : (s.modCore i g1).engines = s.engines := rfl
@[simp] theorem State.modCore_heart : (s.modCore i g1).heart = s.heart := rfl
@[simp] theorem State.modCore_arb : (s.modCore i g1).arb = s.arb := rfl
@[simp] theorem State.modCore_passes : (s.modCore i g1).passes = s.passes := rfl
@[simp] theorem State.modCore_cvs : (s.modCore i g1).cvs = s.cvs := rfl
@[simp] theorem State.modCore_free : (s.modCore i g1).free = s.free := rfl
@[simp] theorem State.modCore_pending : (s.modCore i g1).pending = s.pending := rfl
@[simp] theorem State.modCore_systems : (s.modCore i g1).systems = s.systems := rfl
@[simp] theorem State.modCore_heads : (s.modCore i g1).heads = s.heads := rfl
@[simp] theorem State.modCore_gridNext : (s.modCore i g1).gridNext = s.gridNext := rfl
@[simp] theorem State.modCore_latches : (s.modCore i g1).latches = s.latches := rfl
@[simp] theorem State.modCore_edges : (s.modCore i g1).edges = s.edges := rfl
@[simp] theorem State.modCore_dets : (s.modCore i g1).dets = s.dets := rfl
@[simp] theorem State.modCore_slices : (s.modCore i g1).slices = s.slices := rfl
@[simp] theorem State.modCore_badSlices : (s.modCore i g1).badSlices = s.badSlices := rfl
@[simp] theorem State.modCore_dip : (s.modCore i g1).dip = s.dip := rfl
@[simp] theorem State.modCore_tables : (s.modCore i g1).tables = s.tables := rfl
@[simp] theorem State.modCore_delivered : (s.modCore i g1).delivered = s.delivered := rfl
@[simp] theorem State.modCore_ports : (s.modCore i g1).ports = s.ports := rfl
@[simp] theorem State.modCore_agreements : (s.modCore i g1).agreements = s.agreements := rfl
@[simp] theorem State.modCore_agreed : (s.modCore i g1).agreed = s.agreed := rfl
@[simp] theorem State.modCore_locks : (s.modCore i g1).locks = s.locks := rfl
@[simp] theorem State.modCore_lockWait : (s.modCore i g1).lockWait = s.lockWait := rfl
@[simp] theorem State.modCore_cmds : (s.modCore i g1).cmds = s.cmds := rfl
@[simp] theorem State.modCore_fp : (s.modCore i g1).fp = s.fp := rfl
@[simp] theorem State.modCore_time : (s.modCore i g1).time = s.time := rfl
@[simp] theorem State.modCore_cycNext : (s.modCore i g1).cycNext = s.cycNext := rfl
@[simp] theorem State.modCore_rings : (s.modCore i g1).rings = s.rings := rfl
@[simp] theorem State.modCore_links : (s.modCore i g1).links = s.links := rfl
@[simp] theorem State.modCore_ready : (s.modCore i g1).ready = s.ready := rfl
@[simp] theorem State.modCore_frames : (s.modCore i g1).frames = s.frames := rfl
@[simp] theorem State.modCore_closes : (s.modCore i g1).closes = s.closes := rfl
@[simp] theorem State.modCore_rxq : (s.modCore i g1).rxq = s.rxq := rfl
@[simp] theorem State.modCore_rxHeld : (s.modCore i g1).rxHeld = s.rxHeld := rfl
@[simp] theorem State.modCore_lines : (s.modCore i g1).lines = s.lines := rfl
@[simp] theorem State.modCore_rxNext : (s.modCore i g1).rxNext = s.rxNext := rfl
@[simp] theorem State.modCore_logs : (s.modCore i g1).logs = s.logs := rfl
@[simp] theorem State.modCore_gmsgs : (s.modCore i g1).gmsgs = s.gmsgs := rfl
@[simp] theorem State.modCore_migs : (s.modCore i g1).migs = s.migs := rfl
@[simp] theorem State.modCore_graft : (s.modCore i g1).graft = s.graft := rfl
@[simp] theorem State.modCore_secs : (s.modCore i g1).secs = s.secs := rfl
@[simp] theorem State.modCore_pts : (s.modCore i g1).pts = s.pts := rfl
@[simp] theorem State.modCore_remotes : (s.modCore i g1).remotes = s.remotes := rfl
@[simp] theorem State.modCore_claims : (s.modCore i g1).claims = s.claims := rfl
@[simp] theorem State.modCore_txEvents : (s.modCore i g1).txEvents = s.txEvents := rfl
@[simp] theorem State.modCore_accum : (s.modCore i g1).accum = s.accum := rfl
@[simp] theorem State.modCore_evalRest : (s.modCore i g1).evalRest = s.evalRest := rfl
@[simp] theorem State.modCore_results : (s.modCore i g1).results = s.results := rfl
@[simp] theorem State.modCore_takens : (s.modCore i g1).takens = s.takens := rfl
@[simp] theorem State.modCore_steps : (s.modCore i g1).steps = s.steps := rfl
@[simp] theorem State.modCore_vos : (s.modCore i g1).vos = s.vos := rfl
@[simp] theorem State.modCore_pgs : (s.modCore i g1).pgs = s.pgs := rfl
@[simp] theorem State.modCore_phases : (s.modCore i g1).phases = s.phases := rfl
@[simp] theorem State.modCore_keeper : (s.modCore i g1).keeper = s.keeper := rfl
@[simp] theorem State.modCore_commit : (s.modCore i g1).commit = s.commit := rfl
@[simp] theorem State.modCore_tap : (s.modCore i g1).tap = s.tap := rfl
@[simp] theorem State.modCore_hoursSet : (s.modCore i g1).hoursSet = s.hoursSet := rfl
@[simp] theorem State.modCore_trendAt : (s.modCore i g1).trendAt = s.trendAt := rfl
@[simp] theorem State.modCore_trimAt : (s.modCore i g1).trimAt = s.trimAt := rfl
@[simp] theorem State.modCore_restored : (s.modCore i g1).restored = s.restored := rfl
@[simp] theorem State.modCore_plan : (s.modCore i g1).plan = s.plan := rfl
@[simp] theorem State.modCore_fld (f₁ : Field) : (s.modCore i g1).fld f₁ j = s.fld f₁ j := rfl
@[simp] theorem State.modCore_byte : (s.modCore i g1).byte j = s.byte j := rfl
@[simp] theorem State.modCore_eng : (s.modCore i g1).eng j = s.eng j := rfl
@[simp] theorem State.modCore_badBits : (s.modCore i g1).badBits j = s.badBits j := rfl
@[simp] theorem State.modCore_core_self : (s.modCore i g1).core i = g1 (s.core i) := Tab.get_set_self _ _ _ _
theorem State.modCore_core_ne (h : j ≠ i) : (s.modCore i g1).core j = s.core j := Tab.get_set_ne _ _ _ _ h

/-! ### modHeart -/

@[simp] theorem State.modHeart_regs : (s.modHeart g2).regs = s.regs := rfl
@[simp] theorem State.modHeart_mem : (s.modHeart g2).mem = s.mem := rfl
@[simp] theorem State.modHeart_errs : (s.modHeart g2).errs = s.errs := rfl
@[simp] theorem State.modHeart_tb : (s.modHeart g2).tb = s.tb := rfl
@[simp] theorem State.modHeart_now : (s.modHeart g2).now = s.now := rfl
@[simp] theorem State.modHeart_cycle : (s.modHeart g2).cycle = s.cycle := rfl
@[simp] theorem State.modHeart_engines : (s.modHeart g2).engines = s.engines := rfl
@[simp] theorem State.modHeart_cores : (s.modHeart g2).cores = s.cores := rfl
@[simp] theorem State.modHeart_arb : (s.modHeart g2).arb = s.arb := rfl
@[simp] theorem State.modHeart_passes : (s.modHeart g2).passes = s.passes := rfl
@[simp] theorem State.modHeart_cvs : (s.modHeart g2).cvs = s.cvs := rfl
@[simp] theorem State.modHeart_free : (s.modHeart g2).free = s.free := rfl
@[simp] theorem State.modHeart_pending : (s.modHeart g2).pending = s.pending := rfl
@[simp] theorem State.modHeart_systems : (s.modHeart g2).systems = s.systems := rfl
@[simp] theorem State.modHeart_heads : (s.modHeart g2).heads = s.heads := rfl
@[simp] theorem State.modHeart_gridNext : (s.modHeart g2).gridNext = s.gridNext := rfl
@[simp] theorem State.modHeart_latches : (s.modHeart g2).latches = s.latches := rfl
@[simp] theorem State.modHeart_edges : (s.modHeart g2).edges = s.edges := rfl
@[simp] theorem State.modHeart_dets : (s.modHeart g2).dets = s.dets := rfl
@[simp] theorem State.modHeart_slices : (s.modHeart g2).slices = s.slices := rfl
@[simp] theorem State.modHeart_badSlices : (s.modHeart g2).badSlices = s.badSlices := rfl
@[simp] theorem State.modHeart_dip : (s.modHeart g2).dip = s.dip := rfl
@[simp] theorem State.modHeart_tables : (s.modHeart g2).tables = s.tables := rfl
@[simp] theorem State.modHeart_delivered : (s.modHeart g2).delivered = s.delivered := rfl
@[simp] theorem State.modHeart_ports : (s.modHeart g2).ports = s.ports := rfl
@[simp] theorem State.modHeart_agreements : (s.modHeart g2).agreements = s.agreements := rfl
@[simp] theorem State.modHeart_agreed : (s.modHeart g2).agreed = s.agreed := rfl
@[simp] theorem State.modHeart_locks : (s.modHeart g2).locks = s.locks := rfl
@[simp] theorem State.modHeart_lockWait : (s.modHeart g2).lockWait = s.lockWait := rfl
@[simp] theorem State.modHeart_cmds : (s.modHeart g2).cmds = s.cmds := rfl
@[simp] theorem State.modHeart_fp : (s.modHeart g2).fp = s.fp := rfl
@[simp] theorem State.modHeart_time : (s.modHeart g2).time = s.time := rfl
@[simp] theorem State.modHeart_cycNext : (s.modHeart g2).cycNext = s.cycNext := rfl
@[simp] theorem State.modHeart_rings : (s.modHeart g2).rings = s.rings := rfl
@[simp] theorem State.modHeart_links : (s.modHeart g2).links = s.links := rfl
@[simp] theorem State.modHeart_ready : (s.modHeart g2).ready = s.ready := rfl
@[simp] theorem State.modHeart_frames : (s.modHeart g2).frames = s.frames := rfl
@[simp] theorem State.modHeart_closes : (s.modHeart g2).closes = s.closes := rfl
@[simp] theorem State.modHeart_rxq : (s.modHeart g2).rxq = s.rxq := rfl
@[simp] theorem State.modHeart_rxHeld : (s.modHeart g2).rxHeld = s.rxHeld := rfl
@[simp] theorem State.modHeart_lines : (s.modHeart g2).lines = s.lines := rfl
@[simp] theorem State.modHeart_rxNext : (s.modHeart g2).rxNext = s.rxNext := rfl
@[simp] theorem State.modHeart_logs : (s.modHeart g2).logs = s.logs := rfl
@[simp] theorem State.modHeart_gmsgs : (s.modHeart g2).gmsgs = s.gmsgs := rfl
@[simp] theorem State.modHeart_migs : (s.modHeart g2).migs = s.migs := rfl
@[simp] theorem State.modHeart_graft : (s.modHeart g2).graft = s.graft := rfl
@[simp] theorem State.modHeart_secs : (s.modHeart g2).secs = s.secs := rfl
@[simp] theorem State.modHeart_pts : (s.modHeart g2).pts = s.pts := rfl
@[simp] theorem State.modHeart_remotes : (s.modHeart g2).remotes = s.remotes := rfl
@[simp] theorem State.modHeart_claims : (s.modHeart g2).claims = s.claims := rfl
@[simp] theorem State.modHeart_txEvents : (s.modHeart g2).txEvents = s.txEvents := rfl
@[simp] theorem State.modHeart_accum : (s.modHeart g2).accum = s.accum := rfl
@[simp] theorem State.modHeart_evalRest : (s.modHeart g2).evalRest = s.evalRest := rfl
@[simp] theorem State.modHeart_results : (s.modHeart g2).results = s.results := rfl
@[simp] theorem State.modHeart_takens : (s.modHeart g2).takens = s.takens := rfl
@[simp] theorem State.modHeart_steps : (s.modHeart g2).steps = s.steps := rfl
@[simp] theorem State.modHeart_vos : (s.modHeart g2).vos = s.vos := rfl
@[simp] theorem State.modHeart_pgs : (s.modHeart g2).pgs = s.pgs := rfl
@[simp] theorem State.modHeart_phases : (s.modHeart g2).phases = s.phases := rfl
@[simp] theorem State.modHeart_keeper : (s.modHeart g2).keeper = s.keeper := rfl
@[simp] theorem State.modHeart_commit : (s.modHeart g2).commit = s.commit := rfl
@[simp] theorem State.modHeart_tap : (s.modHeart g2).tap = s.tap := rfl
@[simp] theorem State.modHeart_hoursSet : (s.modHeart g2).hoursSet = s.hoursSet := rfl
@[simp] theorem State.modHeart_trendAt : (s.modHeart g2).trendAt = s.trendAt := rfl
@[simp] theorem State.modHeart_trimAt : (s.modHeart g2).trimAt = s.trimAt := rfl
@[simp] theorem State.modHeart_restored : (s.modHeart g2).restored = s.restored := rfl
@[simp] theorem State.modHeart_plan : (s.modHeart g2).plan = s.plan := rfl
@[simp] theorem State.modHeart_fld (f₁ : Field) : (s.modHeart g2).fld f₁ j = s.fld f₁ j := rfl
@[simp] theorem State.modHeart_byte : (s.modHeart g2).byte j = s.byte j := rfl
@[simp] theorem State.modHeart_eng : (s.modHeart g2).eng j = s.eng j := rfl
@[simp] theorem State.modHeart_core : (s.modHeart g2).core j = s.core j := rfl
@[simp] theorem State.modHeart_badBits : (s.modHeart g2).badBits j = s.badBits j := rfl
@[simp] theorem State.modHeart_heart : (s.modHeart g2).heart = g2 s.heart := rfl

/-! ### modCv -/

@[simp] theorem State.modCv_regs : (s.modCv i g3).regs = s.regs := rfl
@[simp] theorem State.modCv_mem : (s.modCv i g3).mem = s.mem := rfl
@[simp] theorem State.modCv_errs : (s.modCv i g3).errs = s.errs := rfl
@[simp] theorem State.modCv_tb : (s.modCv i g3).tb = s.tb := rfl
@[simp] theorem State.modCv_now : (s.modCv i g3).now = s.now := rfl
@[simp] theorem State.modCv_cycle : (s.modCv i g3).cycle = s.cycle := rfl
@[simp] theorem State.modCv_engines : (s.modCv i g3).engines = s.engines := rfl
@[simp] theorem State.modCv_cores : (s.modCv i g3).cores = s.cores := rfl
@[simp] theorem State.modCv_heart : (s.modCv i g3).heart = s.heart := rfl
@[simp] theorem State.modCv_arb : (s.modCv i g3).arb = s.arb := rfl
@[simp] theorem State.modCv_passes : (s.modCv i g3).passes = s.passes := rfl
@[simp] theorem State.modCv_free : (s.modCv i g3).free = s.free := rfl
@[simp] theorem State.modCv_pending : (s.modCv i g3).pending = s.pending := rfl
@[simp] theorem State.modCv_systems : (s.modCv i g3).systems = s.systems := rfl
@[simp] theorem State.modCv_heads : (s.modCv i g3).heads = s.heads := rfl
@[simp] theorem State.modCv_gridNext : (s.modCv i g3).gridNext = s.gridNext := rfl
@[simp] theorem State.modCv_latches : (s.modCv i g3).latches = s.latches := rfl
@[simp] theorem State.modCv_edges : (s.modCv i g3).edges = s.edges := rfl
@[simp] theorem State.modCv_dets : (s.modCv i g3).dets = s.dets := rfl
@[simp] theorem State.modCv_slices : (s.modCv i g3).slices = s.slices := rfl
@[simp] theorem State.modCv_badSlices : (s.modCv i g3).badSlices = s.badSlices := rfl
@[simp] theorem State.modCv_dip : (s.modCv i g3).dip = s.dip := rfl
@[simp] theorem State.modCv_tables : (s.modCv i g3).tables = s.tables := rfl
@[simp] theorem State.modCv_delivered : (s.modCv i g3).delivered = s.delivered := rfl
@[simp] theorem State.modCv_ports : (s.modCv i g3).ports = s.ports := rfl
@[simp] theorem State.modCv_agreements : (s.modCv i g3).agreements = s.agreements := rfl
@[simp] theorem State.modCv_agreed : (s.modCv i g3).agreed = s.agreed := rfl
@[simp] theorem State.modCv_locks : (s.modCv i g3).locks = s.locks := rfl
@[simp] theorem State.modCv_lockWait : (s.modCv i g3).lockWait = s.lockWait := rfl
@[simp] theorem State.modCv_cmds : (s.modCv i g3).cmds = s.cmds := rfl
@[simp] theorem State.modCv_fp : (s.modCv i g3).fp = s.fp := rfl
@[simp] theorem State.modCv_time : (s.modCv i g3).time = s.time := rfl
@[simp] theorem State.modCv_cycNext : (s.modCv i g3).cycNext = s.cycNext := rfl
@[simp] theorem State.modCv_rings : (s.modCv i g3).rings = s.rings := rfl
@[simp] theorem State.modCv_links : (s.modCv i g3).links = s.links := rfl
@[simp] theorem State.modCv_ready : (s.modCv i g3).ready = s.ready := rfl
@[simp] theorem State.modCv_frames : (s.modCv i g3).frames = s.frames := rfl
@[simp] theorem State.modCv_closes : (s.modCv i g3).closes = s.closes := rfl
@[simp] theorem State.modCv_rxq : (s.modCv i g3).rxq = s.rxq := rfl
@[simp] theorem State.modCv_rxHeld : (s.modCv i g3).rxHeld = s.rxHeld := rfl
@[simp] theorem State.modCv_lines : (s.modCv i g3).lines = s.lines := rfl
@[simp] theorem State.modCv_rxNext : (s.modCv i g3).rxNext = s.rxNext := rfl
@[simp] theorem State.modCv_logs : (s.modCv i g3).logs = s.logs := rfl
@[simp] theorem State.modCv_gmsgs : (s.modCv i g3).gmsgs = s.gmsgs := rfl
@[simp] theorem State.modCv_migs : (s.modCv i g3).migs = s.migs := rfl
@[simp] theorem State.modCv_graft : (s.modCv i g3).graft = s.graft := rfl
@[simp] theorem State.modCv_secs : (s.modCv i g3).secs = s.secs := rfl
@[simp] theorem State.modCv_pts : (s.modCv i g3).pts = s.pts := rfl
@[simp] theorem State.modCv_remotes : (s.modCv i g3).remotes = s.remotes := rfl
@[simp] theorem State.modCv_claims : (s.modCv i g3).claims = s.claims := rfl
@[simp] theorem State.modCv_txEvents : (s.modCv i g3).txEvents = s.txEvents := rfl
@[simp] theorem State.modCv_accum : (s.modCv i g3).accum = s.accum := rfl
@[simp] theorem State.modCv_evalRest : (s.modCv i g3).evalRest = s.evalRest := rfl
@[simp] theorem State.modCv_results : (s.modCv i g3).results = s.results := rfl
@[simp] theorem State.modCv_takens : (s.modCv i g3).takens = s.takens := rfl
@[simp] theorem State.modCv_steps : (s.modCv i g3).steps = s.steps := rfl
@[simp] theorem State.modCv_vos : (s.modCv i g3).vos = s.vos := rfl
@[simp] theorem State.modCv_pgs : (s.modCv i g3).pgs = s.pgs := rfl
@[simp] theorem State.modCv_phases : (s.modCv i g3).phases = s.phases := rfl
@[simp] theorem State.modCv_keeper : (s.modCv i g3).keeper = s.keeper := rfl
@[simp] theorem State.modCv_commit : (s.modCv i g3).commit = s.commit := rfl
@[simp] theorem State.modCv_tap : (s.modCv i g3).tap = s.tap := rfl
@[simp] theorem State.modCv_hoursSet : (s.modCv i g3).hoursSet = s.hoursSet := rfl
@[simp] theorem State.modCv_trendAt : (s.modCv i g3).trendAt = s.trendAt := rfl
@[simp] theorem State.modCv_trimAt : (s.modCv i g3).trimAt = s.trimAt := rfl
@[simp] theorem State.modCv_restored : (s.modCv i g3).restored = s.restored := rfl
@[simp] theorem State.modCv_plan : (s.modCv i g3).plan = s.plan := rfl
@[simp] theorem State.modCv_fld (f₁ : Field) : (s.modCv i g3).fld f₁ j = s.fld f₁ j := rfl
@[simp] theorem State.modCv_byte : (s.modCv i g3).byte j = s.byte j := rfl
@[simp] theorem State.modCv_eng : (s.modCv i g3).eng j = s.eng j := rfl
@[simp] theorem State.modCv_core : (s.modCv i g3).core j = s.core j := rfl
@[simp] theorem State.modCv_badBits : (s.modCv i g3).badBits j = s.badBits j := rfl
@[simp] theorem State.modCv_cv_self : (s.modCv i g3).cv i = g3 (s.cv i) := Tab.get_set_self _ _ _ _
theorem State.modCv_cv_ne (h : j ≠ i) : (s.modCv i g3).cv j = s.cv j := Tab.get_set_ne _ _ _ _ h

/-! ### modSys -/

@[simp] theorem State.modSys_regs : (s.modSys i g4).regs = s.regs := rfl
@[simp] theorem State.modSys_mem : (s.modSys i g4).mem = s.mem := rfl
@[simp] theorem State.modSys_errs : (s.modSys i g4).errs = s.errs := rfl
@[simp] theorem State.modSys_tb : (s.modSys i g4).tb = s.tb := rfl
@[simp] theorem State.modSys_now : (s.modSys i g4).now = s.now := rfl
@[simp] theorem State.modSys_cycle : (s.modSys i g4).cycle = s.cycle := rfl
@[simp] theorem State.modSys_engines : (s.modSys i g4).engines = s.engines := rfl
@[simp] theorem State.modSys_cores : (s.modSys i g4).cores = s.cores := rfl
@[simp] theorem State.modSys_heart : (s.modSys i g4).heart = s.heart := rfl
@[simp] theorem State.modSys_arb : (s.modSys i g4).arb = s.arb := rfl
@[simp] theorem State.modSys_passes : (s.modSys i g4).passes = s.passes := rfl
@[simp] theorem State.modSys_cvs : (s.modSys i g4).cvs = s.cvs := rfl
@[simp] theorem State.modSys_free : (s.modSys i g4).free = s.free := rfl
@[simp] theorem State.modSys_pending : (s.modSys i g4).pending = s.pending := rfl
@[simp] theorem State.modSys_heads : (s.modSys i g4).heads = s.heads := rfl
@[simp] theorem State.modSys_gridNext : (s.modSys i g4).gridNext = s.gridNext := rfl
@[simp] theorem State.modSys_latches : (s.modSys i g4).latches = s.latches := rfl
@[simp] theorem State.modSys_edges : (s.modSys i g4).edges = s.edges := rfl
@[simp] theorem State.modSys_dets : (s.modSys i g4).dets = s.dets := rfl
@[simp] theorem State.modSys_slices : (s.modSys i g4).slices = s.slices := rfl
@[simp] theorem State.modSys_badSlices : (s.modSys i g4).badSlices = s.badSlices := rfl
@[simp] theorem State.modSys_dip : (s.modSys i g4).dip = s.dip := rfl
@[simp] theorem State.modSys_tables : (s.modSys i g4).tables = s.tables := rfl
@[simp] theorem State.modSys_delivered : (s.modSys i g4).delivered = s.delivered := rfl
@[simp] theorem State.modSys_ports : (s.modSys i g4).ports = s.ports := rfl
@[simp] theorem State.modSys_agreements : (s.modSys i g4).agreements = s.agreements := rfl
@[simp] theorem State.modSys_agreed : (s.modSys i g4).agreed = s.agreed := rfl
@[simp] theorem State.modSys_locks : (s.modSys i g4).locks = s.locks := rfl
@[simp] theorem State.modSys_lockWait : (s.modSys i g4).lockWait = s.lockWait := rfl
@[simp] theorem State.modSys_cmds : (s.modSys i g4).cmds = s.cmds := rfl
@[simp] theorem State.modSys_fp : (s.modSys i g4).fp = s.fp := rfl
@[simp] theorem State.modSys_time : (s.modSys i g4).time = s.time := rfl
@[simp] theorem State.modSys_cycNext : (s.modSys i g4).cycNext = s.cycNext := rfl
@[simp] theorem State.modSys_rings : (s.modSys i g4).rings = s.rings := rfl
@[simp] theorem State.modSys_links : (s.modSys i g4).links = s.links := rfl
@[simp] theorem State.modSys_ready : (s.modSys i g4).ready = s.ready := rfl
@[simp] theorem State.modSys_frames : (s.modSys i g4).frames = s.frames := rfl
@[simp] theorem State.modSys_closes : (s.modSys i g4).closes = s.closes := rfl
@[simp] theorem State.modSys_rxq : (s.modSys i g4).rxq = s.rxq := rfl
@[simp] theorem State.modSys_rxHeld : (s.modSys i g4).rxHeld = s.rxHeld := rfl
@[simp] theorem State.modSys_lines : (s.modSys i g4).lines = s.lines := rfl
@[simp] theorem State.modSys_rxNext : (s.modSys i g4).rxNext = s.rxNext := rfl
@[simp] theorem State.modSys_logs : (s.modSys i g4).logs = s.logs := rfl
@[simp] theorem State.modSys_gmsgs : (s.modSys i g4).gmsgs = s.gmsgs := rfl
@[simp] theorem State.modSys_migs : (s.modSys i g4).migs = s.migs := rfl
@[simp] theorem State.modSys_graft : (s.modSys i g4).graft = s.graft := rfl
@[simp] theorem State.modSys_secs : (s.modSys i g4).secs = s.secs := rfl
@[simp] theorem State.modSys_pts : (s.modSys i g4).pts = s.pts := rfl
@[simp] theorem State.modSys_remotes : (s.modSys i g4).remotes = s.remotes := rfl
@[simp] theorem State.modSys_claims : (s.modSys i g4).claims = s.claims := rfl
@[simp] theorem State.modSys_txEvents : (s.modSys i g4).txEvents = s.txEvents := rfl
@[simp] theorem State.modSys_accum : (s.modSys i g4).accum = s.accum := rfl
@[simp] theorem State.modSys_evalRest : (s.modSys i g4).evalRest = s.evalRest := rfl
@[simp] theorem State.modSys_results : (s.modSys i g4).results = s.results := rfl
@[simp] theorem State.modSys_takens : (s.modSys i g4).takens = s.takens := rfl
@[simp] theorem State.modSys_steps : (s.modSys i g4).steps = s.steps := rfl
@[simp] theorem State.modSys_vos : (s.modSys i g4).vos = s.vos := rfl
@[simp] theorem State.modSys_pgs : (s.modSys i g4).pgs = s.pgs := rfl
@[simp] theorem State.modSys_phases : (s.modSys i g4).phases = s.phases := rfl
@[simp] theorem State.modSys_keeper : (s.modSys i g4).keeper = s.keeper := rfl
@[simp] theorem State.modSys_commit : (s.modSys i g4).commit = s.commit := rfl
@[simp] theorem State.modSys_tap : (s.modSys i g4).tap = s.tap := rfl
@[simp] theorem State.modSys_hoursSet : (s.modSys i g4).hoursSet = s.hoursSet := rfl
@[simp] theorem State.modSys_trendAt : (s.modSys i g4).trendAt = s.trendAt := rfl
@[simp] theorem State.modSys_trimAt : (s.modSys i g4).trimAt = s.trimAt := rfl
@[simp] theorem State.modSys_restored : (s.modSys i g4).restored = s.restored := rfl
@[simp] theorem State.modSys_plan : (s.modSys i g4).plan = s.plan := rfl
@[simp] theorem State.modSys_fld (f₁ : Field) : (s.modSys i g4).fld f₁ j = s.fld f₁ j := rfl
@[simp] theorem State.modSys_byte : (s.modSys i g4).byte j = s.byte j := rfl
@[simp] theorem State.modSys_eng : (s.modSys i g4).eng j = s.eng j := rfl
@[simp] theorem State.modSys_core : (s.modSys i g4).core j = s.core j := rfl
@[simp] theorem State.modSys_badBits : (s.modSys i g4).badBits j = s.badBits j := rfl
@[simp] theorem State.modSys_sys_self : (s.modSys i g4).sys i = g4 (s.sys i) := Tab.get_set_self _ _ _ _
theorem State.modSys_sys_ne (h : j ≠ i) : (s.modSys i g4).sys j = s.sys j := Tab.get_set_ne _ _ _ _ h

/-! ### modHead -/

@[simp] theorem State.modHead_regs : (s.modHead i g5).regs = s.regs := rfl
@[simp] theorem State.modHead_mem : (s.modHead i g5).mem = s.mem := rfl
@[simp] theorem State.modHead_errs : (s.modHead i g5).errs = s.errs := rfl
@[simp] theorem State.modHead_tb : (s.modHead i g5).tb = s.tb := rfl
@[simp] theorem State.modHead_now : (s.modHead i g5).now = s.now := rfl
@[simp] theorem State.modHead_cycle : (s.modHead i g5).cycle = s.cycle := rfl
@[simp] theorem State.modHead_engines : (s.modHead i g5).engines = s.engines := rfl
@[simp] theorem State.modHead_cores : (s.modHead i g5).cores = s.cores := rfl
@[simp] theorem State.modHead_heart : (s.modHead i g5).heart = s.heart := rfl
@[simp] theorem State.modHead_arb : (s.modHead i g5).arb = s.arb := rfl
@[simp] theorem State.modHead_passes : (s.modHead i g5).passes = s.passes := rfl
@[simp] theorem State.modHead_cvs : (s.modHead i g5).cvs = s.cvs := rfl
@[simp] theorem State.modHead_free : (s.modHead i g5).free = s.free := rfl
@[simp] theorem State.modHead_pending : (s.modHead i g5).pending = s.pending := rfl
@[simp] theorem State.modHead_systems : (s.modHead i g5).systems = s.systems := rfl
@[simp] theorem State.modHead_gridNext : (s.modHead i g5).gridNext = s.gridNext := rfl
@[simp] theorem State.modHead_latches : (s.modHead i g5).latches = s.latches := rfl
@[simp] theorem State.modHead_edges : (s.modHead i g5).edges = s.edges := rfl
@[simp] theorem State.modHead_dets : (s.modHead i g5).dets = s.dets := rfl
@[simp] theorem State.modHead_slices : (s.modHead i g5).slices = s.slices := rfl
@[simp] theorem State.modHead_badSlices : (s.modHead i g5).badSlices = s.badSlices := rfl
@[simp] theorem State.modHead_dip : (s.modHead i g5).dip = s.dip := rfl
@[simp] theorem State.modHead_tables : (s.modHead i g5).tables = s.tables := rfl
@[simp] theorem State.modHead_delivered : (s.modHead i g5).delivered = s.delivered := rfl
@[simp] theorem State.modHead_ports : (s.modHead i g5).ports = s.ports := rfl
@[simp] theorem State.modHead_agreements : (s.modHead i g5).agreements = s.agreements := rfl
@[simp] theorem State.modHead_agreed : (s.modHead i g5).agreed = s.agreed := rfl
@[simp] theorem State.modHead_locks : (s.modHead i g5).locks = s.locks := rfl
@[simp] theorem State.modHead_lockWait : (s.modHead i g5).lockWait = s.lockWait := rfl
@[simp] theorem State.modHead_cmds : (s.modHead i g5).cmds = s.cmds := rfl
@[simp] theorem State.modHead_fp : (s.modHead i g5).fp = s.fp := rfl
@[simp] theorem State.modHead_time : (s.modHead i g5).time = s.time := rfl
@[simp] theorem State.modHead_cycNext : (s.modHead i g5).cycNext = s.cycNext := rfl
@[simp] theorem State.modHead_rings : (s.modHead i g5).rings = s.rings := rfl
@[simp] theorem State.modHead_links : (s.modHead i g5).links = s.links := rfl
@[simp] theorem State.modHead_ready : (s.modHead i g5).ready = s.ready := rfl
@[simp] theorem State.modHead_frames : (s.modHead i g5).frames = s.frames := rfl
@[simp] theorem State.modHead_closes : (s.modHead i g5).closes = s.closes := rfl
@[simp] theorem State.modHead_rxq : (s.modHead i g5).rxq = s.rxq := rfl
@[simp] theorem State.modHead_rxHeld : (s.modHead i g5).rxHeld = s.rxHeld := rfl
@[simp] theorem State.modHead_lines : (s.modHead i g5).lines = s.lines := rfl
@[simp] theorem State.modHead_rxNext : (s.modHead i g5).rxNext = s.rxNext := rfl
@[simp] theorem State.modHead_logs : (s.modHead i g5).logs = s.logs := rfl
@[simp] theorem State.modHead_gmsgs : (s.modHead i g5).gmsgs = s.gmsgs := rfl
@[simp] theorem State.modHead_migs : (s.modHead i g5).migs = s.migs := rfl
@[simp] theorem State.modHead_graft : (s.modHead i g5).graft = s.graft := rfl
@[simp] theorem State.modHead_secs : (s.modHead i g5).secs = s.secs := rfl
@[simp] theorem State.modHead_pts : (s.modHead i g5).pts = s.pts := rfl
@[simp] theorem State.modHead_remotes : (s.modHead i g5).remotes = s.remotes := rfl
@[simp] theorem State.modHead_claims : (s.modHead i g5).claims = s.claims := rfl
@[simp] theorem State.modHead_txEvents : (s.modHead i g5).txEvents = s.txEvents := rfl
@[simp] theorem State.modHead_accum : (s.modHead i g5).accum = s.accum := rfl
@[simp] theorem State.modHead_evalRest : (s.modHead i g5).evalRest = s.evalRest := rfl
@[simp] theorem State.modHead_results : (s.modHead i g5).results = s.results := rfl
@[simp] theorem State.modHead_takens : (s.modHead i g5).takens = s.takens := rfl
@[simp] theorem State.modHead_steps : (s.modHead i g5).steps = s.steps := rfl
@[simp] theorem State.modHead_vos : (s.modHead i g5).vos = s.vos := rfl
@[simp] theorem State.modHead_pgs : (s.modHead i g5).pgs = s.pgs := rfl
@[simp] theorem State.modHead_phases : (s.modHead i g5).phases = s.phases := rfl
@[simp] theorem State.modHead_keeper : (s.modHead i g5).keeper = s.keeper := rfl
@[simp] theorem State.modHead_commit : (s.modHead i g5).commit = s.commit := rfl
@[simp] theorem State.modHead_tap : (s.modHead i g5).tap = s.tap := rfl
@[simp] theorem State.modHead_hoursSet : (s.modHead i g5).hoursSet = s.hoursSet := rfl
@[simp] theorem State.modHead_trendAt : (s.modHead i g5).trendAt = s.trendAt := rfl
@[simp] theorem State.modHead_trimAt : (s.modHead i g5).trimAt = s.trimAt := rfl
@[simp] theorem State.modHead_restored : (s.modHead i g5).restored = s.restored := rfl
@[simp] theorem State.modHead_plan : (s.modHead i g5).plan = s.plan := rfl
@[simp] theorem State.modHead_fld (f₁ : Field) : (s.modHead i g5).fld f₁ j = s.fld f₁ j := rfl
@[simp] theorem State.modHead_byte : (s.modHead i g5).byte j = s.byte j := rfl
@[simp] theorem State.modHead_eng : (s.modHead i g5).eng j = s.eng j := rfl
@[simp] theorem State.modHead_core : (s.modHead i g5).core j = s.core j := rfl
@[simp] theorem State.modHead_badBits : (s.modHead i g5).badBits j = s.badBits j := rfl
@[simp] theorem State.modHead_head_self : (s.modHead i g5).head i = g5 (s.head i) := Tab.get_set_self _ _ _ _
theorem State.modHead_head_ne (h : j ≠ i) : (s.modHead i g5).head j = s.head j := Tab.get_set_ne _ _ _ _ h

/-! ### setEdgeFifo -/

@[simp] theorem State.setEdgeFifo_regs : (s.setEdgeFifo i l).regs = s.regs := rfl
@[simp] theorem State.setEdgeFifo_mem : (s.setEdgeFifo i l).mem = s.mem := rfl
@[simp] theorem State.setEdgeFifo_errs : (s.setEdgeFifo i l).errs = s.errs := rfl
@[simp] theorem State.setEdgeFifo_tb : (s.setEdgeFifo i l).tb = s.tb := rfl
@[simp] theorem State.setEdgeFifo_now : (s.setEdgeFifo i l).now = s.now := rfl
@[simp] theorem State.setEdgeFifo_cycle : (s.setEdgeFifo i l).cycle = s.cycle := rfl
@[simp] theorem State.setEdgeFifo_engines : (s.setEdgeFifo i l).engines = s.engines := rfl
@[simp] theorem State.setEdgeFifo_cores : (s.setEdgeFifo i l).cores = s.cores := rfl
@[simp] theorem State.setEdgeFifo_heart : (s.setEdgeFifo i l).heart = s.heart := rfl
@[simp] theorem State.setEdgeFifo_arb : (s.setEdgeFifo i l).arb = s.arb := rfl
@[simp] theorem State.setEdgeFifo_passes : (s.setEdgeFifo i l).passes = s.passes := rfl
@[simp] theorem State.setEdgeFifo_cvs : (s.setEdgeFifo i l).cvs = s.cvs := rfl
@[simp] theorem State.setEdgeFifo_free : (s.setEdgeFifo i l).free = s.free := rfl
@[simp] theorem State.setEdgeFifo_pending : (s.setEdgeFifo i l).pending = s.pending := rfl
@[simp] theorem State.setEdgeFifo_systems : (s.setEdgeFifo i l).systems = s.systems := rfl
@[simp] theorem State.setEdgeFifo_heads : (s.setEdgeFifo i l).heads = s.heads := rfl
@[simp] theorem State.setEdgeFifo_gridNext : (s.setEdgeFifo i l).gridNext = s.gridNext := rfl
@[simp] theorem State.setEdgeFifo_latches : (s.setEdgeFifo i l).latches = s.latches := rfl
@[simp] theorem State.setEdgeFifo_dets : (s.setEdgeFifo i l).dets = s.dets := rfl
@[simp] theorem State.setEdgeFifo_slices : (s.setEdgeFifo i l).slices = s.slices := rfl
@[simp] theorem State.setEdgeFifo_badSlices : (s.setEdgeFifo i l).badSlices = s.badSlices := rfl
@[simp] theorem State.setEdgeFifo_dip : (s.setEdgeFifo i l).dip = s.dip := rfl
@[simp] theorem State.setEdgeFifo_tables : (s.setEdgeFifo i l).tables = s.tables := rfl
@[simp] theorem State.setEdgeFifo_delivered : (s.setEdgeFifo i l).delivered = s.delivered := rfl
@[simp] theorem State.setEdgeFifo_ports : (s.setEdgeFifo i l).ports = s.ports := rfl
@[simp] theorem State.setEdgeFifo_agreements : (s.setEdgeFifo i l).agreements = s.agreements := rfl
@[simp] theorem State.setEdgeFifo_agreed : (s.setEdgeFifo i l).agreed = s.agreed := rfl
@[simp] theorem State.setEdgeFifo_locks : (s.setEdgeFifo i l).locks = s.locks := rfl
@[simp] theorem State.setEdgeFifo_lockWait : (s.setEdgeFifo i l).lockWait = s.lockWait := rfl
@[simp] theorem State.setEdgeFifo_cmds : (s.setEdgeFifo i l).cmds = s.cmds := rfl
@[simp] theorem State.setEdgeFifo_fp : (s.setEdgeFifo i l).fp = s.fp := rfl
@[simp] theorem State.setEdgeFifo_time : (s.setEdgeFifo i l).time = s.time := rfl
@[simp] theorem State.setEdgeFifo_cycNext : (s.setEdgeFifo i l).cycNext = s.cycNext := rfl
@[simp] theorem State.setEdgeFifo_rings : (s.setEdgeFifo i l).rings = s.rings := rfl
@[simp] theorem State.setEdgeFifo_links : (s.setEdgeFifo i l).links = s.links := rfl
@[simp] theorem State.setEdgeFifo_ready : (s.setEdgeFifo i l).ready = s.ready := rfl
@[simp] theorem State.setEdgeFifo_frames : (s.setEdgeFifo i l).frames = s.frames := rfl
@[simp] theorem State.setEdgeFifo_closes : (s.setEdgeFifo i l).closes = s.closes := rfl
@[simp] theorem State.setEdgeFifo_rxq : (s.setEdgeFifo i l).rxq = s.rxq := rfl
@[simp] theorem State.setEdgeFifo_rxHeld : (s.setEdgeFifo i l).rxHeld = s.rxHeld := rfl
@[simp] theorem State.setEdgeFifo_lines : (s.setEdgeFifo i l).lines = s.lines := rfl
@[simp] theorem State.setEdgeFifo_rxNext : (s.setEdgeFifo i l).rxNext = s.rxNext := rfl
@[simp] theorem State.setEdgeFifo_logs : (s.setEdgeFifo i l).logs = s.logs := rfl
@[simp] theorem State.setEdgeFifo_gmsgs : (s.setEdgeFifo i l).gmsgs = s.gmsgs := rfl
@[simp] theorem State.setEdgeFifo_migs : (s.setEdgeFifo i l).migs = s.migs := rfl
@[simp] theorem State.setEdgeFifo_graft : (s.setEdgeFifo i l).graft = s.graft := rfl
@[simp] theorem State.setEdgeFifo_secs : (s.setEdgeFifo i l).secs = s.secs := rfl
@[simp] theorem State.setEdgeFifo_pts : (s.setEdgeFifo i l).pts = s.pts := rfl
@[simp] theorem State.setEdgeFifo_remotes : (s.setEdgeFifo i l).remotes = s.remotes := rfl
@[simp] theorem State.setEdgeFifo_claims : (s.setEdgeFifo i l).claims = s.claims := rfl
@[simp] theorem State.setEdgeFifo_txEvents : (s.setEdgeFifo i l).txEvents = s.txEvents := rfl
@[simp] theorem State.setEdgeFifo_accum : (s.setEdgeFifo i l).accum = s.accum := rfl
@[simp] theorem State.setEdgeFifo_evalRest : (s.setEdgeFifo i l).evalRest = s.evalRest := rfl
@[simp] theorem State.setEdgeFifo_results : (s.setEdgeFifo i l).results = s.results := rfl
@[simp] theorem State.setEdgeFifo_takens : (s.setEdgeFifo i l).takens = s.takens := rfl
@[simp] theorem State.setEdgeFifo_steps : (s.setEdgeFifo i l).steps = s.steps := rfl
@[simp] theorem State.setEdgeFifo_vos : (s.setEdgeFifo i l).vos = s.vos := rfl
@[simp] theorem State.setEdgeFifo_pgs : (s.setEdgeFifo i l).pgs = s.pgs := rfl
@[simp] theorem State.setEdgeFifo_phases : (s.setEdgeFifo i l).phases = s.phases := rfl
@[simp] theorem State.setEdgeFifo_keeper : (s.setEdgeFifo i l).keeper = s.keeper := rfl
@[simp] theorem State.setEdgeFifo_commit : (s.setEdgeFifo i l).commit = s.commit := rfl
@[simp] theorem State.setEdgeFifo_tap : (s.setEdgeFifo i l).tap = s.tap := rfl
@[simp] theorem State.setEdgeFifo_hoursSet : (s.setEdgeFifo i l).hoursSet = s.hoursSet := rfl
@[simp] theorem State.setEdgeFifo_trendAt : (s.setEdgeFifo i l).trendAt = s.trendAt := rfl
@[simp] theorem State.setEdgeFifo_trimAt : (s.setEdgeFifo i l).trimAt = s.trimAt := rfl
@[simp] theorem State.setEdgeFifo_restored : (s.setEdgeFifo i l).restored = s.restored := rfl
@[simp] theorem State.setEdgeFifo_plan : (s.setEdgeFifo i l).plan = s.plan := rfl
@[simp] theorem State.setEdgeFifo_fld (f₁ : Field) : (s.setEdgeFifo i l).fld f₁ j = s.fld f₁ j := rfl
@[simp] theorem State.setEdgeFifo_byte : (s.setEdgeFifo i l).byte j = s.byte j := rfl
@[simp] theorem State.setEdgeFifo_eng : (s.setEdgeFifo i l).eng j = s.eng j := rfl
@[simp] theorem State.setEdgeFifo_core : (s.setEdgeFifo i l).core j = s.core j := rfl
@[simp] theorem State.setEdgeFifo_badBits : (s.setEdgeFifo i l).badBits j = s.badBits j := rfl

/-! ### setLatchWord -/

@[simp] theorem State.setLatchWord_regs : (s.setLatchWord i v o).regs = s.regs := rfl
@[simp] theorem State.setLatchWord_mem : (s.setLatchWord i v o).mem = s.mem := rfl
@[simp] theorem State.setLatchWord_errs : (s.setLatchWord i v o).errs = s.errs := rfl
@[simp] theorem State.setLatchWord_tb : (s.setLatchWord i v o).tb = s.tb := rfl
@[simp] theorem State.setLatchWord_now : (s.setLatchWord i v o).now = s.now := rfl
@[simp] theorem State.setLatchWord_cycle : (s.setLatchWord i v o).cycle = s.cycle := rfl
@[simp] theorem State.setLatchWord_engines : (s.setLatchWord i v o).engines = s.engines := rfl
@[simp] theorem State.setLatchWord_cores : (s.setLatchWord i v o).cores = s.cores := rfl
@[simp] theorem State.setLatchWord_heart : (s.setLatchWord i v o).heart = s.heart := rfl
@[simp] theorem State.setLatchWord_arb : (s.setLatchWord i v o).arb = s.arb := rfl
@[simp] theorem State.setLatchWord_passes : (s.setLatchWord i v o).passes = s.passes := rfl
@[simp] theorem State.setLatchWord_cvs : (s.setLatchWord i v o).cvs = s.cvs := rfl
@[simp] theorem State.setLatchWord_free : (s.setLatchWord i v o).free = s.free := rfl
@[simp] theorem State.setLatchWord_pending : (s.setLatchWord i v o).pending = s.pending := rfl
@[simp] theorem State.setLatchWord_systems : (s.setLatchWord i v o).systems = s.systems := rfl
@[simp] theorem State.setLatchWord_heads : (s.setLatchWord i v o).heads = s.heads := rfl
@[simp] theorem State.setLatchWord_gridNext : (s.setLatchWord i v o).gridNext = s.gridNext := rfl
@[simp] theorem State.setLatchWord_edges : (s.setLatchWord i v o).edges = s.edges := rfl
@[simp] theorem State.setLatchWord_dets : (s.setLatchWord i v o).dets = s.dets := rfl
@[simp] theorem State.setLatchWord_slices : (s.setLatchWord i v o).slices = s.slices := rfl
@[simp] theorem State.setLatchWord_badSlices : (s.setLatchWord i v o).badSlices = s.badSlices := rfl
@[simp] theorem State.setLatchWord_dip : (s.setLatchWord i v o).dip = s.dip := rfl
@[simp] theorem State.setLatchWord_tables : (s.setLatchWord i v o).tables = s.tables := rfl
@[simp] theorem State.setLatchWord_delivered : (s.setLatchWord i v o).delivered = s.delivered := rfl
@[simp] theorem State.setLatchWord_ports : (s.setLatchWord i v o).ports = s.ports := rfl
@[simp] theorem State.setLatchWord_agreements : (s.setLatchWord i v o).agreements = s.agreements := rfl
@[simp] theorem State.setLatchWord_agreed : (s.setLatchWord i v o).agreed = s.agreed := rfl
@[simp] theorem State.setLatchWord_locks : (s.setLatchWord i v o).locks = s.locks := rfl
@[simp] theorem State.setLatchWord_lockWait : (s.setLatchWord i v o).lockWait = s.lockWait := rfl
@[simp] theorem State.setLatchWord_cmds : (s.setLatchWord i v o).cmds = s.cmds := rfl
@[simp] theorem State.setLatchWord_fp : (s.setLatchWord i v o).fp = s.fp := rfl
@[simp] theorem State.setLatchWord_time : (s.setLatchWord i v o).time = s.time := rfl
@[simp] theorem State.setLatchWord_cycNext : (s.setLatchWord i v o).cycNext = s.cycNext := rfl
@[simp] theorem State.setLatchWord_rings : (s.setLatchWord i v o).rings = s.rings := rfl
@[simp] theorem State.setLatchWord_links : (s.setLatchWord i v o).links = s.links := rfl
@[simp] theorem State.setLatchWord_ready : (s.setLatchWord i v o).ready = s.ready := rfl
@[simp] theorem State.setLatchWord_frames : (s.setLatchWord i v o).frames = s.frames := rfl
@[simp] theorem State.setLatchWord_closes : (s.setLatchWord i v o).closes = s.closes := rfl
@[simp] theorem State.setLatchWord_rxq : (s.setLatchWord i v o).rxq = s.rxq := rfl
@[simp] theorem State.setLatchWord_rxHeld : (s.setLatchWord i v o).rxHeld = s.rxHeld := rfl
@[simp] theorem State.setLatchWord_lines : (s.setLatchWord i v o).lines = s.lines := rfl
@[simp] theorem State.setLatchWord_rxNext : (s.setLatchWord i v o).rxNext = s.rxNext := rfl
@[simp] theorem State.setLatchWord_logs : (s.setLatchWord i v o).logs = s.logs := rfl
@[simp] theorem State.setLatchWord_gmsgs : (s.setLatchWord i v o).gmsgs = s.gmsgs := rfl
@[simp] theorem State.setLatchWord_migs : (s.setLatchWord i v o).migs = s.migs := rfl
@[simp] theorem State.setLatchWord_graft : (s.setLatchWord i v o).graft = s.graft := rfl
@[simp] theorem State.setLatchWord_secs : (s.setLatchWord i v o).secs = s.secs := rfl
@[simp] theorem State.setLatchWord_pts : (s.setLatchWord i v o).pts = s.pts := rfl
@[simp] theorem State.setLatchWord_remotes : (s.setLatchWord i v o).remotes = s.remotes := rfl
@[simp] theorem State.setLatchWord_claims : (s.setLatchWord i v o).claims = s.claims := rfl
@[simp] theorem State.setLatchWord_txEvents : (s.setLatchWord i v o).txEvents = s.txEvents := rfl
@[simp] theorem State.setLatchWord_accum : (s.setLatchWord i v o).accum = s.accum := rfl
@[simp] theorem State.setLatchWord_evalRest : (s.setLatchWord i v o).evalRest = s.evalRest := rfl
@[simp] theorem State.setLatchWord_results : (s.setLatchWord i v o).results = s.results := rfl
@[simp] theorem State.setLatchWord_takens : (s.setLatchWord i v o).takens = s.takens := rfl
@[simp] theorem State.setLatchWord_steps : (s.setLatchWord i v o).steps = s.steps := rfl
@[simp] theorem State.setLatchWord_vos : (s.setLatchWord i v o).vos = s.vos := rfl
@[simp] theorem State.setLatchWord_pgs : (s.setLatchWord i v o).pgs = s.pgs := rfl
@[simp] theorem State.setLatchWord_phases : (s.setLatchWord i v o).phases = s.phases := rfl
@[simp] theorem State.setLatchWord_keeper : (s.setLatchWord i v o).keeper = s.keeper := rfl
@[simp] theorem State.setLatchWord_commit : (s.setLatchWord i v o).commit = s.commit := rfl
@[simp] theorem State.setLatchWord_tap : (s.setLatchWord i v o).tap = s.tap := rfl
@[simp] theorem State.setLatchWord_hoursSet : (s.setLatchWord i v o).hoursSet = s.hoursSet := rfl
@[simp] theorem State.setLatchWord_trendAt : (s.setLatchWord i v o).trendAt = s.trendAt := rfl
@[simp] theorem State.setLatchWord_trimAt : (s.setLatchWord i v o).trimAt = s.trimAt := rfl
@[simp] theorem State.setLatchWord_restored : (s.setLatchWord i v o).restored = s.restored := rfl
@[simp] theorem State.setLatchWord_plan : (s.setLatchWord i v o).plan = s.plan := rfl
@[simp] theorem State.setLatchWord_fld (f₁ : Field) : (s.setLatchWord i v o).fld f₁ j = s.fld f₁ j := rfl
@[simp] theorem State.setLatchWord_byte : (s.setLatchWord i v o).byte j = s.byte j := rfl
@[simp] theorem State.setLatchWord_eng : (s.setLatchWord i v o).eng j = s.eng j := rfl
@[simp] theorem State.setLatchWord_core : (s.setLatchWord i v o).core j = s.core j := rfl
@[simp] theorem State.setLatchWord_badBits : (s.setLatchWord i v o).badBits j = s.badBits j := rfl

/-! ### modKeeper -/

@[simp] theorem State.modKeeper_regs : (s.modKeeper g6).regs = s.regs := rfl
@[simp] theorem State.modKeeper_mem : (s.modKeeper g6).mem = s.mem := rfl
@[simp] theorem State.modKeeper_errs : (s.modKeeper g6).errs = s.errs := rfl
@[simp] theorem State.modKeeper_tb : (s.modKeeper g6).tb = s.tb := rfl
@[simp] theorem State.modKeeper_now : (s.modKeeper g6).now = s.now := rfl
@[simp] theorem State.modKeeper_cycle : (s.modKeeper g6).cycle = s.cycle := rfl
@[simp] theorem State.modKeeper_engines : (s.modKeeper g6).engines = s.engines := rfl
@[simp] theorem State.modKeeper_cores : (s.modKeeper g6).cores = s.cores := rfl
@[simp] theorem State.modKeeper_heart : (s.modKeeper g6).heart = s.heart := rfl
@[simp] theorem State.modKeeper_arb : (s.modKeeper g6).arb = s.arb := rfl
@[simp] theorem State.modKeeper_passes : (s.modKeeper g6).passes = s.passes := rfl
@[simp] theorem State.modKeeper_cvs : (s.modKeeper g6).cvs = s.cvs := rfl
@[simp] theorem State.modKeeper_free : (s.modKeeper g6).free = s.free := rfl
@[simp] theorem State.modKeeper_pending : (s.modKeeper g6).pending = s.pending := rfl
@[simp] theorem State.modKeeper_systems : (s.modKeeper g6).systems = s.systems := rfl
@[simp] theorem State.modKeeper_heads : (s.modKeeper g6).heads = s.heads := rfl
@[simp] theorem State.modKeeper_gridNext : (s.modKeeper g6).gridNext = s.gridNext := rfl
@[simp] theorem State.modKeeper_latches : (s.modKeeper g6).latches = s.latches := rfl
@[simp] theorem State.modKeeper_edges : (s.modKeeper g6).edges = s.edges := rfl
@[simp] theorem State.modKeeper_dets : (s.modKeeper g6).dets = s.dets := rfl
@[simp] theorem State.modKeeper_slices : (s.modKeeper g6).slices = s.slices := rfl
@[simp] theorem State.modKeeper_badSlices : (s.modKeeper g6).badSlices = s.badSlices := rfl
@[simp] theorem State.modKeeper_dip : (s.modKeeper g6).dip = s.dip := rfl
@[simp] theorem State.modKeeper_tables : (s.modKeeper g6).tables = s.tables := rfl
@[simp] theorem State.modKeeper_delivered : (s.modKeeper g6).delivered = s.delivered := rfl
@[simp] theorem State.modKeeper_ports : (s.modKeeper g6).ports = s.ports := rfl
@[simp] theorem State.modKeeper_agreements : (s.modKeeper g6).agreements = s.agreements := rfl
@[simp] theorem State.modKeeper_agreed : (s.modKeeper g6).agreed = s.agreed := rfl
@[simp] theorem State.modKeeper_locks : (s.modKeeper g6).locks = s.locks := rfl
@[simp] theorem State.modKeeper_lockWait : (s.modKeeper g6).lockWait = s.lockWait := rfl
@[simp] theorem State.modKeeper_cmds : (s.modKeeper g6).cmds = s.cmds := rfl
@[simp] theorem State.modKeeper_fp : (s.modKeeper g6).fp = s.fp := rfl
@[simp] theorem State.modKeeper_time : (s.modKeeper g6).time = s.time := rfl
@[simp] theorem State.modKeeper_cycNext : (s.modKeeper g6).cycNext = s.cycNext := rfl
@[simp] theorem State.modKeeper_rings : (s.modKeeper g6).rings = s.rings := rfl
@[simp] theorem State.modKeeper_links : (s.modKeeper g6).links = s.links := rfl
@[simp] theorem State.modKeeper_ready : (s.modKeeper g6).ready = s.ready := rfl
@[simp] theorem State.modKeeper_frames : (s.modKeeper g6).frames = s.frames := rfl
@[simp] theorem State.modKeeper_closes : (s.modKeeper g6).closes = s.closes := rfl
@[simp] theorem State.modKeeper_rxq : (s.modKeeper g6).rxq = s.rxq := rfl
@[simp] theorem State.modKeeper_rxHeld : (s.modKeeper g6).rxHeld = s.rxHeld := rfl
@[simp] theorem State.modKeeper_lines : (s.modKeeper g6).lines = s.lines := rfl
@[simp] theorem State.modKeeper_rxNext : (s.modKeeper g6).rxNext = s.rxNext := rfl
@[simp] theorem State.modKeeper_logs : (s.modKeeper g6).logs = s.logs := rfl
@[simp] theorem State.modKeeper_gmsgs : (s.modKeeper g6).gmsgs = s.gmsgs := rfl
@[simp] theorem State.modKeeper_migs : (s.modKeeper g6).migs = s.migs := rfl
@[simp] theorem State.modKeeper_graft : (s.modKeeper g6).graft = s.graft := rfl
@[simp] theorem State.modKeeper_secs : (s.modKeeper g6).secs = s.secs := rfl
@[simp] theorem State.modKeeper_pts : (s.modKeeper g6).pts = s.pts := rfl
@[simp] theorem State.modKeeper_remotes : (s.modKeeper g6).remotes = s.remotes := rfl
@[simp] theorem State.modKeeper_claims : (s.modKeeper g6).claims = s.claims := rfl
@[simp] theorem State.modKeeper_txEvents : (s.modKeeper g6).txEvents = s.txEvents := rfl
@[simp] theorem State.modKeeper_accum : (s.modKeeper g6).accum = s.accum := rfl
@[simp] theorem State.modKeeper_evalRest : (s.modKeeper g6).evalRest = s.evalRest := rfl
@[simp] theorem State.modKeeper_results : (s.modKeeper g6).results = s.results := rfl
@[simp] theorem State.modKeeper_takens : (s.modKeeper g6).takens = s.takens := rfl
@[simp] theorem State.modKeeper_steps : (s.modKeeper g6).steps = s.steps := rfl
@[simp] theorem State.modKeeper_vos : (s.modKeeper g6).vos = s.vos := rfl
@[simp] theorem State.modKeeper_pgs : (s.modKeeper g6).pgs = s.pgs := rfl
@[simp] theorem State.modKeeper_phases : (s.modKeeper g6).phases = s.phases := rfl
@[simp] theorem State.modKeeper_commit : (s.modKeeper g6).commit = s.commit := rfl
@[simp] theorem State.modKeeper_tap : (s.modKeeper g6).tap = s.tap := rfl
@[simp] theorem State.modKeeper_hoursSet : (s.modKeeper g6).hoursSet = s.hoursSet := rfl
@[simp] theorem State.modKeeper_trendAt : (s.modKeeper g6).trendAt = s.trendAt := rfl
@[simp] theorem State.modKeeper_trimAt : (s.modKeeper g6).trimAt = s.trimAt := rfl
@[simp] theorem State.modKeeper_restored : (s.modKeeper g6).restored = s.restored := rfl
@[simp] theorem State.modKeeper_plan : (s.modKeeper g6).plan = s.plan := rfl
@[simp] theorem State.modKeeper_fld (f₁ : Field) : (s.modKeeper g6).fld f₁ j = s.fld f₁ j := rfl
@[simp] theorem State.modKeeper_byte : (s.modKeeper g6).byte j = s.byte j := rfl
@[simp] theorem State.modKeeper_eng : (s.modKeeper g6).eng j = s.eng j := rfl
@[simp] theorem State.modKeeper_core : (s.modKeeper g6).core j = s.core j := rfl
@[simp] theorem State.modKeeper_badBits : (s.modKeeper g6).badBits j = s.badBits j := rfl
@[simp] theorem State.modKeeper_keeper : (s.modKeeper g6).keeper = g6 s.keeper := rfl

/-! ### modPg -/

@[simp] theorem State.modPg_regs : (s.modPg i g7).regs = s.regs := rfl
@[simp] theorem State.modPg_mem : (s.modPg i g7).mem = s.mem := rfl
@[simp] theorem State.modPg_errs : (s.modPg i g7).errs = s.errs := rfl
@[simp] theorem State.modPg_tb : (s.modPg i g7).tb = s.tb := rfl
@[simp] theorem State.modPg_now : (s.modPg i g7).now = s.now := rfl
@[simp] theorem State.modPg_cycle : (s.modPg i g7).cycle = s.cycle := rfl
@[simp] theorem State.modPg_engines : (s.modPg i g7).engines = s.engines := rfl
@[simp] theorem State.modPg_cores : (s.modPg i g7).cores = s.cores := rfl
@[simp] theorem State.modPg_heart : (s.modPg i g7).heart = s.heart := rfl
@[simp] theorem State.modPg_arb : (s.modPg i g7).arb = s.arb := rfl
@[simp] theorem State.modPg_passes : (s.modPg i g7).passes = s.passes := rfl
@[simp] theorem State.modPg_cvs : (s.modPg i g7).cvs = s.cvs := rfl
@[simp] theorem State.modPg_free : (s.modPg i g7).free = s.free := rfl
@[simp] theorem State.modPg_pending : (s.modPg i g7).pending = s.pending := rfl
@[simp] theorem State.modPg_systems : (s.modPg i g7).systems = s.systems := rfl
@[simp] theorem State.modPg_heads : (s.modPg i g7).heads = s.heads := rfl
@[simp] theorem State.modPg_gridNext : (s.modPg i g7).gridNext = s.gridNext := rfl
@[simp] theorem State.modPg_latches : (s.modPg i g7).latches = s.latches := rfl
@[simp] theorem State.modPg_edges : (s.modPg i g7).edges = s.edges := rfl
@[simp] theorem State.modPg_dets : (s.modPg i g7).dets = s.dets := rfl
@[simp] theorem State.modPg_slices : (s.modPg i g7).slices = s.slices := rfl
@[simp] theorem State.modPg_badSlices : (s.modPg i g7).badSlices = s.badSlices := rfl
@[simp] theorem State.modPg_dip : (s.modPg i g7).dip = s.dip := rfl
@[simp] theorem State.modPg_tables : (s.modPg i g7).tables = s.tables := rfl
@[simp] theorem State.modPg_delivered : (s.modPg i g7).delivered = s.delivered := rfl
@[simp] theorem State.modPg_ports : (s.modPg i g7).ports = s.ports := rfl
@[simp] theorem State.modPg_agreements : (s.modPg i g7).agreements = s.agreements := rfl
@[simp] theorem State.modPg_agreed : (s.modPg i g7).agreed = s.agreed := rfl
@[simp] theorem State.modPg_locks : (s.modPg i g7).locks = s.locks := rfl
@[simp] theorem State.modPg_lockWait : (s.modPg i g7).lockWait = s.lockWait := rfl
@[simp] theorem State.modPg_cmds : (s.modPg i g7).cmds = s.cmds := rfl
@[simp] theorem State.modPg_fp : (s.modPg i g7).fp = s.fp := rfl
@[simp] theorem State.modPg_time : (s.modPg i g7).time = s.time := rfl
@[simp] theorem State.modPg_cycNext : (s.modPg i g7).cycNext = s.cycNext := rfl
@[simp] theorem State.modPg_rings : (s.modPg i g7).rings = s.rings := rfl
@[simp] theorem State.modPg_links : (s.modPg i g7).links = s.links := rfl
@[simp] theorem State.modPg_ready : (s.modPg i g7).ready = s.ready := rfl
@[simp] theorem State.modPg_frames : (s.modPg i g7).frames = s.frames := rfl
@[simp] theorem State.modPg_closes : (s.modPg i g7).closes = s.closes := rfl
@[simp] theorem State.modPg_rxq : (s.modPg i g7).rxq = s.rxq := rfl
@[simp] theorem State.modPg_rxHeld : (s.modPg i g7).rxHeld = s.rxHeld := rfl
@[simp] theorem State.modPg_lines : (s.modPg i g7).lines = s.lines := rfl
@[simp] theorem State.modPg_rxNext : (s.modPg i g7).rxNext = s.rxNext := rfl
@[simp] theorem State.modPg_logs : (s.modPg i g7).logs = s.logs := rfl
@[simp] theorem State.modPg_gmsgs : (s.modPg i g7).gmsgs = s.gmsgs := rfl
@[simp] theorem State.modPg_migs : (s.modPg i g7).migs = s.migs := rfl
@[simp] theorem State.modPg_graft : (s.modPg i g7).graft = s.graft := rfl
@[simp] theorem State.modPg_secs : (s.modPg i g7).secs = s.secs := rfl
@[simp] theorem State.modPg_pts : (s.modPg i g7).pts = s.pts := rfl
@[simp] theorem State.modPg_remotes : (s.modPg i g7).remotes = s.remotes := rfl
@[simp] theorem State.modPg_claims : (s.modPg i g7).claims = s.claims := rfl
@[simp] theorem State.modPg_txEvents : (s.modPg i g7).txEvents = s.txEvents := rfl
@[simp] theorem State.modPg_accum : (s.modPg i g7).accum = s.accum := rfl
@[simp] theorem State.modPg_evalRest : (s.modPg i g7).evalRest = s.evalRest := rfl
@[simp] theorem State.modPg_results : (s.modPg i g7).results = s.results := rfl
@[simp] theorem State.modPg_takens : (s.modPg i g7).takens = s.takens := rfl
@[simp] theorem State.modPg_steps : (s.modPg i g7).steps = s.steps := rfl
@[simp] theorem State.modPg_vos : (s.modPg i g7).vos = s.vos := rfl
@[simp] theorem State.modPg_phases : (s.modPg i g7).phases = s.phases := rfl
@[simp] theorem State.modPg_keeper : (s.modPg i g7).keeper = s.keeper := rfl
@[simp] theorem State.modPg_commit : (s.modPg i g7).commit = s.commit := rfl
@[simp] theorem State.modPg_tap : (s.modPg i g7).tap = s.tap := rfl
@[simp] theorem State.modPg_hoursSet : (s.modPg i g7).hoursSet = s.hoursSet := rfl
@[simp] theorem State.modPg_trendAt : (s.modPg i g7).trendAt = s.trendAt := rfl
@[simp] theorem State.modPg_trimAt : (s.modPg i g7).trimAt = s.trimAt := rfl
@[simp] theorem State.modPg_restored : (s.modPg i g7).restored = s.restored := rfl
@[simp] theorem State.modPg_plan : (s.modPg i g7).plan = s.plan := rfl
@[simp] theorem State.modPg_fld (f₁ : Field) : (s.modPg i g7).fld f₁ j = s.fld f₁ j := rfl
@[simp] theorem State.modPg_byte : (s.modPg i g7).byte j = s.byte j := rfl
@[simp] theorem State.modPg_eng : (s.modPg i g7).eng j = s.eng j := rfl
@[simp] theorem State.modPg_core : (s.modPg i g7).core j = s.core j := rfl
@[simp] theorem State.modPg_badBits : (s.modPg i g7).badBits j = s.badBits j := rfl
@[simp] theorem State.modPg_pg_self : (s.modPg i g7).pg i = g7 (s.pg i) := Tab.get_set_self _ _ _ _
theorem State.modPg_pg_ne (h : j ≠ i) : (s.modPg i g7).pg j = s.pg j := Tab.get_set_ne _ _ _ _ h

/-! ### modPhase -/

@[simp] theorem State.modPhase_regs : (s.modPhase i g8).regs = s.regs := rfl
@[simp] theorem State.modPhase_mem : (s.modPhase i g8).mem = s.mem := rfl
@[simp] theorem State.modPhase_errs : (s.modPhase i g8).errs = s.errs := rfl
@[simp] theorem State.modPhase_tb : (s.modPhase i g8).tb = s.tb := rfl
@[simp] theorem State.modPhase_now : (s.modPhase i g8).now = s.now := rfl
@[simp] theorem State.modPhase_cycle : (s.modPhase i g8).cycle = s.cycle := rfl
@[simp] theorem State.modPhase_engines : (s.modPhase i g8).engines = s.engines := rfl
@[simp] theorem State.modPhase_cores : (s.modPhase i g8).cores = s.cores := rfl
@[simp] theorem State.modPhase_heart : (s.modPhase i g8).heart = s.heart := rfl
@[simp] theorem State.modPhase_arb : (s.modPhase i g8).arb = s.arb := rfl
@[simp] theorem State.modPhase_passes : (s.modPhase i g8).passes = s.passes := rfl
@[simp] theorem State.modPhase_cvs : (s.modPhase i g8).cvs = s.cvs := rfl
@[simp] theorem State.modPhase_free : (s.modPhase i g8).free = s.free := rfl
@[simp] theorem State.modPhase_pending : (s.modPhase i g8).pending = s.pending := rfl
@[simp] theorem State.modPhase_systems : (s.modPhase i g8).systems = s.systems := rfl
@[simp] theorem State.modPhase_heads : (s.modPhase i g8).heads = s.heads := rfl
@[simp] theorem State.modPhase_gridNext : (s.modPhase i g8).gridNext = s.gridNext := rfl
@[simp] theorem State.modPhase_latches : (s.modPhase i g8).latches = s.latches := rfl
@[simp] theorem State.modPhase_edges : (s.modPhase i g8).edges = s.edges := rfl
@[simp] theorem State.modPhase_dets : (s.modPhase i g8).dets = s.dets := rfl
@[simp] theorem State.modPhase_slices : (s.modPhase i g8).slices = s.slices := rfl
@[simp] theorem State.modPhase_badSlices : (s.modPhase i g8).badSlices = s.badSlices := rfl
@[simp] theorem State.modPhase_dip : (s.modPhase i g8).dip = s.dip := rfl
@[simp] theorem State.modPhase_tables : (s.modPhase i g8).tables = s.tables := rfl
@[simp] theorem State.modPhase_delivered : (s.modPhase i g8).delivered = s.delivered := rfl
@[simp] theorem State.modPhase_ports : (s.modPhase i g8).ports = s.ports := rfl
@[simp] theorem State.modPhase_agreements : (s.modPhase i g8).agreements = s.agreements := rfl
@[simp] theorem State.modPhase_agreed : (s.modPhase i g8).agreed = s.agreed := rfl
@[simp] theorem State.modPhase_locks : (s.modPhase i g8).locks = s.locks := rfl
@[simp] theorem State.modPhase_lockWait : (s.modPhase i g8).lockWait = s.lockWait := rfl
@[simp] theorem State.modPhase_cmds : (s.modPhase i g8).cmds = s.cmds := rfl
@[simp] theorem State.modPhase_fp : (s.modPhase i g8).fp = s.fp := rfl
@[simp] theorem State.modPhase_time : (s.modPhase i g8).time = s.time := rfl
@[simp] theorem State.modPhase_cycNext : (s.modPhase i g8).cycNext = s.cycNext := rfl
@[simp] theorem State.modPhase_rings : (s.modPhase i g8).rings = s.rings := rfl
@[simp] theorem State.modPhase_links : (s.modPhase i g8).links = s.links := rfl
@[simp] theorem State.modPhase_ready : (s.modPhase i g8).ready = s.ready := rfl
@[simp] theorem State.modPhase_frames : (s.modPhase i g8).frames = s.frames := rfl
@[simp] theorem State.modPhase_closes : (s.modPhase i g8).closes = s.closes := rfl
@[simp] theorem State.modPhase_rxq : (s.modPhase i g8).rxq = s.rxq := rfl
@[simp] theorem State.modPhase_rxHeld : (s.modPhase i g8).rxHeld = s.rxHeld := rfl
@[simp] theorem State.modPhase_lines : (s.modPhase i g8).lines = s.lines := rfl
@[simp] theorem State.modPhase_rxNext : (s.modPhase i g8).rxNext = s.rxNext := rfl
@[simp] theorem State.modPhase_logs : (s.modPhase i g8).logs = s.logs := rfl
@[simp] theorem State.modPhase_gmsgs : (s.modPhase i g8).gmsgs = s.gmsgs := rfl
@[simp] theorem State.modPhase_migs : (s.modPhase i g8).migs = s.migs := rfl
@[simp] theorem State.modPhase_graft : (s.modPhase i g8).graft = s.graft := rfl
@[simp] theorem State.modPhase_secs : (s.modPhase i g8).secs = s.secs := rfl
@[simp] theorem State.modPhase_pts : (s.modPhase i g8).pts = s.pts := rfl
@[simp] theorem State.modPhase_remotes : (s.modPhase i g8).remotes = s.remotes := rfl
@[simp] theorem State.modPhase_claims : (s.modPhase i g8).claims = s.claims := rfl
@[simp] theorem State.modPhase_txEvents : (s.modPhase i g8).txEvents = s.txEvents := rfl
@[simp] theorem State.modPhase_accum : (s.modPhase i g8).accum = s.accum := rfl
@[simp] theorem State.modPhase_evalRest : (s.modPhase i g8).evalRest = s.evalRest := rfl
@[simp] theorem State.modPhase_results : (s.modPhase i g8).results = s.results := rfl
@[simp] theorem State.modPhase_takens : (s.modPhase i g8).takens = s.takens := rfl
@[simp] theorem State.modPhase_steps : (s.modPhase i g8).steps = s.steps := rfl
@[simp] theorem State.modPhase_vos : (s.modPhase i g8).vos = s.vos := rfl
@[simp] theorem State.modPhase_pgs : (s.modPhase i g8).pgs = s.pgs := rfl
@[simp] theorem State.modPhase_keeper : (s.modPhase i g8).keeper = s.keeper := rfl
@[simp] theorem State.modPhase_commit : (s.modPhase i g8).commit = s.commit := rfl
@[simp] theorem State.modPhase_tap : (s.modPhase i g8).tap = s.tap := rfl
@[simp] theorem State.modPhase_hoursSet : (s.modPhase i g8).hoursSet = s.hoursSet := rfl
@[simp] theorem State.modPhase_trendAt : (s.modPhase i g8).trendAt = s.trendAt := rfl
@[simp] theorem State.modPhase_trimAt : (s.modPhase i g8).trimAt = s.trimAt := rfl
@[simp] theorem State.modPhase_restored : (s.modPhase i g8).restored = s.restored := rfl
@[simp] theorem State.modPhase_plan : (s.modPhase i g8).plan = s.plan := rfl
@[simp] theorem State.modPhase_fld (f₁ : Field) : (s.modPhase i g8).fld f₁ j = s.fld f₁ j := rfl
@[simp] theorem State.modPhase_byte : (s.modPhase i g8).byte j = s.byte j := rfl
@[simp] theorem State.modPhase_eng : (s.modPhase i g8).eng j = s.eng j := rfl
@[simp] theorem State.modPhase_core : (s.modPhase i g8).core j = s.core j := rfl
@[simp] theorem State.modPhase_badBits : (s.modPhase i g8).badBits j = s.badBits j := rfl
@[simp] theorem State.modPhase_phase_self : (s.modPhase i g8).phase i = g8 (s.phase i) := Tab.get_set_self _ _ _ _
theorem State.modPhase_phase_ne (h : j ≠ i) : (s.modPhase i g8).phase j = s.phase j := Tab.get_set_ne _ _ _ _ h

/-! ### modGraft -/

@[simp] theorem State.modGraft_regs : (s.modGraft g9).regs = s.regs := rfl
@[simp] theorem State.modGraft_mem : (s.modGraft g9).mem = s.mem := rfl
@[simp] theorem State.modGraft_errs : (s.modGraft g9).errs = s.errs := rfl
@[simp] theorem State.modGraft_tb : (s.modGraft g9).tb = s.tb := rfl
@[simp] theorem State.modGraft_now : (s.modGraft g9).now = s.now := rfl
@[simp] theorem State.modGraft_cycle : (s.modGraft g9).cycle = s.cycle := rfl
@[simp] theorem State.modGraft_engines : (s.modGraft g9).engines = s.engines := rfl
@[simp] theorem State.modGraft_cores : (s.modGraft g9).cores = s.cores := rfl
@[simp] theorem State.modGraft_heart : (s.modGraft g9).heart = s.heart := rfl
@[simp] theorem State.modGraft_arb : (s.modGraft g9).arb = s.arb := rfl
@[simp] theorem State.modGraft_passes : (s.modGraft g9).passes = s.passes := rfl
@[simp] theorem State.modGraft_cvs : (s.modGraft g9).cvs = s.cvs := rfl
@[simp] theorem State.modGraft_free : (s.modGraft g9).free = s.free := rfl
@[simp] theorem State.modGraft_pending : (s.modGraft g9).pending = s.pending := rfl
@[simp] theorem State.modGraft_systems : (s.modGraft g9).systems = s.systems := rfl
@[simp] theorem State.modGraft_heads : (s.modGraft g9).heads = s.heads := rfl
@[simp] theorem State.modGraft_gridNext : (s.modGraft g9).gridNext = s.gridNext := rfl
@[simp] theorem State.modGraft_latches : (s.modGraft g9).latches = s.latches := rfl
@[simp] theorem State.modGraft_edges : (s.modGraft g9).edges = s.edges := rfl
@[simp] theorem State.modGraft_dets : (s.modGraft g9).dets = s.dets := rfl
@[simp] theorem State.modGraft_slices : (s.modGraft g9).slices = s.slices := rfl
@[simp] theorem State.modGraft_badSlices : (s.modGraft g9).badSlices = s.badSlices := rfl
@[simp] theorem State.modGraft_dip : (s.modGraft g9).dip = s.dip := rfl
@[simp] theorem State.modGraft_tables : (s.modGraft g9).tables = s.tables := rfl
@[simp] theorem State.modGraft_delivered : (s.modGraft g9).delivered = s.delivered := rfl
@[simp] theorem State.modGraft_ports : (s.modGraft g9).ports = s.ports := rfl
@[simp] theorem State.modGraft_agreements : (s.modGraft g9).agreements = s.agreements := rfl
@[simp] theorem State.modGraft_agreed : (s.modGraft g9).agreed = s.agreed := rfl
@[simp] theorem State.modGraft_locks : (s.modGraft g9).locks = s.locks := rfl
@[simp] theorem State.modGraft_lockWait : (s.modGraft g9).lockWait = s.lockWait := rfl
@[simp] theorem State.modGraft_cmds : (s.modGraft g9).cmds = s.cmds := rfl
@[simp] theorem State.modGraft_fp : (s.modGraft g9).fp = s.fp := rfl
@[simp] theorem State.modGraft_time : (s.modGraft g9).time = s.time := rfl
@[simp] theorem State.modGraft_cycNext : (s.modGraft g9).cycNext = s.cycNext := rfl
@[simp] theorem State.modGraft_rings : (s.modGraft g9).rings = s.rings := rfl
@[simp] theorem State.modGraft_links : (s.modGraft g9).links = s.links := rfl
@[simp] theorem State.modGraft_ready : (s.modGraft g9).ready = s.ready := rfl
@[simp] theorem State.modGraft_frames : (s.modGraft g9).frames = s.frames := rfl
@[simp] theorem State.modGraft_closes : (s.modGraft g9).closes = s.closes := rfl
@[simp] theorem State.modGraft_rxq : (s.modGraft g9).rxq = s.rxq := rfl
@[simp] theorem State.modGraft_rxHeld : (s.modGraft g9).rxHeld = s.rxHeld := rfl
@[simp] theorem State.modGraft_lines : (s.modGraft g9).lines = s.lines := rfl
@[simp] theorem State.modGraft_rxNext : (s.modGraft g9).rxNext = s.rxNext := rfl
@[simp] theorem State.modGraft_logs : (s.modGraft g9).logs = s.logs := rfl
@[simp] theorem State.modGraft_gmsgs : (s.modGraft g9).gmsgs = s.gmsgs := rfl
@[simp] theorem State.modGraft_migs : (s.modGraft g9).migs = s.migs := rfl
@[simp] theorem State.modGraft_secs : (s.modGraft g9).secs = s.secs := rfl
@[simp] theorem State.modGraft_pts : (s.modGraft g9).pts = s.pts := rfl
@[simp] theorem State.modGraft_remotes : (s.modGraft g9).remotes = s.remotes := rfl
@[simp] theorem State.modGraft_claims : (s.modGraft g9).claims = s.claims := rfl
@[simp] theorem State.modGraft_txEvents : (s.modGraft g9).txEvents = s.txEvents := rfl
@[simp] theorem State.modGraft_accum : (s.modGraft g9).accum = s.accum := rfl
@[simp] theorem State.modGraft_evalRest : (s.modGraft g9).evalRest = s.evalRest := rfl
@[simp] theorem State.modGraft_results : (s.modGraft g9).results = s.results := rfl
@[simp] theorem State.modGraft_takens : (s.modGraft g9).takens = s.takens := rfl
@[simp] theorem State.modGraft_steps : (s.modGraft g9).steps = s.steps := rfl
@[simp] theorem State.modGraft_vos : (s.modGraft g9).vos = s.vos := rfl
@[simp] theorem State.modGraft_pgs : (s.modGraft g9).pgs = s.pgs := rfl
@[simp] theorem State.modGraft_phases : (s.modGraft g9).phases = s.phases := rfl
@[simp] theorem State.modGraft_keeper : (s.modGraft g9).keeper = s.keeper := rfl
@[simp] theorem State.modGraft_commit : (s.modGraft g9).commit = s.commit := rfl
@[simp] theorem State.modGraft_tap : (s.modGraft g9).tap = s.tap := rfl
@[simp] theorem State.modGraft_hoursSet : (s.modGraft g9).hoursSet = s.hoursSet := rfl
@[simp] theorem State.modGraft_trendAt : (s.modGraft g9).trendAt = s.trendAt := rfl
@[simp] theorem State.modGraft_trimAt : (s.modGraft g9).trimAt = s.trimAt := rfl
@[simp] theorem State.modGraft_restored : (s.modGraft g9).restored = s.restored := rfl
@[simp] theorem State.modGraft_plan : (s.modGraft g9).plan = s.plan := rfl
@[simp] theorem State.modGraft_fld (f₁ : Field) : (s.modGraft g9).fld f₁ j = s.fld f₁ j := rfl
@[simp] theorem State.modGraft_byte : (s.modGraft g9).byte j = s.byte j := rfl
@[simp] theorem State.modGraft_eng : (s.modGraft g9).eng j = s.eng j := rfl
@[simp] theorem State.modGraft_core : (s.modGraft g9).core j = s.core j := rfl
@[simp] theorem State.modGraft_badBits : (s.modGraft g9).badBits j = s.badBits j := rfl
@[simp] theorem State.modGraft_graft : (s.modGraft g9).graft = g9 s.graft := rfl

/-! ### modMig -/

@[simp] theorem State.modMig_regs : (s.modMig i g10).regs = s.regs := rfl
@[simp] theorem State.modMig_mem : (s.modMig i g10).mem = s.mem := rfl
@[simp] theorem State.modMig_errs : (s.modMig i g10).errs = s.errs := rfl
@[simp] theorem State.modMig_tb : (s.modMig i g10).tb = s.tb := rfl
@[simp] theorem State.modMig_now : (s.modMig i g10).now = s.now := rfl
@[simp] theorem State.modMig_cycle : (s.modMig i g10).cycle = s.cycle := rfl
@[simp] theorem State.modMig_engines : (s.modMig i g10).engines = s.engines := rfl
@[simp] theorem State.modMig_cores : (s.modMig i g10).cores = s.cores := rfl
@[simp] theorem State.modMig_heart : (s.modMig i g10).heart = s.heart := rfl
@[simp] theorem State.modMig_arb : (s.modMig i g10).arb = s.arb := rfl
@[simp] theorem State.modMig_passes : (s.modMig i g10).passes = s.passes := rfl
@[simp] theorem State.modMig_cvs : (s.modMig i g10).cvs = s.cvs := rfl
@[simp] theorem State.modMig_free : (s.modMig i g10).free = s.free := rfl
@[simp] theorem State.modMig_pending : (s.modMig i g10).pending = s.pending := rfl
@[simp] theorem State.modMig_systems : (s.modMig i g10).systems = s.systems := rfl
@[simp] theorem State.modMig_heads : (s.modMig i g10).heads = s.heads := rfl
@[simp] theorem State.modMig_gridNext : (s.modMig i g10).gridNext = s.gridNext := rfl
@[simp] theorem State.modMig_latches : (s.modMig i g10).latches = s.latches := rfl
@[simp] theorem State.modMig_edges : (s.modMig i g10).edges = s.edges := rfl
@[simp] theorem State.modMig_dets : (s.modMig i g10).dets = s.dets := rfl
@[simp] theorem State.modMig_slices : (s.modMig i g10).slices = s.slices := rfl
@[simp] theorem State.modMig_badSlices : (s.modMig i g10).badSlices = s.badSlices := rfl
@[simp] theorem State.modMig_dip : (s.modMig i g10).dip = s.dip := rfl
@[simp] theorem State.modMig_tables : (s.modMig i g10).tables = s.tables := rfl
@[simp] theorem State.modMig_delivered : (s.modMig i g10).delivered = s.delivered := rfl
@[simp] theorem State.modMig_ports : (s.modMig i g10).ports = s.ports := rfl
@[simp] theorem State.modMig_agreements : (s.modMig i g10).agreements = s.agreements := rfl
@[simp] theorem State.modMig_agreed : (s.modMig i g10).agreed = s.agreed := rfl
@[simp] theorem State.modMig_locks : (s.modMig i g10).locks = s.locks := rfl
@[simp] theorem State.modMig_lockWait : (s.modMig i g10).lockWait = s.lockWait := rfl
@[simp] theorem State.modMig_cmds : (s.modMig i g10).cmds = s.cmds := rfl
@[simp] theorem State.modMig_fp : (s.modMig i g10).fp = s.fp := rfl
@[simp] theorem State.modMig_time : (s.modMig i g10).time = s.time := rfl
@[simp] theorem State.modMig_cycNext : (s.modMig i g10).cycNext = s.cycNext := rfl
@[simp] theorem State.modMig_rings : (s.modMig i g10).rings = s.rings := rfl
@[simp] theorem State.modMig_links : (s.modMig i g10).links = s.links := rfl
@[simp] theorem State.modMig_ready : (s.modMig i g10).ready = s.ready := rfl
@[simp] theorem State.modMig_frames : (s.modMig i g10).frames = s.frames := rfl
@[simp] theorem State.modMig_closes : (s.modMig i g10).closes = s.closes := rfl
@[simp] theorem State.modMig_rxq : (s.modMig i g10).rxq = s.rxq := rfl
@[simp] theorem State.modMig_rxHeld : (s.modMig i g10).rxHeld = s.rxHeld := rfl
@[simp] theorem State.modMig_lines : (s.modMig i g10).lines = s.lines := rfl
@[simp] theorem State.modMig_rxNext : (s.modMig i g10).rxNext = s.rxNext := rfl
@[simp] theorem State.modMig_logs : (s.modMig i g10).logs = s.logs := rfl
@[simp] theorem State.modMig_gmsgs : (s.modMig i g10).gmsgs = s.gmsgs := rfl
@[simp] theorem State.modMig_graft : (s.modMig i g10).graft = s.graft := rfl
@[simp] theorem State.modMig_secs : (s.modMig i g10).secs = s.secs := rfl
@[simp] theorem State.modMig_pts : (s.modMig i g10).pts = s.pts := rfl
@[simp] theorem State.modMig_remotes : (s.modMig i g10).remotes = s.remotes := rfl
@[simp] theorem State.modMig_claims : (s.modMig i g10).claims = s.claims := rfl
@[simp] theorem State.modMig_txEvents : (s.modMig i g10).txEvents = s.txEvents := rfl
@[simp] theorem State.modMig_accum : (s.modMig i g10).accum = s.accum := rfl
@[simp] theorem State.modMig_evalRest : (s.modMig i g10).evalRest = s.evalRest := rfl
@[simp] theorem State.modMig_results : (s.modMig i g10).results = s.results := rfl
@[simp] theorem State.modMig_takens : (s.modMig i g10).takens = s.takens := rfl
@[simp] theorem State.modMig_steps : (s.modMig i g10).steps = s.steps := rfl
@[simp] theorem State.modMig_vos : (s.modMig i g10).vos = s.vos := rfl
@[simp] theorem State.modMig_pgs : (s.modMig i g10).pgs = s.pgs := rfl
@[simp] theorem State.modMig_phases : (s.modMig i g10).phases = s.phases := rfl
@[simp] theorem State.modMig_keeper : (s.modMig i g10).keeper = s.keeper := rfl
@[simp] theorem State.modMig_commit : (s.modMig i g10).commit = s.commit := rfl
@[simp] theorem State.modMig_tap : (s.modMig i g10).tap = s.tap := rfl
@[simp] theorem State.modMig_hoursSet : (s.modMig i g10).hoursSet = s.hoursSet := rfl
@[simp] theorem State.modMig_trendAt : (s.modMig i g10).trendAt = s.trendAt := rfl
@[simp] theorem State.modMig_trimAt : (s.modMig i g10).trimAt = s.trimAt := rfl
@[simp] theorem State.modMig_restored : (s.modMig i g10).restored = s.restored := rfl
@[simp] theorem State.modMig_plan : (s.modMig i g10).plan = s.plan := rfl
@[simp] theorem State.modMig_fld (f₁ : Field) : (s.modMig i g10).fld f₁ j = s.fld f₁ j := rfl
@[simp] theorem State.modMig_byte : (s.modMig i g10).byte j = s.byte j := rfl
@[simp] theorem State.modMig_eng : (s.modMig i g10).eng j = s.eng j := rfl
@[simp] theorem State.modMig_core : (s.modMig i g10).core j = s.core j := rfl
@[simp] theorem State.modMig_badBits : (s.modMig i g10).badBits j = s.badBits j := rfl
@[simp] theorem State.modMig_mig_self : (s.modMig i g10).mig i = g10 (s.mig i) := Tab.get_set_self _ _ _ _
theorem State.modMig_mig_ne (h : j ≠ i) : (s.modMig i g10).mig j = s.mig j := Tab.get_set_ne _ _ _ _ h

/-! ### modPort -/

@[simp] theorem State.modPort_regs : (s.modPort i g11).regs = s.regs := rfl
@[simp] theorem State.modPort_mem : (s.modPort i g11).mem = s.mem := rfl
@[simp] theorem State.modPort_errs : (s.modPort i g11).errs = s.errs := rfl
@[simp] theorem State.modPort_tb : (s.modPort i g11).tb = s.tb := rfl
@[simp] theorem State.modPort_now : (s.modPort i g11).now = s.now := rfl
@[simp] theorem State.modPort_cycle : (s.modPort i g11).cycle = s.cycle := rfl
@[simp] theorem State.modPort_engines : (s.modPort i g11).engines = s.engines := rfl
@[simp] theorem State.modPort_cores : (s.modPort i g11).cores = s.cores := rfl
@[simp] theorem State.modPort_heart : (s.modPort i g11).heart = s.heart := rfl
@[simp] theorem State.modPort_arb : (s.modPort i g11).arb = s.arb := rfl
@[simp] theorem State.modPort_passes : (s.modPort i g11).passes = s.passes := rfl
@[simp] theorem State.modPort_cvs : (s.modPort i g11).cvs = s.cvs := rfl
@[simp] theorem State.modPort_free : (s.modPort i g11).free = s.free := rfl
@[simp] theorem State.modPort_pending : (s.modPort i g11).pending = s.pending := rfl
@[simp] theorem State.modPort_systems : (s.modPort i g11).systems = s.systems := rfl
@[simp] theorem State.modPort_heads : (s.modPort i g11).heads = s.heads := rfl
@[simp] theorem State.modPort_gridNext : (s.modPort i g11).gridNext = s.gridNext := rfl
@[simp] theorem State.modPort_latches : (s.modPort i g11).latches = s.latches := rfl
@[simp] theorem State.modPort_edges : (s.modPort i g11).edges = s.edges := rfl
@[simp] theorem State.modPort_dets : (s.modPort i g11).dets = s.dets := rfl
@[simp] theorem State.modPort_slices : (s.modPort i g11).slices = s.slices := rfl
@[simp] theorem State.modPort_badSlices : (s.modPort i g11).badSlices = s.badSlices := rfl
@[simp] theorem State.modPort_dip : (s.modPort i g11).dip = s.dip := rfl
@[simp] theorem State.modPort_tables : (s.modPort i g11).tables = s.tables := rfl
@[simp] theorem State.modPort_delivered : (s.modPort i g11).delivered = s.delivered := rfl
@[simp] theorem State.modPort_agreements : (s.modPort i g11).agreements = s.agreements := rfl
@[simp] theorem State.modPort_agreed : (s.modPort i g11).agreed = s.agreed := rfl
@[simp] theorem State.modPort_locks : (s.modPort i g11).locks = s.locks := rfl
@[simp] theorem State.modPort_lockWait : (s.modPort i g11).lockWait = s.lockWait := rfl
@[simp] theorem State.modPort_cmds : (s.modPort i g11).cmds = s.cmds := rfl
@[simp] theorem State.modPort_fp : (s.modPort i g11).fp = s.fp := rfl
@[simp] theorem State.modPort_time : (s.modPort i g11).time = s.time := rfl
@[simp] theorem State.modPort_cycNext : (s.modPort i g11).cycNext = s.cycNext := rfl
@[simp] theorem State.modPort_rings : (s.modPort i g11).rings = s.rings := rfl
@[simp] theorem State.modPort_links : (s.modPort i g11).links = s.links := rfl
@[simp] theorem State.modPort_ready : (s.modPort i g11).ready = s.ready := rfl
@[simp] theorem State.modPort_frames : (s.modPort i g11).frames = s.frames := rfl
@[simp] theorem State.modPort_closes : (s.modPort i g11).closes = s.closes := rfl
@[simp] theorem State.modPort_rxq : (s.modPort i g11).rxq = s.rxq := rfl
@[simp] theorem State.modPort_rxHeld : (s.modPort i g11).rxHeld = s.rxHeld := rfl
@[simp] theorem State.modPort_lines : (s.modPort i g11).lines = s.lines := rfl
@[simp] theorem State.modPort_rxNext : (s.modPort i g11).rxNext = s.rxNext := rfl
@[simp] theorem State.modPort_logs : (s.modPort i g11).logs = s.logs := rfl
@[simp] theorem State.modPort_gmsgs : (s.modPort i g11).gmsgs = s.gmsgs := rfl
@[simp] theorem State.modPort_migs : (s.modPort i g11).migs = s.migs := rfl
@[simp] theorem State.modPort_graft : (s.modPort i g11).graft = s.graft := rfl
@[simp] theorem State.modPort_secs : (s.modPort i g11).secs = s.secs := rfl
@[simp] theorem State.modPort_pts : (s.modPort i g11).pts = s.pts := rfl
@[simp] theorem State.modPort_remotes : (s.modPort i g11).remotes = s.remotes := rfl
@[simp] theorem State.modPort_claims : (s.modPort i g11).claims = s.claims := rfl
@[simp] theorem State.modPort_txEvents : (s.modPort i g11).txEvents = s.txEvents := rfl
@[simp] theorem State.modPort_accum : (s.modPort i g11).accum = s.accum := rfl
@[simp] theorem State.modPort_evalRest : (s.modPort i g11).evalRest = s.evalRest := rfl
@[simp] theorem State.modPort_results : (s.modPort i g11).results = s.results := rfl
@[simp] theorem State.modPort_takens : (s.modPort i g11).takens = s.takens := rfl
@[simp] theorem State.modPort_steps : (s.modPort i g11).steps = s.steps := rfl
@[simp] theorem State.modPort_vos : (s.modPort i g11).vos = s.vos := rfl
@[simp] theorem State.modPort_pgs : (s.modPort i g11).pgs = s.pgs := rfl
@[simp] theorem State.modPort_phases : (s.modPort i g11).phases = s.phases := rfl
@[simp] theorem State.modPort_keeper : (s.modPort i g11).keeper = s.keeper := rfl
@[simp] theorem State.modPort_commit : (s.modPort i g11).commit = s.commit := rfl
@[simp] theorem State.modPort_tap : (s.modPort i g11).tap = s.tap := rfl
@[simp] theorem State.modPort_hoursSet : (s.modPort i g11).hoursSet = s.hoursSet := rfl
@[simp] theorem State.modPort_trendAt : (s.modPort i g11).trendAt = s.trendAt := rfl
@[simp] theorem State.modPort_trimAt : (s.modPort i g11).trimAt = s.trimAt := rfl
@[simp] theorem State.modPort_restored : (s.modPort i g11).restored = s.restored := rfl
@[simp] theorem State.modPort_plan : (s.modPort i g11).plan = s.plan := rfl
@[simp] theorem State.modPort_fld (f₁ : Field) : (s.modPort i g11).fld f₁ j = s.fld f₁ j := rfl
@[simp] theorem State.modPort_byte : (s.modPort i g11).byte j = s.byte j := rfl
@[simp] theorem State.modPort_eng : (s.modPort i g11).eng j = s.eng j := rfl
@[simp] theorem State.modPort_core : (s.modPort i g11).core j = s.core j := rfl
@[simp] theorem State.modPort_badBits : (s.modPort i g11).badBits j = s.badBits j := rfl
@[simp] theorem State.modPort_port_self : (s.modPort i g11).port i = g11 (s.port i) := Tab.get_set_self _ _ _ _
theorem State.modPort_port_ne (h : j ≠ i) : (s.modPort i g11).port j = s.port j := Tab.get_set_ne _ _ _ _ h

/-! ### modArb -/

@[simp] theorem State.modArb_regs : (s.modArb g12).regs = s.regs := rfl
@[simp] theorem State.modArb_mem : (s.modArb g12).mem = s.mem := rfl
@[simp] theorem State.modArb_errs : (s.modArb g12).errs = s.errs := rfl
@[simp] theorem State.modArb_tb : (s.modArb g12).tb = s.tb := rfl
@[simp] theorem State.modArb_now : (s.modArb g12).now = s.now := rfl
@[simp] theorem State.modArb_cycle : (s.modArb g12).cycle = s.cycle := rfl
@[simp] theorem State.modArb_engines : (s.modArb g12).engines = s.engines := rfl
@[simp] theorem State.modArb_cores : (s.modArb g12).cores = s.cores := rfl
@[simp] theorem State.modArb_heart : (s.modArb g12).heart = s.heart := rfl
@[simp] theorem State.modArb_passes : (s.modArb g12).passes = s.passes := rfl
@[simp] theorem State.modArb_cvs : (s.modArb g12).cvs = s.cvs := rfl
@[simp] theorem State.modArb_free : (s.modArb g12).free = s.free := rfl
@[simp] theorem State.modArb_pending : (s.modArb g12).pending = s.pending := rfl
@[simp] theorem State.modArb_systems : (s.modArb g12).systems = s.systems := rfl
@[simp] theorem State.modArb_heads : (s.modArb g12).heads = s.heads := rfl
@[simp] theorem State.modArb_gridNext : (s.modArb g12).gridNext = s.gridNext := rfl
@[simp] theorem State.modArb_latches : (s.modArb g12).latches = s.latches := rfl
@[simp] theorem State.modArb_edges : (s.modArb g12).edges = s.edges := rfl
@[simp] theorem State.modArb_dets : (s.modArb g12).dets = s.dets := rfl
@[simp] theorem State.modArb_slices : (s.modArb g12).slices = s.slices := rfl
@[simp] theorem State.modArb_badSlices : (s.modArb g12).badSlices = s.badSlices := rfl
@[simp] theorem State.modArb_dip : (s.modArb g12).dip = s.dip := rfl
@[simp] theorem State.modArb_tables : (s.modArb g12).tables = s.tables := rfl
@[simp] theorem State.modArb_delivered : (s.modArb g12).delivered = s.delivered := rfl
@[simp] theorem State.modArb_ports : (s.modArb g12).ports = s.ports := rfl
@[simp] theorem State.modArb_agreements : (s.modArb g12).agreements = s.agreements := rfl
@[simp] theorem State.modArb_agreed : (s.modArb g12).agreed = s.agreed := rfl
@[simp] theorem State.modArb_locks : (s.modArb g12).locks = s.locks := rfl
@[simp] theorem State.modArb_lockWait : (s.modArb g12).lockWait = s.lockWait := rfl
@[simp] theorem State.modArb_cmds : (s.modArb g12).cmds = s.cmds := rfl
@[simp] theorem State.modArb_fp : (s.modArb g12).fp = s.fp := rfl
@[simp] theorem State.modArb_time : (s.modArb g12).time = s.time := rfl
@[simp] theorem State.modArb_cycNext : (s.modArb g12).cycNext = s.cycNext := rfl
@[simp] theorem State.modArb_rings : (s.modArb g12).rings = s.rings := rfl
@[simp] theorem State.modArb_links : (s.modArb g12).links = s.links := rfl
@[simp] theorem State.modArb_ready : (s.modArb g12).ready = s.ready := rfl
@[simp] theorem State.modArb_frames : (s.modArb g12).frames = s.frames := rfl
@[simp] theorem State.modArb_closes : (s.modArb g12).closes = s.closes := rfl
@[simp] theorem State.modArb_rxq : (s.modArb g12).rxq = s.rxq := rfl
@[simp] theorem State.modArb_rxHeld : (s.modArb g12).rxHeld = s.rxHeld := rfl
@[simp] theorem State.modArb_lines : (s.modArb g12).lines = s.lines := rfl
@[simp] theorem State.modArb_rxNext : (s.modArb g12).rxNext = s.rxNext := rfl
@[simp] theorem State.modArb_logs : (s.modArb g12).logs = s.logs := rfl
@[simp] theorem State.modArb_gmsgs : (s.modArb g12).gmsgs = s.gmsgs := rfl
@[simp] theorem State.modArb_migs : (s.modArb g12).migs = s.migs := rfl
@[simp] theorem State.modArb_graft : (s.modArb g12).graft = s.graft := rfl
@[simp] theorem State.modArb_secs : (s.modArb g12).secs = s.secs := rfl
@[simp] theorem State.modArb_pts : (s.modArb g12).pts = s.pts := rfl
@[simp] theorem State.modArb_remotes : (s.modArb g12).remotes = s.remotes := rfl
@[simp] theorem State.modArb_claims : (s.modArb g12).claims = s.claims := rfl
@[simp] theorem State.modArb_txEvents : (s.modArb g12).txEvents = s.txEvents := rfl
@[simp] theorem State.modArb_accum : (s.modArb g12).accum = s.accum := rfl
@[simp] theorem State.modArb_evalRest : (s.modArb g12).evalRest = s.evalRest := rfl
@[simp] theorem State.modArb_results : (s.modArb g12).results = s.results := rfl
@[simp] theorem State.modArb_takens : (s.modArb g12).takens = s.takens := rfl
@[simp] theorem State.modArb_steps : (s.modArb g12).steps = s.steps := rfl
@[simp] theorem State.modArb_vos : (s.modArb g12).vos = s.vos := rfl
@[simp] theorem State.modArb_pgs : (s.modArb g12).pgs = s.pgs := rfl
@[simp] theorem State.modArb_phases : (s.modArb g12).phases = s.phases := rfl
@[simp] theorem State.modArb_keeper : (s.modArb g12).keeper = s.keeper := rfl
@[simp] theorem State.modArb_commit : (s.modArb g12).commit = s.commit := rfl
@[simp] theorem State.modArb_tap : (s.modArb g12).tap = s.tap := rfl
@[simp] theorem State.modArb_hoursSet : (s.modArb g12).hoursSet = s.hoursSet := rfl
@[simp] theorem State.modArb_trendAt : (s.modArb g12).trendAt = s.trendAt := rfl
@[simp] theorem State.modArb_trimAt : (s.modArb g12).trimAt = s.trimAt := rfl
@[simp] theorem State.modArb_restored : (s.modArb g12).restored = s.restored := rfl
@[simp] theorem State.modArb_plan : (s.modArb g12).plan = s.plan := rfl
@[simp] theorem State.modArb_fld (f₁ : Field) : (s.modArb g12).fld f₁ j = s.fld f₁ j := rfl
@[simp] theorem State.modArb_byte : (s.modArb g12).byte j = s.byte j := rfl
@[simp] theorem State.modArb_eng : (s.modArb g12).eng j = s.eng j := rfl
@[simp] theorem State.modArb_core : (s.modArb g12).core j = s.core j := rfl
@[simp] theorem State.modArb_badBits : (s.modArb g12).badBits j = s.badBits j := rfl
@[simp] theorem State.modArb_arb : (s.modArb g12).arb = g12 s.arb := rfl

/-! ### modRing -/

@[simp] theorem State.modRing_regs : (s.modRing i g13).regs = s.regs := rfl
@[simp] theorem State.modRing_mem : (s.modRing i g13).mem = s.mem := rfl
@[simp] theorem State.modRing_errs : (s.modRing i g13).errs = s.errs := rfl
@[simp] theorem State.modRing_tb : (s.modRing i g13).tb = s.tb := rfl
@[simp] theorem State.modRing_now : (s.modRing i g13).now = s.now := rfl
@[simp] theorem State.modRing_cycle : (s.modRing i g13).cycle = s.cycle := rfl
@[simp] theorem State.modRing_engines : (s.modRing i g13).engines = s.engines := rfl
@[simp] theorem State.modRing_cores : (s.modRing i g13).cores = s.cores := rfl
@[simp] theorem State.modRing_heart : (s.modRing i g13).heart = s.heart := rfl
@[simp] theorem State.modRing_arb : (s.modRing i g13).arb = s.arb := rfl
@[simp] theorem State.modRing_passes : (s.modRing i g13).passes = s.passes := rfl
@[simp] theorem State.modRing_cvs : (s.modRing i g13).cvs = s.cvs := rfl
@[simp] theorem State.modRing_free : (s.modRing i g13).free = s.free := rfl
@[simp] theorem State.modRing_pending : (s.modRing i g13).pending = s.pending := rfl
@[simp] theorem State.modRing_systems : (s.modRing i g13).systems = s.systems := rfl
@[simp] theorem State.modRing_heads : (s.modRing i g13).heads = s.heads := rfl
@[simp] theorem State.modRing_gridNext : (s.modRing i g13).gridNext = s.gridNext := rfl
@[simp] theorem State.modRing_latches : (s.modRing i g13).latches = s.latches := rfl
@[simp] theorem State.modRing_edges : (s.modRing i g13).edges = s.edges := rfl
@[simp] theorem State.modRing_dets : (s.modRing i g13).dets = s.dets := rfl
@[simp] theorem State.modRing_slices : (s.modRing i g13).slices = s.slices := rfl
@[simp] theorem State.modRing_badSlices : (s.modRing i g13).badSlices = s.badSlices := rfl
@[simp] theorem State.modRing_dip : (s.modRing i g13).dip = s.dip := rfl
@[simp] theorem State.modRing_tables : (s.modRing i g13).tables = s.tables := rfl
@[simp] theorem State.modRing_delivered : (s.modRing i g13).delivered = s.delivered := rfl
@[simp] theorem State.modRing_ports : (s.modRing i g13).ports = s.ports := rfl
@[simp] theorem State.modRing_agreements : (s.modRing i g13).agreements = s.agreements := rfl
@[simp] theorem State.modRing_agreed : (s.modRing i g13).agreed = s.agreed := rfl
@[simp] theorem State.modRing_locks : (s.modRing i g13).locks = s.locks := rfl
@[simp] theorem State.modRing_lockWait : (s.modRing i g13).lockWait = s.lockWait := rfl
@[simp] theorem State.modRing_cmds : (s.modRing i g13).cmds = s.cmds := rfl
@[simp] theorem State.modRing_fp : (s.modRing i g13).fp = s.fp := rfl
@[simp] theorem State.modRing_time : (s.modRing i g13).time = s.time := rfl
@[simp] theorem State.modRing_cycNext : (s.modRing i g13).cycNext = s.cycNext := rfl
@[simp] theorem State.modRing_links : (s.modRing i g13).links = s.links := rfl
@[simp] theorem State.modRing_ready : (s.modRing i g13).ready = s.ready := rfl
@[simp] theorem State.modRing_frames : (s.modRing i g13).frames = s.frames := rfl
@[simp] theorem State.modRing_closes : (s.modRing i g13).closes = s.closes := rfl
@[simp] theorem State.modRing_rxq : (s.modRing i g13).rxq = s.rxq := rfl
@[simp] theorem State.modRing_rxHeld : (s.modRing i g13).rxHeld = s.rxHeld := rfl
@[simp] theorem State.modRing_lines : (s.modRing i g13).lines = s.lines := rfl
@[simp] theorem State.modRing_rxNext : (s.modRing i g13).rxNext = s.rxNext := rfl
@[simp] theorem State.modRing_logs : (s.modRing i g13).logs = s.logs := rfl
@[simp] theorem State.modRing_gmsgs : (s.modRing i g13).gmsgs = s.gmsgs := rfl
@[simp] theorem State.modRing_migs : (s.modRing i g13).migs = s.migs := rfl
@[simp] theorem State.modRing_graft : (s.modRing i g13).graft = s.graft := rfl
@[simp] theorem State.modRing_secs : (s.modRing i g13).secs = s.secs := rfl
@[simp] theorem State.modRing_pts : (s.modRing i g13).pts = s.pts := rfl
@[simp] theorem State.modRing_remotes : (s.modRing i g13).remotes = s.remotes := rfl
@[simp] theorem State.modRing_claims : (s.modRing i g13).claims = s.claims := rfl
@[simp] theorem State.modRing_txEvents : (s.modRing i g13).txEvents = s.txEvents := rfl
@[simp] theorem State.modRing_accum : (s.modRing i g13).accum = s.accum := rfl
@[simp] theorem State.modRing_evalRest : (s.modRing i g13).evalRest = s.evalRest := rfl
@[simp] theorem State.modRing_results : (s.modRing i g13).results = s.results := rfl
@[simp] theorem State.modRing_takens : (s.modRing i g13).takens = s.takens := rfl
@[simp] theorem State.modRing_steps : (s.modRing i g13).steps = s.steps := rfl
@[simp] theorem State.modRing_vos : (s.modRing i g13).vos = s.vos := rfl
@[simp] theorem State.modRing_pgs : (s.modRing i g13).pgs = s.pgs := rfl
@[simp] theorem State.modRing_phases : (s.modRing i g13).phases = s.phases := rfl
@[simp] theorem State.modRing_keeper : (s.modRing i g13).keeper = s.keeper := rfl
@[simp] theorem State.modRing_commit : (s.modRing i g13).commit = s.commit := rfl
@[simp] theorem State.modRing_tap : (s.modRing i g13).tap = s.tap := rfl
@[simp] theorem State.modRing_hoursSet : (s.modRing i g13).hoursSet = s.hoursSet := rfl
@[simp] theorem State.modRing_trendAt : (s.modRing i g13).trendAt = s.trendAt := rfl
@[simp] theorem State.modRing_trimAt : (s.modRing i g13).trimAt = s.trimAt := rfl
@[simp] theorem State.modRing_restored : (s.modRing i g13).restored = s.restored := rfl
@[simp] theorem State.modRing_plan : (s.modRing i g13).plan = s.plan := rfl
@[simp] theorem State.modRing_fld (f₁ : Field) : (s.modRing i g13).fld f₁ j = s.fld f₁ j := rfl
@[simp] theorem State.modRing_byte : (s.modRing i g13).byte j = s.byte j := rfl
@[simp] theorem State.modRing_eng : (s.modRing i g13).eng j = s.eng j := rfl
@[simp] theorem State.modRing_core : (s.modRing i g13).core j = s.core j := rfl
@[simp] theorem State.modRing_badBits : (s.modRing i g13).badBits j = s.badBits j := rfl
@[simp] theorem State.modRing_ring_self : (s.modRing i g13).ring i = g13 (s.ring i) := Tab.get_set_self _ _ _ _
theorem State.modRing_ring_ne (h : j ≠ i) : (s.modRing i g13).ring j = s.ring j := Tab.get_set_ne _ _ _ _ h

/-! ### modLink -/

@[simp] theorem State.modLink_regs : (s.modLink i g14).regs = s.regs := rfl
@[simp] theorem State.modLink_mem : (s.modLink i g14).mem = s.mem := rfl
@[simp] theorem State.modLink_errs : (s.modLink i g14).errs = s.errs := rfl
@[simp] theorem State.modLink_tb : (s.modLink i g14).tb = s.tb := rfl
@[simp] theorem State.modLink_now : (s.modLink i g14).now = s.now := rfl
@[simp] theorem State.modLink_cycle : (s.modLink i g14).cycle = s.cycle := rfl
@[simp] theorem State.modLink_engines : (s.modLink i g14).engines = s.engines := rfl
@[simp] theorem State.modLink_cores : (s.modLink i g14).cores = s.cores := rfl
@[simp] theorem State.modLink_heart : (s.modLink i g14).heart = s.heart := rfl
@[simp] theorem State.modLink_arb : (s.modLink i g14).arb = s.arb := rfl
@[simp] theorem State.modLink_passes : (s.modLink i g14).passes = s.passes := rfl
@[simp] theorem State.modLink_cvs : (s.modLink i g14).cvs = s.cvs := rfl
@[simp] theorem State.modLink_free : (s.modLink i g14).free = s.free := rfl
@[simp] theorem State.modLink_pending : (s.modLink i g14).pending = s.pending := rfl
@[simp] theorem State.modLink_systems : (s.modLink i g14).systems = s.systems := rfl
@[simp] theorem State.modLink_heads : (s.modLink i g14).heads = s.heads := rfl
@[simp] theorem State.modLink_gridNext : (s.modLink i g14).gridNext = s.gridNext := rfl
@[simp] theorem State.modLink_latches : (s.modLink i g14).latches = s.latches := rfl
@[simp] theorem State.modLink_edges : (s.modLink i g14).edges = s.edges := rfl
@[simp] theorem State.modLink_dets : (s.modLink i g14).dets = s.dets := rfl
@[simp] theorem State.modLink_slices : (s.modLink i g14).slices = s.slices := rfl
@[simp] theorem State.modLink_badSlices : (s.modLink i g14).badSlices = s.badSlices := rfl
@[simp] theorem State.modLink_dip : (s.modLink i g14).dip = s.dip := rfl
@[simp] theorem State.modLink_tables : (s.modLink i g14).tables = s.tables := rfl
@[simp] theorem State.modLink_delivered : (s.modLink i g14).delivered = s.delivered := rfl
@[simp] theorem State.modLink_ports : (s.modLink i g14).ports = s.ports := rfl
@[simp] theorem State.modLink_agreements : (s.modLink i g14).agreements = s.agreements := rfl
@[simp] theorem State.modLink_agreed : (s.modLink i g14).agreed = s.agreed := rfl
@[simp] theorem State.modLink_locks : (s.modLink i g14).locks = s.locks := rfl
@[simp] theorem State.modLink_lockWait : (s.modLink i g14).lockWait = s.lockWait := rfl
@[simp] theorem State.modLink_cmds : (s.modLink i g14).cmds = s.cmds := rfl
@[simp] theorem State.modLink_fp : (s.modLink i g14).fp = s.fp := rfl
@[simp] theorem State.modLink_time : (s.modLink i g14).time = s.time := rfl
@[simp] theorem State.modLink_cycNext : (s.modLink i g14).cycNext = s.cycNext := rfl
@[simp] theorem State.modLink_rings : (s.modLink i g14).rings = s.rings := rfl
@[simp] theorem State.modLink_ready : (s.modLink i g14).ready = s.ready := rfl
@[simp] theorem State.modLink_frames : (s.modLink i g14).frames = s.frames := rfl
@[simp] theorem State.modLink_closes : (s.modLink i g14).closes = s.closes := rfl
@[simp] theorem State.modLink_rxq : (s.modLink i g14).rxq = s.rxq := rfl
@[simp] theorem State.modLink_rxHeld : (s.modLink i g14).rxHeld = s.rxHeld := rfl
@[simp] theorem State.modLink_lines : (s.modLink i g14).lines = s.lines := rfl
@[simp] theorem State.modLink_rxNext : (s.modLink i g14).rxNext = s.rxNext := rfl
@[simp] theorem State.modLink_logs : (s.modLink i g14).logs = s.logs := rfl
@[simp] theorem State.modLink_gmsgs : (s.modLink i g14).gmsgs = s.gmsgs := rfl
@[simp] theorem State.modLink_migs : (s.modLink i g14).migs = s.migs := rfl
@[simp] theorem State.modLink_graft : (s.modLink i g14).graft = s.graft := rfl
@[simp] theorem State.modLink_secs : (s.modLink i g14).secs = s.secs := rfl
@[simp] theorem State.modLink_pts : (s.modLink i g14).pts = s.pts := rfl
@[simp] theorem State.modLink_remotes : (s.modLink i g14).remotes = s.remotes := rfl
@[simp] theorem State.modLink_claims : (s.modLink i g14).claims = s.claims := rfl
@[simp] theorem State.modLink_txEvents : (s.modLink i g14).txEvents = s.txEvents := rfl
@[simp] theorem State.modLink_accum : (s.modLink i g14).accum = s.accum := rfl
@[simp] theorem State.modLink_evalRest : (s.modLink i g14).evalRest = s.evalRest := rfl
@[simp] theorem State.modLink_results : (s.modLink i g14).results = s.results := rfl
@[simp] theorem State.modLink_takens : (s.modLink i g14).takens = s.takens := rfl
@[simp] theorem State.modLink_steps : (s.modLink i g14).steps = s.steps := rfl
@[simp] theorem State.modLink_vos : (s.modLink i g14).vos = s.vos := rfl
@[simp] theorem State.modLink_pgs : (s.modLink i g14).pgs = s.pgs := rfl
@[simp] theorem State.modLink_phases : (s.modLink i g14).phases = s.phases := rfl
@[simp] theorem State.modLink_keeper : (s.modLink i g14).keeper = s.keeper := rfl
@[simp] theorem State.modLink_commit : (s.modLink i g14).commit = s.commit := rfl
@[simp] theorem State.modLink_tap : (s.modLink i g14).tap = s.tap := rfl
@[simp] theorem State.modLink_hoursSet : (s.modLink i g14).hoursSet = s.hoursSet := rfl
@[simp] theorem State.modLink_trendAt : (s.modLink i g14).trendAt = s.trendAt := rfl
@[simp] theorem State.modLink_trimAt : (s.modLink i g14).trimAt = s.trimAt := rfl
@[simp] theorem State.modLink_restored : (s.modLink i g14).restored = s.restored := rfl
@[simp] theorem State.modLink_plan : (s.modLink i g14).plan = s.plan := rfl
@[simp] theorem State.modLink_fld (f₁ : Field) : (s.modLink i g14).fld f₁ j = s.fld f₁ j := rfl
@[simp] theorem State.modLink_byte : (s.modLink i g14).byte j = s.byte j := rfl
@[simp] theorem State.modLink_eng : (s.modLink i g14).eng j = s.eng j := rfl
@[simp] theorem State.modLink_core : (s.modLink i g14).core j = s.core j := rfl
@[simp] theorem State.modLink_badBits : (s.modLink i g14).badBits j = s.badBits j := rfl
@[simp] theorem State.modLink_link_self : (s.modLink i g14).link i = g14 (s.link i) := Tab.get_set_self _ _ _ _
theorem State.modLink_link_ne (h : j ≠ i) : (s.modLink i g14).link j = s.link j := Tab.get_set_ne _ _ _ _ h

/-! ### modPt -/

@[simp] theorem State.modPt_regs : (s.modPt i g15).regs = s.regs := rfl
@[simp] theorem State.modPt_mem : (s.modPt i g15).mem = s.mem := rfl
@[simp] theorem State.modPt_errs : (s.modPt i g15).errs = s.errs := rfl
@[simp] theorem State.modPt_tb : (s.modPt i g15).tb = s.tb := rfl
@[simp] theorem State.modPt_now : (s.modPt i g15).now = s.now := rfl
@[simp] theorem State.modPt_cycle : (s.modPt i g15).cycle = s.cycle := rfl
@[simp] theorem State.modPt_engines : (s.modPt i g15).engines = s.engines := rfl
@[simp] theorem State.modPt_cores : (s.modPt i g15).cores = s.cores := rfl
@[simp] theorem State.modPt_heart : (s.modPt i g15).heart = s.heart := rfl
@[simp] theorem State.modPt_arb : (s.modPt i g15).arb = s.arb := rfl
@[simp] theorem State.modPt_passes : (s.modPt i g15).passes = s.passes := rfl
@[simp] theorem State.modPt_cvs : (s.modPt i g15).cvs = s.cvs := rfl
@[simp] theorem State.modPt_free : (s.modPt i g15).free = s.free := rfl
@[simp] theorem State.modPt_pending : (s.modPt i g15).pending = s.pending := rfl
@[simp] theorem State.modPt_systems : (s.modPt i g15).systems = s.systems := rfl
@[simp] theorem State.modPt_heads : (s.modPt i g15).heads = s.heads := rfl
@[simp] theorem State.modPt_gridNext : (s.modPt i g15).gridNext = s.gridNext := rfl
@[simp] theorem State.modPt_latches : (s.modPt i g15).latches = s.latches := rfl
@[simp] theorem State.modPt_edges : (s.modPt i g15).edges = s.edges := rfl
@[simp] theorem State.modPt_dets : (s.modPt i g15).dets = s.dets := rfl
@[simp] theorem State.modPt_slices : (s.modPt i g15).slices = s.slices := rfl
@[simp] theorem State.modPt_badSlices : (s.modPt i g15).badSlices = s.badSlices := rfl
@[simp] theorem State.modPt_dip : (s.modPt i g15).dip = s.dip := rfl
@[simp] theorem State.modPt_tables : (s.modPt i g15).tables = s.tables := rfl
@[simp] theorem State.modPt_delivered : (s.modPt i g15).delivered = s.delivered := rfl
@[simp] theorem State.modPt_ports : (s.modPt i g15).ports = s.ports := rfl
@[simp] theorem State.modPt_agreements : (s.modPt i g15).agreements = s.agreements := rfl
@[simp] theorem State.modPt_agreed : (s.modPt i g15).agreed = s.agreed := rfl
@[simp] theorem State.modPt_locks : (s.modPt i g15).locks = s.locks := rfl
@[simp] theorem State.modPt_lockWait : (s.modPt i g15).lockWait = s.lockWait := rfl
@[simp] theorem State.modPt_cmds : (s.modPt i g15).cmds = s.cmds := rfl
@[simp] theorem State.modPt_fp : (s.modPt i g15).fp = s.fp := rfl
@[simp] theorem State.modPt_time : (s.modPt i g15).time = s.time := rfl
@[simp] theorem State.modPt_cycNext : (s.modPt i g15).cycNext = s.cycNext := rfl
@[simp] theorem State.modPt_rings : (s.modPt i g15).rings = s.rings := rfl
@[simp] theorem State.modPt_links : (s.modPt i g15).links = s.links := rfl
@[simp] theorem State.modPt_ready : (s.modPt i g15).ready = s.ready := rfl
@[simp] theorem State.modPt_frames : (s.modPt i g15).frames = s.frames := rfl
@[simp] theorem State.modPt_closes : (s.modPt i g15).closes = s.closes := rfl
@[simp] theorem State.modPt_rxq : (s.modPt i g15).rxq = s.rxq := rfl
@[simp] theorem State.modPt_rxHeld : (s.modPt i g15).rxHeld = s.rxHeld := rfl
@[simp] theorem State.modPt_lines : (s.modPt i g15).lines = s.lines := rfl
@[simp] theorem State.modPt_rxNext : (s.modPt i g15).rxNext = s.rxNext := rfl
@[simp] theorem State.modPt_logs : (s.modPt i g15).logs = s.logs := rfl
@[simp] theorem State.modPt_gmsgs : (s.modPt i g15).gmsgs = s.gmsgs := rfl
@[simp] theorem State.modPt_migs : (s.modPt i g15).migs = s.migs := rfl
@[simp] theorem State.modPt_graft : (s.modPt i g15).graft = s.graft := rfl
@[simp] theorem State.modPt_secs : (s.modPt i g15).secs = s.secs := rfl
@[simp] theorem State.modPt_remotes : (s.modPt i g15).remotes = s.remotes := rfl
@[simp] theorem State.modPt_claims : (s.modPt i g15).claims = s.claims := rfl
@[simp] theorem State.modPt_txEvents : (s.modPt i g15).txEvents = s.txEvents := rfl
@[simp] theorem State.modPt_accum : (s.modPt i g15).accum = s.accum := rfl
@[simp] theorem State.modPt_evalRest : (s.modPt i g15).evalRest = s.evalRest := rfl
@[simp] theorem State.modPt_results : (s.modPt i g15).results = s.results := rfl
@[simp] theorem State.modPt_takens : (s.modPt i g15).takens = s.takens := rfl
@[simp] theorem State.modPt_steps : (s.modPt i g15).steps = s.steps := rfl
@[simp] theorem State.modPt_vos : (s.modPt i g15).vos = s.vos := rfl
@[simp] theorem State.modPt_pgs : (s.modPt i g15).pgs = s.pgs := rfl
@[simp] theorem State.modPt_phases : (s.modPt i g15).phases = s.phases := rfl
@[simp] theorem State.modPt_keeper : (s.modPt i g15).keeper = s.keeper := rfl
@[simp] theorem State.modPt_commit : (s.modPt i g15).commit = s.commit := rfl
@[simp] theorem State.modPt_tap : (s.modPt i g15).tap = s.tap := rfl
@[simp] theorem State.modPt_hoursSet : (s.modPt i g15).hoursSet = s.hoursSet := rfl
@[simp] theorem State.modPt_trendAt : (s.modPt i g15).trendAt = s.trendAt := rfl
@[simp] theorem State.modPt_trimAt : (s.modPt i g15).trimAt = s.trimAt := rfl
@[simp] theorem State.modPt_restored : (s.modPt i g15).restored = s.restored := rfl
@[simp] theorem State.modPt_plan : (s.modPt i g15).plan = s.plan := rfl
@[simp] theorem State.modPt_fld (f₁ : Field) : (s.modPt i g15).fld f₁ j = s.fld f₁ j := rfl
@[simp] theorem State.modPt_byte : (s.modPt i g15).byte j = s.byte j := rfl
@[simp] theorem State.modPt_eng : (s.modPt i g15).eng j = s.eng j := rfl
@[simp] theorem State.modPt_core : (s.modPt i g15).core j = s.core j := rfl
@[simp] theorem State.modPt_badBits : (s.modPt i g15).badBits j = s.badBits j := rfl
@[simp] theorem State.modPt_pt_self : (s.modPt i g15).pt i = g15 (s.pt i) := Tab.get_set_self _ _ _ _
theorem State.modPt_pt_ne (h : j ≠ i) : (s.modPt i g15).pt j = s.pt j := Tab.get_set_ne _ _ _ _ h

/-! ### modSec -/

@[simp] theorem State.modSec_regs : (s.modSec i g16).regs = s.regs := rfl
@[simp] theorem State.modSec_mem : (s.modSec i g16).mem = s.mem := rfl
@[simp] theorem State.modSec_errs : (s.modSec i g16).errs = s.errs := rfl
@[simp] theorem State.modSec_tb : (s.modSec i g16).tb = s.tb := rfl
@[simp] theorem State.modSec_now : (s.modSec i g16).now = s.now := rfl
@[simp] theorem State.modSec_cycle : (s.modSec i g16).cycle = s.cycle := rfl
@[simp] theorem State.modSec_engines : (s.modSec i g16).engines = s.engines := rfl
@[simp] theorem State.modSec_cores : (s.modSec i g16).cores = s.cores := rfl
@[simp] theorem State.modSec_heart : (s.modSec i g16).heart = s.heart := rfl
@[simp] theorem State.modSec_arb : (s.modSec i g16).arb = s.arb := rfl
@[simp] theorem State.modSec_passes : (s.modSec i g16).passes = s.passes := rfl
@[simp] theorem State.modSec_cvs : (s.modSec i g16).cvs = s.cvs := rfl
@[simp] theorem State.modSec_free : (s.modSec i g16).free = s.free := rfl
@[simp] theorem State.modSec_pending : (s.modSec i g16).pending = s.pending := rfl
@[simp] theorem State.modSec_systems : (s.modSec i g16).systems = s.systems := rfl
@[simp] theorem State.modSec_heads : (s.modSec i g16).heads = s.heads := rfl
@[simp] theorem State.modSec_gridNext : (s.modSec i g16).gridNext = s.gridNext := rfl
@[simp] theorem State.modSec_latches : (s.modSec i g16).latches = s.latches := rfl
@[simp] theorem State.modSec_edges : (s.modSec i g16).edges = s.edges := rfl
@[simp] theorem State.modSec_dets : (s.modSec i g16).dets = s.dets := rfl
@[simp] theorem State.modSec_slices : (s.modSec i g16).slices = s.slices := rfl
@[simp] theorem State.modSec_badSlices : (s.modSec i g16).badSlices = s.badSlices := rfl
@[simp] theorem State.modSec_dip : (s.modSec i g16).dip = s.dip := rfl
@[simp] theorem State.modSec_tables : (s.modSec i g16).tables = s.tables := rfl
@[simp] theorem State.modSec_delivered : (s.modSec i g16).delivered = s.delivered := rfl
@[simp] theorem State.modSec_ports : (s.modSec i g16).ports = s.ports := rfl
@[simp] theorem State.modSec_agreements : (s.modSec i g16).agreements = s.agreements := rfl
@[simp] theorem State.modSec_agreed : (s.modSec i g16).agreed = s.agreed := rfl
@[simp] theorem State.modSec_locks : (s.modSec i g16).locks = s.locks := rfl
@[simp] theorem State.modSec_lockWait : (s.modSec i g16).lockWait = s.lockWait := rfl
@[simp] theorem State.modSec_cmds : (s.modSec i g16).cmds = s.cmds := rfl
@[simp] theorem State.modSec_fp : (s.modSec i g16).fp = s.fp := rfl
@[simp] theorem State.modSec_time : (s.modSec i g16).time = s.time := rfl
@[simp] theorem State.modSec_cycNext : (s.modSec i g16).cycNext = s.cycNext := rfl
@[simp] theorem State.modSec_rings : (s.modSec i g16).rings = s.rings := rfl
@[simp] theorem State.modSec_links : (s.modSec i g16).links = s.links := rfl
@[simp] theorem State.modSec_ready : (s.modSec i g16).ready = s.ready := rfl
@[simp] theorem State.modSec_frames : (s.modSec i g16).frames = s.frames := rfl
@[simp] theorem State.modSec_closes : (s.modSec i g16).closes = s.closes := rfl
@[simp] theorem State.modSec_rxq : (s.modSec i g16).rxq = s.rxq := rfl
@[simp] theorem State.modSec_rxHeld : (s.modSec i g16).rxHeld = s.rxHeld := rfl
@[simp] theorem State.modSec_lines : (s.modSec i g16).lines = s.lines := rfl
@[simp] theorem State.modSec_rxNext : (s.modSec i g16).rxNext = s.rxNext := rfl
@[simp] theorem State.modSec_logs : (s.modSec i g16).logs = s.logs := rfl
@[simp] theorem State.modSec_gmsgs : (s.modSec i g16).gmsgs = s.gmsgs := rfl
@[simp] theorem State.modSec_migs : (s.modSec i g16).migs = s.migs := rfl
@[simp] theorem State.modSec_graft : (s.modSec i g16).graft = s.graft := rfl
@[simp] theorem State.modSec_pts : (s.modSec i g16).pts = s.pts := rfl
@[simp] theorem State.modSec_remotes : (s.modSec i g16).remotes = s.remotes := rfl
@[simp] theorem State.modSec_claims : (s.modSec i g16).claims = s.claims := rfl
@[simp] theorem State.modSec_txEvents : (s.modSec i g16).txEvents = s.txEvents := rfl
@[simp] theorem State.modSec_accum : (s.modSec i g16).accum = s.accum := rfl
@[simp] theorem State.modSec_evalRest : (s.modSec i g16).evalRest = s.evalRest := rfl
@[simp] theorem State.modSec_results : (s.modSec i g16).results = s.results := rfl
@[simp] theorem State.modSec_takens : (s.modSec i g16).takens = s.takens := rfl
@[simp] theorem State.modSec_steps : (s.modSec i g16).steps = s.steps := rfl
@[simp] theorem State.modSec_vos : (s.modSec i g16).vos = s.vos := rfl
@[simp] theorem State.modSec_pgs : (s.modSec i g16).pgs = s.pgs := rfl
@[simp] theorem State.modSec_phases : (s.modSec i g16).phases = s.phases := rfl
@[simp] theorem State.modSec_keeper : (s.modSec i g16).keeper = s.keeper := rfl
@[simp] theorem State.modSec_commit : (s.modSec i g16).commit = s.commit := rfl
@[simp] theorem State.modSec_tap : (s.modSec i g16).tap = s.tap := rfl
@[simp] theorem State.modSec_hoursSet : (s.modSec i g16).hoursSet = s.hoursSet := rfl
@[simp] theorem State.modSec_trendAt : (s.modSec i g16).trendAt = s.trendAt := rfl
@[simp] theorem State.modSec_trimAt : (s.modSec i g16).trimAt = s.trimAt := rfl
@[simp] theorem State.modSec_restored : (s.modSec i g16).restored = s.restored := rfl
@[simp] theorem State.modSec_plan : (s.modSec i g16).plan = s.plan := rfl
@[simp] theorem State.modSec_fld (f₁ : Field) : (s.modSec i g16).fld f₁ j = s.fld f₁ j := rfl
@[simp] theorem State.modSec_byte : (s.modSec i g16).byte j = s.byte j := rfl
@[simp] theorem State.modSec_eng : (s.modSec i g16).eng j = s.eng j := rfl
@[simp] theorem State.modSec_core : (s.modSec i g16).core j = s.core j := rfl
@[simp] theorem State.modSec_badBits : (s.modSec i g16).badBits j = s.badBits j := rfl
@[simp] theorem State.modSec_sec_self : (s.modSec i g16).sec i = g16 (s.sec i) := Tab.get_set_self _ _ _ _
theorem State.modSec_sec_ne (h : j ≠ i) : (s.modSec i g16).sec j = s.sec j := Tab.get_set_ne _ _ _ _ h

/-! ### modTime -/

@[simp] theorem State.modTime_regs : (s.modTime g17).regs = s.regs := rfl
@[simp] theorem State.modTime_mem : (s.modTime g17).mem = s.mem := rfl
@[simp] theorem State.modTime_errs : (s.modTime g17).errs = s.errs := rfl
@[simp] theorem State.modTime_tb : (s.modTime g17).tb = s.tb := rfl
@[simp] theorem State.modTime_now : (s.modTime g17).now = s.now := rfl
@[simp] theorem State.modTime_cycle : (s.modTime g17).cycle = s.cycle := rfl
@[simp] theorem State.modTime_engines : (s.modTime g17).engines = s.engines := rfl
@[simp] theorem State.modTime_cores : (s.modTime g17).cores = s.cores := rfl
@[simp] theorem State.modTime_heart : (s.modTime g17).heart = s.heart := rfl
@[simp] theorem State.modTime_arb : (s.modTime g17).arb = s.arb := rfl
@[simp] theorem State.modTime_passes : (s.modTime g17).passes = s.passes := rfl
@[simp] theorem State.modTime_cvs : (s.modTime g17).cvs = s.cvs := rfl
@[simp] theorem State.modTime_free : (s.modTime g17).free = s.free := rfl
@[simp] theorem State.modTime_pending : (s.modTime g17).pending = s.pending := rfl
@[simp] theorem State.modTime_systems : (s.modTime g17).systems = s.systems := rfl
@[simp] theorem State.modTime_heads : (s.modTime g17).heads = s.heads := rfl
@[simp] theorem State.modTime_gridNext : (s.modTime g17).gridNext = s.gridNext := rfl
@[simp] theorem State.modTime_latches : (s.modTime g17).latches = s.latches := rfl
@[simp] theorem State.modTime_edges : (s.modTime g17).edges = s.edges := rfl
@[simp] theorem State.modTime_dets : (s.modTime g17).dets = s.dets := rfl
@[simp] theorem State.modTime_slices : (s.modTime g17).slices = s.slices := rfl
@[simp] theorem State.modTime_badSlices : (s.modTime g17).badSlices = s.badSlices := rfl
@[simp] theorem State.modTime_dip : (s.modTime g17).dip = s.dip := rfl
@[simp] theorem State.modTime_tables : (s.modTime g17).tables = s.tables := rfl
@[simp] theorem State.modTime_delivered : (s.modTime g17).delivered = s.delivered := rfl
@[simp] theorem State.modTime_ports : (s.modTime g17).ports = s.ports := rfl
@[simp] theorem State.modTime_agreements : (s.modTime g17).agreements = s.agreements := rfl
@[simp] theorem State.modTime_agreed : (s.modTime g17).agreed = s.agreed := rfl
@[simp] theorem State.modTime_locks : (s.modTime g17).locks = s.locks := rfl
@[simp] theorem State.modTime_lockWait : (s.modTime g17).lockWait = s.lockWait := rfl
@[simp] theorem State.modTime_cmds : (s.modTime g17).cmds = s.cmds := rfl
@[simp] theorem State.modTime_fp : (s.modTime g17).fp = s.fp := rfl
@[simp] theorem State.modTime_cycNext : (s.modTime g17).cycNext = s.cycNext := rfl
@[simp] theorem State.modTime_rings : (s.modTime g17).rings = s.rings := rfl
@[simp] theorem State.modTime_links : (s.modTime g17).links = s.links := rfl
@[simp] theorem State.modTime_ready : (s.modTime g17).ready = s.ready := rfl
@[simp] theorem State.modTime_frames : (s.modTime g17).frames = s.frames := rfl
@[simp] theorem State.modTime_closes : (s.modTime g17).closes = s.closes := rfl
@[simp] theorem State.modTime_rxq : (s.modTime g17).rxq = s.rxq := rfl
@[simp] theorem State.modTime_rxHeld : (s.modTime g17).rxHeld = s.rxHeld := rfl
@[simp] theorem State.modTime_lines : (s.modTime g17).lines = s.lines := rfl
@[simp] theorem State.modTime_rxNext : (s.modTime g17).rxNext = s.rxNext := rfl
@[simp] theorem State.modTime_logs : (s.modTime g17).logs = s.logs := rfl
@[simp] theorem State.modTime_gmsgs : (s.modTime g17).gmsgs = s.gmsgs := rfl
@[simp] theorem State.modTime_migs : (s.modTime g17).migs = s.migs := rfl
@[simp] theorem State.modTime_graft : (s.modTime g17).graft = s.graft := rfl
@[simp] theorem State.modTime_secs : (s.modTime g17).secs = s.secs := rfl
@[simp] theorem State.modTime_pts : (s.modTime g17).pts = s.pts := rfl
@[simp] theorem State.modTime_remotes : (s.modTime g17).remotes = s.remotes := rfl
@[simp] theorem State.modTime_claims : (s.modTime g17).claims = s.claims := rfl
@[simp] theorem State.modTime_txEvents : (s.modTime g17).txEvents = s.txEvents := rfl
@[simp] theorem State.modTime_accum : (s.modTime g17).accum = s.accum := rfl
@[simp] theorem State.modTime_evalRest : (s.modTime g17).evalRest = s.evalRest := rfl
@[simp] theorem State.modTime_results : (s.modTime g17).results = s.results := rfl
@[simp] theorem State.modTime_takens : (s.modTime g17).takens = s.takens := rfl
@[simp] theorem State.modTime_steps : (s.modTime g17).steps = s.steps := rfl
@[simp] theorem State.modTime_vos : (s.modTime g17).vos = s.vos := rfl
@[simp] theorem State.modTime_pgs : (s.modTime g17).pgs = s.pgs := rfl
@[simp] theorem State.modTime_phases : (s.modTime g17).phases = s.phases := rfl
@[simp] theorem State.modTime_keeper : (s.modTime g17).keeper = s.keeper := rfl
@[simp] theorem State.modTime_commit : (s.modTime g17).commit = s.commit := rfl
@[simp] theorem State.modTime_tap : (s.modTime g17).tap = s.tap := rfl
@[simp] theorem State.modTime_hoursSet : (s.modTime g17).hoursSet = s.hoursSet := rfl
@[simp] theorem State.modTime_trendAt : (s.modTime g17).trendAt = s.trendAt := rfl
@[simp] theorem State.modTime_trimAt : (s.modTime g17).trimAt = s.trimAt := rfl
@[simp] theorem State.modTime_restored : (s.modTime g17).restored = s.restored := rfl
@[simp] theorem State.modTime_plan : (s.modTime g17).plan = s.plan := rfl
@[simp] theorem State.modTime_fld (f₁ : Field) : (s.modTime g17).fld f₁ j = s.fld f₁ j := rfl
@[simp] theorem State.modTime_byte : (s.modTime g17).byte j = s.byte j := rfl
@[simp] theorem State.modTime_eng : (s.modTime g17).eng j = s.eng j := rfl
@[simp] theorem State.modTime_core : (s.modTime g17).core j = s.core j := rfl
@[simp] theorem State.modTime_badBits : (s.modTime g17).badBits j = s.badBits j := rfl
@[simp] theorem State.modTime_time : (s.modTime g17).time = g17 s.time := rfl

/-! ### modVo -/

@[simp] theorem State.modVo_regs : (s.modVo i g18).regs = s.regs := rfl
@[simp] theorem State.modVo_mem : (s.modVo i g18).mem = s.mem := rfl
@[simp] theorem State.modVo_errs : (s.modVo i g18).errs = s.errs := rfl
@[simp] theorem State.modVo_tb : (s.modVo i g18).tb = s.tb := rfl
@[simp] theorem State.modVo_now : (s.modVo i g18).now = s.now := rfl
@[simp] theorem State.modVo_cycle : (s.modVo i g18).cycle = s.cycle := rfl
@[simp] theorem State.modVo_engines : (s.modVo i g18).engines = s.engines := rfl
@[simp] theorem State.modVo_cores : (s.modVo i g18).cores = s.cores := rfl
@[simp] theorem State.modVo_heart : (s.modVo i g18).heart = s.heart := rfl
@[simp] theorem State.modVo_arb : (s.modVo i g18).arb = s.arb := rfl
@[simp] theorem State.modVo_passes : (s.modVo i g18).passes = s.passes := rfl
@[simp] theorem State.modVo_cvs : (s.modVo i g18).cvs = s.cvs := rfl
@[simp] theorem State.modVo_free : (s.modVo i g18).free = s.free := rfl
@[simp] theorem State.modVo_pending : (s.modVo i g18).pending = s.pending := rfl
@[simp] theorem State.modVo_systems : (s.modVo i g18).systems = s.systems := rfl
@[simp] theorem State.modVo_heads : (s.modVo i g18).heads = s.heads := rfl
@[simp] theorem State.modVo_gridNext : (s.modVo i g18).gridNext = s.gridNext := rfl
@[simp] theorem State.modVo_latches : (s.modVo i g18).latches = s.latches := rfl
@[simp] theorem State.modVo_edges : (s.modVo i g18).edges = s.edges := rfl
@[simp] theorem State.modVo_dets : (s.modVo i g18).dets = s.dets := rfl
@[simp] theorem State.modVo_slices : (s.modVo i g18).slices = s.slices := rfl
@[simp] theorem State.modVo_badSlices : (s.modVo i g18).badSlices = s.badSlices := rfl
@[simp] theorem State.modVo_dip : (s.modVo i g18).dip = s.dip := rfl
@[simp] theorem State.modVo_tables : (s.modVo i g18).tables = s.tables := rfl
@[simp] theorem State.modVo_delivered : (s.modVo i g18).delivered = s.delivered := rfl
@[simp] theorem State.modVo_ports : (s.modVo i g18).ports = s.ports := rfl
@[simp] theorem State.modVo_agreements : (s.modVo i g18).agreements = s.agreements := rfl
@[simp] theorem State.modVo_agreed : (s.modVo i g18).agreed = s.agreed := rfl
@[simp] theorem State.modVo_locks : (s.modVo i g18).locks = s.locks := rfl
@[simp] theorem State.modVo_lockWait : (s.modVo i g18).lockWait = s.lockWait := rfl
@[simp] theorem State.modVo_cmds : (s.modVo i g18).cmds = s.cmds := rfl
@[simp] theorem State.modVo_fp : (s.modVo i g18).fp = s.fp := rfl
@[simp] theorem State.modVo_time : (s.modVo i g18).time = s.time := rfl
@[simp] theorem State.modVo_cycNext : (s.modVo i g18).cycNext = s.cycNext := rfl
@[simp] theorem State.modVo_rings : (s.modVo i g18).rings = s.rings := rfl
@[simp] theorem State.modVo_links : (s.modVo i g18).links = s.links := rfl
@[simp] theorem State.modVo_ready : (s.modVo i g18).ready = s.ready := rfl
@[simp] theorem State.modVo_frames : (s.modVo i g18).frames = s.frames := rfl
@[simp] theorem State.modVo_closes : (s.modVo i g18).closes = s.closes := rfl
@[simp] theorem State.modVo_rxq : (s.modVo i g18).rxq = s.rxq := rfl
@[simp] theorem State.modVo_rxHeld : (s.modVo i g18).rxHeld = s.rxHeld := rfl
@[simp] theorem State.modVo_lines : (s.modVo i g18).lines = s.lines := rfl
@[simp] theorem State.modVo_rxNext : (s.modVo i g18).rxNext = s.rxNext := rfl
@[simp] theorem State.modVo_logs : (s.modVo i g18).logs = s.logs := rfl
@[simp] theorem State.modVo_gmsgs : (s.modVo i g18).gmsgs = s.gmsgs := rfl
@[simp] theorem State.modVo_migs : (s.modVo i g18).migs = s.migs := rfl
@[simp] theorem State.modVo_graft : (s.modVo i g18).graft = s.graft := rfl
@[simp] theorem State.modVo_secs : (s.modVo i g18).secs = s.secs := rfl
@[simp] theorem State.modVo_pts : (s.modVo i g18).pts = s.pts := rfl
@[simp] theorem State.modVo_remotes : (s.modVo i g18).remotes = s.remotes := rfl
@[simp] theorem State.modVo_claims : (s.modVo i g18).claims = s.claims := rfl
@[simp] theorem State.modVo_txEvents : (s.modVo i g18).txEvents = s.txEvents := rfl
@[simp] theorem State.modVo_accum : (s.modVo i g18).accum = s.accum := rfl
@[simp] theorem State.modVo_evalRest : (s.modVo i g18).evalRest = s.evalRest := rfl
@[simp] theorem State.modVo_results : (s.modVo i g18).results = s.results := rfl
@[simp] theorem State.modVo_takens : (s.modVo i g18).takens = s.takens := rfl
@[simp] theorem State.modVo_steps : (s.modVo i g18).steps = s.steps := rfl
@[simp] theorem State.modVo_pgs : (s.modVo i g18).pgs = s.pgs := rfl
@[simp] theorem State.modVo_phases : (s.modVo i g18).phases = s.phases := rfl
@[simp] theorem State.modVo_keeper : (s.modVo i g18).keeper = s.keeper := rfl
@[simp] theorem State.modVo_commit : (s.modVo i g18).commit = s.commit := rfl
@[simp] theorem State.modVo_tap : (s.modVo i g18).tap = s.tap := rfl
@[simp] theorem State.modVo_hoursSet : (s.modVo i g18).hoursSet = s.hoursSet := rfl
@[simp] theorem State.modVo_trendAt : (s.modVo i g18).trendAt = s.trendAt := rfl
@[simp] theorem State.modVo_trimAt : (s.modVo i g18).trimAt = s.trimAt := rfl
@[simp] theorem State.modVo_restored : (s.modVo i g18).restored = s.restored := rfl
@[simp] theorem State.modVo_plan : (s.modVo i g18).plan = s.plan := rfl
@[simp] theorem State.modVo_fld (f₁ : Field) : (s.modVo i g18).fld f₁ j = s.fld f₁ j := rfl
@[simp] theorem State.modVo_byte : (s.modVo i g18).byte j = s.byte j := rfl
@[simp] theorem State.modVo_eng : (s.modVo i g18).eng j = s.eng j := rfl
@[simp] theorem State.modVo_core : (s.modVo i g18).core j = s.core j := rfl
@[simp] theorem State.modVo_badBits : (s.modVo i g18).badBits j = s.badBits j := rfl
@[simp] theorem State.modVo_vo_self : (s.modVo i g18).vo i = g18 (s.vo i) := Tab.get_set_self _ _ _ _
theorem State.modVo_vo_ne (h : j ≠ i) : (s.modVo i g18).vo j = s.vo j := Tab.get_set_ne _ _ _ _ h

end Sys2Proof.Machine
end

