-- ==== Sys2Proof/Laws/Memory.lean ====
section
/-! SUPPORT. Memory: what a read gives after a write, what a write leaves, and that every change of memory keeps its canonical form. -/

namespace Sys2Proof.Machine

/-! ### One byte -/

@[simp] theorem State.byte_setByte_self (k : Nat) (v : Byte) (s : State) : (s.setByte k v).byte k = v :=
  Tab.get_set_self _ _ _ _

theorem State.byte_setByte_ne {j k : Nat} (v : Byte) (s : State) (h : j ≠ k) : (s.setByte k v).byte j = s.byte j :=
  Tab.get_set_ne _ _ _ _ h

/-! ### Numbers -/

/-- A write of `n` bytes leaves every byte outside them. -/
theorem State.byte_wr_of_out {j : Nat} (n : Nat) : ∀ (k v : Nat) (s : State), j < k ∨ k + n ≤ j → (s.wr k n v).byte j = s.byte j := by
  induction n with
  | zero => intro k v s _; rfl
  | succ n ih =>
    intro k v s h
    simp only [State.wr]
    rw [ih (k + 1) (v / 256) _ (by omega), State.byte_setByte_ne _ _ (by omega)]

/-- A write of `n` bytes gives byte `i` of the value at offset `i`. -/
theorem State.byte_wr_of_in (n : Nat) : ∀ (k v i : Nat) (s : State), i < n → (s.wr k n v).byte (k + i) = BitVec.ofNat 8 (v / 256 ^ i) := by
  induction n with
  | zero => intro k v i s h; omega
  | succ n ih =>
    intro k v i s h
    simp only [State.wr]
    cases i with
    | zero => rw [State.byte_wr_of_out n _ _ _ (by omega)]; simp
    | succ i =>
      rw [show k + (i + 1) = k + 1 + i by omega, ih (k + 1) (v / 256) i _ (by omega), Nat.div_div_eq_div_mul, Nat.pow_succ']

/-- A write changes memory alone. -/
theorem State.wr_frame (n : Nat) : ∀ (k v : Nat) (s : State), s.wr k n v = { s with mem := (s.wr k n v).mem } := by
  induction n with
  | zero => intro k v s; rfl
  | succ n ih =>
    intro k v s
    simp only [State.wr]
    rw [ih]
    rfl

/-- A read within the bytes of two states that agree there. -/
theorem State.rd_congr (n : Nat) : ∀ (k : Nat) (s t : State), (∀ i, i < n → s.byte (k + i) = t.byte (k + i)) → s.rd k n = t.rd k n := by
  induction n with
  | zero => intro k s t _; rfl
  | succ n ih =>
    intro k s t h
    simp only [State.rd]
    rw [ih (k + 1) s t (fun i hi => by rw [show k + 1 + i = k + (i + 1) by omega]; exact h (i + 1) (by omega))]
    have := h 0 (by omega)
    simp only [Nat.add_zero] at this
    rw [this]

/-- A read outside the bytes written reads as before. -/
theorem State.rd_wr_of_out (s : State) (k n v j m : Nat) (h : j + m ≤ k ∨ k + n ≤ j) : (s.wr k n v).rd j m = s.rd j m :=
  State.rd_congr m j _ _ (fun i hi => State.byte_wr_of_out n k v s (by omega))

/-- A read of what was just written. -/
theorem State.rd_wr (n : Nat) : ∀ (k v : Nat) (s : State), (s.wr k n v).rd k n = v % 256 ^ n := by
  induction n with
  | zero => intro k v s; simp [State.rd, Nat.mod_one]
  | succ n ih =>
    intro k v s
    have h0 : ((s.wr k (n + 1) v).byte k).toNat = v % 256 := by
      have := State.byte_wr_of_in (n + 1) k v 0 s (by omega)
      simp only [Nat.add_zero, Nat.pow_zero, Nat.div_one] at this
      rw [this, BitVec.toNat_ofNat]
    have h1 : (s.wr k (n + 1) v).rd (k + 1) n = v / 256 % 256 ^ n := by
      simp only [State.wr]
      exact ih (k + 1) (v / 256) _
    rw [show (s.wr k (n + 1) v).rd k (n + 1)
      = ((s.wr k (n + 1) v).byte k).toNat + 256 * (s.wr k (n + 1) v).rd (k + 1) n from rfl, h0, h1, Nat.pow_succ', Nat.mod_mul]

/-! ### Lists of bytes -/

@[simp] theorem State.length_rdL (s : State) (n : Nat) : ∀ k, (s.rdL k n).length = n := by
  induction n with
  | zero => intro k; rfl
  | succ n ih => intro k; simp [State.rdL, ih]

/-- A write of a list of bytes leaves every byte outside it. -/
theorem State.byte_wrL_of_out {j : Nat} (l : List Byte) :
    ∀ (k : Nat) (s : State), j < k ∨ k + l.length ≤ j → (s.wrL k l).byte j = s.byte j := by
  induction l with
  | nil => intro k s _; rfl
  | cons b t ih =>
    intro k s h
    simp only [List.length_cons] at h
    simp only [State.wrL]
    rw [ih (k + 1) _ (by omega), State.byte_setByte_ne _ _ (by omega)]

/-- A write of a list of bytes gives element `i` at offset `i`. -/
theorem State.byte_wrL_of_in (l : List Byte) :
    ∀ (k i : Nat) (s : State) (h : i < l.length), (s.wrL k l).byte (k + i) = l[i] := by
  induction l with
  | nil => intro k i s h; simp at h
  | cons b t ih =>
    intro k i s h
    simp only [State.wrL]
    cases i with
    | zero => rw [State.byte_wrL_of_out t _ _ (by omega)]; simp
    | succ i =>
      rw [show k + (i + 1) = k + 1 + i by omega, ih (k + 1) i _ (by simpa using h)]
      simp

/-- A write of a list of bytes changes memory alone. -/
theorem State.wrL_frame (l : List Byte) : ∀ (k : Nat) (s : State), s.wrL k l = { s with mem := (s.wrL k l).mem } := by
  induction l with
  | nil => intro k s; rfl
  | cons b t ih =>
    intro k s
    simp only [State.wrL]
    rw [ih]
    rfl

/-! ### The canonical form -/

theorem Memory.wf_setByte (k : Nat) (v : Byte) {s : State} (h : Memory.wf s.mem = true) : Memory.wf (s.setByte k v).mem = true :=
  Tab.wf_set k v h

theorem Memory.wf_wr (n : Nat) : ∀ (k v : Nat) {s : State}, Memory.wf s.mem = true → Memory.wf (s.wr k n v).mem = true := by
  induction n with
  | zero => intro k v s h; exact h
  | succ n ih => intro k v s h; exact ih _ _ (Memory.wf_setByte _ _ h)

theorem Memory.wf_wrW (k v : Nat) {s : State} (h : Memory.wf s.mem = true) : Memory.wf (s.wrW k v).mem = true := Memory.wf_wr 4 k v h

theorem Memory.wf_wrL (l : List Byte) : ∀ (k : Nat) {s : State}, Memory.wf s.mem = true → Memory.wf (s.wrL k l).mem = true := by
  induction l with
  | nil => intro k s h; exact h
  | cons b t ih => intro k s h; exact ih _ (Memory.wf_setByte _ _ h)

theorem Memory.wf_copyBytes (a b n : Nat) {s : State} (h : Memory.wf s.mem = true) : Memory.wf (s.copyBytes a b n).mem = true :=
  Memory.wf_wrL _ _ h

theorem Memory.wf_putSpace {sp : Nat} (h0 : 0 < sp) {cells : Tab Byte} {s : State} (h : Memory.wf s.mem = true) (hc : Memory.wf cells = true)
    (hs : ∀ p ∈ cells, p.1 / 2 ^ 32 = sp) : Memory.wf (s.putSpace sp cells).mem = true := by
  refine Tab.wf_append (sp * 2 ^ 32 - 1) (Tab.wf_filter _ h) (Tab.wf_append (sp * 2 ^ 32 + 2 ^ 32 - 1) hc (Tab.wf_filter _ h) ?_ ?_) ?_ ?_
  · intro p hp; have := hs p hp; omega
  · intro p hp; simp only [List.mem_filter, decide_eq_true_eq] at hp; omega
  · intro p hp; simp only [List.mem_filter, decide_eq_true_eq] at hp; omega
  · intro p hp
    simp only [List.mem_append, List.mem_filter, decide_eq_true_eq] at hp
    rcases hp with hp | hp
    · have := hs p hp; omega
    · omega

/-- Removing bytes, as a reset, an erasure and a cleared space do, keeps the form. -/
theorem Memory.wf_filter (p : Nat × Byte → Bool) {m : Tab Byte} (h : Memory.wf m = true) : Memory.wf (m.filter p) = true :=
  Tab.wf_filter p h

theorem Memory.wf_reset : Memory.wf State.reset.mem = true := rfl

/-- In canonical form, memories that read alike are equal. -/
theorem Memory.eq_of_byte_eq {s t : State} (hs : Memory.wf s.mem = true) (ht : Memory.wf t.mem = true)
    (h : ∀ k, s.byte k = t.byte k) : s.mem = t.mem := Tab.eq_of_get_eq hs ht h

end Sys2Proof.Machine
end

