-- ==== Sys2Proof/Laws/Ops.lean ====
section
/-! SUPPORT. What each shared operation on the state can do, said once: register fields, iteration, time, events, rejected writes,
memory errors, and register writes by access code. -/

namespace Sys2Proof.Machine

/-! ### Iteration -/

@[simp] theorem forEach_nil {α : Type} (f : α → State → State) (s : State) : forEach [] f s = s := rfl
@[simp] theorem forEach_cons {α : Type} (x : α) (l : List α) (f : α → State → State) (s : State) :
    forEach (x :: l) f s = forEach l f (f x s) := rfl
theorem forEach_append {α : Type} (l m : List α) (f : α → State → State) (s : State) :
    forEach (l ++ m) f s = forEach m f (forEach l f s) := by simp [forEach]
@[simp] theorem onlyIf_true (f : State → State) (s : State) : onlyIf true f s = f s := rfl
@[simp] theorem onlyIf_false (f : State → State) (s : State) : onlyIf false f s = s := rfl

/-- What every change keeps, the iteration keeps. -/
theorem forEach_keeps {α : Type} {P : State → Prop} {f : α → State → State} (l : List α) (hf : ∀ x ∈ l, ∀ t, P t → P (f x t)) :
    ∀ {s : State}, P s → P (forEach l f s) := by
  induction l with
  | nil => intro s h; exact h
  | cons x l ih =>
    intro s h
    exact ih (fun y hy => hf y (List.mem_cons_of_mem x hy)) (hf x (by simp) s h)

/-- What every change leaves, the iteration leaves. -/
theorem forEach_frame {α β : Type} {g : State → β} {f : α → State → State} (l : List α) (hf : ∀ x ∈ l, ∀ t, g (f x t) = g t)
    (s : State) : g (forEach l f s) = g s :=
  forEach_keeps (P := fun t => g t = g s) l (fun x hx t ht => (hf x hx t).trans ht) rfl

theorem onlyIf_keeps {P : State → Prop} {f : State → State} (c : Bool) (hf : ∀ t, P t → P (f t)) {s : State} (h : P s) :
    P (onlyIf c f s) := by
  cases c
  · exact h
  · exact hf s h

theorem onlyIf_frame {β : Type} {g : State → β} {f : State → State} (c : Bool) (hf : ∀ t, g (f t) = g t) (s : State) :
    g (onlyIf c f s) = g s := by
  cases c
  · rfl
  · exact hf s

/-! ### Register fields -/

@[simp] theorem State.fld_setFld_self (s : State) (f : Field) (i v : Nat) : (s.setFld f i v).fld f i = v % 2 ^ f.w :=
  Tab.get_set_self _ _ _ _

theorem State.fld_setFld_ne (s : State) {f g : Field} {i j : Nat} (v : Nat) (h : g.key j ≠ f.key i) :
    (s.setFld f i v).fld g j = s.fld g j := Tab.get_set_ne _ _ _ _ h

/-- Fields of different registers or places within the register space do not meet. -/
theorem Field.key_ne {f g : Field} {i j : Nat} (hf : f.addr < 65536) (hg : g.addr < 65536) (hlf : f.lo < 32) (hlg : g.lo < 32)
    (h : i ≠ j ∨ f.addr ≠ g.addr ∨ f.lo ≠ g.lo) : g.key j ≠ f.key i := by
  unfold Field.key
  omega

theorem State.fld_putFbit_self (s : State) (f : Field) (i b : Nat) (v : Bool) :
    (s.putFbit f i b v).fld f i = putBit (s.fld f i) b v % 2 ^ f.w := State.fld_setFld_self _ _ _ _

theorem State.fld_putFbit_ne (s : State) {f g : Field} {i j : Nat} (b : Nat) (v : Bool) (h : g.key j ≠ f.key i) :
    (s.putFbit f i b v).fld g j = s.fld g j := State.fld_setFld_ne s _ h

theorem State.fld_countFld_self (s : State) (f : Field) (i n : Nat) :
    (s.countFld f i n).fld f i = min (2 ^ f.w - 1) (s.fld f i + n) := by
  unfold State.countFld satAdd
  rw [State.fld_setFld_self, Nat.mod_eq_of_lt]
  have : 0 < 2 ^ f.w := Nat.two_pow_pos _
  omega

theorem State.fld_countFld_ne (s : State) {f g : Field} {i j : Nat} (n : Nat) (h : g.key j ≠ f.key i) :
    (s.countFld f i n).fld g j = s.fld g j := State.fld_setFld_ne s _ h

/-- Every field but the one set is kept. -/
theorem Kept.setFld (s : State) (f : Field) (i v : Nat) : Kept [f.key i] s (s.setFld f i v) := by
  intro g j h
  exact State.fld_setFld_ne s v (by simpa using h)

theorem Kept.refl (ks : List Nat) (s : State) : Kept ks s s := fun _ _ _ => rfl

theorem Kept.trans {ks : List Nat} {s t u : State} (h : Kept ks s t) (h' : Kept ks t u) : Kept ks s u :=
  fun f i hk => (h' f i hk).trans (h f i hk)

theorem Kept.mono {ks ls : List Nat} (hs : ∀ k ∈ ks, k ∈ ls) {s t : State} (h : Kept ks s t) : Kept ls s t :=
  fun f i hk => h f i (fun hm => hk (hs _ hm))

/-! ### Time -/

@[simp] theorem State.advance_tb_eq (s : State) (n : Nat) : (s.advance n).tb = s.tb + n := rfl
theorem State.advanceTo_tb_eq (s : State) (t : Nat) : (s.advanceTo t).tb = max s.tb t := by
  simp only [State.advanceTo, State.advance]
  omega
@[simp] theorem State.fresh_fst (s : State) : s.fresh.1 = Config.freeValue s.free := rfl
@[simp] theorem State.fresh_snd (s : State) : s.fresh.2 = { s with free := s.free + 1 } := rfl

/-! ### Rejected writes and waits -/

/-- A rejected write changes a register field alone: the count of the requester's input. -/
theorem State.reject_frame (s : State) (q : Req) : s.reject q = { s with regs := (s.reject q).regs } := rfl

theorem State.fld_reject (s : State) (q : Req) :
    (s.reject q).fld MI_ILONG.REJ (s.input q) = min (2 ^ MI_ILONG.REJ.w - 1) (s.fld MI_ILONG.REJ (s.input q) + 1) :=
  State.fld_countFld_self s _ _ _

theorem Kept.reject (s : State) (q : Req) : Kept [MI_ILONG.REJ.key (s.input q)] s (s.reject q) := Kept.setFld s _ _ _

theorem noteWait_frame (i n : Nat) (s : State) : noteWait i n s = { s with regs := (noteWait i n s).regs } := by
  unfold noteWait
  split <;> rfl

theorem fld_noteWait (i n : Nat) (s : State) :
    (noteWait i n s).fld MI_ILONG.LONG i = max (s.fld MI_ILONG.LONG i) (min 0xFFFF n) := by
  unfold noteWait
  split
  · rw [State.fld_setFld_self, show MI_ILONG.LONG.w = 16 from rfl]
    omega
  · omega

/-! ### Signals and events -/

theorem State.pendEng_eng_self (s : State) (i e : Nat) :
    (s.pendEng i e).eng i = (let y := { s.eng i with pend := (s.eng i).pend ||| (1#16 <<< e) }
      { y with run := if s.heart.stepping.contains i && (s.eng i).run == .waiting && y.wakes then .halted else (s.eng i).run }) :=
  State.modEng_eng_self _ _ _

/-- An engine that does not single-step only takes the pending bit. -/
theorem State.pendEng_eng_plain (s : State) (i e : Nat) (h : s.heart.stepping.contains i = false) :
    (s.pendEng i e).eng i = { s.eng i with pend := (s.eng i).pend ||| (1#16 <<< e) } := by
  rw [State.pendEng_eng_self, h]; rfl

theorem State.pendEng_pend_self (s : State) (i e : Nat) : ((s.pendEng i e).eng i).pend = (s.eng i).pend ||| (1#16 <<< e) := by
  rw [State.pendEng_eng_self]

theorem State.pendEng_eng_ne (s : State) {i j : Nat} (e : Nat) (h : j ≠ i) : (s.pendEng i e).eng j = s.eng j :=
  State.modEng_eng_ne _ _ _ _ h

theorem forEach_modCore_frame {α : Type} (l : List α) (c : α → Nat) (f : α → Core → Core) :
    ∀ s : State, forEach l (fun x => State.modCore (c x) (f x)) s
      = { s with cores := (forEach l (fun x => State.modCore (c x) (f x)) s).cores } := by
  induction l with
  | nil => intro s; rfl
  | cons x l ih =>
    intro s
    rw [forEach_cons, ih]
    rfl

/-- A signal to the Heartwood changes the pending events of the engines, or the signals of the cores, and nothing else. -/
theorem State.toHeart_frame (s : State) (g : Sig) :
    s.toHeart g = { s with engines := (s.toHeart g).engines, cores := (s.toHeart g).cores } := by
  unfold State.toHeart
  split
  · cases g <;> rfl
  · rw [forEach_modCore_frame]

theorem State.raise_frame (s : State) (e : Nat) :
    s.raise e = { s with engines := (s.raise e).engines, cores := (s.raise e).cores } := by
  unfold State.raise
  rw [State.toHeart_frame]
  rfl

theorem State.toHeart_eng (s : State) (e j : Nat) (h : 1 < j ∨ s.isSplit = false) : (s.toHeart (.event e)).eng j = s.eng j := by
  unfold State.toHeart
  split
  · rename_i hs
    rw [State.pendEng_eng_ne _ _ (by simp [hs] at h; omega), State.pendEng_eng_ne _ _ (by simp [hs] at h; omega)]
  · rw [forEach_modCore_frame]
    rfl

theorem State.toHeart_heart (s : State) (g : Sig) : (s.toHeart g).heart = s.heart := by rw [State.toHeart_frame]

/-- An event reaches the Root engine. -/
theorem State.raise_root (s : State) (e : Nat) (h : s.heart.stepping.contains 9 = false) :
    (s.raise e).eng 9 = { s.eng 9 with pend := (s.eng 9).pend ||| (1#16 <<< e) } := by
  unfold State.raise
  rw [State.pendEng_eng_plain _ _ _ (by rw [State.toHeart_heart]; exact h), State.toHeart_eng _ _ _ (.inl (by omega))]

theorem State.raise_root_pend (s : State) (e : Nat) : ((s.raise e).eng 9).pend = (s.eng 9).pend ||| (1#16 <<< e) := by
  unfold State.raise
  rw [State.pendEng_pend_self, State.toHeart_eng _ _ _ (.inl (by omega))]

/-- An event leaves the Sapwood engines. -/
theorem State.raise_sapwood (s : State) (e : Nat) {j : Nat} (h : 1 < j) (h9 : j ≠ 9) : (s.raise e).eng j = s.eng j := by
  unfold State.raise
  rw [State.pendEng_eng_ne _ _ h9, State.toHeart_eng _ _ _ (.inl h)]

@[simp] theorem State.raise_regs (s : State) (e : Nat) : (s.raise e).regs = s.regs := by rw [State.raise_frame]
@[simp] theorem State.raise_mem (s : State) (e : Nat) : (s.raise e).mem = s.mem := by rw [State.raise_frame]
@[simp] theorem State.raise_pending (s : State) (e : Nat) : (s.raise e).pending = s.pending := by rw [State.raise_frame]
@[simp] theorem State.raise_fld (s : State) (e : Nat) (f : Field) (i : Nat) : (s.raise e).fld f i = s.fld f i := by
  unfold State.fld
  rw [State.raise_regs]
@[simp] theorem State.raise_byte (s : State) (e k : Nat) : (s.raise e).byte k = s.byte k := by
  unfold State.byte
  rw [State.raise_mem]

theorem State.flag_frame (s : State) (f : Field) (e : Nat) :
    s.flag f e = { s with regs := (s.flag f e).regs, engines := (s.flag f e).engines, cores := (s.flag f e).cores } := by
  unfold State.flag
  rw [State.raise_frame]
  rfl

theorem State.fld_flag_self (s : State) (f : Field) (e : Nat) : (s.flag f e).fld f 0 = 1 % 2 ^ f.w := by
  unfold State.flag
  rw [State.raise_fld, State.fld_setFld_self]

theorem Kept.flag (s : State) (f : Field) (e : Nat) : Kept [f.key 0] s (s.flag f e) := by
  intro g j h
  unfold State.flag
  rw [State.raise_fld]
  exact Kept.setFld s f 0 1 g j h

@[simp] theorem State.flag_mem (s : State) (f : Field) (e : Nat) : (s.flag f e).mem = s.mem := by rw [State.flag_frame]
@[simp] theorem State.flag_pending (s : State) (f : Field) (e : Nat) : (s.flag f e).pending = s.pending := by rw [State.flag_frame]

theorem State.flagBit_frame (s : State) (f : Field) (b e : Nat) :
    s.flagBit f b e
      = { s with regs := (s.flagBit f b e).regs, engines := (s.flagBit f b e).engines, cores := (s.flagBit f b e).cores } := by
  unfold State.flagBit
  rw [State.raise_frame]
  rfl

@[simp] theorem State.flagBit_mem (s : State) (f : Field) (b e : Nat) : (s.flagBit f b e).mem = s.mem := by rw [State.flagBit_frame]
@[simp] theorem State.flagBit_pending (s : State) (f : Field) (b e : Nat) : (s.flagBit f b e).pending = s.pending := by
  rw [State.flagBit_frame]

/-! ### Coded memory -/

@[simp] theorem State.badBits_setBad_self (s : State) (k n : Nat) : (s.setBad k n).badBits k = n := Tab.get_set_self _ _ _ _
theorem State.badBits_setBad_ne (s : State) {j k : Nat} (n : Nat) (h : j / 16 ≠ k / 16) : (s.setBad k n).badBits j = s.badBits j :=
  Tab.get_set_ne _ _ _ _ h

/-- A correction changes counters and flags, the pending event, and the block's mark; no byte of memory. -/
theorem State.correct_frame (s : State) (k : Nat) :
    s.correct k = { s with regs := (s.correct k).regs, engines := (s.correct k).engines, cores := (s.correct k).cores,
                           errs := (s.correct k).errs } := by
  unfold State.correct
  dsimp only
  cases (kindOfKey k != 0)
  · rw [onlyIf_false, State.flag_frame]
    rfl
  · rw [onlyIf_true, State.flag_frame]
    rfl

theorem State.flag_onlyIf_flag (s : State) (f g : Field) (e e' : Nat) (c : Bool) :
    onlyIf c (State.flag g e') (s.flag f e)
      = { s with regs := (onlyIf c (State.flag g e') (s.flag f e)).regs, engines := (onlyIf c (State.flag g e') (s.flag f e)).engines,
                 cores := (onlyIf c (State.flag g e') (s.flag f e)).cores } := by
  cases c
  · exact State.flag_frame s f e
  · rw [onlyIf_true, State.flag_frame (s.flag f e) g e', State.flag_frame s f e]

/-- A record of an uncorrectable block changes its registers, its flags and the pending event. -/
theorem State.recordUe_frame (s : State) (inp k : Nat) (write : Bool) :
    s.recordUe inp k write = { s with regs := (s.recordUe inp k write).regs, engines := (s.recordUe inp k write).engines,
                                      cores := (s.recordUe inp k write).cores } := by
  unfold State.recordUe
  dsimp only
  rw [State.flag_onlyIf_flag]
  rfl

/-- A block read delivers data with at most two wrong bits, corrected on the way, and none with more. -/
theorem State.readBlock_cases (s : State) (inp k : Nat) :
    (s.badBits k = 0 ∧ s.readBlock inp k = (true, s))
    ∨ ((s.badBits k = 1 ∨ s.badBits k = 2) ∧ s.readBlock inp k = (true, s.correct k))
    ∨ (3 ≤ s.badBits k ∧ s.readBlock inp k = (false, s.recordUe inp k false)) := by
  unfold State.readBlock
  split
  · exact .inl ⟨‹_›, rfl⟩
  · exact .inr (.inl ⟨.inl ‹_›, rfl⟩)
  · exact .inr (.inl ⟨.inr ‹_›, rfl⟩)
  · rename_i h0 h1 h2
    have h0' : s.badBits k ≠ 0 := h0
    have h1' : s.badBits k ≠ 1 := h1
    have h2' : s.badBits k ≠ 2 := h2
    exact .inr (.inr ⟨by omega, rfl⟩)

theorem State.mergeBlock_cases (s : State) (inp k : Nat) :
    (s.badBits k = 0 ∧ s.mergeBlock inp k = (true, s))
    ∨ ((s.badBits k = 1 ∨ s.badBits k = 2) ∧ s.mergeBlock inp k = (true, s.correct k))
    ∨ (3 ≤ s.badBits k ∧ s.mergeBlock inp k = (false, s.recordUe inp k true)) := by
  unfold State.mergeBlock
  split
  · exact .inl ⟨‹_›, rfl⟩
  · exact .inr (.inl ⟨.inl ‹_›, rfl⟩)
  · exact .inr (.inl ⟨.inr ‹_›, rfl⟩)
  · rename_i h0 h1 h2
    have h0' : s.badBits k ≠ 0 := h0
    have h1' : s.badBits k ≠ 1 := h1
    have h2' : s.badBits k ≠ 2 := h2
    exact .inr (.inr ⟨by omega, rfl⟩)

@[simp] theorem State.correct_mem (s : State) (k : Nat) : (s.correct k).mem = s.mem := by rw [State.correct_frame]
@[simp] theorem State.correct_pending (s : State) (k : Nat) : (s.correct k).pending = s.pending := by rw [State.correct_frame]
@[simp] theorem State.recordUe_mem (s : State) (inp k : Nat) (w : Bool) : (s.recordUe inp k w).mem = s.mem := by
  rw [State.recordUe_frame]
@[simp] theorem State.recordUe_pending (s : State) (inp k : Nat) (w : Bool) : (s.recordUe inp k w).pending = s.pending := by
  rw [State.recordUe_frame]

/-! ### Register writes by access code -/

/-- A write of a field by its access code changes a register field at most. -/
theorem writeField_frame (q : Req) (i v : Nat) (f : Field) (s : State) :
    writeField q i v f s = { s with regs := (writeField q i v f s).regs } := by
  unfold writeField
  split <;> first | rfl | (split <;> rfl)

theorem writeFields_frame (q : Req) (fs : List Field) (i v : Nat) (s : State) :
    writeFields q fs i v s = { s with regs := (writeFields q fs i v s).regs } := by
  have h : ∀ (l : List Field) (t : State), forEach l (writeField q i v) t = { t with regs := (forEach l (writeField q i v) t).regs } := by
    intro l
    induction l with
    | nil => intro t; rfl
    | cons f l ih =>
      intro t
      rw [forEach_cons, ih, writeField_frame]
  unfold writeFields
  dsimp only
  cases State.countsRejected s q fs i v
  · rw [onlyIf_false]
    exact h fs s
  · rw [onlyIf_true, State.reject_frame, h fs s]

/-- The voted Heartwood's write is never counted as rejected. -/
theorem State.countsRejected_voted (s : State) {q : Req} (hq : q.voted = true) (fs : List Field) (i v : Nat) :
    s.countsRejected q fs i v = false := by simp [State.countsRejected, hq]

/-- A delivered value stands in the reader's place and nothing else changes. -/
theorem deliver_eq (q : Req) (v : Nat) (s : State) : deliver q (v, s) = { s with delivered := Tab.set 0 s.delivered q.bank v } := rfl

/-- An entry of the trace ring changes memory, the entry count and the free counter. -/
theorem traceHap_frame (kind : Nat) (s : State) :
    traceHap kind s = { s with mem := (traceHap kind s).mem, logs := (traceHap kind s).logs, free := (traceHap kind s).free } := by
  unfold traceHap
  split
  · dsimp only
    rw [State.wr_frame]
    rfl
  · rfl

theorem Memory.wf_traceHap (kind : Nat) {s : State} (h : Memory.wf s.mem = true) : Memory.wf (traceHap kind s).mem = true := by
  unfold traceHap
  split
  · exact Memory.wf_wr 16 _ _ h
  · exact h

end Sys2Proof.Machine
end

