-- ==== Sys2Proof/Laws/Engine.lean ====
section
/-! SUPPORT. What an engine's frame of an instruction, the entry of a dispatch and the general registers can do, said once. -/

namespace Sys2Proof.Machine

/-! ### Registers -/

theorem State.modEng_eng (s : State) (i j : Nat) (f : Engine → Engine) :
    (s.modEng i f).eng j = if j = i then f (s.eng i) else s.eng j := by
  split
  · rename_i h
    rw [h, State.modEng_eng_self]
  · exact State.modEng_eng_ne _ _ _ _ ‹_›

theorem Eng.idx_lt (e : Eng) : e.idx < 10 := by
  cases e with
  | se k => have := k.isLt; simp only [Eng.idx]; omega
  | _ => simp [Eng.idx]

theorem Eng.idx_inj {e f : Eng} (h : e.idx = f.idx) : e = f := by
  cases e <;> cases f <;> simp_all [Eng.idx] <;> omega

theorem State.reg_setReg_self (s : State) (e : Eng) (r : Fin 16) (v : Word) : (s.setReg e r v).reg e r = v := by
  refine (congrArg (fun x : Engine => x.w[r]) (State.modEng_eng_self s e.idx _)).trans ?_
  exact Vector.getElem_set_self _

theorem State.reg_setReg_ne (s : State) (e : Eng) {r q : Fin 16} (v : Word) (h : q ≠ r) : (s.setReg e r v).reg e q = s.reg e q := by
  refine (congrArg (fun x : Engine => x.w[q]) (State.modEng_eng_self s e.idx _)).trans ?_
  exact Vector.getElem_set_ne r.isLt q.isLt (fun hv => h (Fin.ext hv.symm))

theorem State.reg_setReg_other (s : State) {e f : Eng} (r q : Fin 16) (v : Word) (h : f ≠ e) :
    (s.setReg e r v).reg f q = s.reg f q := by
  exact congrArg (fun x : Engine => x.w[q]) (State.modEng_eng_ne s _ _ _ (fun hi => h (Eng.idx_inj hi)))

@[simp] theorem State.flg_setFlg_self (s : State) (e : Eng) (v : Word) : (s.setFlg e v).flg e = v := by
  simp [State.flg, State.setFlg]

theorem State.setReg_frame (s : State) (e : Eng) (r : Fin 16) (v : Word) :
    s.setReg e r v = { s with engines := (s.setReg e r v).engines } := rfl

theorem State.setFlg_frame (s : State) (e : Eng) (v : Word) :
    s.setFlg e v = { s with engines := (s.setFlg e v).engines } := rfl

/-! ### Steps -/

/-- The engine is the same but for what counting steps may change. -/
def SameButSteps (x y : Engine) : Prop := y = { x with step := y.step, budgeted := y.budgeted, pend := y.pend, run := y.run }

theorem SameButSteps.trans {x y z : Engine} (h : SameButSteps x y) (h' : SameButSteps y z) : SameButSteps x z := by
  unfold SameButSteps at *
  rw [h', h]

theorem SameButSteps.of_modEng {x : Engine} (s : State) (i j : Nat) (f : Engine → Engine) (hf : ∀ y, SameButSteps y (f y))
    (h : SameButSteps x (s.eng j)) : SameButSteps x ((s.modEng i f).eng j) := by
  rw [State.modEng_eng]
  split
  · rename_i hj
    subst hj
    exact h.trans (hf _)
  · exact h

theorem SameButSteps.of_toHeart {x : Engine} (s : State) (g : Sig) (j : Nat) (h : SameButSteps x (s.eng j)) :
    SameButSteps x ((s.toHeart g).eng j) := by
  unfold State.toHeart
  split
  · cases g with
    | event e => exact .of_modEng _ _ _ _ (by intro y; rfl) (.of_modEng _ _ _ _ (by intro y; rfl) h)
    | _ => exact h
  · rw [forEach_modCore_frame]
    exact h

/-- Counting steps changes STEP, the budget mark and the pending events of an engine, which may end the single step of a WAIT, and nothing
else of it. -/
theorem addSteps_eng (e : Eng) (n j : Nat) (s : State) : SameButSteps (s.eng j) ((addSteps e n s).eng j) := by
  have h1 : ∀ (w : Word) (x : Tab Nat),
      SameButSteps (s.eng j) (({ s.modEng e.idx (fun y => { y with step := w }) with steps := x } : State).eng j) := fun w x =>
    SameButSteps.of_modEng s e.idx j (fun y => { y with step := w }) (fun _ => rfl) rfl
  have h2 : ∀ y : Engine, SameButSteps y { y with budgeted := true } := fun _ => rfl
  unfold addSteps
  dsimp only
  split
  · split
    · refine .of_toHeart _ _ _ ?_
      exact forEach_keeps (P := fun t => SameButSteps (s.eng j) (t.eng j)) _
        (fun c _ t ht => .of_modEng t c j _ h2 ht) (h1 _ _)
    · exact .of_modEng _ _ _ _ (fun _ => rfl) (.of_modEng _ _ _ _ h2 (h1 _ _))
  · exact h1 _ _

theorem forEach_modEng_frame (l : List Nat) (f : Engine → Engine) :
    ∀ s : State, forEach l (fun c => State.modEng c f) s = { s with engines := (forEach l (fun c => State.modEng c f) s).engines } := by
  induction l with
  | nil => intro s; rfl
  | cons x l ih =>
    intro s
    rw [forEach_cons, ih]
    rfl

/-- Counting steps changes the engines, the cycle's step counts and the cores' waiting signals. -/
theorem addSteps_frame (e : Eng) (n : Nat) (s : State) :
    addSteps e n s = { s with engines := (addSteps e n s).engines, steps := (addSteps e n s).steps,
                              cores := (addSteps e n s).cores } := by
  unfold addSteps
  dsimp only
  split
  · split
    · rw [State.toHeart_frame, forEach_modEng_frame]
      rfl
    · rfl
  · rfl

@[simp] theorem addSteps_regs (e : Eng) (n : Nat) (s : State) : (addSteps e n s).regs = s.regs := by rw [addSteps_frame]
@[simp] theorem addSteps_mem (e : Eng) (n : Nat) (s : State) : (addSteps e n s).mem = s.mem := by rw [addSteps_frame]
@[simp] theorem addSteps_pending (e : Eng) (n : Nat) (s : State) : (addSteps e n s).pending = s.pending := by rw [addSteps_frame]
@[simp] theorem addSteps_w (e : Eng) (n j : Nat) (s : State) : ((addSteps e n s).eng j).w = (s.eng j).w := by rw [addSteps_eng e n j s]
@[simp] theorem addSteps_pc (e : Eng) (n j : Nat) (s : State) : ((addSteps e n s).eng j).pc = (s.eng j).pc := by
  rw [addSteps_eng e n j s]
@[simp] theorem addSteps_flg (e : Eng) (n j : Nat) (s : State) : ((addSteps e n s).eng j).flg = (s.eng j).flg := by
  rw [addSteps_eng e n j s]

/-! ### One instruction -/

/-- An instruction never stops the model. -/
theorem instr_eq (e : Eng) (cost words : Nat) (legal : Bool) (body : State → Res) (s : State) :
    instr e cost words legal body s = .next (if s.mayStart e then runInstr e cost words legal body s else s) := by
  unfold instr
  split <;> rfl

/-- A good fetch leaves no trace. -/
theorem fetchWord_ok (e : Eng) (a : Nat) (s : State) (h1 : a % 4 = 0) (h2 : inInstrMem e a = true) (h3 : s.badBits (engKey e a) = 0) :
    fetchWord e a s = (true, s) := by
  unfold fetchWord
  rw [if_neg (by simp [h1, h2])]
  split
  · rename_i h
    have : engKey e a = a := by
      simp only [State.fetchShared, Bool.and_eq_true, beq_iff_eq] at h
      simp [engKey, h.1.2]
    rw [this] at h3
    simp [h3]
  · simp [State.readBlock, h3]

theorem fetchInstr_ok (e : Eng) (words : Nat) (s : State) (hw : 1 ≤ words) (h : s.fetchOk e words = true) :
    fetchInstr e words s = (true, s) := by
  simp only [State.fetchOk, List.all_eq_true, List.mem_range, Bool.and_eq_true, beq_iff_eq] at h
  have h0 := h 0 (by omega)
  unfold fetchInstr
  dsimp only
  rw [Nat.mul_zero, Nat.add_zero] at h0
  rw [fetchWord_ok e _ s h0.1.1 h0.1.2 h0.2]
  split
  · rfl
  · rename_i hn
    have h1 := h 1 (by simp at hn; omega)
    exact fetchWord_ok e _ s h1.1.1 h1.1.2 h1.2

/-- What an instruction comes to, case by case. -/
theorem runInstr_fetch (e : Eng) (cost words : Nat) (legal : Bool) (body : State → Res) (s : State)
    (h : (fetchInstr e words s).1 = false) :
    runInstr e cost words legal body s = takeFault e 5 0 (s.eng e.idx).pc.toNat (fetchInstr e words s).2 := by simp [runInstr, h]

theorem runInstr_illegal (e : Eng) (cost words : Nat) (body : State → Res) (s : State) (hw : 1 ≤ words) (h : s.fetchOk e words = true) :
    runInstr e cost words false body s = takeFault e 1 0 (s.eng e.idx).pc.toNat s := by simp [runInstr, fetchInstr_ok e words s hw h]

theorem runInstr_done (e : Eng) (cost words : Nat) {body : State → Res} {s t : State} (hw : 1 ≤ words) (h : s.fetchOk e words = true)
    (hb : body s = .done t) :
    runInstr e cost words true body s = finish e (cost + words - 1) ((s.eng e.idx).pc + BitVec.ofNat 32 (4 * words)) t := by
  simp [runInstr, fetchInstr_ok e words s hw h, hb]

theorem runInstr_jump (e : Eng) (cost words : Nat) {body : State → Res} {s t : State} {pc : Word} (hw : 1 ≤ words)
    (h : s.fetchOk e words = true) (hb : body s = .jump pc t) : runInstr e cost words true body s = finish e (cost + words - 1) pc t := by
  simp [runInstr, fetchInstr_ok e words s hw h, hb]

theorem runInstr_fault (e : Eng) (cost words : Nat) {body : State → Res} {s t : State} {code detail addr : Nat} (hw : 1 ≤ words)
    (h : s.fetchOk e words = true) (hb : body s = .fault code detail addr t) :
    runInstr e cost words true body s = takeFault e code detail addr t := by simp [runInstr, fetchInstr_ok e words s hw h, hb]

theorem runInstr_wait (e : Eng) (cost words : Nat) {body : State → Res} {s t : State} (hw : 1 ≤ words) (h : s.fetchOk e words = true)
    (hb : body s = .wait t) : runInstr e cost words true body s = midway e t := by simp [runInstr, fetchInstr_ok e words s hw h, hb]

/-- Completion changes the engines, the cycle's step counts, the cores' signals and the list of single steps. -/
theorem finish_frame (e : Eng) (cost : Nat) (pc : Word) (s : State) :
    finish e cost pc s = { s with engines := (finish e cost pc s).engines, steps := (finish e cost pc s).steps,
                                  cores := (finish e cost pc s).cores, heart := (finish e cost pc s).heart } := by
  unfold finish
  dsimp only
  rw [addSteps_frame]
  cases h : (State.modEng e.idx _ s).heart.stepping.contains e.idx <;> rfl

/-- Completion moves the engine's PC and leaves its general registers and FLG. -/
theorem finish_eng (e : Eng) (cost : Nat) (pc : Word) (s : State) :
    ((finish e cost pc s).eng e.idx).pc = pc ∧ ((finish e cost pc s).eng e.idx).w = (s.eng e.idx).w
      ∧ ((finish e cost pc s).eng e.idx).flg = (s.eng e.idx).flg := by
  unfold finish
  dsimp only
  rw [addSteps_pc, addSteps_w, addSteps_flg]
  cases (State.modEng e.idx _ s).heart.stepping.contains e.idx <;> simp

@[simp] theorem finish_regs (e : Eng) (cost : Nat) (pc : Word) (s : State) : (finish e cost pc s).regs = s.regs := by
  rw [finish_frame]
@[simp] theorem finish_mem (e : Eng) (cost : Nat) (pc : Word) (s : State) : (finish e cost pc s).mem = s.mem := by rw [finish_frame]
@[simp] theorem finish_pending (e : Eng) (cost : Nat) (pc : Word) (s : State) : (finish e cost pc s).pending = s.pending := by
  rw [finish_frame]

/-! ### Dispatch -/

/-- The entry is a double fault where the block below W14 cannot be stored. -/
theorem dispatchEntry_double (e : Eng) (slot code detail retPc addr : Nat) (s : State)
    (h : (s.eng e.idx).w[14].toNat % 16 ≠ 0 ∨ (s.eng e.idx).w[14].toNat < 16
      ∨ s.blockWritable e ((s.eng e.idx).w[14].toNat - 16) = false) :
    dispatchEntry e slot code detail retPc addr s = doubleFault e s := by
  unfold dispatchEntry
  rw [if_pos (by simpa [or_assoc] using h)]

theorem takeFault_double (e : Eng) (code detail addr : Nat) (s : State) (h : flgDSP (s.eng e.idx).flg = true) :
    takeFault e code detail addr s = doubleFault e s := by simp [takeFault, h]

theorem takeFault_entry (e : Eng) (code detail addr : Nat) (s : State) (h : flgDSP (s.eng e.idx).flg = false) :
    takeFault e code detail addr s = dispatchEntry e 0xC code detail (s.eng e.idx).pc.toNat addr s := by simp [takeFault, h]

theorem takeEvent_none (e : Eng) (s : State) (h : (s.eng e.idx).qualify = none) : takeEvent e s = s := by simp [takeEvent, h]

end Sys2Proof.Machine
end

