-- ==== Sys2Proof/Laws/Flags.lean ====
section
/-! SUPPORT. Every flag computation of chapter 09, bit by bit: what setting one flag does to that flag and to the others. -/

namespace Sys2Proof.Machine

theorem setFlag_getLsbD (f : Word) (i j : Nat) (b : Bool) (hi : i < 32) :
    (setFlag f i b).getLsbD j = if j = i then b else f.getLsbD j := by
  have hs : (1#32 <<< i).getLsbD j = decide (j = i) := by
    rw [BitVec.getLsbD_shiftLeft, BitVec.getLsbD_one]
    by_cases h : j = i
    · subst h; simp [hi]
    · simp only [h, decide_false]
      by_cases hj : j < 32
      · by_cases hl : j < i
        · simp [hl]
        · have : j - i ≠ 0 := by omega
          simp [this]
      · simp [hj]
  unfold setFlag
  cases b
  · simp only [Bool.false_eq_true, if_false, BitVec.getLsbD_and, BitVec.getLsbD_not, hs]
    by_cases h : j = i
    · simp [h]
    · by_cases hj : j < 32
      · simp [h, hj]
      · simp [h, hj, BitVec.getLsbD_of_ge f j (by omega)]
  · simp only [if_true, BitVec.getLsbD_or, hs]
    by_cases h : j = i <;> simp [h]

theorem setFlag_self (f : Word) (i : Nat) (b : Bool) (hi : i < 32) : (setFlag f i b).getLsbD i = b := by
  rw [setFlag_getLsbD _ _ _ _ hi, if_pos rfl]

theorem setFlag_ne (f : Word) {i j : Nat} (b : Bool) (hi : i < 32) (h : j ≠ i) : (setFlag f i b).getLsbD j = f.getLsbD j := by
  rw [setFlag_getLsbD _ _ _ _ hi, if_neg h]

/-- NZ writes Z and N and leaves the rest. -/
theorem setNZ_getLsbD (f r : Word) (j : Nat) :
    (setNZ f r).getLsbD j = if j = 1 then r.msb else if j = 0 then r == 0#32 else f.getLsbD j := by
  unfold setNZ
  rw [setFlag_getLsbD _ _ _ _ (by decide), setFlag_getLsbD _ _ _ _ (by decide)]

/-- A saturating instruction sets Q or leaves it, and leaves the rest. -/
theorem setQ_getLsbD (f : Word) (sat : Bool) (j : Nat) : (setQ f sat).getLsbD j = if j = 4 then sat || f.getLsbD 4 else f.getLsbD j := by
  unfold setQ
  cases sat
  · by_cases h : j = 4 <;> simp [h]
  · rw [if_pos rfl, setFlag_getLsbD _ _ _ _ (by decide)]
    simp

/-- A sum writes the four flags by R349 and leaves the rest. -/
theorem addC_flags (f a b : Word) (cin : Bool) (j : Nat) (h : 4 ≤ j) : (addC f a b cin).2.getLsbD j = f.getLsbD j := by
  simp only [addC]
  rw [setFlag_ne _ _ (by decide) (by omega), setFlag_ne _ _ (by decide) (by omega), setNZ_getLsbD, if_neg (by omega), if_neg (by omega)]

theorem addC_carry (f a b : Word) (cin : Bool) : flgC (addC f a b cin).2 = decide (2 ^ 32 ≤ a.toNat + b.toNat + bit cin) := by
  simp only [addC, flgC]
  rw [setFlag_ne _ _ (by decide) (by decide), setFlag_self _ _ _ (by decide)]

theorem nzOf_flags (f r : Word) (j : Nat) (h : 2 ≤ j) : (nzOf f r).2.getLsbD j = f.getLsbD j := by
  simp only [nzOf]
  rw [setNZ_getLsbD, if_neg (by omega), if_neg (by omega)]

end Sys2Proof.Machine
end

