-- ==== Sys2Proof/Laws/PerInstr.lean ====
section
/-! SUPPORT. Statements made command by command. NoWord: no word of bits spells the command, since the opcode table gives the commands of
this block no bits. -/

namespace Sys2Proof.Laws.NoWord

/-- No word spells the command. -/
def Statement (i : Instr) : Prop := ∀ nbits w : Nat, decodeTableWord nbits w ≠ some i

theorem of_none (i : Instr) : Statement i := fun _ _ h => by simp [decodeTableWord] at h

theorem registerWrite (q : Req) (off : BitVec 16) (v : Word) : Statement (.registerWrite q off v) := of_none _
theorem eventDispatch (e : Eng) : Statement (.eventDispatch e) := of_none _
theorem signalDelivery (c : Fin 3) : Statement (.signalDelivery c) := of_none _
theorem cycleBoundary (busy : List Nat) : Statement (.cycleBoundary busy) := of_none _
theorem gridInstant (g : GridIn) : Statement (.gridInstant g) := of_none _
theorem windowClose (k : Fin 32) : Statement (.windowClose k) := of_none _
theorem settlingEnd (i : Fin 64) : Statement (.settlingEnd i) := of_none _
theorem injectionEnd (i : Fin 64) : Statement (.injectionEnd i) := of_none _
theorem diagnosticComplete (i : Fin 64) (value : Int) (isOpen : Bool) : Statement (.diagnosticComplete i value isOpen) := of_none _
theorem excitationWrite (q : Req) (v : Word) : Statement (.excitationWrite q v) := of_none _
theorem excitationStage (q : Req) (v : Word) : Statement (.excitationStage q v) := of_none _
theorem routeWrite (q : Req) (hi : Bool) (v : Word) : Statement (.routeWrite q hi v) := of_none _
theorem feCtrlWrite (q : Req) (v : Word) : Statement (.feCtrlWrite q v) := of_none _
theorem retirementRequest (q : Req) (v : Word) : Statement (.retirementRequest q v) := of_none _
theorem diagnosticRequest (q : Req) (v : Word) : Statement (.diagnosticRequest q v) := of_none _
theorem gainRequest (q : Req) (v : Word) : Statement (.gainRequest q v) := of_none _
theorem testArm (q : Req) (v : Word) : Statement (.testArm q v) := of_none _
theorem resultRead (q : Req) : Statement (.resultRead q) := of_none _
theorem comparatorEdge (i : Fin 64) (env : BitVec 24) : Statement (.comparatorEdge i env) := of_none _
theorem baselineAcquisition (i : Fin 64) (base : BitVec 16) : Statement (.baselineAcquisition i base) := of_none _
theorem baselineRetry (i : Fin 64) : Statement (.baselineRetry i) := of_none _
theorem passset (q : Req) (v : Word) : Statement (.passset q v) := of_none _
theorem passclr (q : Req) (v : Word) : Statement (.passclr q v) := of_none _
theorem claim (q : Req) (v : Word) : Statement (.claim q v) := of_none _
theorem claimTimeout (k : Fin 32) : Statement (.claimTimeout k) := of_none _
theorem orphan (k : Fin 32) : Statement (.orphan k) := of_none _
theorem comparatorProof (k : Fin 32) : Statement (.comparatorProof k) := of_none _
theorem proofeng (q : Req) (v : Word) : Statement (.proofeng q v) := of_none _
theorem proofStale (k : Fin 32) : Statement (.proofStale k) := of_none _
theorem hcfgWrite (q : Req) (k : Fin 32) (v : Word) : Statement (.hcfgWrite q k v) := of_none _
theorem henChange (k : Fin 32) : Statement (.henChange k) := of_none _
theorem inboundPush (q : Req) (a : BitVec 18) (n : Fin 17) (v : Block) : Statement (.inboundPush q a n v) := of_none _
theorem originPush (k : Fin 6) (v : Block) : Statement (.originPush k v) := of_none _
theorem shadowPush (k : Fin 6) (v : Block) : Statement (.shadowPush k v) := of_none _
theorem inback (q : Req) (v : Word) : Statement (.inback q v) := of_none _
theorem originAck (q : Req) (v : Word) : Statement (.originAck q v) := of_none _
theorem shadowAck (q : Req) (v : Word) : Statement (.shadowAck q v) := of_none _
theorem evaluation (b : BitVec 8) : Statement (.evaluation b) := of_none _
theorem lock (q : Req) (b : BitVec 8) : Statement (.lock q b) := of_none _
theorem lockGrant (b : BitVec 8) : Statement (.lockGrant b) := of_none _
theorem unlock (q : Req) (b : BitVec 8) : Statement (.unlock q b) := of_none _
theorem lockBreak (dma : Bool) (p : Fin 3) : Statement (.lockBreak dma p) := of_none _
theorem preparatoryReset : Statement (.preparatoryReset) := of_none _
theorem conditionalReset : Statement (.conditionalReset) := of_none _
theorem directReset : Statement (.directReset) := of_none _
theorem cancelResetProcedure : Statement (.cancelResetProcedure) := of_none _
theorem fingerprintClearance : Statement (.fingerprintClearance) := of_none _
theorem operatorCommand : Statement (.operatorCommand) := of_none _
theorem invalidCommand : Statement (.invalidCommand) := of_none _
theorem cmdpop (q : Req) (v : Word) : Statement (.cmdpop q v) := of_none _
theorem cmddone (q : Req) (v : Word) : Statement (.cmddone q v) := of_none _
theorem clearanceMatch (q : Req) (b : BitVec 8) : Statement (.clearanceMatch q b) := of_none _
theorem localisationMatch (q : Req) (b : BitVec 8) : Statement (.localisationMatch q b) := of_none _
theorem matchComplete : Statement (.matchComplete) := of_none _
theorem syncReceived (src : BitVec 10) (p : Fin 6) (dom : BitVec 8) (o : SyncIn) : Statement (.syncReceived src p dom o) := of_none _
theorem announceReceived (src node : BitVec 10) (dom : BitVec 8) (rank : Fin 4) (epoch : BitVec 4) (phase : BitVec 14) (est : BitVec 16) : Statement (.announceReceived src node dom rank epoch phase est) := of_none _
theorem pdelayReq (p : DelayIn) : Statement (.pdelayReq p) := of_none _
theorem pdelayResp (p : DelayIn) (d : BitVec 16) : Statement (.pdelayResp p d) := of_none _
theorem holdoverEntry : Statement (.holdoverEntry) := of_none _
theorem masterTakeover : Statement (.masterTakeover) := of_none _
theorem nowRead (q : Req) : Statement (.nowRead q) := of_none _
theorem launchArm (q : Req) (c : Fin 16) (v : Word) : Statement (.launchArm q c v) := of_none _
theorem launchDisarm (q : Req) (c : Fin 16) (v : Word) : Statement (.launchDisarm q c v) := of_none _
theorem excite (c : Fin 16) : Statement (.excite c) := of_none _
theorem inject (c : Fin 16) : Statement (.inject c) := of_none _
theorem grid (c : Fin 16) : Statement (.grid c) := of_none _
theorem output (c : Fin 16) : Statement (.output c) := of_none _
theorem event (c : Fin 16) : Statement (.event c) := of_none _
theorem launchCopyFault (c : Fin 16) : Statement (.launchCopyFault c) := of_none _
theorem compareArm (q : Req) (v : Word) : Statement (.compareArm q v) := of_none _
theorem compare (q : Req) : Statement (.compare q) := of_none _
theorem frameReceived (p : Fin 6) (l : List Byte) : Statement (.frameReceived p l) := of_none _
theorem heventDispatch : Statement (.heventDispatch) := of_none _
theorem bufferClose (r : Fin 2) (j : BitVec 10) : Statement (.bufferClose r j) := of_none _
theorem frameRelease (r : Fin 2) (j : BitVec 10) (bad : Bool) : Statement (.frameRelease r j bad) := of_none _
theorem footsideCutoff (r : Fin 2) : Statement (.footsideCutoff r) := of_none _
theorem txReady (q : Req) (v : Word) : Statement (.txReady q v) := of_none _
theorem summaryReady (q : Req) (v : Word) : Statement (.summaryReady q v) := of_none _
theorem scheduleStart (q : Req) (v : Word) : Statement (.scheduleStart q v) := of_none _
theorem scheduleStop (q : Req) (v : Word) : Statement (.scheduleStop q v) := of_none _
theorem rxRelease (q : Req) (v : Word) : Statement (.rxRelease q v) := of_none _
theorem linkUp (p : Fin 6) : Statement (.linkUp p) := of_none _
theorem linkDown (p : Fin 6) : Statement (.linkDown p) := of_none _
theorem linkTraining (p : Fin 6) : Statement (.linkTraining p) := of_none _
theorem retrain (p : Fin 6) : Statement (.retrain p) := of_none _
theorem listenTimeout (r : Fin 2) : Statement (.listenTimeout r) := of_none _
theorem integrateTimeout (r : Fin 2) : Statement (.integrateTimeout r) := of_none _
theorem returnTimeout (r : Fin 2) : Statement (.returnTimeout r) := of_none _
theorem placementWrite (q : Req) (k : Fin 32) (v : Word) : Statement (.placementWrite q k v) := of_none _
theorem handOverOrder (q : Req) (k : Fin 32) (v : Word) : Statement (.handOverOrder q k v) := of_none _
theorem forcedMove (q : Req) (k : Fin 32) (v : Word) : Statement (.forcedMove q k v) := of_none _
theorem seqWrite (e : Fin 6) (k : Fin 32) (v : Word) : Statement (.seqWrite e k v) := of_none _
theorem handOver (k : Fin 32) : Statement (.handOver k) := of_none _
theorem shpassWrite (q : Req) (v : Word) : Statement (.shpassWrite q v) := of_none _
theorem migrate : Statement (.migrate) := of_none _
theorem migrateAny : Statement (.migrateAny) := of_none _
theorem evacuate : Statement (.evacuate) := of_none _
theorem resume : Statement (.resume) := of_none _
theorem cancel : Statement (.cancel) := of_none _
theorem invalidOrder : Statement (.invalidOrder) := of_none _
theorem alive (r : Fin 2) (m : GMsg) : Statement (.alive r m) := of_none _
theorem offer (r : Fin 2) (m : GMsg) : Statement (.offer r m) := of_none _
theorem accept (r : Fin 2) (m : GMsg) : Statement (.accept r m) := of_none _
theorem refuse (r : Fin 2) (m : GMsg) : Statement (.refuse r m) := of_none _
theorem snap (r : Fin 2) (m : GMsg) : Statement (.snap r m) := of_none _
theorem digest (r : Fin 2) (m : GMsg) : Statement (.digest r m) := of_none _
theorem ready (r : Fin 2) (m : GMsg) : Statement (.ready r m) := of_none _
theorem switch (r : Fin 2) (m : GMsg) : Statement (.switch r m) := of_none _
theorem abort (r : Fin 2) (m : GMsg) : Statement (.abort r m) := of_none _
theorem req (r : Fin 2) (m : GMsg) : Statement (.req r m) := of_none _
theorem plan (r : Fin 2) (m : GMsg) : Statement (.plan r m) := of_none _
theorem own (r : Fin 2) (m : GMsg) : Statement (.own r m) := of_none _
theorem load (r : Fin 2) (m : GMsg) : Statement (.load r m) := of_none _
theorem migrationCollect (x : Fin 8) : Statement (.migrationCollect x) := of_none _
theorem migrationSnapshot (x : Fin 8) : Statement (.migrationSnapshot x) := of_none _
theorem install (x : Fin 8) : Statement (.install x) := of_none _
theorem ownershipSwitch (x : Fin 8) : Statement (.ownershipSwitch x) := of_none _
theorem migrationTimeout (x : Fin 8) : Statement (.migrationTimeout x) := of_none _
theorem coordinatorTakeover : Statement (.coordinatorTakeover) := of_none _
theorem learningEnd : Statement (.learningEnd) := of_none _
theorem evacuationRetry (b : BitVec 8) : Statement (.evacuationRetry b) := of_none _
theorem engineRetirement (q : Req) (v : Word) : Statement (.engineRetirement q v) := of_none _
theorem add (e : Eng) (o : ROp) : Statement (.add e o) := of_none _
theorem adc (e : Eng) (o : ROp) : Statement (.adc e o) := of_none _
theorem sub (e : Eng) (o : ROp) : Statement (.sub e o) := of_none _
theorem sbc (e : Eng) (o : ROp) : Statement (.sbc e o) := of_none _
theorem and_ (e : Eng) (o : ROp) : Statement (.and_ e o) := of_none _
theorem or_ (e : Eng) (o : ROp) : Statement (.or_ e o) := of_none _
theorem xor_ (e : Eng) (o : ROp) : Statement (.xor_ e o) := of_none _
theorem andn (e : Eng) (o : ROp) : Statement (.andn e o) := of_none _
theorem cmp (e : Eng) (o : ROp) : Statement (.cmp e o) := of_none _
theorem tst (e : Eng) (o : ROp) : Statement (.tst e o) := of_none _
theorem shl (e : Eng) (o : ROp) : Statement (.shl e o) := of_none _
theorem shr (e : Eng) (o : ROp) : Statement (.shr e o) := of_none _
theorem sar (e : Eng) (o : ROp) : Statement (.sar e o) := of_none _
theorem ror (e : Eng) (o : ROp) : Statement (.ror e o) := of_none _
theorem shli (e : Eng) (o : ROp) : Statement (.shli e o) := of_none _
theorem shri (e : Eng) (o : ROp) : Statement (.shri e o) := of_none _
theorem sari (e : Eng) (o : ROp) : Statement (.sari e o) := of_none _
theorem rori (e : Eng) (o : ROp) : Statement (.rori e o) := of_none _
theorem mul (e : Eng) (o : ROp) : Statement (.mul e o) := of_none _
theorem mulh (e : Eng) (o : ROp) : Statement (.mulh e o) := of_none _
theorem mulhu (e : Eng) (o : ROp) : Statement (.mulhu e o) := of_none _
theorem mulq (e : Eng) (o : ROp) : Statement (.mulq e o) := of_none _
theorem div (e : Eng) (o : ROp) : Statement (.div e o) := of_none _
theorem divu (e : Eng) (o : ROp) : Statement (.divu e o) := of_none _
theorem rem (e : Eng) (o : ROp) : Statement (.rem e o) := of_none _
theorem remu (e : Eng) (o : ROp) : Statement (.remu e o) := of_none _
theorem min (e : Eng) (o : ROp) : Statement (.min e o) := of_none _
theorem max (e : Eng) (o : ROp) : Statement (.max e o) := of_none _
theorem minu (e : Eng) (o : ROp) : Statement (.minu e o) := of_none _
theorem maxu (e : Eng) (o : ROp) : Statement (.maxu e o) := of_none _
theorem sel (e : Eng) (o : ROp) : Statement (.sel e o) := of_none _
theorem clz (e : Eng) (o : ROp) : Statement (.clz e o) := of_none _
theorem sxh (e : Eng) (o : ROp) : Statement (.sxh e o) := of_none _
theorem sxb (e : Eng) (o : ROp) : Statement (.sxb e o) := of_none _
theorem zxh (e : Eng) (o : ROp) : Statement (.zxh e o) := of_none _
theorem zxb (e : Eng) (o : ROp) : Statement (.zxb e o) := of_none _
theorem addi (e : Eng) (o : IOp) : Statement (.addi e o) := of_none _
theorem andi (e : Eng) (o : IOp) : Statement (.andi e o) := of_none _
theorem ori (e : Eng) (o : IOp) : Statement (.ori e o) := of_none _
theorem xori (e : Eng) (o : IOp) : Statement (.xori e o) := of_none _
theorem cmpi (e : Eng) (o : IOp) : Statement (.cmpi e o) := of_none _
theorem movi (e : Eng) (o : IOp) : Statement (.movi e o) := of_none _
theorem tsti (e : Eng) (o : IOp) : Statement (.tsti e o) := of_none _
theorem ldw (e : Eng) (o : IOp) : Statement (.ldw e o) := of_none _
theorem ldh (e : Eng) (o : IOp) : Statement (.ldh e o) := of_none _
theorem ldhu (e : Eng) (o : IOp) : Statement (.ldhu e o) := of_none _
theorem ldb (e : Eng) (o : IOp) : Statement (.ldb e o) := of_none _
theorem ldbu (e : Eng) (o : IOp) : Statement (.ldbu e o) := of_none _
theorem ldq (e : Eng) (o : IOp) : Statement (.ldq e o) := of_none _
theorem ldx (e : Eng) (o : ROp) (fn : BitVec 7) : Statement (.ldx e o fn) := of_none _
theorem stw (e : Eng) (o : IOp) : Statement (.stw e o) := of_none _
theorem sth (e : Eng) (o : IOp) : Statement (.sth e o) := of_none _
theorem stb (e : Eng) (o : IOp) : Statement (.stb e o) := of_none _
theorem stq (e : Eng) (o : IOp) : Statement (.stq e o) := of_none _
theorem stx (e : Eng) (o : ROp) (fn : BitVec 7) : Statement (.stx e o fn) := of_none _
theorem b (e : Eng) (o : BOp) : Statement (.b e o) := of_none _
theorem bl (e : Eng) (o : BOp) : Statement (.bl e o) := of_none _
theorem br (e : Eng) (o : ROp) : Statement (.br e o) := of_none _
theorem blr (e : Eng) (o : ROp) : Statement (.blr e o) := of_none _
theorem nop (e : Eng) (o : ROp) : Statement (.nop e o) := of_none _
theorem wait (e : Eng) (o : ROp) : Statement (.wait e o) := of_none _
theorem trap (e : Eng) (o : ROp) : Statement (.trap e o) := of_none _
theorem brk (e : Eng) (o : ROp) : Statement (.brk e o) := of_none _
theorem mfs (e : Eng) (o : ROp) : Statement (.mfs e o) := of_none _
theorem mts (e : Eng) (o : ROp) : Statement (.mts e o) := of_none _
theorem rtd (e : Eng) (o : ROp) : Statement (.rtd e o) := of_none _
theorem cfence (e : Eng) (o : ROp) : Statement (.cfence e o) := of_none _
theorem sweep (e : Eng) (o : ROp) : Statement (.sweep e o) := of_none _
theorem lda (e : Eng) (o : IOp) : Statement (.lda e o) := of_none _
theorem ldaq (e : Eng) (o : IOp) : Statement (.ldaq e o) := of_none _
theorem mac (e : Eng) (o : ROp) : Statement (.mac e o) := of_none _
theorem msu (e : Eng) (o : ROp) : Statement (.msu e o) := of_none _
theorem aclr (e : Eng) (o : ROp) : Statement (.aclr e o) := of_none _
theorem ard (e : Eng) (o : ROp) : Statement (.ard e o) := of_none _
theorem awr (e : Eng) (o : ROp) : Statement (.awr e o) := of_none _
theorem tcor (e : Eng) (o : ROp) : Statement (.tcor e o) := of_none _
theorem luti (e : Eng) (o : ROp) : Statement (.luti e o) := of_none _
theorem adds (e : Eng) (o : ROp) : Statement (.adds e o) := of_none _
theorem subs (e : Eng) (o : ROp) : Statement (.subs e o) := of_none _
theorem adds2 (e : Eng) (o : ROp) : Statement (.adds2 e o) := of_none _
theorem subs2 (e : Eng) (o : ROp) : Statement (.subs2 e o) := of_none _
theorem negs (e : Eng) (o : ROp) : Statement (.negs e o) := of_none _
theorem abss (e : Eng) (o : ROp) : Statement (.abss e o) := of_none _
theorem sath (e : Eng) (o : ROp) : Statement (.sath e o) := of_none _
theorem shls (e : Eng) (o : ROp) : Statement (.shls e o) := of_none _
theorem cbset (e : Eng) (o : ROp) : Statement (.cbset e o) := of_none _
theorem ldcw (e : Eng) (o : ROp) : Statement (.ldcw e o) := of_none _
theorem ldch (e : Eng) (o : ROp) : Statement (.ldch e o) := of_none _
theorem stcw (e : Eng) (o : ROp) : Statement (.stcw e o) := of_none _
theorem stch (e : Eng) (o : ROp) : Statement (.stch e o) := of_none _
theorem sin (e : Eng) (o : ROp) : Statement (.sin e o) := of_none _
theorem schk (e : Eng) (o : ROp) : Statement (.schk e o) := of_none _
theorem ein (e : Eng) (o : ROp) : Statement (.ein e o) := of_none _
theorem mon (e : Eng) (o : ROp) : Statement (.mon e o) := of_none _
theorem vset (e : Eng) (o : ROp) : Statement (.vset e o) := of_none _
theorem rate (e : Eng) (o : ROp) : Statement (.rate e o) := of_none _
theorem commitLand : Statement (.commitLand) := of_none _
theorem lagExpiry (c : Fin 3) : Statement (.lagExpiry c) := of_none _
theorem stall : Statement (.stall) := of_none _
theorem ramScrub (found : List (Nat × Nat)) (changed : List (Nat × Block)) : Statement (.ramScrub found changed) := of_none _
theorem selftestComplete (c : Fin 3) (pass : Bool) : Statement (.selftestComplete c pass) := of_none _
theorem copyComplete (c : Fin 3) (bad : Bool) : Statement (.copyComplete c bad) := of_none _
theorem voterFault : Statement (.voterFault) := of_none _
theorem phaseWrite (q : Req) (v : Word) : Statement (.phaseWrite q v) := of_none _
theorem commitProof (q : Req) (core : BitVec 2) : Statement (.commitProof q core) := of_none _
theorem sweepProof (q : Req) (core : BitVec 2) : Statement (.sweepProof q core) := of_none _
theorem splitRequest (q : Req) : Statement (.splitRequest q) := of_none _
theorem votedRequest (q : Req) : Statement (.votedRequest q) := of_none _
theorem requestDrop : Statement (.requestDrop) := of_none _
theorem memoryScrub (kind : Fin 6) (found : List (Nat × Nat)) : Statement (.memoryScrub kind found) := of_none _
theorem burstGrant (new : List ArbReq) : Statement (.burstGrant new) := of_none _
theorem burstEnd : Statement (.burstEnd) := of_none _
theorem watchdogBite (moved : Fin 9) : Statement (.watchdogBite moved) := of_none _
theorem quiesce (q : Req) : Statement (.quiesce q) := of_none _
theorem quiesceEnd (q : Req) : Statement (.quiesceEnd q) := of_none _
theorem quiesceTimeout : Statement (.quiesceTimeout) := of_none _
theorem mapWrite (q : Req) (hi : Bool) (v : Word) : Statement (.mapWrite q hi v) := of_none _
theorem cntclr (q : Req) (v : Word) : Statement (.cntclr q v) := of_none _
theorem unitClaim (q : Req) : Statement (.unitClaim q) := of_none _
theorem unitRelease (q : Req) : Statement (.unitRelease q) := of_none _
theorem cvInit (q : Req) : Statement (.cvInit q) := of_none _
theorem cvCompare (q : Req) : Statement (.cvCompare q) := of_none _
theorem dataFeed (q : Req) (width : Fin 3) (v : Word) : Statement (.dataFeed q width v) := of_none _
theorem absorbComplete (u : Fin 8) : Statement (.absorbComplete u) := of_none _
theorem cvResultRead (q : Req) : Statement (.cvResultRead q) := of_none _
theorem mirrorRead (p : Fin 3) (w : BitVec 12) : Statement (.mirrorRead p w) := of_none _
theorem hostAccess (p : Fin 3) (write : Bool) (addr : Word) (be : BitVec 4) (v : Word) : Statement (.hostAccess p write addr be v) := of_none _
theorem readyTimeout (p : Fin 3) : Statement (.readyTimeout p) := of_none _
theorem proposal (p : Fin 3) (gr : Bool) (v : Word) : Statement (.proposal p gr v) := of_none _
theorem proposalExpiry : Statement (.proposalExpiry) := of_none _
theorem queueRead (p : Fin 3) : Statement (.queueRead p) := of_none _
theorem token (q : Req) (v : Word) : Statement (.token q v) := of_none _
theorem demandWrite (q : Req) (v : Word) : Statement (.demandWrite q v) := of_none _
theorem halfPeriod (n : Fin 16) (cls : Fin 3) (differ : Bool) : Statement (.halfPeriod n cls differ) := of_none _
theorem leakageSample (n : Fin 16) (high : Bool) : Statement (.leakageSample n high) := of_none _
theorem faultClear (q : Req) (v : Word) : Statement (.faultClear q v) := of_none _
theorem periodStart (x : Fin 5) (mv : BitVec 16) : Statement (.periodStart x mv) := of_none _
theorem trip (x : TripIn) : Statement (.trip x) := of_none _
theorem dutyLimit (x : Fin 5) : Statement (.dutyLimit x) := of_none _
theorem currentLimitFault (g : Fin 4) : Statement (.currentLimitFault g) := of_none _
theorem windowComparatorChange (w : Fin 32) (st : Fin 3) : Statement (.windowComparatorChange w st) := of_none _
theorem dipWarning : Statement (.dipWarning) := of_none _
theorem dipClear : Statement (.dipClear) := of_none _
theorem lowInputReset : Statement (.lowInputReset) := of_none _
theorem powerOn (straps : BitVec 2) (cls0 cls1 : BitVec 4) : Statement (.powerOn straps cls0 cls1) := of_none _
theorem softStartTimeout (rail : Fin 4) : Statement (.softStartTimeout rail) := of_none _
theorem powerUpRetry : Statement (.powerUpRetry) := of_none _
theorem powerCycle (q : Req) (v : Word) : Statement (.powerCycle q v) := of_none _
theorem powerCycleEnd : Statement (.powerCycleEnd) := of_none _
theorem monitorMeasurement (i : Fin 48) (margin : BitVec 16) (temp : BitVec 8) (fault : Bool) : Statement (.monitorMeasurement i margin temp fault) := of_none _
theorem operatingHour : Statement (.operatingHour) := of_none _
theorem hoursWrite (q : Req) (v : Word) : Statement (.hoursWrite q v) := of_none _
theorem resetBall : Statement (.resetBall) := of_none _
theorem blockReset (q : Req) (v : Word) : Statement (.blockReset q v) := of_none _
theorem deviceResetRequest (q : Req) (v : Word) : Statement (.deviceResetRequest q v) := of_none _
theorem evacuationTimeout : Statement (.evacuationTimeout) := of_none _
theorem commitStart (q : Req) : Statement (.commitStart q) := of_none _
theorem eraseDone : Statement (.eraseDone) := of_none _
theorem chunk (q : Req) (v : Word) : Statement (.chunk q v) := of_none _
theorem chunkDone (ok : Bool) : Statement (.chunkDone ok) := of_none _
theorem commitFinish (q : Req) : Statement (.commitFinish q) := of_none _
theorem commitAbort (q : Req) : Statement (.commitAbort q) := of_none _
theorem commitTimeout : Statement (.commitTimeout) := of_none _
theorem record (q : Req) (v : Word) : Statement (.record q v) := of_none _
theorem recordDone : Statement (.recordDone) := of_none _
theorem rootKick (q : Req) (v : Word) : Statement (.rootKick q v) := of_none _
theorem rootWatchdog : Statement (.rootWatchdog) := of_none _
theorem keeperWatchdog : Statement (.keeperWatchdog) := of_none _
theorem ladderWrite (q : Req) (v : Word) : Statement (.ladderWrite q v) := of_none _
theorem ladderCounterClear : Statement (.ladderCounterClear) := of_none _
theorem debugHalt : Statement (.debugHalt) := of_none _
theorem debugResume : Statement (.debugResume) := of_none _
theorem singleStep : Statement (.singleStep) := of_none _
theorem sysrst : Statement (.sysrst) := of_none _
theorem dbDataAccess (write : Bool) (v : Word) : Statement (.dbDataAccess write v) := of_none _
theorem regdataAccess (write : Bool) (v : Word) : Statement (.regdataAccess write v) := of_none _
theorem traceDump : Statement (.traceDump) := of_none _
theorem extest (pins shift : BitVec 273) : Statement (.extest pins shift) := of_none _
theorem samplePreload (pins shift : BitVec 273) : Statement (.samplePreload pins shift) := of_none _
theorem idcode : Statement (.idcode) := of_none _
theorem clamp : Statement (.clamp) := of_none _
theorem highz : Statement (.highz) := of_none _
theorem debug (write : Bool) (off : BitVec 12) (v : Word) : Statement (.debug write off v) := of_none _
theorem bypass : Statement (.bypass) := of_none _
theorem testLogicReset : Statement (.testLogicReset) := of_none _
theorem resetRelease (straps : BitVec 2) : Statement (.resetRelease straps) := of_none _
theorem baselineLimit (i : Fin 64) (high : Bool) : Statement (.baselineLimit i high) := of_none _
theorem holdoverQualityLoss : Statement (.holdoverQualityLoss) := of_none _
theorem fencingAgeOut (c : Fin 3) : Statement (.fencingAgeOut c) := of_none _
theorem keeperSupplyLoss : Statement (.keeperSupplyLoss) := of_none _
theorem commitComplete : Statement (.commitComplete) := of_none _
theorem traceDumpComplete : Statement (.traceDumpComplete) := of_none _

end Sys2Proof.Laws.NoWord
end

