-- ==== Sys2Proof/Machine/Program.lean ====
section
/-! DEFINITION. The instruction that an engine's program holds at its PC (09 R342 to R345), and what the engine does with it. The queue gives
each instruction as a command of its own; this is the command that a program gives (assumption 184). -/

namespace Sys2Proof.Machine

/-- The word of instruction memory at address `a`, as engine `e` fetches it. -/
def State.instrWord (s : State) (e : Eng) (a : Nat) : Word := BitVec.ofNat 32 (s.rdW (engKey e a))

/-- The instruction at the PC of engine `e`: none where the word is assigned to none. -/
def State.nextInstr (s : State) (e : Eng) : Option Instr :=
  let pc := (s.eng e.idx).pc.toNat
  kamotte e (s.instrWord e pc) (s.instrWord e (pc + 4))

/-- Engine `e` runs the instruction at its PC: a word that the tables assign to none is an illegal instruction (R344, R351). -/
def runProgram (e : Eng) (s : State) : Host.Outcome State Fault Refusal :=
  match s.nextInstr e with
  | some i => exec i s
  | none => instr e 0 1 false Res.done s

end Sys2Proof.Machine
end

