-- ==== Sys2Proof/WellFormed.lean ====
section
/-! DEFINITION. Well-formed commands: the operands that stand for what the sensor side, the cells, the bus and the rings show keep
within what these can show. Every other operand is bounded by its type. -/

namespace Sys2Proof

/-- A block of the Heartwood RAM copies (01 R29): memory spaces 1 to 3. -/
def inHeartRam (k : Nat) : Bool := decide (1 ≤ k / 2 ^ 32) && decide (k / 2 ^ 32 ≤ 3)

/-- Each system is listed once. -/
def GridIn.distinct (g : GridIn) : Bool := 
  decide ((g.volts.map Prod.fst).Nodup) && decide ((g.bits.map Prod.fst).Nodup) && decide ((g.refs.map Prod.fst).Nodup) &&
    decide ((g.envs.map Prod.fst).Nodup)

/-- A message's body fits a frame (08 R332). -/
def GMsg.fits (m : GMsg) : Bool := decide (m.body.length ≤ 1484)

/-- The blocks of a request (11 R442, R444, 10 R388): one of the device registers or the diagnostics range; of a core of the Heartwood up to a
full group; else up to eight. -/
def ArbReq.fits (r : ArbReq) : Bool :=
  decide (1 ≤ r.blocks)
    && (if r.who.trains then decide (r.blocks ≤ 128)
        else if r.target = .dev || r.target = .diag then decide (r.blocks ≤ 1) else decide (r.blocks ≤ 8))

/-- Whether a command is well formed. -/
def Instr.wellFormed : Instr → Bool
  | .ramScrub found changed =>
    found.all (fun p => inHeartRam p.1 && decide (p.2 ≤ 3)) && changed.all (fun p => inHeartRam p.1)
  | .memoryScrub _ found => found.all (fun p => decide (p.2 ≤ 3))
  | .burstGrant new => new.all ArbReq.fits
  | .inboundPush _ a n _ => decide (1 ≤ n.val) && decide (a.toNat % 16 + n.val ≤ 16)
  | .frameReceived _ l => decide (l.length ≤ 1518)
  | .alive _ m | .offer _ m | .accept _ m | .refuse _ m | .snap _ m | .digest _ m | .ready _ m | .switch _ m | .abort _ m
  | .req _ m | .plan _ m | .own _ m | .load _ m => m.fits
  | .cycleBoundary busy => decide (busy.length ≤ 10)
  | .gridInstant g => g.distinct
  | _ => true

end Sys2Proof
end

