-- ==== Sys2Proof/Tests/Slice0.lean ====
section
/-! SUPPORT. Tests: the checks of WellFormed refuse an ill-formed command each, the spec's worked examples, and for every statement
with hypotheses a state and operands that meet those of each clause. -/

open Sys2Proof Sys2Proof.Machine

namespace Sys2Proof.Tests

set_option Elab.async false

/-- The state after reset with some register fields set. -/
def rs (l : List (Field × Nat × Nat)) : State := l.foldl (fun s x => s.setFld x.1 x.2.1 x.2.2) State.reset

/-! ### Ill-formed commands are refused, one for each check; a well-formed one beside each is not -/

theorem smoke_ramScrub_block : Instr.wellFormed (.ramScrub [(0x20000000, 1)] []) = false := by decide
theorem smoke_ramScrub_bits : Instr.wellFormed (.ramScrub [(memKey 1 0x10000000, 4)] []) = false := by decide
theorem smoke_ramScrub_changed : Instr.wellFormed (.ramScrub [] [(memKey 4 0, 0#128)]) = false := by decide
theorem smoke_memoryScrub : Instr.wellFormed (.memoryScrub 0 [(0, 4)]) = false := by decide
theorem smoke_burstGrant_none : Instr.wellFormed (.burstGrant [{ who := .root, age := 0, target := .shared, blocks := 0 }]) = false := by decide
theorem smoke_burstGrant_long : Instr.wellFormed (.burstGrant [{ who := .root, age := 0, target := .shared, blocks := 9 }]) = false := by decide
theorem smoke_inboundPush_empty : Instr.wellFormed (.inboundPush .root 0 0 0) = false := by decide
theorem smoke_inboundPush_across : Instr.wellFormed (.inboundPush .root 8 16 0) = false := by decide
theorem smoke_frameReceived : Instr.wellFormed (.frameReceived 0 (List.replicate 1519 0#8)) = false := by decide +kernel
theorem smoke_message :
    Instr.wellFormed (.alive 0 { seg := 0, dst := 0, bcast := true, term := 0, sbob := 0, origin := 0, body := List.replicate 1485 0#8 })
      = false := by decide +kernel
theorem smoke_cycleBoundary : Instr.wellFormed (.cycleBoundary (List.replicate 11 0)) = false := by decide
theorem smoke_gridInstant_volts :
    Instr.wellFormed (.gridInstant
      { volts := [(1, 0), (1, 5)], rails := [], broken := [], lost := [], bits := [], blocks := [], refs := [], envs := [] })
        = false := by decide
theorem smoke_gridInstant_envs :
    Instr.wellFormed (.gridInstant
      { volts := [], rails := [], broken := [], lost := [], bits := [], blocks := [], refs := [], envs := [(2, 0), (2, 0)] })
        = false := by decide
theorem smoke_wellFormed :
    Instr.wellFormed (.ramScrub [(memKey 3 0x10000000, 3)] [(memKey 1 0, 0#128)]) = true
      ∧ Instr.wellFormed (.burstGrant [{ who := .root, age := 0, target := .shared, blocks := 8 }]) = true
      ∧ Instr.wellFormed (.inboundPush .root 0x200 16 0) = true ∧ Instr.wellFormed (.cycleBoundary [0, 1]) = true := by decide

/-! ### The spec's worked examples and tables -/

/-- 03, the example of head 9: the fields of a head event. -/
theorem test_event_fields :
    let e := 0x35001AC40FA000000001DCE1C1B0684D
    evPoint e = 77 ∧ evDir e = 1 ∧ evEpoch e = 3 ∧ evTime e = 0xEE70E0D8 ∧ evSeq e = 5 := by decide +kernel

/-- 03, the same example: the bytes of the event in ascending address order. -/
theorem test_event_bytes :
    (leBytes 16 0x35001AC40FA000000001DCE1C1B0684D).map BitVec.toNat
      = [0x4D, 0x68, 0xB0, 0xC1, 0xE1, 0xDC, 0x01, 0x00, 0x00, 0x00, 0xA0, 0x0F, 0xC4, 0x1A, 0x00, 0x35] := by decide +kernel

/-- 03, the same example: 120 mm in 6 ms are 20 m/s, and ρ = 0.84 with both peaks full gives confidence 214 and the class 2. -/
theorem test_wheel_values :
    speedOf 120 750000 = 2000 ∧ State.reset.classify 0x20000000 { num := 84, den2 := 10000, cls := 2 } 1 = (2, 214) := by decide +kernel

/-- 15, the example of an engine wearing out: P = 30.0 % − 0.06 % per root of an hour, floor 2.0 %, at 200,000 h leaves 177 units. -/
theorem test_engine_wearing_out :
    let pts : List (Nat × Int) := (List.range 8).map (fun m : Nat => ((50 * (m + 1)) ^ 2, 54 - 6 * (m : Int)))
    monitorLife 32 200000 (fitEnd 32 4 pts) = 177 ∧ monitorWatch 32 200000 (730 * 24 + 4380) (fitEnd 32 4 pts) = true
      ∧ maintNext 0 177 24 = 0 := by decide +kernel

/-- 15 R543: below TM the setpoint rises by 5 mV, above TM + 2 % it falls by 5 mV, within 800 to 1050 mV. -/
theorem test_trim_requests :
    trimRequest 99 100 900 = 905 ∧ trimRequest 100 100 900 = 900 ∧ trimRequest 120 100 900 = 900 ∧ trimRequest 121 100 900 = 895
      ∧ trimRequest 99 100 1050 = 1050 ∧ trimRequest 121 100 800 = 800 := by decide

/-- 06, the example of launch times ahead and past. -/
theorem test_launch_times : tdiff 0x00002000 0xFFFFE000 = 16384 ∧ tdiff 0x8000E000 0xFFFFE000 = -2147418112 := by decide +kernel

/-- 11, the example of the 9-byte record: IEEE 802.3's check value of "123456789". -/
theorem test_check_value :
    revBits 32 (crcBytes 32 0x04C11DB7 true 0xFFFFFFFF [0x31#8, 0x32#8, 0x33#8, 0x34#8, 0x35#8, 0x36#8, 0x37#8, 0x38#8, 0x39#8])
      ^^^ 0xFFFFFFFF = 0xCBF43926 := by decide +kernel

/-- 05, the example of FP_TOLA0: FPEN, REVOK and XNODE set, TOLREL 8, TOLABS 5, NMIN 2, UNKMAX 0. -/
theorem test_tolerance_set : tolOk 0x02050807 = true ∧ bitsOf 0x02050807 8 8 = 8 ∧ bitsOf 0x02050807 24 6 = 2 := by decide +kernel

/-- 12, the example of a preparatory reset: BB_CMD lies at host address 0x0001_3018. -/
theorem test_bb_cmd_address : BB_CMD.addr = 0x3018 := by decide

/-- 13, the example of output 5: PW_VOCFG5 is written 0x0378_1E32 in the channel's configuration fields. -/
theorem test_output_configuration :
    PW_VOCFG.FREQ.of 0x03781E32 = 50 ∧ PW_VOCFG.ILO.of 0x03781E32 = 30 ∧ PW_VOCFG.IHI.of 0x03781E32 = 120
      ∧ PW_VOCFG.FAILN.of 0x03781E32 = 3 := by decide +kernel

/-- 13, the same example: the token 0x09C5_2F41 gives output 5 its liveness in cycle 0x2F41 under challenge 0x9C, and no other. -/
theorem test_token :
    (match execToken .hw 0x09C52F41#32 (rs [(PW_VOCHAL.CYC, 0, 0x2F41), (PW_VOCHAL.CHAL, 0, 0x9C)]) with
      | .next t => (t.vo 5).live == 2 && (t.vo 4).live == 0
      | _ => false) = true := by decide +kernel

/-- 12, the command of that example in BB_CMD: BOB 7, CODE 1, TAG 0x00A3. -/
theorem test_bb_cmd_fields : BB_CMD.BOB.of 0x00A30107 = 7 ∧ BB_CMD.CODE.of 0x00A30107 = 1 ∧ BB_CMD.TAG.of 0x00A30107 = 0xA3 := by
  decide +kernel

/-! ### One instruction each, on values at an edge -/

/-- W3 of the Root engine, or of SE5, after one instruction on W1 = `a` and W2 = `b`. -/
def ran (e : Eng) (i : Instr) (a b : Word) : Option Nat :=
  match exec i ((State.reset.setReg e 1 a).setReg e 2 b) with
  | .next t => some (t.reg e 3).toNat
  | _ => none

/-- Table KM-11: the sum wraps. -/
theorem test_add_wraps : ran .root (.add .root { d := 3, a := 1, b := 2, aux := 0, x := false }) 0xFFFFFFFF#32 2#32 = some 1 := by decide +kernel

/-- Table KM-11: MULQ of one half by one half is one quarter. -/
theorem test_mulq : ran .root (.mulq .root { d := 3, a := 1, b := 2, aux := 0, x := false }) 0x40000000#32 0x40000000#32 = some 0x20000000 := by
  decide +kernel

/-- R353: the least number divided by minus one. -/
theorem test_div_overflow : ran .root (.div .root { d := 3, a := 1, b := 2, aux := 0, x := false }) 0x80000000#32 0xFFFFFFFF#32 = some 0x80000000 := by
  decide +kernel

/-- Table KM-15: the magnitude of the least number saturates. -/
theorem test_abss : ran (.se 5) (.abss (.se 5) { d := 3, a := 1, b := 0, aux := 0, x := false }) 0x80000000#32 0#32 = some 0x7FFFFFFF := by
  decide +kernel

/-- Table KM-15: ADDS saturates above. -/
theorem test_adds : ran (.se 5) (.adds (.se 5) { d := 3, a := 1, b := 2, aux := 0, x := false }) 0x7FFFFFFF#32 1#32 = some 0x7FFFFFFF := by
  decide +kernel

/-! ### Witnesses: for each statement with hypotheses, a state and operands that meet those of each clause -/

theorem witness_FrontCommandRunsElseOneTick :
    ({ State.reset with pending := [.testLogicReset] } : State).pending = [.testLogicReset] ∧ State.reset.pending = [] := by decide

theorem witness_CommandsLeaveTheQueue : exec .testLogicReset State.reset = .next State.reset := rfl

theorem witness_StepsKeepMemoryCanonical :
    Memory.wf (State.reset.setByte 0x28000000 1#8).mem = true
      ∧ step (State.reset.setByte 0x28000000 1#8) = .next ((State.reset.setByte 0x28000000 1#8).advance 1) := ⟨by decide +kernel, rfl⟩

theorem witness_SelectRegistersKeepToTheirUnits :
    Req.hw = .hw ∧ State.reset.canVote = true ∧ (Req.root = .root ∧ State.reset.arbHolds .root = false) ∧ State.reset.arbHolds (.se 5) = false
      ∧ 6 ≤ (6#32).toNat % 8 ∧ (5#32).toNat % 8 < 6 := by decide +kernel

theorem witness_DebugPageIsTheDebuggers :
    let d := [0xF000#16, 0xF004#16, 0xF008#16, 0xF00C#16, 0xF010#16, 0xF014#16, 0xF018#16, 0xF01C#16, 0xF020#16]
    let s := rs [(HP_PCTRL.EN, 2, 1), (RB_STRAP.SDBG, 0, 1)]
    (0xF000#16 ∈ d ∧ 0xF020#16 ∈ d) ∧ (State.reset.canVote = true ∧ State.reset.absent (.se 0) = false ∧ State.reset.arbHolds (.se 0) = false)
      ∧ ((rs [(ID_BOOT.HWMODE, 0, 2)]).absent .splitB = false ∧ (rs [(ID_BOOT.HWMODE, 0, 2)]).arbHolds .splitB = false)
      ∧ (s.keeper.power = .up ∧ s.fld RB_BOOT.FAIL = 0 ∧ (s.port 2).acc = none ∧ s.fld HP_PCTRL.EN 2 = 1
          ∧ s.masked (.host 2) = false ∧ s.arbHolds (.host 2) = false)
      ∧ (State.reset.masked .dbg = false ∧ State.reset.quiesced = false ∧ State.reset.debugOn = false)
      ∧ (s.masked .dbg = false ∧ s.quiesced = false ∧ s.debugOn = true) := by decide +kernel

theorem witness_FaultBitsAreCleared :
    let s := rs [(PW_VODEM.DEM, 0, 2 ^ 15)]
    (s.fbit PW_VODEM.DEM 0 = false ∧ (1#32).toNat.testBit 0 = true) ∧ (s.fbit PW_VODEM.DEM 15 = true ∧ (0x8000#32).toNat.testBit 15 = true)
      ∧ (1#32).toNat.testBit 1 = false ∧ Req.root.voted = false ∧ s.canVote = true ∧ s.absent .root = false := by decide +kernel

theorem witness_ExcitationWritesWaitForTheGrid :
    let s := rs [(FE_EXC.MODE, 0, 1)]
    let e : Exc := { mode := 2, ipk := 256, freq := 50 }
    let v := 0x00321002#32
    s.canVote = true ∧ s.fld FE_SYSSEL.SYS 11 = 0 ∧ v.toNat % 4 = 2 ∧ v.toNat / 2 ^ 4 % 2 ^ 9 = 256 ∧ v.toNat / 2 ^ 16 % 2 ^ 6 = 50
      ∧ (e.mode ≠ 3 ∧ e.ipk ≤ 256 ∧ s.routeErr 0 e = false ∧ s.excErr 0 e = false)
      ∧ ((0x1000#32).toNat % 4 = 0 ∧ (0x1000#32).toNat / 2 ^ 4 % 2 ^ 9 ≤ 256) := by decide +kernel

theorem witness_FrontEndRegistersTakeOrRefuseWrites :
    let s := { rs [(FE_EXC.MODE, 0, 1), (FE_GAIN.RANGE, 0, 3), (FE_HOLD.HOLD, 0, 5)] with
      systems := [(0, { SysSt.reset with diag := some { kind := 5, running := false, counted := false, ready := 0, pos := none } })] }
    let l := [(0, 0), (2, 0), (0, 1), (1, 1), (2, 1), (3, 1), (0, 2), (2, 2), (4, 2), (6, 2), (0, 3),
        (1, 3), (2, 3), (3, 3), (4, 3), (5, 3), (6, 3), (7, 3)]
    let on : Exc := { mode := 1, ipk := 8, freq := 0 }
    let sy := fun x : SysSt => ({ State.reset with systems := [(0, x)] } : State)
    (s.canVote = true ∧ State.reset.canVote = true ∧ ((sy { SysSt.reset with exc := on }).sys 0).exc.mode ≠ 0
        ∧ ((sy { SysSt.reset with due := some on }).sys 0).due = some on ∧ ((sy { SysSt.reset with staged := some on }).sys 0).staged = some on
        ∧ on.mode ≠ 0 ∧ (State.reset.sys 0).exc.mode = 0 ∧ (State.reset.sys 0).due = none ∧ (State.reset.sys 0).staged = none)
      ∧ (s.fld FE_EXC.MODE 0 ≠ 0 ∧ 71 < (72#32).toNat % 2 ^ 7 ∧ (s.sys 0).diag.isSome = true)
      ∧ (0x100#32).toNat / 2 ^ 8 % 2 ^ 4 < 2 ∧ 12 < (0xD00#32).toNat / 2 ^ 8 % 2 ^ 4
      ∧ (State.reset.fld FE_EXC.MODE 0 = 0 ∧ (0x10000#32).toNat / 2 ^ 16 % 2 ^ 8 ≠ 0)
      ∧ ((4#32).toNat % 2 = 0 ∧ (4#32).toNat / 2 % 4 ≠ s.fld FE_GAIN.RANGE 0)
      ∧ (2 ≤ 2 ∧ 2 ≤ 12 ∧ ((0xC3E#32).toNat / 2 % 8, (0xC3E#32).toNat / 2 ^ 4 % 4) ∈ l ∧ (0xC3E#32).toNat / 2 ^ 8 % 16 = 12)
      ∧ ((2#32).toNat / 2 % 8, (2#32).toNat / 2 ^ 4 % 4) ∉ l
      ∧ (s.arbHolds .root = false ∧ s.fld FE_HOLD.HOLD 0 = (5#32).toNat % 2 ^ 9 ∧ s.fld FE_HOLD.FLOOR 0 = (5#32).toNat / 2 ^ 16 % 2 ^ 9)
      ∧ ¬ (s.fld FE_HOLD.HOLD 0 = (4#32).toNat % 2 ^ 9 ∧ s.fld FE_HOLD.FLOOR 0 = (4#32).toNat / 2 ^ 16 % 2 ^ 9) := by decide +kernel

theorem witness_FrontEndRequestsAndResults :
    let d : Diag := { kind := 5, running := true, counted := false, ready := 0, pos := none }
    let s := { State.reset with systems := [(63, { SysSt.reset with diag := some d })] }
    ((71#32).toNat % 2 ^ 7 ≤ 71 ∧ s.slice ((71#32).toNat % 2 ^ 7) = 0)
      ∧ ((3#32).toNat % 8 ≤ 3 ∧ (5#32).toNat % 8 = 5 ∧ (s.sys 0).diag = none)
      ∧ ((s.sys 63).diag = some d ∧ d.running = true ∧ d.kind ≤ 5) ∧ s.canVote = true ∧ s.absent .root = false := by decide +kernel

theorem witness_GridTimers :
    let j : Injection := { mark := 0, left := 1, tail := 0, start := 0, stop := 0, edges := [] }
    let s := { rs [(FE_WINDOW.WIN, 0, 2 ^ 31), (WD_CMPST.STATE, 62, 0), (WD_CMPST.STATE, 63, 0), (FE_EXC.MODE, 63, 1)] with
      systems := [(62, { SysSt.reset with inj := some j, settle := 1 })] }
    (s.nowTu ≤ s.comingInstant.2 ∧ s.comingInstant.2 < 2 ^ 64)
      ∧ (s.window 31 = true ∧ s.opens 31 = false ∧ (s.head 31).closing ≤ 1)
      ∧ ((s.sys 62).settle = 1 ∧ s.isWord 62 s.comingInstant.1 = true)
      ∧ ((s.sys 62).inj = some j ∧ j.left = 1) ∧ s.fld FE_GAIN.RANGE 63 < 4 := by decide +kernel

theorem witness_ComparatorsAndBaselines :
    let st := fun c : Nat => { rs [(FE_WINDOW.WIN, 0, 0), (WD_CMPST.ACQ, 63, 1), (WD_CMPST.STATE, 62, 0), (WD_CMPST.STATE, 63, c),
        (WD_CMPCFG.POL, 63, 1), (WD_CMPCFG.PRES, 63, 200), (WD_CMPCFG.ABS, 63, 100), (WD_BASE.BASEREF, 5, 1000), (WD_BASE.BASETOL, 5, 2)] with
      systems := [(5, { SysSt.reset with acqAt := some 7, retryAt := some 9 }), (63, { SysSt.reset with fine := 1000 * 65536 })] }
    let s := st 0
    let dev := fun env : Nat => 2000 * (((env * 65536 : Nat) : Int) - ((s.sys 63).fine : Nat))
    let at_ := fun f : Field => (s.fld f 63 : Int) * ((s.sys 63).fine : Nat)
    (s.fld WD_CMPST.ACQ 63 = 1 ∧ s.fld WD_CMPCFG.POL 63 = 1 ∧ s.cmp 63 = 0 ∧ (st 1).cmp 63 = 1 ∧ at_ WD_CMPCFG.PRES ≤ dev 1100
        ∧ dev 1000 < at_ WD_CMPCFG.ABS ∧ ¬ at_ WD_CMPCFG.PRES ≤ dev 1000
        ∧ ¬ at_ WD_CMPCFG.PRES ≤ dev 1075 ∧ ¬ dev 1075 < at_ WD_CMPCFG.ABS)
      ∧ ((s.sys 5).acqAt = some 7 ∧ s.baseOk 5 (1010#16).toNat = true ∧ s.baseOk 5 (1011#16).toNat = false)
      ∧ (s.sys 5).retryAt = some 9
      ∧ (s.fld WD_CMPST.ACQ 63 = 1 ∧ s.cmp 63 = 0 ∧ s.isOpen (63 / 2) = false) := by decide +kernel

theorem witness_ClaimsAreResolvedAndAge :
    let r : Crossing := { dir := 2, time := 0, dur := 1250, part := false, last := 0 }
    let c : ClaimSt := { time := 0, dir := 3, since := 0 }
    let s := { rs [(WD_HCFG.HEN, 31, 1), (WD_HCFG.HEN, 30, 1)] with
      heads := [(30, { HeadSt.reset with claim := some c }), (31, { HeadSt.reset with queue := [r] })] }
    ((0x1F#32).toNat / 2 ^ 5 % 4 = 0 ∧ (s.head 30).claim.isSome = true)
      ∧ ((0x7F#32).toNat % 32 = 31 ∧ (0x7F#32).toNat / 2 ^ 5 % 4 ≠ 0 ∧ (s.head 31).claim = none ∧ s.fld WD_HCFG.HEN 31 = 1
          ∧ (s.head 31).queue.find? (fun x => s.inTolerance (s.fld WD_CLAIMT.TIME) x) = some r ∧ r.dir ≤ 3)
      ∧ ((s.head 30).queue.find? (fun x => s.inTolerance (s.fld WD_CLAIMT.TIME) x) = none ∧ s.fld WD_HCFG.HEN 30 = 1)
      ∧ ((0x20#32).toNat / 2 ^ 5 % 4 ≠ 0 ∧ (s.head 0).claim = none ∧ s.fld WD_HCFG.HEN 0 = 0)
      ∧ (s.head 30).claim = some c ∧ (s.head 31).queue = r :: [] ∧ s.canVote = true := by decide +kernel

theorem witness_ProofsOfHeads :
    let ja : Injection := { mark := 0, left := 0, tail := 0, start := 0, stop := 10, edges := [(0, 1), (10, 0)] }
    let jb : Injection := { mark := 0, left := 0, tail := 0, start := 0, stop := 10, edges := [] }
    let st := fun (x y : Injection) => { rs [(WD_PROOF.CPEND, 31, 1), (WD_HCFG.HEN, 31, 1)] with
      heads := [(0, { HeadSt.reset with rounds := [(4, [0, 1])] })],
      systems := [(0, { SysSt.reset with inj := some x }), (1, { SysSt.reset with inj := some y })] }
    ((st ja ja).head 0).rounds = [(4, [2 * 0, 2 * 0 + 1])] ∧ ((st ja ja).sys 0).inj = some ja ∧ ((st ja ja).sys 1).inj = some ja ∧ ja.left + ja.tail = 0
      ∧ jb.left + jb.tail = 0 ∧ ((st ja ja).injectionOk 0 ja = true ∧ (st ja ja).injectionOk 1 ja = true)
      ∧ (((st jb ja).sys 0).inj = some jb ∧ (st jb ja).injectionOk 0 jb = false ∧ (st jb ja).injectionOk 1 ja = true)
      ∧ ((0x11F#32).toNat % 32 = 31 ∧ (0x11F#32).toNat / 2 ^ 8 % 2 = 1 ∧ (st ja ja).fld WD_PROOF.CPEND 31 = 1)
      ∧ (0x1F#32).toNat / 2 ^ 8 % 2 = 0
      ∧ ((st ja ja).fld WD_HCFG.HEN 31 = 1 ∧ (st ja ja).fbit WD_PSTALE.STALE 31 = false) ∧ (st ja ja).canVote = true := by decide +kernel

theorem witness_PassageFlagsAndHeadConfiguration :
    let v := 0x00148801#32
    let s := { rs [(FE_WINDOW.WIN, 0, 0), (GR_HPLACE.PRIM, 31, 5), (WD_CMPST.STATE, 0, 0), (WD_CMPST.STATE, 1, 0)] with heads := [(0, { HeadSt.reset with cfg := some v.toNat })] }
    s.fld GR_HPLACE.PRIM 31 = (5 : Fin 6).val ∧ s.fld GR_HPLACE.PRIM 31 ≠ (0 : Fin 6).val
      ∧ (v.toNat / 2 ^ 12 % 16 ≤ 8 ∧ 20 ≤ v.toNat / 2 ^ 16 % 256 ∧ v.toNat / 2 ^ 11 % 2 ≠ s.fld WD_HCFG.HEN 31)
      ∧ ((s.head 0).cfg = some v.toNat ∧ s.opens 0 = false ∧ (s.head 0).closing ≤ 1 ∧ s.fld WD_HCFG.HEN 0 ≠ v.toNat / 2 ^ 11 % 2 ∧ s.phaseNext 0 = false)
      ∧ s.canVote = true := by decide +kernel

theorem witness_RingsArePushedAndAcknowledged :
    let s := rs [(BB_CFG.ACTIVE, 0, 1), (BB_CFG.ACTIVE, 1, 1), (BB_INB.LWI, 0, 2), (BB_INB.LWI, 1, 16), (BB_ORIGBASE.BASE, 0, 0x20000000),
      (GR_SHBASE.BASE, 0, 0x201FBE00), (BB_ORIGIDX.WI, 0, 5)]
    let full := rs [(BB_ORIGIDX.WI, 0, 64), (GR_SHIDX.WI, 0, 32)]
    let full? := fun b : Nat => (s.fld BB_INB.LWI b + 32 - s.fld BB_INB.LRI b) % 32 = 16
    ((0#128).getLsbD 127 = false ∧ (BitVec.ofNat 128 (2 ^ 127)).getLsbD 127 = true ∧ (0x200#18).toNat % 0x400 % 16 = 0 ∧ 0x200 ≤ (0x200#18).toNat % 0x400 ∧ (0x2F0#18).toNat % 0x400 < 0x300
        ∧ s.fld BB_CFG.ACTIVE 0 = 1 ∧ ¬ full? 0)
      ∧ (s.fld BB_CFG.ACTIVE ((0xA00#18).toNat / 0x400) = 0 ∧ (0xA00#18).toNat % 0x400 = 0x200)
      ∧ (s.fld BB_CFG.ACTIVE ((0x600#18).toNat / 0x400) = 1 ∧ full? 1)
      ∧ ((15 : Fin 17) ≠ 16 ∧ (0x201#18).toNat % 0x400 % 16 ≠ 0 ∧ (0x1F0#18).toNat % 0x400 < 0x200 ∧ 0x300 ≤ (0x300#18).toNat % 0x400)
      ∧ ((s.fld BB_ORIGIDX.WI + 128 - s.fld BB_ORIGIDX.RI) % 128 ≠ 64
          ∧ 0x20000000 ≤ s.fld BB_ORIGBASE.BASE + s.fld BB_ORIGIDX.WI % 64 * 16
          ∧ s.fld BB_ORIGBASE.BASE + s.fld BB_ORIGIDX.WI % 64 * 16 + 16 ≤ 0x20200000)
      ∧ (full.fld BB_ORIGIDX.WI + 128 - full.fld BB_ORIGIDX.RI) % 128 = 64
      ∧ ((s.fld GR_SHIDX.WI + 64 - s.fld GR_SHIDX.RI) % 64 ≠ 32 ∧ 0x20000000 ≤ s.fld GR_SHBASE.BASE + s.fld GR_SHIDX.WI % 32 * 16
          ∧ s.fld GR_SHBASE.BASE + s.fld GR_SHIDX.WI % 32 * 16 + 16 ≤ 0x20200000)
      ∧ (full.fld GR_SHIDX.WI + 64 - full.fld GR_SHIDX.RI) % 64 = 32
      ∧ (s.canVote = true ∧ s.lockedFor .hw (s.fld BB_BOBSEL.BOB 11) = false ∧ (0x402#32).toNat / 2 ^ 10 % 2 = 1
          ∧ (0x402#32).toNat / 2 ^ 11 % 2 ≠ 1 ∧ (0x800#32).toNat / 2 ^ 11 % 2 = 1
          ∧ ((0x800#32).toNat / 2 ^ 5 % 32 + 32 - s.fld BB_INB.RRI 0) % 32 ≤ (s.fld BB_INB.RWI 0 + 32 - s.fld BB_INB.RRI 0) % 32
          ∧ (s.fld BB_INB.RWI 0 + 32 - s.fld BB_INB.RRI 0) % 32 < ((0x820#32).toNat / 2 ^ 5 % 32 + 32 - s.fld BB_INB.RRI 0) % 32
          ∧ ({ s with locks := [(0, some { who := .host 0, since := 0 })] } : State).lockedFor .hw 0 = true
          ∧ ((0x402#32).toNat % 32 + 32 - s.fld BB_INB.LRI 0) % 32 ≤ (s.fld BB_INB.LWI 0 + 32 - s.fld BB_INB.LRI 0) % 32
          ∧ (s.fld BB_INB.LWI 0 + 32 - s.fld BB_INB.LRI 0) % 32 < ((0x403#32).toNat % 32 + 32 - s.fld BB_INB.LRI 0) % 32)
      ∧ ((0x280#32).toNat / 2 ^ 7 % 128 + 128 - s.fld BB_ORIGIDX.RI) % 128 ≤ (s.fld BB_ORIGIDX.WI + 128 - s.fld BB_ORIGIDX.RI) % 128
      ∧ (s.fld BB_ORIGIDX.WI + 128 - s.fld BB_ORIGIDX.RI) % 128 < ((0x300#32).toNat / 2 ^ 7 % 128 + 128 - s.fld BB_ORIGIDX.RI) % 128
      ∧ (GR_SHIDX.RI.of (0#32).toNat + 64 - s.fld GR_SHIDX.RI) % 64 ≤ (s.fld GR_SHIDX.WI + 64 - s.fld GR_SHIDX.RI) % 64
      ∧ (s.fld GR_SHIDX.WI + 64 - s.fld GR_SHIDX.RI) % 64
          < (GR_SHIDX.RI.of (2 ^ GR_SHIDX.RI.lo) + 64 - s.fld GR_SHIDX.RI) % 64
      ∧ (let r := rs [(BB_CFG.ACTIVE, 0, 1), (BB_INB.RWI, 0, 16)]
         (0x300#18).toNat % 0x400 % 16 = 0 ∧ 0x300 ≤ (0x300#18).toNat % 0x400 ∧ r.fld BB_CFG.ACTIVE 0 = 1
          ∧ (r.fld BB_INB.RWI 0 + 32 - r.fld BB_INB.RRI 0) % 32 = 16 ∧ (s.fld BB_INB.RWI 0 + 32 - s.fld BB_INB.RRI 0) % 32 ≠ 16
          ∧ s.fld BB_CFG.ACTIVE ((0xB00#18).toNat / 0x400) = 0 ∧ (0x2F0#18).toNat % 0x400 < 0x300)
      ∧ (∀ k ∈ List.range 32, s.fld WD_HCFG.HEN k ≠ 1) := by
  decide +kernel

theorem witness_BobbinLocks :
    let hw : LockSt := { who := .hw, since := 0 }
    let ho : LockSt := { who := .host 2, since := 0 }
    let dl : LockSt := { who := .dma, since := 0 }
    let s := { State.reset with
      locks := [(3, some hw), (9, some dl), (200, some ho)], rxHeld := [(0, false, 0, [])],
      lockWait := [{ who := .host 1, bob := 4, since := 0 }, { who := .dma, bob := 10, since := 0 }] }
    (s.canVote = true ∧ s.lockOf (255#8).toNat = none ∧ (s.heldBy .hw).length < 8 ∧ (∀ x ∈ s.heldBy .hw, x < (255#8).toNat)
        ∧ (∀ w ∈ s.lockWait, w.bob ≠ (255#8).toNat))
      ∧ (s.heldBy .dma = [9] ∧ s.lockOf 9 = some dl ∧ dl.who = .dma ∧ dl.since ≤ s.tb ∧ s.waitsForLock .dma = true ∧ s.rxHeld ≠ [])
      ∧ ((∃ x ∈ s.heldBy .hw, (0#8).toNat ≤ x) ∧ s.waitsLock .hw 0 = false)
      ∧ (s.lockOf (3#8).toNat = some hw ∧ hw.who = .hw) ∧ (s.lockOf (200#8).toNat = some ho ∧ ho.who ≠ .hw)
      ∧ (s.lockOf (4#8).toNat = none ∧ s.nextWaiter (4#8).toNat = some (.host 1) ∧ s.fld (mapHost 1) < 16)
      ∧ (s.heldBy (.host 2) = [(200#8).toNat] ∧ ho.who = .host 2 ∧ s.tb ≤ ho.since + s.fld BB_CTRL.LOCKMAX * 125 ∧ ho.since ≤ s.tb
          ∧ s.fld (mapHost 2) < 13) := by decide +kernel

theorem witness_AgreedCommandsAreQueuedAndServed :
    let st := fun v : Nat => { rs [(BB_CFG.ACTIVE, 1, 1), (BB_CFG.ACTIVE, 2, 1)] with
      agreed := [(BB_CMD.addr, v)], cmds := [{ bob := 2, code := 1, tag := 0 }] }
    (∀ v ∈ [0x101, 0x501, 0x801, 0xB01, 0x600, 0x700, 0xC00], (st v).agreed.find? (fun p => p.1 == BB_CMD.addr) = some (BB_CMD.addr, v))
      ∧ ¬ ((1 ≤ 0 ∧ 0 ≤ 5) ∨ (8 ≤ 0 ∧ 0 ≤ 11)) ∧ (st 0x500).takesCommands 0 = false
      ∧ ((st 0x101).takesCommands 1 = true ∧ (st 0x101).cmds.length < 8 ∧ ∀ x ∈ (st 0x101).cmds, x.bob ≠ 1)
      ∧ ((st 0x102).takesCommands 2 = true ∧ ∃ x ∈ (st 0x102).cmds, x.bob = 2)
      ∧ (2 ≤ (0x4000#32).toNat / 2 ^ 12 % 16 ∧ (0x4000#32).toNat / 2 ^ 12 % 16 ≤ 4)
      ∧ ¬ (2 ≤ (0x5000#32).toNat / 2 ^ 12 % 16 ∧ (0x5000#32).toNat / 2 ^ 12 % 16 ≤ 4) ∧ (st 0).canVote = true := by decide +kernel

theorem witness_FingerprintMatchesAndEvaluation :
    let m : Match := { result := 0x2001, detail := 7, mode := 0 }
    let st := fun h : Nat => (rs [(BB_CFG.ACTIVE, 1, 1), (FP_TOLA.SETLO, 0, 5)]).wrW (0x28000000 + 0x400 + 0x100) h
    let tbl := (st 0).rdW (0x28000000 + 0x400 + 0x14) / 2 ^ 5 % 8
    let noset := fun (s : State) (_b h : Nat) => s.fld FP_TOLA.SETLO tbl % 2 = 0 ∨ (h / 2 ^ 16 % 2 = 1 ∧ s.fld FP_TOLA.SETLO tbl / 4 % 2 = 0)
    ((st 0).fp = none ∧ (st 0).fld BB_CFG.ACTIVE 0 ≠ 1) ∧ noset (rs [(BB_CFG.ACTIVE, 1, 1)]) 1 0
      ∧ (¬ noset (st 0x8000) 1 0x8000 ∧ (st 0x8000).rdW 0x28000500 = 0x8000 ∧ 0x8000 / 2 ^ 15 % 2 = 1)
      ∧ (¬ noset (st 1) 1 1 ∧ (st 1).rdW 0x28000500 % 64 ≠ (st 1).rdW 0x28000500 / 64 % 64)
      ∧ (¬ noset (st 0x14000) 1 0x14000 ∧ (st 0x14000).rdW 0x28000500 = 0x14000 ∧ 0x14000 / 2 ^ 16 % 2 = 1 ∧ 0x14000 / 2 ^ 14 % 2 = 1
          ∧ 0x14000 % 64 = 0x14000 / 64 % 64 ∧ 0x14000 / 2 ^ 15 % 2 ≠ 1 ∧ 0x14000 / 2 ^ 12 % 2 ≠ 1 ∧ 0x14000 / 2 ^ 13 % 2 ≠ 1)
      ∧ (¬ noset (st 0) 1 0 ∧ (st 0).rdW 0x28000500 = 0 ∧ (st 0).fld BB_CFG.ACTIVE 1 = 1)
      ∧ ({ State.reset with fp := some m } : State).fp = some m ∧ m.result % 16 ≤ 1
      ∧ ((st 0).fld BB_CFG.ACTIVE (1#8).toNat = 1 ∧ (st 0).isSafe = false
          ∧ (st 0).canVote = true ∧ (st 0).locks = [] ∧ (st 0).lockWait = [] ∧ (st 0).evalRest = []) := by decide +kernel

/-- A node at position 1 of a ring of three positions and three data slots, whose pricking is in flash at 0x1000; the slot of this
node has index 1. -/
def ringState (l : List (Field × Nat × Nat)) : State :=
  let s := rs ([(CK_RING.POS, 0, 1), (CK_RING.VALID, 0, 1), (ID_NODE.NODE, 0, 11), (CK_PID.PID, 0, 0x1234), (CK_CTRL.ETYPE, 0, 0x88B5),
    (CK_RXBASE.BASE, 0, 0x20000000), (CK_RXGEOM.RXBLEN, 0, 1024), (CK_RXGEOM.NRXB, 0, 64)] ++ l)
  let pos := fun n x : Nat => n + 50 * 2 ^ 16 + x * 2 ^ 32
  let slot := fun start kind owner : Nat => start + kind * 2 ^ 22 + owner * 2 ^ 24 + 5000 * 2 ^ 32 + 1000 * 2 ^ 53
  let parts := [(2, 7), (2, 1), (1, 2), (1, 3), (2, 4), (1, 0), (1, 0), (2, 1000), (2, 100), (2, 1000), (4, 20000), (1, 2), (1, 0), (2, 0),
    (4, 0x1234), (8, pos 10 5), (8, pos 11 6 + 2 ^ 10 + 2 ^ 11), (8, pos 12 7), (8, slot 10000 0 0), (8, slot 50000 0 1), (8, slot 90000 0 2), (8, slot 130000 1 1)]
  let s := (parts.foldl (fun (x : Nat × State) y => (x.1 + y.1, x.2.wr x.1 y.1 y.2)) (0x1000, s)).2
  { s with tables := [{ kind := 7, index := 0, addr := 0x1000, len := 124 }] }

/-- A frame of 64 bytes of SRC 10 in the slot with index 0, sealed for SEED 5, with the header bytes 12 to 15 given. -/
def frame (hd : List Byte) (src : Nat) : List Byte :=
  sealFrame 5 (List.replicate 12 0#8 ++ hd ++ leBytes 2 (src + 2048) ++ leBytes 2 0 ++ leBytes 4 0 ++ leBytes 2 0 ++ leBytes 4 0x1234
    ++ List.replicate 34 0#8)

theorem witness_SyncsAndHoldover :
    let st := fun tq : Nat => { ringState [(TM_PDELAY.VALID, 0, 1), (TM_PDELAY.VALID, 1, 1), (TM_CTRL.LOCKN, 0, 2), (TM_CTRL.STEPCONF, 0, 1), (TM_LIM.LOCKLIM, 0, 10),
        (TM_LIM.OFFLIM, 0, 2), (TM_SERVO.STEPTHR, 0, 1), (TM_LIM.CORRLIM, 0, 12500), (TM_OSC.HOLDRATE, 0, 1), (TM_MCAND0.VA, 0, 1), (TM_MCAND0.CANDA, 0, 11),
        (TM_PROF.DOMAIN, 0, 9)] with
      time := { TimeSt.reset with tq := tq, follow := some 10, lockRun := 1 } }
    ((st 1).syncValid (10#10).toNat 0 (9#8).toNat (0#10).toNat true = true ∧ (st 1).time.tq ≠ 5
        ∧ (st 1).ownsSlot (1#10).toNat (10#10).toNat = false ∧ (8#8).toNat ≠ (st 1).fld TM_PROF.DOMAIN
        ∧ (st 1).time.follow ≠ some (12#10).toNat)
      ∧ ((st 3).syncValid (10#10).toNat 0 (9#8).toNat (0#10).toNat true = true)
      ∧ (∀ tq ∈ [1, 4, 6], (st tq).time.tq ∈ [1, 4, 6] ∧ (10 : Int).natAbs ≤ (st tq).fld TM_LIM.LOCKLIM
          ∧ (st tq).fld TM_CTRL.LOCKN ≤ (st tq).time.lockRun + 1 ∧ (st tq).fld TM_LIM.LOCKLIM < (11 : Int).natAbs
          ∧ 0 < (st tq).fld TM_CTRL.LOCKN)
      ∧ ((st 3).time.tq = 3 ∧ (st 3).time.stepDue = false ∧ (-125 : Int).natAbs ≤ (st 3).fld TM_SERVO.STEPTHR * 125
          ∧ (st 3).fld TM_SERVO.STEPTHR * 125 < (126 : Int).natAbs
          ∧ ({ st 3 with time := { (st 3).time with stepDue := true } } : State).time.stepDue = true)
      ∧ ((st 2).time.tq = 2 ∧ (st 2).fld TM_LIM.OFFLIM * 8 < (17 : Int).natAbs ∧ (17 : Int).natAbs ≤ (st 2).fld TM_SERVO.STEPTHR * 125
          ∧ (st 2).fld TM_CTRL.STEPCONF ≤ (st 2).time.offRun + 1)
      ∧ (∀ tq ∈ [1, 2, 4, 6], (st tq).time.lastSync + (st tq).fld TM_CTRL.HOLDTO ≤ (st tq).cycle)
      ∧ ((st 3).fld TM_OSC.HOLDRATE ≠ 0 ∧ (st 3).fld TM_LIM.CORRLIM ≤ 12500)
      ∧ ((st 1).rank = some 0 ∧ (st 1).time.tq ≠ 5 ∧ (st 1).time.lastAnn + (0 + 1) * (st 1).fld TM_CTRL.ANNTO ≤ (st 1).cycle) := by
  decide +kernel

theorem witness_NowReadAndCompares :
    let s := rs [(TM_CMPT.TIME, 4, 1), (TM_CMPC.ARM, 4, 1)]
    (s.absent .root = false ∧ s.time.epoch < 16 ∧ s.time.tq < 8)
      ∧ ((0#32).toNat % 16 = s.time.epoch ∧ 0 < tdiff (s.fld TM_CMPT.TIME 4) s.nowTu)
      ∧ ((0#32).toNat % 16 = State.reset.time.epoch ∧ tdiff (State.reset.fld TM_CMPT.TIME 4) State.reset.nowTu ≤ 0)
      ∧ (s.fld TM_CMPC.ARM 4 = 1 ∧ s.fld TM_CMPC.EPOCH 4 = s.time.epoch) := by decide +kernel

theorem witness_LaunchesAreArmedAndFire :
    let st := fun (act run lo : Nat) => rs [(TM_LCFG.ST, 15, 1), (TM_LCFG.ACTION, 15, act), (TM_LTGTLO.TGT, 15, lo), (TM_LTGTHI.TGT, 15, 1),
      (FE_CTRL.RUN, 0, run), (FE_TEST.ARM, 0, 1), (TM_LTIME.TIME, 14, 1250), (TM_LTIME.TIME, 15, 1), (TM_CTRL.LEAD, 0, 1), (TM_LCFG.ST, 13, 2)]
    let e : Exc := { mode := 1, ipk := 8, freq := 0 }
    let z := { st 1 0 1 with systems := [(0, { SysSt.reset with staged := some e })] }
    let ep := fun act : Nat => { st act 0 1 with time := { TimeSt.reset with tq := 4 } }
    ((st 1 0 1).canVote = true ∧ (st 1 0 1).lst 14 ≠ 1 ∧ (1#32).toNat / 2 ^ 4 % 16 = (st 1 0 1).time.epoch
        ∧ (((st 1 0 1).fld TM_CTRL.LEAD * 1250 : Nat) : Int) ≤ tdiff ((st 1 0 1).fld TM_LTIME.TIME 14) (st 1 0 1).nowTu)
      ∧ ¬ ((0#32).toNat % 8 = 1) ∧ (st 1 0 1).lst 13 = 2
      ∧ ((st 1 0 1).lst 15 = 1 ∧ 0 < tdiff ((st 1 0 1).fld TM_LTIME.TIME 15) (st 1 0 1).nowTu)
      ∧ (z.time.tq ≠ 4 ∧ z.fireable 15 1 = true ∧ (targetSystems 1 1).contains 0 = true ∧ (z.sys 0).staged = some e)
      ∧ ((st 2 0 1).fireable 15 2 = true ∧ (st 2 0 1).fld FE_TEST.ARM 0 = 1)
      ∧ ((st 5 0 0x86).fireable 15 5 = true ∧ ((st 5 0 0x86).fld TM_LTGTLO.TGT 15).testBit (5 + 2) = true
          ∧ ((st 5 0 0x86).fld TM_LTGTLO.TGT 15).testBit 1 = true)
      ∧ ((st 3 0 0).fireable 15 3 = true ∧ (st 3 0 0).fld FE_CTRL.RUN = 0) ∧ ((st 3 1 0).fireable 15 3 = true ∧ (st 3 1 0).fld FE_CTRL.RUN = 1)
      ∧ ∀ act ∈ [1, 2, 3, 4, 5], (ep act).time.tq = 4 ∧ (ep act).fireable 15 act = true := by decide +kernel

theorem witness_CycleBoundaryComes :
    let s := State.reset
    s.running = true ∧ s.joined 1 = false ∧ s.time.stepDue = false ∧ s.time.yields = none ∧ s.keeper.resetReq = none
      ∧ nextMultiple s.cycleLen (max s.nowTu s.cycNext) < 2 ^ 64 := by decide +kernel

theorem witness_FramesAreCheckedAndStored :
    let k := (ringState []).prick 0
    let s := ringState [(CK_NODEST.STATE, 0, 4), (CK_PST.PSTATE, 1, 2)]
    let own : Ret := { slot := 0, cyc := 0, scode := 1, due := 0, even := false, odd := false, active := true }
    let z := { s with rings := [(0, { RingSt.reset with seen := [(10, 0, 0, 0)], rets := [own] })] }
    let good := frame [0x88, 0xB5, 0x01, 0x00] 10
    (s.portRing 1 = some 0 ∧ (s.prick 0).isSome = true ∧ s.portJoined 1 = true ∧ s.node 0 ≠ 0 ∧ fType good ≠ 4 ∧ good.length = 64)
      ∧ s.discards (frame [0x08, 0x00, 0x01, 0x00] 10) = true ∧ s.discards (good.take 63) = true
      ∧ (s.discards good = false ∧ fcsOk good = true ∧ fSrc good ≠ s.fld ID_NODE.NODE ∧ fcsOk (putBytes good 20 [1#8]) = false)
      ∧ (k.map (fun k => s.headCheck 0 1 k good)) = some .ok ∧ (k.map (fun k => safeOk k good)) = some true
      ∧ ((s.ring 0).seen.any (fun x => x.1 == fSrc good && x.2.1 == fSlot good && x.2.2.1 == fCyc good)) = false
      ∧ ((z.ring 0).seen.any (fun x => x.1 == fSrc good && x.2.1 == fSlot good && x.2.2.1 == fCyc good)) = true
      ∧ (k.map (fun k => s.headCheck 0 1 k (frame [0x88, 0xB5, 0x01, 0x00] 12))) = some .owner
      ∧ (k.map (fun k => (ringState [(CK_PID.PID, 0, 9)]).headCheck 0 1 k good)) = some .pid
      ∧ (let bad := withFcs (fcsOf (putBytes good 40 [1#8])) (putBytes good 40 [1#8])
         fcsOk bad = true ∧ (k.map (fun k => safeOk k bad)) = some false)
      ∧ (s.dmaHolds = false ∧ s.rxHeld = [] ∧ ringUsed 2048 (s.fld CK_RXWI.WI) (s.fld CK_RXRI.RI) < s.fld CK_RXGEOM.NRXB
          ∧ 0x20000000 ≤ s.fld CK_RXBASE.BASE + s.rxNext * s.fld CK_RXGEOM.RXBLEN
          ∧ (∀ i ∈ List.range 5, s.badBits (0x20000000 + 16 * i) ≤ 2) ∧ 16 + 64 ≤ s.fld CK_RXGEOM.RXBLEN
          ∧ s.fld CK_RXBASE.BASE + s.rxNext * s.fld CK_RXGEOM.RXBLEN + 16 + 64 ≤ 0x20200000 ∧ s.fld CK_SSBASE.BASE = 0)
      ∧ (s.portRing 4 = none ∧ s.portRing 0 = some 0 ∧ s.portJoined 0 = false)
      ∧ (let full := ringState [(CK_NODEST.STATE, 0, 4), (CK_PST.PSTATE, 1, 2), (CK_RXWI.WI, 0, 64)]
         full.fld CK_RXGEOM.NRXB ≤ ringUsed 2048 (full.fld CK_RXWI.WI) (full.fld CK_RXRI.RI))
      ∧ ((ringState [(MI_MASK.MASK, 0, 2 ^ 13 - 1), (CK_NODEST.STATE, 0, 4), (CK_PST.PSTATE, 1, 2)]).masked .dma = true)
      ∧ (let h := { s with lockWait := [{ who := .dma, bob := 3, since := 0 }] }
         h.masked .dma = false ∧ h.dmaHolds = true)
      ∧ ¬ 16 + 64 ≤ (ringState [(CK_RXGEOM.RXBLEN, 0, 64)]).fld CK_RXGEOM.RXBLEN
      ∧ (let mine := frame [0x88, 0xB5, 0x01, 0x00] 11
         fSrc mine = s.fld ID_NODE.NODE ∧ own ∈ (z.ring 0).rets ∧ own.slot = fSlot mine ∧ own.cyc = fCyc mine
           ∧ (∀ x ∈ (z.ring 0).rets, x.scode ≠ fle mine (mine.length - 8) 4) ∧ fcsOk mine = true ∧ (s.ring 0).rets = [] ∧ (z.ring 0).late = []) := by decide +kernel

theorem witness_StoredFramesAreDispatchedInOrder :
    let ev := fun pt : Nat => List.replicate 30 0#8 ++ elemBytes 0x12 1 (leBytes 16 pt) ++ List.replicate 8 0#8
    let fr := fun pt : Nat => putBytes (putBytes (ev pt) 24 (leBytes 2 20)) 16 (leBytes 2 10)
    let s := { rs [(CK_RXWI.WI, 0, 3)] with rxq := [(0x20000000, 64)] }
    let map := fun ent : Nat => { (s.wr 0x2010 8 ent) with tables := [{ kind := 5, index := 0, addr := 0x2000, len := 32 }] }
    let rx := ringState [(CK_NODEST.STATE, 0, 4), (CK_PST.PSTATE, 1, 2)]
    let good := frame [0x88, 0xB5, 0x01, 0x00] 10
    let next := rx.fld CK_RXBASE.BASE + rx.rxNext * rx.fld CK_RXGEOM.RXBLEN
    (rx.portRing 1 = some 0 ∧ (rx.prick 0).map (fun k => rx.headCheck 0 1 k good == .ok && safeOk k good) = some true
        ∧ rx.portJoined 1 = true ∧ rx.node 0 ≠ 0 ∧ fType good ≠ 4 ∧ fSrc good ≠ rx.fld ID_NODE.NODE ∧ rx.discards good = false
        ∧ fcsOk good = true ∧ (rx.ring 0).seen = [] ∧ ringUsed 2048 (rx.fld CK_RXWI.WI) (rx.fld CK_RXRI.RI) < rx.fld CK_RXGEOM.NRXB
        ∧ 16 + good.length ≤ rx.fld CK_RXGEOM.RXBLEN ∧ 0x20000000 ≤ next ∧ next + 16 + good.length ≤ 0x20200000
        ∧ rx.dmaHolds = false ∧ rx.rxHeld = [])
      ∧ (s.rxq = (0x20000000, 64) :: [] ∧ s.dmaHolds = false ∧ s.rxHeld = [] ∧ (∀ i ∈ List.range 5, s.badBits (0x20000000 + 16 * i) = 0)
          ∧ ({ s with errs := [(0x2000004, 3)] } : State).badBits (0x20000000 + 16 * 4) = 3 ∧ s.canVote = true)
      ∧ ((frameEvents (fr 0)).length = 1 ∧ (frameEvents (fr (2 ^ 127))).map (fun v => v.testBit 127) = [true] ∧ fType (fr 0) ≠ 1)
      ∧ entryBobs ((map 0).pointEntry 0) = []
      ∧ (entryBobs ((map (2 ^ 8 + 2 ^ 46)).pointEntry 0) ≠ [] ∧ entryLocal ((map (2 ^ 8 + 2 ^ 46)).pointEntry 0) = true)
      ∧ (entryNode ((map (2 ^ 8 + 9 * 2 ^ 36)).pointEntry 0) ≠ fSrc (fr 0))
      ∧ (entryBobs ((map (2 ^ 8 + 10 * 2 ^ 36)).pointEntry 0) ≠ [] ∧ entryLocal ((map (2 ^ 8 + 10 * 2 ^ 36)).pointEntry 0) = false
          ∧ entryNode ((map (2 ^ 8 + 10 * 2 ^ 36)).pointEntry 0) = fSrc (fr 0))
      ∧ (((3#32).toNat % 2048 + 2048 - s.fld CK_RXRI.RI) % 2048 ≤ (s.fld CK_RXWI.WI + 2048 - s.fld CK_RXRI.RI) % 2048
          ∧ s.fld CK_RXRI.RI < 2048 ∧ s.fld CK_RXWI.WI < 2048)
      ∧ (s.fld CK_RXWI.WI + 2048 - s.fld CK_RXRI.RI) % 2048 < ((4#32).toNat % 2048 + 2048 - s.fld CK_RXRI.RI) % 2048 := by
  decide +kernel

theorem witness_PortsTrainAndJoin :
    let s := { ringState [(CK_PCTRL.EN, 5, 1), (CK_PST.PSTATE, 0, 1), (CK_PST.PSTATE, 1, 3), (CK_PST.LINKD, 0, 50), (TM_PDELAY.NMEAS, 0, 3)] with
      links := [(0, { PortSt.reset with meas := [800, 800, 800] })] }
    let m := fun d : Nat => (d + 800 + 800 + 800) / 4
    (s.fld CK_PCTRL.EN 5 = 1 ∧ s.fld CK_PST.PSTATE 5 = 0)
      ∧ (s.fld CK_PST.PSTATE 0 = 1 ∧ s.masked .dma = false ∧ s.portRing 0 = some 0 ∧ (s.prick 0).isSome = true) ∧ s.fld CK_PST.PSTATE 1 = 3
      ∧ (s.fld CK_PST.PSTATE 0 ≠ 0 ∧ (0#8).toNat = s.fld TM_PROF.DOMAIN ∧ (1#8).toNat ≠ s.fld TM_PROF.DOMAIN ∧ s.portRing 5 = none)
      ∧ ((s.link 0).meas = 800 :: 800 :: 800 :: [] ∧ 800 < 2 ^ 16 ∧ 3 ≤ s.fld TM_PDELAY.NMEAS 0)
      ∧ (((m (4000#16).toNat : Nat) : Int) - (s.fld CK_PST.LINKD 0 * 16 : Nat)).natAbs ≤ s.linkTol 0
      ∧ s.linkTol 0 < (((m (4004#16).toNat : Nat) : Int) - (s.fld CK_PST.LINKD 0 * 16 : Nat)).natAbs := by decide +kernel

theorem witness_NodeStatesFollowTheirTimers :
    let x : Ret := { slot := 0, cyc := 0, scode := 1, due := 7, even := false, odd := false, active := true }
    let st := fun (n tq mr : Nat) => { ringState [(CK_NODEST.STATE, 0, n), (TM_MASTER.MRANK, 0, mr)] with
      rings := [(0, { RingSt.reset with listenAt := some 9, rets := [x] })], time := { TimeSt.reset with tq := tq } }
    (((st 1 2 0).prick 0).isSome = true ∧ (st 1 2 0).node 0 = 1 ∧ ((st 1 2 0).ring 0).listenAt = some 9)
      ∧ (((st 1 2 0).prick 0).map (fun k => (st 1 2 0).coldEligible 0 k)) = some true
      ∧ (((st 1 0 0).prick 0).map (fun k => (st 1 0 0).coldEligible 0 k)) = some false
      ∧ (st 3 0 0).node 0 = 3 ∧ ((st 3 0 0).ring 0).rets = x :: []
      ∧ ((0#8).toNat = (st 4 5 1).fld TM_PROF.DOMAIN ∧ (st 4 5 1).time.tq = 5 ∧ 0 < (st 4 5 1).fld TM_MASTER.MRANK ∧ (st 4 5 1).node 0 = 4)
      ∧ ((st 1 5 1).node 0 ≠ 4 ∧ 0 < (st 1 5 1).fld TM_MASTER.MRANK)
      ∧ ((st 5 5 1).fld TM_MASTER.MRANK < 2 ∧ (st 5 5 1).node 0 = 5 ∧ (st 1 5 1).node 0 = 1 ∧ (st 3 5 1).node 0 = 3) := by decide +kernel

theorem witness_SchedulesAndBuffers :
    let s := ((ringState [(CK_TXBASE.BASE, 0, 0x20001000)]).wr 0x1006 2 3).wr 0x1024 8 (11 + 50 * 2 ^ 16 + 6 * 2 ^ 32)
    let u := s.setFld CK_CTRL.ETYPE 0 ((0x06000001#32).toNat / 2 ^ 16)
    let run := ringState [(CK_CTRL.RUN, 0, 1), (CK_TXST2.SNEXT, 0, 1)]
    (s.canVote = true ∧ run.canVote = true ∧ 0x600 ≤ (0x06000001#32).toNat / 2 ^ 16 ∧ s.fld CK_CTRL.RUN = 0 ∧ u.myRings.all (fun r => u.prickOk r) = true ∧ u.txOk = true ∧ u.rxOk = true)
      ∧ ((ringState [(CK_RXGEOM.NRXB, 0, 35)]).rxOk = false ∧ (ringState []).txOk = false)
      ∧ (0x05FF0001#32).toNat / 2 ^ 16 < 0x600
      ∧ (0x600 ≤ (0x88B50000#32).toNat / 2 ^ 16 ∧ (0x88B50000#32).toNat / 2 ^ 16 = run.fld CK_CTRL.ETYPE ∧ run.fld CK_CTRL.RUN = 1)
      ∧ ((1#32).toNat.testBit 0 = true ∧ 0 < s.homeSlots ∧ (1#32).toNat.testBit 7 = false ∧ s.homeSlots ≤ 1)
      ∧ ((0x10000#32).toNat.testBit 16 = true ∧ run.hasTrain 0 = true ∧ run.fld CK_TXST2.SNEXT ≤ 1) ∧ s.joined 0 = true := by decide +kernel

theorem witness_FramesAreSentInTheirWindows :
    let s := ringState [(CK_CTRL.RUN, 0, 1), (CK_NODEST.STATE, 0, 4), (CK_PST.PSTATE, 0, 2)]
    let f : TxFrame := { ring := 0, slot := 1, rel := 51000, bytes := [1#8], resps := [], events := [5], facts := [], msgs := [] }
    let w : TxRun := { slot := 1, ends := 100, slotEnd := some 5000, frame := none }
    let s := { s with time := { TimeSt.reset with tq := 2 } }
    let copy := ((s.prick 0).bind (fun k => k.slot 1)).toList.map (fun x => (1, x))
    let rel := ((s.prick 0).map (fun k => k.grel)).getD 0
    let z := { s with frames := [f], rings := [(0, { RingSt.reset with tx := some w, copy := copy, copyRel := rel })] }
    let late := { s with rings := [(0, { RingSt.reset with tx := some { w with ends := 5001 } })] }
    ((s.prick 0).isSome = true ∧ s.fld CK_CTRL.RUN = 1 ∧ s.joined 0 = true ∧ s.masked .dma = false ∧ s.arbHolds .dma = false ∧ s.node 0 = 4)
      ∧ (z.joinedPorts 0 ≠ [] ∧ (z.setFld CK_PST.PSTATE 0 0).joinedPorts 0 = [] ∧ (z.setFld CK_NODEST.STATE 0 2).node 0 = 2)
      ∧ ((s.prick 0).bind (fun k => k.slot 1)).map (fun x => decide (slotOwner x = s.myPos 0) && decide (slotKind x = 0)) = some true
      ∧ Tab.get [] s.ready (0 * 8 + 0) = []
      ∧ z.frames.find? (fun g => g.ring == 0 && g.slot == 1) = some f ∧ (z.nowTu ≤ f.rel ∧ f.rel < 2 ^ 64)
      ∧ ((z.prick 0).bind (fun k => (k.slot 1).map (fun x => k.fits x (z.advanceNow f.rel).eff))) = some true
      ∧ ((z.copied 0 1).isSome = true ∧ (z.copied 0 1).map (fun x => decide (f.rel % z.ringLen 0 = (slotStart x + rel) % z.ringLen 0)) = some true
          ∧ f.resps = [] ∧ s.copied 0 1 = none)
      ∧ (let g := ringState [(TM_GUARD.GBASE, 0, 1001)]
         ((g.prick 0).bind (fun k => (k.slot 1).map (fun x => k.fits x (g.advanceNow f.rel).eff))) = some false)
      ∧ ((z.ring 0).tx = some w ∧ w.slotEnd = some 5000 ∧ w.ends ≤ z.tb + (5000 - z.eff - z.nowTu))
      ∧ ((late.ring 0).tx = some { w with ends := 5001 } ∧ late.tb + (5000 - late.eff - late.nowTu) < 5001) := by decide +kernel

theorem witness_HeadsArePlaced :
    let s := rs ((List.range 30).flatMap (fun j => [(GR_HPLACE.PRIM, j, 7), (GR_HPLACE.SHAD, j, 7)])
      ++ [(GR_HPLACE.PRIM, 31, 0), (GR_HPLACE.SHAD, 31, 1), (GR_HPLACE.PRIM, 30, 0), (GR_HPLACE.SHAD, 30, 5), (GR_HPLACE.PEND, 30, 1),
        (WD_CMPST.STATE, 60, 0), (WD_CMPST.STATE, 61, 0)])
    let full := (List.range 9).foldl (fun x j => x.setFld GR_HPLACE.PRIM j 2) s
    let due := { s with tb := 187500000, heads := [(30, { HeadSt.reset with closedFor := 26 })] }
    (s.canVote = true ∧ s.fld GR_HPLACE.PRIM 31 ≠ 6 ∧ (0x20#32).toNat / 2 ^ 4 % 8 = 2 ∧ (0x20#32).toNat / 2 ^ 9 % 2 = 0 ∧ (0x20#32).toNat / 2 ^ 8 % 2 = 0
        ∧ s.placeOk 31 0 2 = true ∧ 2 ≠ s.fld GR_HPLACE.SHAD 31)
      ∧ full.placeOk 31 0 2 = false ∧ (0x170#32).toNat / 2 ^ 4 % 8 = 7
      ∧ (s.placeOk 31 0 1 = true ∧ (0x110#32).toNat / 2 ^ 4 % 8 = s.fld GR_HPLACE.SHAD 31)
      ∧ (s.placeOk 31 5 1 = true ∧ (0x215#32).toNat % 8 = 5 ∧ (0x215#32).toNat / 2 ^ 4 % 8 = s.fld GR_HPLACE.SHAD 31)
      ∧ full.placeOk 31 2 1 = false
      ∧ (s.fld GR_HPLACE.PRIM 31 = (0 : Fin 6).val ∧ s.fld GR_HPLACE.PRIM 31 ≠ (5 : Fin 6).val)
      ∧ (due.atComing.handOverDue 30 = true ∧ due.opens 30 = false ∧ (due.head 30).closing ≤ 1)
      ∧ (s.fld GR_HPLACE.SHAD 30 = (5 : Fin 6).val ∧ s.fld GR_HPLACE.SHAD 30 ≠ (4 : Fin 6).val)
      ∧ ((5#32).toNat % 8 = (5 : Fin 6).val ∧ s.seRetired 5 = false) ∧ 6 ≤ (6#32).toNat % 8
      ∧ (let p := ((s.setFld WD_HCFG.HEN 31 1).setFld WD_HCFG.POINT 31 2047)
         let seen := fun l => p.modHead 31 (fun h => { h with lone := l, loneShad := l })
         p.headOfPoint 2047 = some 31 ∧ p.fld GR_HPLACE.SHAD 31 ≠ 7 ∧ ((seen [2047]).head 31).lone.find? (eventsMatch (2047 + 500 * 2 ^ 17)) = some 2047
          ∧ ((seen [2047]).head 31).loneShad.find? (eventsMatch (2047 + 501 * 2 ^ 17)) = none
          ∧ ringUsed 128 (p.fld BB_ORIGIDX.WI) (p.fld BB_ORIGIDX.RI) ≠ 64 ∧ ringUsed 64 (p.fld GR_SHIDX.WI) (p.fld GR_SHIDX.RI) ≠ 32
          ∧ p.fld GR_HPLACE.PEND 31 ≠ 1 ∧ (seen [2047]).shadowMatches 31 = false)
      ∧ (let lost := s.setFld GR_ENG.ST 0 2
         let far := lost.setFld GR_HPLACE.SHAD 31 7
         lost.lostEngine (lost.fld GR_HPLACE.PRIM 31) = true ∧ (lost.head 31).force = none ∧ lost.lostEngine 1 = false ∧ lost.placeOk 31 1 7 = true
          ∧ (far.setFld GR_CTRL.SPARE 0 5).placeOk 31 5 7 = true ∧ far.lostEngine 5 = false
          ∧ ∀ n ∈ List.range 6, (far.setFld GR_ENG.ST 0 0xAAA).placeOk 31 n 7 = false) := by decide +kernel

theorem witness_MigrationOrders :
    let v := fun code : Nat => 1 + 2 ^ 18 * code
    let busy := (List.range 8).foldl (fun x j => (x.setFld GR_MIG.STATE j 1).setFld GR_MIG.BOB j 99) (rs [(BB_CFG.ACTIVE, 1, 1)])
    let st := fun (code : Nat) (l : List (Field × Nat × Nat)) => { rs ((BB_CFG.ACTIVE, 1, 1) :: l) with agreed := [(GR_CMD.addr, v code)] }
    let re := fun l : List (Field × Nat × Nat) => { rs ((BB_CFG.ACTIVE, 1, 1) :: l) with graft := { GraftSt.reset with retry := [(1, 0)] } }
    (∀ c ∈ [0, 1, 2, 3, 4, 5, 6, 7], (st c []).agreed.find? (fun p => p.1 == GR_CMD.addr) = some (GR_CMD.addr, v c)
        ∧ v c % 256 = 1 ∧ v c / 2 ^ 18 % 8 = c ∧ (st c []).canVote = true ∧ (st c []).keeper.resetReq = none)
      ∧ (∀ d ∈ List.range 256, (State.reset.fld BB_CFG.ACTIVE d ≠ 1))
      ∧ ¬ (State.reset.fld BB_CFG.ACTIVE 1 = 1 ∧ State.reset.fld GR_BMODE.MODE 1 ≠ 1)
      ∧ ((st 1 []).fld BB_CFG.ACTIVE 1 = 1 ∧ (st 1 []).fld GR_BMODE.MODE 1 ≠ 1 ∧ (st 1 []).slotOf 0 1 = none
          ∧ (st 1 []).freeSlot = some 0 ∧ (st 1 []).fld GR_STATUS.EVAC = 0)
      ∧ (busy.slotOf 0 1 = none ∧ busy.freeSlot = none)
      ∧ ((st 2 []).fld GR_COORDST.VALID = 0 ∧ (st 2 [(GR_COORDST.VALID, 0, 1)]).fld GR_COORDST.VALID = 1
          ∧ (st 2 [(GR_COORDST.VALID, 0, 1)]).fld GR_COORDST.ROLE ≠ 1)
      ∧ (let m := st 5 [(GR_MIG.STATE, 7, 3), (GR_MIG.BOB, 7, 1)]
         m.slotOf 0 1 = some 7 ∧ (m.mig 7).switched = false)
      ∧ ((re []).graft.retry.find? (fun r => r.1 == (1#8).toNat && decide (r.2 ≤ (re []).cycle)) = some (1, 0) ∧ (re []).canVote = true ∧ (re []).fld GR_STATUS.EVAC = 0)
      ∧ (let m := re [(GR_STATUS.EVAC, 0, 1), (GR_COORDST.VALID, 0, 1)]
         m.fld GR_STATUS.EVAC = 1 ∧ m.fld BB_CFG.ACTIVE 1 = 1 ∧ m.fld GR_BMODE.MODE 1 = 0 ∧ (∀ q ∈ m.graft.retry.erase (1, 0), q.1 ≠ 1)
          ∧ (∀ n ∈ List.range 256, n ≠ 1 → m.fld BB_CFG.ACTIVE n ≠ 1) ∧ m.freeSlot = some 0 ∧ m.fld GR_COORDST.VALID = 1
          ∧ m.fld GR_COORDST.ROLE ≠ 1) := by decide +kernel

theorem witness_GraftMessagesTakeEffect :
    let m : GMsg := { seg := 3, dst := 0, bcast := true, term := 5, sbob := 9, origin := 10, body := [] }
    let st := fun l : List (Field × Nat × Nat) => ringState ((GR_COORD.VC, 0, 1) :: (CK_NODEST.STATE, 0, 4) :: (TM_STATUS.TQLOW, 0, 0) :: l)
    let co := { st [(GR_COORDST.ROLE, 0, 1), (CK_SSBASE.BASE, 0, 0x20100000), (GR_CTRL.CTO, 0, 2)] with
      graft := { GraftSt.reset with loads := [(11, 65536 + 5)] } }
    let a := co.storeAt 0 10
    let co := ((co.wr a 2 (10 + 2048)).wr (a + 132) 2 0).wr (a + 134) 1 1
    let mg := fun (role state : Nat) (y : MigSt) => { st [(GR_MIG.STATE, 7, state), (GR_MIG.ROLE, 7, role), (GR_MIG.BOB, 7, 9), (GR_MIG.PBOB, 7, 9),
      (GR_MIG.PEER, 7, 10), (GR_COORDST.VALID, 0, 1), (GR_COORDST.CUR, 0, 10)] with migs := [(7, y)] }
    let ag := mg 1 4 { MigSt.reset with own := [(0, some (0, 0, 0))] }
    ((st []).canVote = true ∧ (st []).fld GR_COORD.VC = 1 ∧ m.origin.toNat ≠ (st []).me ∧ m.bcast = true)
      ∧ (co.fld GR_COORDST.ROLE = 1 ∧ co.termOf co.me < m.term.toNat ∧ (st []).graft.heard = [] ∧ 0 < co.fld GR_CTRL.CTO)
      ∧ co.chooseTarget 10 9 = some 11 ∧ ({ co with graft := GraftSt.reset } : State).chooseTarget 10 9 = none
      ∧ (let p := mg 0 1 { MigSt.reset with waits := true }
         p.slotOf 0 9 = some 7 ∧ p.fld GR_COORDST.VALID = 1 ∧ p.fld GR_COORDST.CUR = 10 ∧ (p.mig 7).waits = true)
      ∧ ((st []).offerReason 0 10 (offerOf m.body) = 0 ∧ (st []).freeSlot = some 0 ∧ (List.range 256).find? (st []).freeBob = some 0)
      ∧ (st [(GR_STATUS.EVAC, 0, 1)]).offerReason 0 10 (offerOf m.body) ≠ 0
      ∧ (let p := mg 0 1 { MigSt.reset with code := 1 }
         p.slotFor 0 9 10 = some 7 ∧ p.migState 7 = 1 ∧ (p.mig 7).c0 = 0 ∧ (p.mig 7).waits = false
          ∧ p.slotOf 0 9 = some 7 ∧ p.fld GR_MIG.PEER 7 = 10 ∧ (p.mig 7).code = 1 ∧ (p.mig 7).switched = false ∧ (p.mig 7).code ≠ 0)
      ∧ (let p := mg 1 2 { MigSt.reset with seg := 3 }
         p.slotFor 1 9 10 = some 7 ∧ p.migState 7 = 2 ∧ m.seg.toNat = (p.mig 7).seg)
      ∧ (ag.slotFor 1 9 10 = some 7 ∧ ag.migState 7 = 4 ∧ (Tab.get 0 ag.graft.peers 10).testBit 0 = false
          ∧ ((ag.mig 7).own.find? (fun o => o.1 == ag.cycNear (fle m.body 0 16 % 65536))).bind Prod.snd
            = some (fle m.body 0 16 / 2 ^ 32 % 2 ^ 13, fle m.body 0 16 / 2 ^ 64 % 2 ^ 32, fle m.body 0 16 / 2 ^ 96 % 2 ^ 32)
          ∧ (ag.setFld GR_CTRL.MIGMIN 0 1).fld GR_CTRL.MIGMIN ≤ 1)
      ∧ (((mg 1 4 MigSt.reset).mig 7).own.find? (fun o => o.1 == (mg 1 4 MigSt.reset).cycNear 0)).bind Prod.snd = none
      ∧ ((mg 0 3 MigSt.reset).slotFor 0 9 10 = some 7 ∧ (mg 0 3 MigSt.reset).migState 7 = 3)
      ∧ ((st []).ringNodes 0).contains m.origin.toNat = true
      ∧ (let p := st [(GR_STATUS.LEARN, 0, 1), (GR_CANOPY.NEND, 0, 2 ^ 17)]
         p.fld GR_STATUS.LEARN = 1 ∧ (leBytes 4 0x1FFFF09).length = 4 ∧ fle (leBytes 4 0x1FFFF09) 0 4 / 2 ^ 8 % 2 ^ 17 < p.fld GR_CANOPY.NEND
          ∧ p.badBits (canopyAddr 0x1FFFF / 16 * 16) ≤ 2)
      ∧ (let f : TxFrame := { ring := 0, slot := 1, rel := 0, bytes := [], resps := [], events := [], facts := [], msgs := [(0x06, { m with origin := 11 })] }
         f.ring = 0 ∧ (11#10).toNat = (st []).me ∧ (mg 1 1 MigSt.reset).migAt 1 1 9 = some 7 ∧ (mg 0 5 MigSt.reset).migAt 0 5 9 = some 7)
      ∧ (let p := { st [(GR_COORDST.ROLE, 0, 2), (GR_CTRL.CTO, 0, 2)] with cycle := 5, graft := { GraftSt.reset with heard := [(10, 1, 3)] } }
         p.fld GR_COORDST.ROLE = 2 ∧ p.fld GR_CTRL.CTO ≤ p.cycle ∧ (∀ h ∈ p.graft.heard, h.2.2 + p.fld GR_CTRL.CTO ≤ p.cycle)) := by
  decide +kernel

theorem witness_MigrationsRunThroughTheirSteps :
    let mg := fun (role state : Nat) (y : MigSt) => { rs [(GR_MIG.STATE, 7, state), (GR_MIG.ROLE, 7, role), (GR_MIG.BOB, 7, 255),
      (GR_COORD.VC, 0, 1), (GR_BSID.VALID, 255, 1), (GR_BSID.SID, 255, 5), (ID_NODE.NODE, 0, 11)] with migs := [(7, y)] }
    let le := { (mg 0 0 MigSt.reset).wrW (canopyAddr 5) (255 * 2 ^ 4 + 11 * 2 ^ 12) with
      cycle := 40, graft := { GraftSt.reset with active := some 0 } }
    let cl := mg 1 1 { MigSt.reset with c0 := 1 }
    (cl.fld GR_MIG.BOB 7 < 256 ∧ cl.migState 7 = 1 ∧ cl.fld GR_MIG.ROLE 7 = 1 ∧ cl.canVote = true ∧ (cl.mig 7).c0 ≠ 0
        ∧ (cl.mig 7).sid < 2 ^ 17)
      ∧ ((mg 0 1 { MigSt.reset with c0 := 1 }).fld GR_MIG.ROLE 7 = 0 ∧ ((mg 0 1 { MigSt.reset with c0 := 1 }).mig 7).c0 ≠ 0)
      ∧ (let p := mg 1 2 { MigSt.reset with bytes := List.replicate 528 1#8 }
         p.migState 7 = 2 ∧ 528 ≤ (p.mig 7).bytes.length)
      ∧ (let p := mg 0 5 { MigSt.reset with ch := 1, switched := true }
         (p.mig 7).ch ≠ 0 ∧ p.migState 7 ≠ 0 ∧ (p.mig 7).switched = true ∧ p.keeper.resetReq = none)
      ∧ (mg 0 1 { MigSt.reset with code := 1 }).migLate 7 = some 7
      ∧ (le.graft.active = some 0 ∧ le.graft.learned = false ∧ le.fld GR_COORD.VC = 1 ∧ 0 + 40 ≤ le.cycle
          ∧ le.fld GR_BSID.VALID 255 = 1 ∧ epNode (le.endpoint (le.fld GR_BSID.SID 255)) = le.me ∧ epBob (le.endpoint (le.fld GR_BSID.SID 255)) = 255)
      ∧ ¬ (epNode ((mg 0 0 MigSt.reset).endpoint 5) = 11) := by decide +kernel

/-- An engine's registers W1 and W2, with W14 at `sp`. -/
def withW (e : Eng) (w1 w2 sp : Word) (s : State) : State := ((s.setReg e 1 w1).setReg e 2 w2).setReg e 14 sp

/-- A format R word with D 3, A 1, B 2. -/
def r3 (aux : BitVec 6) : ROp := { d := 3, a := 1, b := 2, aux := aux, x := false }

theorem witness_RegisterArithmetic :
    (∀ e ∈ [Eng.ha, .hb, .hc, .se 0, .se 5, .root], State.reset.mayStart e = true ∧ State.reset.fetchOk e = true)
      ∧ (r3 0).dab = true ∧ ({ r3 0 with d := 0 } : ROp).ab = true ∧ ({ r3 0 with b := 0 } : ROp).da = true
      ∧ ((0#32).toNat < 2 ^ (32 - 32) ∧ (0x80000000#32).toNat < 2 ^ (32 - 0) ∧ 2 ^ (31 - 0) ≤ (0x80000000#32).toNat
          ∧ (1#32).toNat < 2 ^ (32 - 31) ∧ 2 ^ (31 - 31) ≤ (1#32).toNat)
      ∧ ((r3 15).x = false ∧ (r3 15).aux.toNat < 16) ∧ ({ d := 0, a := 0, b := 0, aux := 0, x := false } : ROp).none = true := by
  decide +kernel

theorem witness_ShiftsProductsQuotients :
    (State.reset.mayStart .root = true ∧ State.reset.fetchOk .root = true ∧ (r3 0).dab = true ∧ ({ r3 31 with b := 0 } : ROp).da5 = true)
      ∧ ((0x7FFFFFFF#32).toInt * (0x7FFFFFFF#32).toInt + 2 ^ 30) / 2 ^ 31 < 2 ^ 31
      ∧ (let s := withW .root 0x80000000#32 0xFFFFFFFF#32 0 State.reset
         s.reg .root (r3 0).a = 0x80000000#32 ∧ s.reg .root (r3 0).b = 0xFFFFFFFF#32 ∧ s.reg .root (r3 0).b ≠ 0#32)
      ∧ (let s := withW .root 0x80000000#32 0x80000000#32 0 State.reset
         s.reg .root (r3 0).a = 0x80000000#32 ∧ s.reg .root (r3 0).b = 0x80000000#32)
      ∧ State.reset.reg .root (r3 0).b = 0#32 := by decide +kernel

theorem witness_Immediates :
    let o : IOp := { d := 0, a := 0, imm := 0x10000#17, ext := none }
    (State.reset.mayStart (.se 5) = true ∧ State.reset.fetchOk (.se 5) = true ∧ o.ext = none ∧ o.a = 0 ∧ o.d = 0)
      ∧ ({ o with imm := 0#17, ext := some 5#32 } : IOp).imm = 0#17
      ∧ ¬ (({ o with ext := some 5#32 } : IOp).ext = none ∨ ({ o with ext := some 5#32 } : IOp).imm = 0#17) := by decide +kernel

theorem witness_LoadsReadMemory :
    let s := withW (.se 5) 0x40000010#32 4#32 0 (withW .ha 0x10000000#32 0x10000002#32 0 State.reset)
    let o : IOp := { d := 8, a := 1, imm := 0, ext := none }
    let near := fun (e : Eng) (a : Nat) => regionOf a ≠ .dev ∧ s.badBits (engKey e a) = 0 ∧
      (regionOf a = .hwram ∨ (s.votes e = false ∧ ((regionOf a).arbitrated = false ∨ s.arbHolds (s.reqOf e) = false)))
    (s.mayStart (.se 5) = true ∧ s.fetchOk (.se 5) = true ∧ o.extOk = true ∧ (s.reg (.se 5) o.a + o.simm).toNat = 0x40000010
        ∧ accessFault (.se 5) (s.votes (.se 5)) 0x40000010 4 false = none ∧ near (.se 5) 0x40000010
        ∧ accessFault (.se 5) (s.votes (.se 5)) 0x40000010 16 false = none ∧ blockReg o.d = true)
      ∧ (s.mayStart .ha = true ∧ s.fetchOk .ha = true ∧ accessFault .ha (s.votes .ha) 0x10000000 16 false = none ∧ near .ha 0x10000000)
      ∧ (s.reg .ha 2).toNat = 0x10000002 ∧ accessFault .ha true 0x10000002 4 false = some (2, 4)
      ∧ accessFault .ha true 0x10000002 16 false = some (2, 16)
      ∧ ((r3 1).x = false ∧ (r3 1).aux.toNat < 4 ∧ (0#7).toNat = 0 ∧ (s.reg (.se 5) 1 + (s.reg (.se 5) 2 <<< 1)).toNat = 0x40000018
          ∧ accessFault (.se 5) (s.votes (.se 5)) 0x40000018 4 false = none ∧ near (.se 5) 0x40000018)
      ∧ accessFault (.se 5) (s.votes (.se 5)) 0x4000001A 4 false = some (2, 4) := by decide +kernel

theorem witness_StoresWriteMemory :
    let s := withW (.se 5) 0x40000010#32 4#32 0 (withW .ha 0x20000000#32 0x20000002#32 0 State.reset)
    let o : IOp := { d := 8, a := 1, imm := 0, ext := none }
    (s.mayStart (.se 5) = true ∧ s.fetchOk (.se 5) = true ∧ o.extOk = true ∧ (s.reg (.se 5) o.a + o.simm).toNat = 0x40000010
        ∧ accessFault (.se 5) (s.votes (.se 5)) 0x40000010 16 true = none ∧ regionOf 0x40000010 = .lram
        ∧ s.badBits (engKey (.se 5) 0x40000010) = 0 ∧ blockReg o.d = true
        ∧ accessFault (.se 5) (s.votes (.se 5)) 0x40000010 4 true = none)
      ∧ (regionOf 0x20000000 = .shared ∧ s.votes (.se 5) = false ∧ s.inOrigin 0x20000000 = false ∧ s.inShadow 0x20000000 = false
          ∧ s.arbHolds (s.reqOf (.se 5)) = false)
      ∧ (s.mayStart .ha = true ∧ s.fetchOk .ha = true ∧ (s.reg .ha o.a + o.simm).toNat = 0x20000000
          ∧ accessFault .ha (s.votes .ha) 0x20000000 4 true = none ∧ s.votes .ha = true ∧ regionOf 0x20000000 ≠ .hwram
          ∧ engPerm .ha true 0x20000000 true = .ok)
      ∧ accessFault .ha true 0x20000002 4 true = some (2, 4) ∧ accessFault .ha true 0x20000002 16 true = some (2, 16)
      ∧ ((r3 1).x = false ∧ (r3 1).aux.toNat < 4 ∧ (s.reg (.se 5) 1 + (s.reg (.se 5) 2 <<< 1)).toNat = 0x40000018
          ∧ accessFault (.se 5) (s.votes (.se 5)) 0x40000018 4 true = none ∧ s.badBits (engKey (.se 5) 0x40000018) = 0)
      ∧ accessFault (.se 5) (s.votes (.se 5)) 0x4000001A 4 true = some (2, 4) := by decide +kernel

theorem witness_BranchesAndSpecialRegisters :
    let s := withW .root 0x40000000#32 0x40000001#32 0x40000010#32 State.reset
    let o : BOp := { cond := 0, off := 5, ext := none }
    (s.mayStart .root = true ∧ s.fetchOk .root = true ∧ o.ext = none ∧ condHolds o.cond.val (s.eng 9).flg = true)
      ∧ (({ o with off := 0, ext := some 0x40#32 } : BOp).off = 0#21 ∧ condHolds 1 (s.eng 9).flg = false)
      ∧ ({ d := 0, a := 1, b := 0, aux := 0, x := false } : ROp).onlyA = true
      ∧ (∀ n ∈ [0#6, 1#6, 2#6, 3#6, 4#6, 5#6], ({ d := 3, a := 0, b := 0, aux := n, x := false } : ROp).aux = n)
      ∧ ((s.reg .root 1).toNat % 16 = 0 ∧ inInstrMem .root (s.reg .root 1).toNat = true)
      ∧ ((s.reg .root 2).toNat % 16 ≠ 0 ∧ inInstrMem .root 0x40010000 = false) ∧ (2#6 ≠ 1#6 ∧ 2#6 ≠ 5#6)
      ∧ (({ d := 0, a := 0, b := 0, aux := 0, x := false } : ROp).none = true ∧ (s.reg .root 14).toNat = 0x40000010
          ∧ accessFault .root (s.votes .root) 0x40000010 16 false = none ∧ s.badBits (engKey .root 0x40000010) = 0
          ∧ s.votes .root = false ∧ (regionOf 0x40000010).arbitrated = false)
      ∧ accessFault .root (s.votes .root) 0x40000008 16 false = some (2, 16) := by decide +kernel

theorem witness_DispatchIsEntered :
    let x : ROp := { d := 0, a := 0, b := 0, aux := 0, x := false }
    let st := fun (e : Eng) (flg : Word) (pend : BitVec 16) => (withW e 0 0 (if e = .ha then 0x10000010#32 else 0x40000010#32) (rs [])).modEng e.idx
      (fun y => { y with flg := flg, pend := pend })
    let s := st (.se 5) 0#32 0#16
    let ev := st .ha 0x80000020#32 0x8000#16
    (255 < 256 ∧ (s.eng 8).w[14].toNat % 16 = 0 ∧ 16 ≤ (s.eng 8).w[14].toNat ∧ s.blockWritable (.se 5) ((s.eng 8).w[14].toNat - 16) = true
        ∧ s.votes (.se 5) = false)
      ∧ ((ev.eng 0).w[14].toNat % 16 = 0 ∧ ev.blockWritable .ha ((ev.eng 0).w[14].toNat - 16) = true
          ∧ regionOf ((ev.eng 0).w[14].toNat - 16) = .hwram)
      ∧ (State.reset.eng 0).w[14].toNat < 16
      ∧ (ev.alive .ha = true ∧ (ev.eng 0).midway = false ∧ (ev.eng 0).qualify = some 15 ∧ ev.fetchOk .ha = true ∧ x.none = true)
      ∧ (s.mayStart (.se 5) = true ∧ s.fetchOk (.se 5) = true ∧ (s.eng 8).flg.getLsbD 6 = false)
      ∧ ((st (.se 5) 0x40#32 0).mayStart (.se 5) = true ∧ ((st (.se 5) 0x40#32 0).eng 8).flg.getLsbD 6 = true)
      ∧ ((st (.se 5) 0x10000#32 1#16).mayStart (.se 5) = true
          ∧ ((st (.se 5) 0x10000#32 1#16).eng 8).qualify = none ∧ ((st (.se 5) 0x10000#32 1#16).eng 8).wakes = true)
      ∧ ((s.eng 8).qualify = none ∧ (s.eng 8).wakes = false ∧ ((finish (.se 5) 1 4#32 s).eng 8).run ≠ .stopped)
      ∧ (s.fld RB_STRAP.SDBG = 0 ∧ (rs [(RB_STRAP.SDBG, 0, 1)]).fld RB_STRAP.SDBG = 1)
      ∧ ((closeGroup 0 .plain State.reset).core 0).closed = []
      ∧ (s.fetchShared (.se 5) (s.eng 8).pc.toNat = false ∧ inInstrMem (.se 5) (s.eng 8).pc.toNat = true)
      ∧ ((s.modEng 8 (fun y => { y with pc := 2#32 })).mayStart (.se 5) = true ∧ (s.eng 8).pc.toNat % 4 = 0 ∧ inInstrMem .root 0x40010000 = false)
      ∧ (∀ n ∈ [1, 2, 3], (s.setBad (engKey (.se 5) (s.eng 8).pc.toNat) n).badBits (engKey (.se 5) (s.eng 8).pc.toNat) = n) := by decide +kernel

theorem witness_SignalArithmetic :
    let s := withW (.se 5) 0x40000010#32 0x4001FFF8#32 0 State.reset
    let lut := withW (.se 5) 0x4001FFFC#32 0x20000#32 0 State.reset
    let z := fun aux : BitVec 6 => ({ d := 0, a := 1, b := 2, aux := aux, x := false } : ROp)
    (s.mayStart (.se 5) = true ∧ s.fetchOk (.se 5) = true ∧ (z 7).aux.toNat < 8 ∧ (z 7).d = 0)
      ∧ (∀ n ∈ [0, 1, 2, 3], (BitVec.ofNat 6 (2 * n + 1)).toNat / 2 = n)
      ∧ (BitVec.ofNat 16 ((s.reg (.se 5) 2).toNat / 2 ^ 16)).toInt ≠ 0
      ∧ (BitVec.ofNat 16 ((State.reset.reg (.se 5) 2).toNat / 2 ^ 16)).toInt = 0
      ∧ (z 1).aux.toNat < 2 ∧ ({ d := 3, a := 0, b := 0, aux := 63, x := false } : ROp).b = 0
      ∧ ((s.reg (.se 5) 1).toNat % 8 = 0 ∧ (s.reg (.se 5) 2).toNat % 8 = 0 ∧ 0x40000000 ≤ (s.reg (.se 5) 1).toNat
          ∧ (s.reg (.se 5) 2).toNat + 8 ≤ 0x40020000 ∧ s.badBits (engKey (.se 5) (s.reg (.se 5) 1).toNat) = 0 ∧ (z 0).aux = 0#6)
      ∧ ((z 1).aux ≠ 0#6 ∧ (lut.reg (.se 5) 1).toNat % 2 = 0 ∧ 0x40000000 ≤ (lut.reg (.se 5) 1).toNat
          ∧ (lut.reg (.se 5) 1).toNat + 2 * (z 1).aux.toNat + 2 ≤ 0x40020000
          ∧ (∀ j ∈ [0, 1], lut.badBits (engKey (.se 5) ((lut.reg (.se 5) 1).toNat + 2 * j)) = 0)
          ∧ (z 1).aux.toNat ≤ (lut.reg (.se 5) 2).toNat / 2 ^ 16)
      ∧ (r3 0).dab = true ∧ ({ r3 0 with b := 0 } : ROp).da = true ∧ ({ r3 31 with b := 0 } : ROp).da5 = true := by decide +kernel

theorem witness_CircularAndStreamAccess :
    let e : Eng := .se 5
    let s := { (withW e 0x40000010#32 0x10000#32 0 (rs [(GR_HPLACE.PRIM, 31, 5)])).modEng 8 (fun y =>
        { y with cbBase := Vector.replicate 4 0x40000010#32, cbLen := Vector.replicate 4 8 }) with
      latches := [(8 * 64 + 63, some (5, 6))], edges := [(8, [7])] }
    ((3#6).toNat < 4 ∧ (s.reg e 1).toNat % 4 = 0 ∧ (s.reg e 2).toNat % 4 = 0 ∧ 4 ≤ (s.reg e 2).toNat ∧ (s.reg e 2).toNat ≤ 65536)
      ∧ ¬ (4 ≤ (State.reset.reg e 2).toNat)
      ∧ (s.mayStart e = true ∧ s.fetchOk e = true ∧ (s.reg e 1 - (s.eng 8).cbBase[(3 : Fin 4)]).toNat < (s.eng 8).cbLen[(3 : Fin 4)]
          ∧ (s.reg e 1).toNat % 2 = 0 ∧ 0x40000000 ≤ (s.reg e 1).toNat ∧ (s.reg e 1).toNat < 0x40020000
          ∧ s.badBits (engKey e (s.reg e 1).toNat) = 0)
      ∧ (State.reset.eng 8).cbLen[(3 : Fin 4)] ≤ (State.reset.reg e 1 - (State.reset.eng 8).cbBase[(3 : Fin 4)]).toNat
      ∧ ((12 : Fin 16).val % 2 = 0 ∧ (12 : Fin 16).val ≤ 12 ∧ s.hasLatch 8 0 = false ∧ s.hasLatch 8 62 = true ∧ s.latchOf 8 62 = none
          ∧ s.hasLatch 8 63 = true ∧ s.latchOf 8 63 = some (5, 6))
      ∧ (State.reset.edgeFifo 8 = [] ∧ s.edgeFifo 8 = 7 :: []) := by decide +kernel

theorem witness_RootAndHeartwoodProfiles :
    let s := withW .root 800#32 1050#32 0 State.reset
    let x : ROp := { d := 0, a := 0, b := 0, aux := 0, x := false }
    let w : GWrite := { blk := 0x20000000, mask := 1#16, img := 0#128 }
    let g : Group := { writes := [w], why := .plain, time := 0 }
    let cl := State.reset.modCore 2 (fun c => { c with closed := [g] })
    let lo := fun a : Word => withW .hc a 0 0 State.reset
    (s.mayStart .root = true ∧ s.fetchOk .root = true ∧ (47#6).toNat ≤ 47 ∧ 47 < (48#6).toNat ∧ (7#6).toNat ≤ 7 ∧ 7 < (8#6).toNat)
      ∧ (800 ≤ (s.reg .root 1).toNat ∧ (s.reg .root 2).toNat ≤ 1050 ∧ (State.reset.reg .root 1).toNat < 800
          ∧ 1050 < ((withW .root 1051#32 0 0 State.reset).reg .root 1).toNat)
      ∧ (s.mayStart (.se 5) = true ∧ s.fetchOk (.se 5) = true)
      ∧ (Eng.hc.idx < 3 ∧ s.mayStart .hc = true ∧ s.fetchOk .hc = true ∧ x.none = true ∧ (rs [(ID_BOOT.HWMODE, 0, 2)]).isSplit = true
          ∧ (rs [(ID_BOOT.HWMODE, 0, 2)]).mayStart .hc = true)
      ∧ (s.isSplit = false ∧ ((closeGroup 2 .plain s).core 2).closed = [] ∧ ((closeGroup 2 .plain cl).core 2).closed ≠ [])
      ∧ ((s.core 2).openG = [] ∧ (s.core 2).closed = [] ∧ ((closeGroup 2 .plain s).core 2).sigs = []
          ∧ ((s.modCore 2 (fun c => { c with sigs := [(.sweep 0, 1)] })).core 2).sigs = [(.sweep 0, 1)] ∧ (s.eng 2).retire = 0)
      ∧ (((lo 0x10000010#32).reg .hc 1).toNat % 16 = 0 ∧ regionOf 0x10000010 = .hwram ∧ (lo 0).badBits (engKey .hc 0x10000010) = 0)
      ∧ (regionOf 0x20000010 = .shared ∧ (lo 0).arbHolds .hw = false ∧ (lo 0).badBits 0x20000010 = 0 ∧ (lo 0).heart.reads = []
          ∧ 0x20000010 % 4 = 0)
      ∧ ((lo 0).modHeart (fun h => { h with reads := [{ reqs := [(0, 0x20000010, 4)], val := none, taken := [], time := 0 }] })).heart.reads
          = [{ reqs := [(0, 0x20000010, 4)], val := none, taken := [], time := 0 }] := by decide +kernel

theorem witness_VoterDecides :
    let w : GWrite := { blk := 0x20000000, mask := BitVec.allOnes 16, img := 7#128 }
    let g : Group := { writes := [w], why := .plain, time := 0 }
    let g' : Group := { g with writes := [{ w with img := 8#128 }] }
    let h : Group := { g with writes := [{ w with img := 9#128 }] }
    let st := fun a b c : List Group => ((State.reset.modCore 0 (fun k => { k with closed := a })).modCore 1 (fun k => { k with closed := b })).modCore 2
      (fun k => { k with closed := c })
    let late := State.reset.modCore 2 (fun k => { k with expect := [g] })
    let halt := (st [g] [g] []).modEng 0 (fun x => { x with run := .halted })
    let th := st [g] [{ g with time := 9 }] [{ g with time := 5 }]
    (State.reset.isSafe = false ∧ State.reset.isSplit = false ∧ (st [g] [g] []).heartHalted = false ∧ (st [g] [g'] [h]).heartHalted = false
        ∧ halt.heartHalted = true)
      ∧ (th.voting = [0, 1, 2] ∧ (th.core 0).closed = g :: [] ∧ (th.core 1).closed = { g with time := 9 } :: []
          ∧ (th.core 2).closed = { g with time := 5 } :: [] ∧ th.heart.test = none ∧ max g.time 5 < max g.time 9 ∧ max g.time 5 ≤ max 9 5)
      ∧ ((st [g] [g] []).voting = [0, 1, 2] ∧ ((st [g] [g] []).core 0).closed = g :: [] ∧ ((st [g] [g] []).core 1).closed = g :: []
          ∧ ((st [g] [g] []).core 2).closed = [] ∧ (st [g] [g] []).heart.test = none ∧ w.blk % 16 = 0 ∧ regionOf w.blk = .shared
          ∧ (st [g] [g] []).inOrigin w.blk = false ∧ (st [g] [g] []).inShadow w.blk = false ∧ (st [g] [g] []).fld DB_TRCFG.KIND ≠ 1)
      ∧ ((st [g] [g'] [h]).agreeing = none ∧ 2 ≤ (st [g] [g'] [h]).voting.length
          ∧ ∀ c ∈ (st [g] [g'] [h]).voting, ((st [g] [g'] [h]).core c).closed ≠ [])
      ∧ ((st [g] [] []).agreeing = none ∧ (st [g] [] []).firstCopies.length < (st [g] [] []).voting.length)
      ∧ (late.coreState 2 = 0 ∧ (late.core 2).expect = g :: [] ∧ (late.lateRead 2).isNone = true ∧ late.heart.stops = []
          ∧ (∀ d ∈ [0, 1, 2], (late.core d).marked.isNone = true ∧ (late.core d).swept.isNone = true) ∧ late.voting.length = 3 ∧ late.heart.test = none)
      ∧ (late.setFld HW_CORE.HA 0 4).voting.length = 2 ∧ (st [g] [] []).firstCopies = [(0, g)] ∧ (st [g] [g] []).twoAgree = true := by
  decide +kernel

theorem witness_CoresAreRestored :
    let s := State.reset.modCore 2 (fun k => { k with sigs := [(.event 15, 1)], fenceTimes := [5] })
    let st := fun v : Nat => rs [(HW_CORE.HC, 0, v), (HW_CTRL.MISMAX, 0, 1)]
    let many := (st 1).modCore 2 (fun k => { k with fenceTimes := [5, 6], counted := true })
    let sw := State.reset.modCore 2 (fun k => { k with sigs := [(.sweep 3, 1)] })
    let fr := rs [(ID_BOOT.HWMODE, 0, 2), (HW_CORE.HC, 0, 1)]
    (s.isSafe = false ∧ s.coreState 2 = 0 ∧ (s.core 2).sigs = (.event 15, 1) :: [] ∧ s.fld DB_TRCFG.KIND ≠ 2 ∧ (s.eng 2).retire < 1
        ∧ (s.eng 2).waits = false ∧ s.heart.stepping.contains 2 = false)
      ∧ ((sw.core 2).sigs = (.sweep 3, 1) :: [] ∧ (sw.core 2).openG = [] ∧ (sw.core 2).closed = [] ∧ (sw.core 2).swept.isNone = true
          ∧ 0 ∈ sw.voting ∧ (sw.core 0).swept.isNone = true ∧ sw.fld DB_TRCFG.KIND ≠ 2 ∧ (sw.eng 2).retire < 1 ∧ (sw.eng 2).waits = false
          ∧ ((sw.modEng 2 (fun x => { x with run := .waiting })).eng 2).waits = true)
      ∧ (fr.isSafe = false ∧ fr.isSplit = true ∧ fr.coreState 2 = 1)
      ∧ 1 ≤ ((s.modEng 2 (fun x => { x with retire := 1 })).eng 2).retire
      ∧ (s.errs = [] ∧ s.isSplit = false ∧ kindOfKey (memKey 3 0x10000000) = 1 ∧ memKey 3 0x10000000 % 16 = 0)
      ∧ ((st 1).coreState 2 = 1 ∧ ¬ (st 1).fld HW_CTRL.MISMAX < ((st 1).core 2).fenceTimes.length
          ∧ ((st 1).core 2).counted = false ∧ (many.core 2).counted = true ∧ many.fld HW_CTRL.MISMAX < (many.core 2).fenceTimes.length)
      ∧ ((st 2).coreState 2 = 2 ∧ (st 2).voting = [0, 1] ∧ Memory.wf (st 2).mem = true ∧ (st 2).coreRam 0 = (st 2).coreRam 1)
      ∧ (let d := (st 2).setByte (memKey 1 0x10000000) 1#8
         Memory.wf d.mem = true ∧ d.coreRam 0 ≠ d.coreRam 1 ∧ (d.eng 0).retire = (d.eng 1).retire
          ∧ ((d.modEng 1 (fun x => { x with retire := 1 })).eng 1).retire ≠ (d.eng 0).retire)
      ∧ (s.core 2).fenceTimes = 5 :: [] := by decide +kernel

theorem witness_HeartwoodRequests :
    let p := rs [(HW_PHASE.PHASE, 0, 2)]
    let sp := rs [(ID_BOOT.HWMODE, 0, 2)]
    let a := sp.modHeart (fun h => { h with reqA := some 0 })
    let b := sp.modHeart (fun h => { h with reqB := some 0 })
    (p.canVote = true ∧ State.reset.canVote = true ∧ sp.isSplit = true ∧ sp.isSafe = false) ∧ (3#32).toNat % 4 ≠ 0 ∧ (4#32).toNat % 4 = 0
      ∧ (p.fld HW_PHASE.PHASE = 2 ∧ p.voting.length = 3 ∧ p.heart.test = none ∧ (2#2 ≠ 3)) ∧ ¬ (State.reset.fld HW_PHASE.PHASE = 2)
      ∧ (p.voting.length = 3 ∧ (∀ x ∈ List.range 256, p.fld BB_CFG.ACTIVE x = 0) ∧ p.fld PW_VORUN.RUN = 0
          ∧ ∀ c ∈ List.range 16, p.fld TM_LCFG.ARM c = 0)
      ∧ ¬ ((rs [(PW_VORUN.RUN, 0, 1)]).fld PW_VORUN.RUN = 0)
      ∧ (a.heart.reqB = none ∧ a.heart.reqA = some 0 ∧ a.tb ≤ 0 + 2 * a.cycleLen)
      ∧ (b.heart.reqA = none ∧ 0 + 2 * b.cycleLen < ({ b with tb := 2 ^ 40 } : State).tb)
      ∧ (b.heart.reqB = some 0 ∧ 0 ≤ b.tb ∧ b.tb ≤ 0 + 2 * b.cycleLen ∧ b.coreState 2 ≠ 4)
      ∧ (b.setFld HW_CORE.HC 0 4).coreState 2 = 4
      ∧ (a.heart.reqA = some 0 ∧ 0 + 2 * a.cycleLen < ({ a with tb := 2 ^ 40 } : State).tb) := by decide +kernel

theorem witness_MemoryAndArbiter :
    let w : Waiting := { input := 11, who := .dma, since := 0, target := .shared, blocks := 8, counted := false }
    let x : Waiting := { input := 12, who := .hw, since := 0, target := .shared, blocks := 1, counted := false }
    let y := fun q : Req => ({ input := 0, who := q, since := 0, target := .shared, blocks := 1, counted := false } : Waiting)
    let st := fun a : Arbiter => { State.reset with arb := a }
    let r : ArbReq := { who := .root, age := 0, target := .shared, blocks := 8 }
    (∀ p ∈ [(0, 0), (2, 0x20000000), (3, 0x28000000), (4, memKey 4 0x40000000), (5, memKey 10 0x40000000)], kindOfKey p.2 = p.1)
      ∧ (State.reset.errs = [] ∧ State.reset.arb.running.isNone = true ∧ State.reset.fld DB_TRCFG.KIND ≠ 3)
      ∧ (State.reset.arb.chosen = none ∧ State.reset.arb.waiting = [] ∧ State.reset.mayChoose (State.reset.input r.who) = true
          ∧ r.age ≤ State.reset.tb ∧ State.reset.fld MI_ILONG.LONG (State.reset.input r.who) < 2 ^ 16)
      ∧ (let r0 : ArbReq := { who := .root, age := 5, target := .shared, blocks := 1 }
         let r1 : ArbReq := { who := .se 5, age := 4, target := .dev, blocks := 1 }
         r1.age < r0.age ∧ r0.age ≤ ({ State.reset with tb := 5 } : State).tb ∧ r0.who.trains = false ∧ State.reset.mayChoose (State.reset.input r0.who) = true
          ∧ State.reset.mayChoose (State.reset.input r1.who) = true ∧ Req.hw.trains = true ∧ 8 < 9)
      ∧ (let s := st { Arbiter.reset with waiting := [x, w] }
         let z : Waiting := { x with blocks := 20 }
         x.rest s.tb = [] ∧ (z.rest s.tb).length = 1 ∧ s.arb.waiting = [x, w] ∧ w.input < x.input ∧ s.mayChoose w.input = true ∧ s.mayChoose x.input = true ∧ w.counted = false)
      ∧ (let s := st { Arbiter.reset with waiting := [x], chosen := some w }
         s.arb.chosen = some w ∧ s.arb.waiting = [x] ∧ s.mayChoose x.input = true ∧ w.rest s.tb = [])
      ∧ (let s := st { Arbiter.reset with waiting := [y .commit, y .dbg] }
         s.arb.last = .commit ∧ s.arb.chosen = none ∧ s.mayChoose 0 = true)
      ∧ (let s := { rs [(ID_BOOT.HWMODE, 0, 2)] with arb := { Arbiter.reset with waiting := [{ x with who := .splitA }, { x with who := .splitB }], lastCore := .splitA } }
         s.arb.lastCore = .splitA ∧ s.arb.chosen = none ∧ s.mayChoose x.input = true)
      ∧ (let s := st { Arbiter.reset with running := some (x, 0) }
         s.arb.running = some (x, 0) ∧ s.quiesced = false ∧ x.input < 13 ∧ s.fld MI_MASK.MASK < 2 ^ 13 ∧ x.input = 12 ∧ s.isSafe = false)
      ∧ (rs [(MI_QUIESCE.REQ, 0, 1)]).quiesced = true := by decide +kernel

theorem witness_QuiesceAndMap :
    let w : Waiting := { input := 11, who := .dma, since := 0, target := .shared, blocks := 8, counted := false }
    let s := rs [(MI_STATUS.QUIESCED, 0, 1), (MI_MAP1.SE3, 0, 8), (MI_MAP1.SE4, 0, 9), (MI_MAP1.SE5, 0, 10), (MI_MAP1.DMA, 0, 11), (MI_MAP0.DBG, 0, 0)]
    let ins := fun v : Word => (List.range 8).map (fun i => v.toNat / 16 ^ i % 16)
      ++ [s.fld MI_MAP1.SE3, s.fld MI_MAP1.SE4, s.fld MI_MAP1.SE5, s.fld MI_MAP1.DMA]
    (State.reset.canVote = true ∧ s.canVote = true ∧ State.reset.rxHeld = [] ∧ State.reset.masked .dma = false
        ∧ State.reset.waitsForLock .dma = false ∧ w.counted = false ∧ State.reset.absent .root = false)
      ∧ State.reset.quiesced = false ∧ ({ State.reset with arb := { Arbiter.reset with chosen := some w } } : State).arb.chosen = some w
      ∧ w.input < 12 ∧ (rs [(MI_QUIESCE.REQ, 0, 1)]).quiesced = true
      ∧ (s.fld MI_STATUS.QUIESCED = 1 ∧ (ins 0x76543201#32).Nodup ∧ (∀ i ∈ ins 0x76543201#32, i < 12) ∧ s.input .dbg < 16
          ∧ (0x76543201#32).toNat % 16 ≠ s.input .dbg)
      ∧ (State.reset.fld MI_STATUS.QUIESCED ≠ 1 ∧ ¬ (ins 0x76543211#32).Nodup ∧ (∃ i ∈ ins 0x7654320C#32, 12 ≤ i))
      ∧ (s.fld MI_MAP1.SE3 < 16 ∧ s.fld MI_MAP1.SE4 < 16 ∧ s.fld MI_MAP1.SE5 < 16 ∧ s.fld MI_MAP1.DMA < 16) ∧ Req.root.voted = false := by
  decide +kernel

theorem witness_CheckValueUnits :
    let own := { State.reset with cvs := [(7, { CvUnit.reset with owner := some .root })] }
    let sel := fun s : State => s.setFld CV_CVSEL.UNIT 4 7
    ((sel own).absent .root = false ∧ (sel own).fld CV_CVSEL.UNIT Req.root.bank = 7 ∧ (sel State.reset).cvCarrik 7 = false ∧ ((sel State.reset).cv 7).owner = none)
      ∧ (State.reset.fld CV_CVSEL.UNIT (Req.host 2).bank = 0) ∧ ((own.cv 7).owner = some .root ∧ Req.root ≠ .hw)
      ∧ (sel State.reset).cvOwns .root 7 = false ∧ (sel own).cvOwns .root 7 = true ∧ (sel own).fld CV_CFG.WIDTH 7 ≤ 32
      ∧ ((own.cv 7).crc.toNat < 2 ^ 32 ∧ own.fld CV_STATUS.MATCH < 256 ∧ own.fld CV_STATUS.MISM < 256 ∧ (own.cv 7).width ≤ 32)
      ∧ (((own.cv 7).crc.toNat ^^^ own.fld CV_XOROUT.XOROUT 7) % 2 ^ 32 = own.fld CV_EXPECT.EXPECT 7 % 2 ^ 32)
      ∧ (let d := own.setFld CV_EXPECT.EXPECT 7 5
         ((d.cv 7).crc.toNat ^^^ d.fld CV_XOROUT.XOROUT 7) % 2 ^ 32 ≠ d.fld CV_EXPECT.EXPECT 7 % 2 ^ 32) := by decide +kernel

theorem witness_HostCycles :
    let st := fun l => rs ([(HP_PCTRL.EN, 2, 1)] ++ l)
    let s := st []
    let busy := st [(MI_QUIESCE.REQ, 0, 1)]
    let m := rs [(HP_PCTRL.EN, 2, 1), (MI_MASK.MASK, 0, 2 ^ s.input (.host 2))]
    let bad := { s with errs := [(0x2000000, 3)] }
    let q := { s with ports := [(2, { Port.reset with queue := [0x500000007] })] }
    (s.keeper.power = .up ∧ s.fld RB_BOOT.FAIL = 0 ∧ (s.port 2).acc = none ∧ s.fld HP_PCTRL.EN 2 = 1)
      ∧ (rs [(HW_STATUS.SAFE, 0, 1)]).isSafe = true ∧ (s.isSafe = false ∧ s.badBits (memKey 11 (4 * (0xFFF#12).toNat)) = 0)
      ∧ ((rs [(HP_PCTRL.EN, 2, 0)]).fld HP_PCTRL.EN 2 ≠ 1 ∧ 0x4000 ≤ (0x4000#32).toNat ∧ (3#32).toNat % 4 ≠ 0)
      ∧ ((0x640001#32).toNat % 4 ≠ 0 ∧ (0x640000#32).toNat % 4 = 0 ∧ 0x640000 ≤ (0x640000#32).toNat ∧ (0x5FBFFC#32).toNat < 0x5FC000
          ∧ (0x600000#32).toNat % 4 = 0 ∧ (0x10000#32).toNat % 4 = 0 ∧ (0x1FFFC#32).toNat < 0x20000 ∧ (14#4) ≠ 15
          ∧ findReg ((0x1FFFC#32).toNat % 65536) = none)
      ∧ m.masked (.host 2) = true ∧ (s.masked (.host 2) = false ∧ busy.arbHolds (.host 2) = true ∧ busy.masked (.host 2) = false)
      ∧ (s.arbHolds (.host 2) = false ∧ s.badBits 0x20000000 = 0 ∧ s.badBits 0x28000000 = 0 ∧ bad.badBits 0x20000000 = 3
          ∧ bad.arbHolds (.host 2) = false ∧ bad.masked (.host 2) = false ∧ q.masked (.host 2) = false)
      ∧ ((q.port 2).queue = 0x500000007 :: [] ∧ q.fld HP_PSTATUS.MODE 2 = 0 ∧ q.arbHolds (.host 2) = false) := by decide +kernel

theorem witness_ProposalsNeedTwoPorts :
    let acc : HostAcc := { write := true, addr := 0x400000, be := 15, val := 0, since := 0 }
    let y : Proposal := ⟨BB_CMD.addr, 5, 0⟩
    let st := fun l => { rs [(HP_PCTRL.EN, 0, 1)] with ports := l }
    let g : Agreement := { reg := BB_CMD.addr, val := 5, time := 0, ports := [1, 2] }
    let ag := { rs [(HP_PCTRL.EN, 0, 1)] with agreements := [g] }
    let m := rs [(HP_PCTRL.EN, 0, 1), (MI_MASK.MASK, 0, 2 ^ ag.input (.host 0))]
    let busy := rs [(HP_PCTRL.EN, 0, 1), (MI_QUIESCE.REQ, 0, 1)]
    ((st [(0, { Port.reset with acc := some acc })]).port 0).acc = some acc
      ∧ (let s := st []
         s.keeper.power = .up ∧ s.fld RB_BOOT.FAIL = 0 ∧ (s.port 0).acc = none ∧ s.fld HP_PCTRL.EN 0 = 1 ∧ s.isSafe = false ∧ s.agreements = [])
      ∧ (rs [(HP_PCTRL.EN, 0, 1), (HW_STATUS.SAFE, 0, 1)]).isSafe = true
      ∧ (let s := st [(1, { Port.reset with props := [y] })]
         (1 : Fin 3) ≠ 0 ∧ (s.port 1).props = [y] ∧ y.reg = BB_CMD.addr ∧ s.tb ≤ y.stamp + s.fld HP_CTRL.AGREEW * 12500 ∧ y.val = (5#32).toNat
           ∧ y.val ≠ (6#32).toNat ∧ (s.port 0).props = [] ∧ (s.port 2).props = [] ∧ y.reg < 2 ^ 16)
      ∧ (ag.isSafe = false ∧ ag.agreements = [g] ∧ g.reg = BB_CMD.addr ∧ g.val = (5#32).toNat ∧ ag.tb ≤ g.time + ag.fld HP_CTRL.AGREEW * 12500
          ∧ g.ports = [((0 : Fin 3).val + 1) % 3, ((0 : Fin 3).val + 2) % 3] ∧ (1 : Fin 3) ≠ 0 ∧ ag.masked (.host 0) = false ∧ ag.arbHolds (.host 0) = false)
      ∧ m.masked (.host 0) = true ∧ (busy.masked (.host 0) = false ∧ busy.isSafe = false ∧ busy.arbHolds (.host 0) = true) := by decide +kernel

/-- Every other port's proposals: the hypothesis over every port of the witness above. -/
theorem witness_ProposalsNeedTwoPorts_others (y : Proposal) (x : Nat) (h : x ≠ 1) :
    (({ rs [(HP_PCTRL.EN, 0, 1)] with ports := [(1, { Port.reset with props := [y] })] } : State).port x).props = [] := by
  simp [State.port, Tab.get, Port.reset, h.symm]

theorem witness_TokensAndDemand :
    let o : VoSt := { VoSt.reset with live := 1 }
    let st := fun l => { rs l with vos := [(15, o)] }
    let v := 0x005F0007#32
    let s := st [(PW_VOCHAL.CYC, 0, 7), (PW_VOCHAL.CHAL, 0, 5), (PW_VODEM.DEM, 0, 2 ^ 15)]
    let cmp := st [(TM_LCFG.ST, 3, 1), (TM_LCFG.ACTION, 3, 4), (TM_LTGTLO.TGT, 3, 2 ^ 15), (PW_VOSTAGE.STAGE, 0, 2 ^ 15)]
    let bd := { st [(PW_VOCHAL.CHAL, 0, 4)] with cycNext := 0 }
    (s.canVote = true ∧ s.atBoundary = false ∧ v.toNat / 2 ^ 16 % 16 = 15 ∧ v.toNat % 2 ^ 16 = s.fld PW_VOCHAL.CYC ∧ v.toNat / 2 ^ 20 % 256 = s.fld PW_VOCHAL.CHAL)
      ∧ ((s.fbit PW_VODEM.DEM 15 = true ∧ s.fbit PW_VOFAULT.FLT 15 = false ∧ s.isSafe = false ∧ o.run = false ∧ o.drive = 0 ∧ (s.vo 15) = o))
      ∧ (bd.canVote = true ∧ bd.atBoundary = true ∧ (0x002F0000#32).toNat / 2 ^ 16 % 16 = 15 ∧ (0x002F0000#32).toNat % 2 ^ 16 = bd.nowTu / bd.cycleLen % 2 ^ 16
          ∧ (0x002F0000#32).toNat / 2 ^ 20 % 256 = nextChallenge (bd.fld PW_VOCHAL.CHAL))
      ∧ ¬ ((0x000F0008#32).toNat % 2 ^ 16 = s.fld PW_VOCHAL.CYC)
      ∧ ((0x8000#32).toNat.testBit 15 = true ∧ (rs [(PW_VOFAULT.FLT, 0, 2 ^ 15)]).fbit PW_VOFAULT.FLT 15 = true ∧ o.live ≠ 0
          ∧ (0#32).toNat.testBit 15 = false)
      ∧ (cmp.time.tq ≠ 4 ∧ cmp.fireable 3 4 = true ∧ (cmp.fld TM_LTGTLO.TGT 3).testBit 15 = true ∧ cmp.fbit PW_VOSTAGE.STAGE 15 = true
          ∧ cmp.fbit PW_VOFAULT.FLT 15 = false ∧ (cmp.vo 15).live ≠ 0 ∧ cmp.isSafe = false) := by decide +kernel

theorem witness_TrainsAreReadBack :
    let st := fun l (o : VoSt) => { rs ([(PW_VOCFG.FREQ, 15, 100), (PW_VOCFG.FAILN, 15, 1)] ++ l) with vos := [(15, o)] }
    let o : VoSt := { VoSt.reset with drive := 1, halves := 2, run := true }
    let s := st [] o
    (s.fld PW_VOCFG.FREQ 15 ≠ 0 ∧ (s.vo 15).drive = 1 ∧ s.fbit PW_VOFAULT.FLT 15 = false ∧ (s.vo 15).copyBad = false
        ∧ s.tb ≤ (s.vo 15).halfAt + 1250000 / s.fld PW_VOCFG.FREQ 15 / 2 / 2 ∧ (s.vo 15).run = true ∧ 2 ≤ (s.vo 15).halves
        ∧ s.fld PW_VOCFG.FAILN 15 = (s.vo 15).low + 1)
      ∧ ((st [] { o with drive := 2, copyBad := true }).vo 15).drive = 2 ∧ ((st [] { o with drive := 2, copyBad := true }).vo 15).copyBad = true
      ∧ (let l := st [] { VoSt.reset with leak := 9 }
         (l.vo 15).drive = 0 ∧ 9 ≤ (l.vo 15).leak ∧ l.fbit PW_VOFAULT.FLT 15 = false) ∧ (State.reset.vo 15).leak < 9 := by decide +kernel

theorem witness_PowerStageRuns :
    let st := fun (p : PowerPhase) l => (rs l).modKeeper (fun k => { k with power := p })
    (st .dead []).keeper.power = .dead
      ∧ ((st (.sequence 7) [(PW_WCST.STATE, 4, 0)]).keeper.power = .sequence 7 ∧ (st (.sequence 7) [(PW_WCST.STATE, 4, 0)]).fld PW_WCST.STATE 4 ≠ 1)
      ∧ (st (.failed 7) []).keeper.power = .failed 7 ∧ (st (.cycling 7) []).keeper.power = .cycling 7
      ∧ ((0x5AC3#32).toNat % 2 ^ 16 = 0x5AC3 ∧ State.reset.fld RB_CAUSE.PCYCN < 3 ∧ 3 ≤ (rs [(RB_CAUSE.PCYCN, 0, 3)]).fld RB_CAUSE.PCYCN)
      ∧ (0#32).toNat % 2 ^ 16 ≠ 0x5AC3 ∧ (rs [(PW_STATUS.WARN, 0, 1)]).fld PW_STATUS.WARN = 1 ∧ State.reset.fld PW_STATUS.WARN ≠ 1
      ∧ State.reset.canVote = true := by
  decide +kernel

theorem witness_GeneratorPeriods :
    let s := rs [(PW_PGST.STATE, 0, 2), (PW_PGST.STATE, 2, 2), (PW_PGCFG.DMAX, 2, 100), (PW_PGLOOP.ILIM, 0, 1000)]
    let act := fun x => (s.advanceTo (s.nextPeriod x)).actNow (x - 1)
    let p := { rs [(PW_PGCFG.BLANK, 3, 10), (PW_PGRAMP.SLOPE, 3, 2)] with
      tb := 9, phases := [(4, { PhaseSt.reset with high := true })], pgs := [(3, { PgSt.reset with th := 100 })] }
    (s.pgRuns 0 = true ∧ s.pgRuns 2 = true ∧ act 1 < 2 ^ 16 ∧ act 0 < 2 ^ 16 ∧ act 3 < 2 ^ 16
        ∧ s.fld PW_PGCFG.DMAX 2 * 32 < 2 ^ 12 ∧ s.fld PW_PGLOOP.ILIM 0 < 2 ^ 12)
      ∧ ((p.phase 4).high = true ∧ (p.pg 3).th * 625 ≤ (100#16).toNat * 625 + p.fld PW_PGRAMP.SLOPE 3 * (max p.tb (0 + 10) - (0 + 10))
           ∧ (99#16).toNat * 625 + p.fld PW_PGRAMP.SLOPE 3 * (max p.tb (0 + 10) - (0 + 10)) < (p.pg 3).th * 625)
      ∧ 1024 ≤ (({ s with pgs := [(3, { PgSt.reset with limRun := 1024 })] } : State).pg 3).limRun ∧ (s.pg 0).limRun < 1024 := by
  decide +kernel

theorem witness_SupervisionAndMonitors :
    let s := rs [(PW_WCST.STATE, 24, 1), (PW_PGST.STATE, 3, 2), (PW_WCST.STATE, 25, 1)]
    let m := { rs [(AG_CTRL.TRIMT, 0, 10), (AG_CTRL.TMARG, 0, 20), (PW_PGSET.SETPT, 0, 900), (PW_PGSET.ACT, 0, 900)] with
      restored := true, tb := 12500000, engines := [(9, { Engine.reset with run := .running })],
      pgs := [(0, { PgSt.reset with base := 900 })] }
    let u := fun w : Nat => m.setFld AG_MON.READING 2 (w + 2 ^ 28)
    (s.keeper.power = .up ∧ s.fld RB_BOOT.FAIL = 0 ∧ s.fld PW_WCST.STATE 24 = (1 : Fin 3).val ∧ s.fld PW_WCST.STATE 24 ≠ (0 : Fin 3).val
        ∧ s.pgRuns 3 = true)
      ∧ (s.fld PW_STATUS.WARN = 0 ∧ (rs [(PW_STATUS.WARN, 0, 1)]).fld PW_STATUS.WARN = 1)
      ∧ (s.fld AG_HOURS.HOURS + 1 < 2 ^ 24 ∧ State.reset.hoursSet = false ∧ ({ s with hoursSet := true } : State).hoursSet = true)
      ∧ State.reset.marginRuns = false
      ∧ (m.marginRuns = true ∧ m.restored = true ∧ m.trimAt + m.fld AG_CTRL.TRIMT * 1250000 ≤ m.tb ∧ (u 99).trimMargin = some 99
           ∧ (u 121).trimMargin = some 121 ∧ m.actNow 0 = m.fld PW_PGSET.SETPT 0 ∧ m.fld PW_PGSET.SETPT 0 ≤ 1050
           ∧ (99 : Int) < (5 * m.fld AG_CTRL.TMARG : Nat) ∧ ((5 * m.fld AG_CTRL.TMARG : Nat) : Int) + 20 < 121)
      ∧ (m.trendAt + 168 ≤ (m.setFld AG_HOURS.HOURS 0 167).fld AG_HOURS.HOURS + 1 ∧ m.mayRecord = true)
      ∧ s.trendAt + 168 + 24 ≤ (s.setFld AG_HOURS.HOURS 0 191).fld AG_HOURS.HOURS + 1 ∧ s.canVote = true := by decide +kernel

theorem witness_ResetsTakePlace :
    let st := fun (p : PowerPhase) l => (rs l).modKeeper (fun k => { k with power := p })
    let s := rs [(RB_CTRL.LADMAX, 0, 15), (RB_STRAP.SDBG, 0, 1)]
    let hi := rs [(RB_CTRL.LADMAX, 0, 1), (RB_CAUSE.DRSTN, 0, 1)]
    let ho := hi.setFld RB_CAUSE.PCYCN 0 3
    (s.canVote = true ∧ s.keeper.power = .up ∧ (st .ballLow []).keeper.power = .ballLow ∧ (st .holdLow []).keeper.power = .holdLow)
      ∧ ((0x6B5E#32).toNat % 2 ^ 16 = 0x6B5E ∧ (0x6B5E#32).toNat / 2 ^ 16 % 2 = 0 ∧ (0#32).toNat % 2 ^ 16 ≠ 0x6B5E)
      ∧ (s.fld RB_CAUSE.DRSTN + 1 ≤ s.fld RB_CTRL.LADMAX ∧ s.fld RB_CAUSE.DRSTN + 1 < 16)
      ∧ (hi.fld RB_CTRL.LADMAX < hi.fld RB_CAUSE.DRSTN + 1 ∧ hi.fld RB_CAUSE.PCYCN < 3 ∧ 3 ≤ ho.fld RB_CAUSE.PCYCN
          ∧ ho.fld RB_CTRL.LADMAX < ho.fld RB_CAUSE.DRSTN + 1)
      ∧ ((s.modKeeper (fun k => { k with resetReq := some (10, 0) })).keeper.resetReq = some (10, 0) ∧ s.keeper.resetReq = none)
      ∧ (s.debugOn = true ∧ s.masked .dbg = false ∧ s.quiesced = false)
      ∧ (s.fld RB_BOOT.FAIL = 0 ∧ (s.eng 9).run ≠ .halted ∧ s.fld RB_CAUSE.PCYCN < 3)
      ∧ ((0x6B5E0004#32).toNat / 2 ^ 16 = 0x6B5E ∧ (0x6B5E0004#32).toNat % 16 = 4 ∧ 12 ≤ (0x6B5E000C#32).toNat % 16
          ∧ (0x6B5E000A#32).toNat % 16 = 5 + (5 : Fin 6).val ∧ (0x6B5E0003#32).toNat % 16 = 1 + (2 : Fin 3).val
          ∧ s.fld GR_HPLACE.PRIM 0 = (0 : Fin 6).val ∧ (0x6B5E000B#32).toNat % 16 = 11 ∧ s.fld ID_BOOT.BANK ≤ 1 ∧ s.seRetired 5 = false ∧ (4#32).toNat / 2 ^ 16 ≠ 0x6B5E) := by
  decide +kernel

/-- A configuration image with no table and no register-list entry in bank 1. -/
def bareImage : List Byte :=
  leBytes 4 0x7A110256 ++ leBytes 4 0x10001 ++ leBytes 4 0 ++ leBytes 4 0x100 ++ leBytes 4 0x182B2025
    ++ (List.replicate 9 (leBytes 4 0x400100)).flatten ++ List.replicate 200 0#8

theorem witness_ConfigurationCommits :
    let s := rs [(RB_CST.STATE, 0, 2), (RB_STATUS.CMTBUSY, 0, 1)]
    let c := { rs [(RB_CST.STATE, 0, 3), (RB_CSTAGE.ADDR, 0, 0x201FFFF0)] with commit := { CommitSt.reset with off := 0x37FFF, len := 1 } }
    let late := { rs [(RB_CST.STATE, 0, 4)] with tb := 375000001 }
    let four := rs [(RB_CST.STATE, 0, 4)]
    let first := (State.reset.setFld RB_CST.STATE 0 2).wrW 0x2000000C 0x100
    let d := { rs [(RB_CST.STATE, 0, 3), (RB_BOOT.FAIL, 0, 1), (RB_STRAP.SDBG, 0, 1), (DB_TGT.TGT, 0, 8)] with
      commit := { CommitSt.reset with off := 0, len := 1, buf := [7] } }
    (State.reset.fld RB_STATUS.CMTBUSY ≠ 1 ∧ State.reset.fld RB_STATUS.RECBUSY ≠ 1 ∧ s.fld RB_STATUS.CMTBUSY = 1 ∧ s.canVote = true
        ∧ State.reset.canVote = true ∧ first.canVote = true ∧ State.reset.absent .root = false ∧ four.canVote = true)
      ∧ (d.fld RB_CST.STATE = 3 ∧ d.fld RB_BOOT.FAIL = 1 ∧ d.fld RB_STRAP.SDBG = 1 ∧ d.fld DB_TGT.TGT = 8 ∧ d.commit.buf ≠ []
          ∧ d.newBank + d.commit.off * 16 + d.commit.len * 16 ≤ d.newBank + 0x380000 ∧ d.newBank + 0x380000 ≤ 0x800000)
      ∧ (¬ (0x20000000 ≤ (c.setFld RB_CSTAGE.ADDR 0 0).fld RB_CSTAGE.ADDR) ∧ Req.root ≠ .hw ∧ Req.root ≠ .dbg
          ∧ 4 < (rs [(RB_CST.STATE, 0, 5)]).fld RB_CST.STATE)
      ∧ ((rs [(RB_CST.STATE, 0, 1)]).fld RB_CST.STATE = 1 ∧ State.reset.fld PW_STATUS.WARN ≠ 1 ∧ (rs [(PW_STATUS.WARN, 0, 1)]).fld PW_STATUS.WARN = 1)
      ∧ (let f := first.setFld RB_CSTAGE.ADDR 0 0x20000000
         let v := 0x400000#32
         let w := 0x440000#32
         f.fld RB_CST.STATE = 2 ∧ v.toNat % 2 ^ 18 = f.commit.next ∧ v.toNat / 2 ^ 18 % 2 ^ 13 = 16
          ∧ (0 + 16) * 16 ≤ min 0x380000 (f.newLen 0) ∧ w.toNat / 2 ^ 18 % 2 ^ 13 = 17 ∧ min 0x380000 (f.newLen 0) < (0 + 17) * 16
          ∧ (1#32).toNat % 2 ^ 18 ≠ f.commit.next)
      ∧ (State.reset.fld RB_CST.STATE ≠ 2 ∧ 4096 < (0x40040000#32).toNat / 2 ^ 18 % 2 ^ 13 ∧ (0#32).toNat / 2 ^ 18 % 2 ^ 13 = 0)
      ∧ (c.fld RB_CST.STATE = 3 ∧ c.fld RB_BOOT.FAIL = 0 ∧ c.fld RB_CSTAGE.ADDR = 0x201FFFF0 ∧ c.fld RB_CSTAGE.ADDR + 16 ≤ 0x20200000
          ∧ c.newBank + 0x380000 ≤ 0x800000 ∧ c.newBank + c.commit.off * 16 + c.commit.len * 16 ≤ c.newBank + 0x380000
          ∧ c.badBits 0x201FFFF0 = 0 ∧ ({ c with errs := [(0x201FFFF, 3)] } : State).badBits 0x201FFFF0 = 3)
      ∧ (four.fld RB_CST.STATE = 4 ∧ four.elapsed ≤ 375000000 ∧ 375000000 < late.elapsed ∧ four.fit four.newImage four.newBank = some (1, 0, 0)) := by
  decide +kernel

/-- A commit at its end, that image written. -/
def bareCommit : State := (rs [(RB_CST.STATE, 0, 4)]).wrL 0x400000 bareImage

theorem crc_append {c d e : Nat} {l m : List Byte} (h : crcBytes 32 0x1EDC6F41 true c l = d) (k : crcBytes 32 0x1EDC6F41 true d m = e) :
    crcBytes 32 0x1EDC6F41 true c (l ++ m) = e := by
  subst h; rw [← k]; exact List.foldl_append ..

theorem crc32c_of {c d : Nat} {l : List Byte} (h : crcBytes 32 0x1EDC6F41 true 0xFFFFFFFF l = c) (k : revBits 32 c ^^^ 0xFFFFFFFF = d) : crc32c l = d := by
  subst h; exact k

theorem crc_entries : crcBytes 32 0x1EDC6F41 true 0xFFFFFFFF (List.replicate 9 (leBytes 4 0x400100)).flatten = 3867979232 := by decide +kernel

theorem crc_zeros1 : crcBytes 32 0x1EDC6F41 true 3867979232 (List.replicate 50 0#8) = 1274254005 := by decide +kernel

theorem crc_zeros2 : crcBytes 32 0x1EDC6F41 true 1274254005 (List.replicate 50 0#8) = 4187811442 := by decide +kernel

theorem crc_zeros3 : crcBytes 32 0x1EDC6F41 true 4187811442 (List.replicate 50 0#8) = 925620537 := by decide +kernel

theorem crc_zeros4 : crcBytes 32 0x1EDC6F41 true 925620537 (List.replicate 50 0#8) = 1543187431 := by decide +kernel

theorem crc_end : revBits 32 1543187431 ^^^ 0xFFFFFFFF = 0x182B2025 := by decide +kernel

theorem bare_crc : crc32c ((List.replicate 9 (leBytes 4 0x400100)).flatten
    ++ (List.replicate 50 0#8 ++ (List.replicate 50 0#8 ++ (List.replicate 50 0#8 ++ List.replicate 50 0#8)))) = 0x182B2025 := by
  exact crc32c_of (crc_append crc_entries (crc_append crc_zeros1 (crc_append crc_zeros2 (crc_append crc_zeros3 crc_zeros4)))) crc_end

theorem bare_header : bareCommit.newBank = 0x400000 ∧ bareCommit.headerOk 0x400000 = true ∧ bareCommit.rdW 0x40000C = 0x100 ∧ bareCommit.rdW 0x400010 = 0x182B2025
  ∧ ((List.range 16).all (fun i => decide (bareCommit.badBits (0x400000 + 16 * i) < 3))) = true
  ∧ bareCommit.rdL 0x400014 236 = (List.replicate 9 (leBytes 4 0x400100)).flatten
    ++ (List.replicate 50 0#8 ++ (List.replicate 50 0#8 ++ (List.replicate 50 0#8 ++ List.replicate 50 0#8))) := by decide +kernel

theorem bare_check : bareCommit.imageCheckOk 0x400000 = true := by
  obtain ⟨-, -, h1, h2, h3, h4⟩ := bare_header
  simp only [State.imageCheckOk, Nat.reduceAdd, h1, h2, Nat.reduceDiv, Nat.reduceSub, h3, h4, bare_crc, beq_self_eq_true, Bool.and_self]

theorem mapPoints_none (t : State) (h : t.table 5 0 = none) (b : Nat) : t.mapPoints b = [] := by
  simp [State.mapPoints, State.pointEntry, h, entryBobs]

theorem inboundOk_none (t : State) (h : t.table 5 0 = none) (b : Nat) : t.inboundOk b = true := by
  simp [State.inboundOk, mapPoints_none t h]

theorem bare_fits : let t := bareCommit.newImage
    t.table 5 0 = none ∧ t.requiredOk = true ∧ t.directory 0x400000 = [] ∧ (List.range 64).find? (fun i => !t.excitationOk i) = none
    ∧ (List.range 256).find? (fun x => !t.pointListOk x) = none ∧ t.imageBudget ≤ t.fld FE_BUDGET.LIMIT ∧ t.joined 0 = false ∧ t.joined 1 = false ∧ t.isSet GR_COORD.VC = false
    ∧ t.regListOk 0x400000 = true ∧ t.regionsOk 0x400000 = true ∧ t.rd 0x40004C 2 = 0 ∧ t.placementsOk 0x400000 = true := by decide +kernel

theorem localPoints_none (t : State) (h : t.table 5 0 = none) : t.localPoints = [] := by
  simp [State.localPoints, State.pointEntry, h, entryLocal]

theorem firstBad_nil (bare_fits : List Nat) (ok : DirEnt → Bool) : firstBad [] bare_fits ok = none := rfl

theorem fit_bare : bareCommit.fit bareCommit.newImage 0x400000 = none := by
  obtain ⟨h1, h2, h3, h4, h0, h5, h6, h7, h8, h9, h10, h11, h16⟩ := bare_fits
  have h13 : bareCommit.newImage.originOk = true := by simp [State.originOk, localPoints_none _ h1]
  have h14 : (List.range 256).find? (fun x => !bareCommit.newImage.inboundOk x) = none := by simp [inboundOk_none _ h1]
  have h15 : (List.range 2) = [0, 1] := rfl
  unfold State.fit
  rw [bare_header.2.1, bare_check]
  unfold State.fitChecks
  simp only [h0, h2, h3, h4, decide_eq_true h5, h6, h7, h8, h9, h10, h11, h13, h14, h15, h16, firstBad_nil, whole, List.map_nil, List.all_cons,
    Nat.zero_mul, Nat.zero_le, decide_true, Bool.not_false, Bool.not_true, Bool.true_or, Bool.or_self, if_true, Option.map_none, List.all_nil, Bool.and_self,
    List.findSome?_cons, List.findSome?_nil, Bool.false_eq_true, if_false]

/-- The hypotheses of a commit that completes. -/
theorem witness_ConfigurationCommits_fits :
    bareCommit.fld RB_CST.STATE = 4 ∧ bareCommit.fld PW_STATUS.WARN ≠ 1 ∧ bareCommit.elapsed ≤ 375000000
      ∧ bareCommit.fit bareCommit.newImage bareCommit.newBank = none :=
  ⟨by decide +kernel, by decide +kernel, by decide +kernel, bare_header.1 ▸ fit_bare⟩

theorem witness_RecordsAndWatchdogs_commit :
    let st := fun n : Nat => rs [(RB_CST.STATE, 0, n), (RB_CSTAGE.ADDR, 0, 0x20000000)]
    let f := (st 2).wrW 0x2000000C 0x100
    (∀ n ∈ [1, 2, 3, 4], (st n).canVote = true ∧ (st n).fld RB_CST.STATE = n ∧ (st n).fld PW_STATUS.WARN ≠ 1)
      ∧ (f.fld RB_CST.STATE = 2 ∧ (0x400000#32).toNat % 2 ^ 18 = f.commit.next ∧ (0x400000#32).toNat / 2 ^ 18 % 2 ^ 13 = 16
          ∧ (0 + 16) * 16 ≤ min 0x380000 (f.newLen 0))
      ∧ ((st 3).fld RB_BOOT.FAIL = 0 ∧ (st 3).fld RB_CSTAGE.ADDR = 0x20000000 ∧ (st 3).badBits 0x20000000 ≤ 2) := by decide +kernel

theorem witness_RecordsAndWatchdogs :
    let v := 0x201FFFC3#32
    let s := { rs [(HW_STATUS.SAFE, 0, 0)] with commit := { CommitSt.reset with record := some (3, 0x201FFFC0) } }
    (s.canVote = true ∧ s.absent .dbg = false ∧ 1 ≤ v.toNat % 16 ∧ v.toNat % 16 ≤ 3 ∧ 0x20000000 ≤ v.toNat / 16 * 16 ∧ v.toNat / 16 * 16 + 64 ≤ 0x20200000
        ∧ s.fld RB_STATUS.CMTBUSY ≠ 1 ∧ s.fld RB_STATUS.RECBUSY ≠ 1)
      ∧ (¬ (1 ≤ (0x20000000#32).toNat % 16) ∧ (rs [(RB_STATUS.RECBUSY, 0, 1)]).fld RB_STATUS.RECBUSY = 1)
      ∧ (s.commit.record = some (3, 0x201FFFC0) ∧ s.fld PW_STATUS.WARN ≠ 1 ∧ 0x201FFFC0 % 16 = 0
          ∧ (∀ j ∈ [0, 1, 2, 3], s.badBits (0x201FFFC0 + 16 * j) = 0) ∧ s.recNext s.pointer.records < 6144
          ∧ ({ s with errs := [(0x201FFFF, 3)] } : State).badBits (0x201FFFC0 + 16 * 3) = 3 ∧ s.plan.body = none
          ∧ (requestRecord 1 s.trendBody s).plan.body = some s.trendBody ∧ s.trendBody.length = 64)
      ∧ ((0xC0DE#32).toNat % 2 ^ 16 = 0xC0DE ∧ (0#32).toNat % 2 ^ 16 ≠ 0xC0DE ∧ Req.hw ≠ .root ∧ ¬ (Req.dbg = .root ∨ Req.dbg = .hw) ∧ s.absent .hw = false)
      ∧ (let w := { rs [(RB_CTRL.RWDT, 0, 2)] with cycle := 3 }
         w.keeper.rkick + w.fld RB_CTRL.RWDT < w.cycle ∧ State.reset.cycle ≤ State.reset.keeper.rkick + State.reset.fld RB_CTRL.RWDT)
      ∧ s.fld AG_HOURS.HOURS < 2 ^ 32
      ∧ ((s.modKeeper (fun k => { k with serviceAt := some 9 })).keeper.serviceAt = some 9 ∧ s.keeper.serviceAt = none) := by decide +kernel

theorem witness_DebuggerAndTestAccess :
    let st := fun l => rs ([(RB_STRAP.SDBG, 0, 1), (DB_TGT.TGT, 0, 7), (DB_ADDR.ADDR, 0, 0x4001FFFC), (DB_REGSEL.REG, 0, 15)] ++ l)
    let run := (st []).modEng 8 (fun x => { x with run := .running })
    let hal := (st []).modEng 8 (fun x => { x with run := .halted })
    let tr := ((rs [(DB_TRDUMP.BUSY, 0, 1), (DB_TRCFG.DEPTH, 0, 4)]).wrW State.reset.bankBase 0x7A110256).wrW (State.reset.bankBase + 0x48) 64
    let tr := tr.wrW (State.reset.bankBase + 0x44) 0x201FFFC0
    (State.reset.masked .dbg = false ∧ State.reset.quiesced = false ∧ State.reset.debugOn = false)
      ∧ ((st []).masked .dbg = false ∧ (st []).quiesced = false ∧ (st []).debugOn = true ∧ (st []).fld DB_TGT.TGT = 2 + (5 : Fin 6).val)
      ∧ ((run.eng 8).run = .running ∧ (run.eng 8).midway = false ∧ ((run.modEng 8 (fun x => { x with midway := true })).eng 8).midway = true ∧ (hal.eng 8).run = .halted ∧ 8 ∉ hal.heart.parked ∧ hal.fld DB_REGSEL.REG < 16)
      ∧ (0x40000000 ≤ (st []).fld DB_ADDR.ADDR ∧ (st []).fld DB_ADDR.ADDR < 0x40020000 ∧ (st []).fld DB_ADDR.ADDR % 4 = 0
          ∧ (let f := st [(DB_ADDR.ADDR, 0, 0x201FFFFC)]
             f.fld DB_ADDR.ADDR = 0x201FFFFC ∧ f.badBits 0x201FFFFC = 0)
          ∧ (st []).badBits (memKey 9 0x4001FFFC) = 0 ∧ ¬ ((st [(DB_ADDR.ADDR, 0, 0x40020000)]).fld DB_ADDR.ADDR < 0x40020000))
      ∧ ((st [(DB_TGT.TGT, 0, 0)]).fld DB_TGT.TGT = 0 ∧ State.reset.isSplit = false ∧ (st []).fld DB_TGT.TGT < 16)
      ∧ (tr.fld DB_TRDUMP.BUSY = 1 ∧ tr.rdW tr.bankBase = 0x7A110256 ∧ 16 * tr.fld DB_TRCFG.DEPTH ≤ tr.rdW (tr.bankBase + 0x48)
          ∧ 0x20000000 ≤ tr.rdW (tr.bankBase + 0x44) ∧ tr.rdW (tr.bankBase + 0x44) + 16 * tr.fld DB_TRCFG.DEPTH ≤ 0x20200000
          ∧ tr.fld DB_TRCFG.DEPTH ≤ 1024)
      ∧ State.reset.fld DB_TRDUMP.BUSY ≠ 1 := by decide +kernel

/-! ### Instruction words: 09's examples of R345, and a word of no instruction -/

theorem test_ldw_word : kamotte (.se 5) 0x207C0018#32 0#32 = some (.ldw (.se 5) { d := 3, a := 14, imm := 24#17, ext := none }) := by decide +kernel

theorem test_movi_word :
    kamotte .root 0x1A200000#32 0x30002000#32 = some (.movi .root { d := 1, a := 0, imm := 0#17, ext := some 0x30002000#32 }) := by decide +kernel

theorem test_bnz_word : kamotte .ha 0x605FFFFB#32 0#32 = some (.b .ha { cond := 2, off := BitVec.ofInt 21 (-5), ext := none }) := by decide +kernel

theorem test_unassigned_word : kamotte .ha 0xFC000000#32 0#32 = none := by decide +kernel

/-- R344: SE5, whose local RAM holds that word at its PC, takes the fault of code 1; with a NOP there it goes on. -/
theorem test_program_words :
    let s := (State.reset.setReg (.se 5) 14 0x40000100#32).modEng 8 (fun x => { x with pc := 0x40000000#32 })
    let after := fun w : Nat => match runProgram (.se 5) (s.wrW (memKey 9 0x40000000) w) with
      | .next t => some ((t.eng 8).code.toNat, (t.eng 8).pc.toNat)
      | _ => none
    after 0xFC000000 = some (1, 12) ∧ after 0x70000000 = some (0, 0x40000004) := by decide +kernel

end Sys2Proof.Tests
end

section
/-! PROOFS. Register writes that act at once, and the writes of fields by their access codes (00 R14, R15). -/

namespace Sys2Proof.Machine

/-! ### Which writes act at once -/

/-- A write that requester `q` makes now lands now: the voted Heartwood's while it can vote and is not halted, a Root or Sapwood
engine's while the arbiter serves it. -/
def State.lands (s : State) (q : Req) : Prop :=
  (q = .hw ∧ s.canVote = true) ∨ ((q = .root ∨ ∃ k, q = .se k) ∧ s.arbHolds q = false)

/-- An assigned word offset whose write neither waits for a lock nor resets the device. -/
def plainOffset (off : Nat) : Bool :=
  off % 4 == 0 && (findReg off).isSome
    && !([BB_LOCK.addr, BB_INBACK.addr, PW_CYCLE.addr, RB_RESET.addr, DB_CTRL.addr].contains off)

theorem plainOffset_iff (off : Nat) : plainOffset off = true ↔
    off % 4 = 0 ∧ (findReg off).isNone = false ∧ off ≠ BB_LOCK.addr ∧ off ≠ BB_INBACK.addr ∧ off ≠ PW_CYCLE.addr
      ∧ off ≠ RB_RESET.addr ∧ off ≠ DB_CTRL.addr := by
  cases h : findReg off <;> simp [plainOffset, h]

theorem writeWaits_of_ne (s : State) (q : Req) {off : Nat} (h : off ≠ BB_INBACK.addr) : s.writeWaits q off = false := by
  simp [State.writeWaits, h]

theorem writeReg_of_ne (q : Req) {off : Nat} (v : Nat) (s : State) (hp : off ≠ PW_CYCLE.addr) (hr : off ≠ RB_RESET.addr)
    (hd : off ≠ DB_CTRL.addr) : writeReg q off v s = (false, writeReg0 q off v s) := by
  simp [writeReg, hp, hr, hd]

/-- A write of a plain offset by a requester whose writes land has the effect of the register's own rule, and no other. -/
theorem plainWrite_of_lands {q : Req} {off : Nat} (v : Nat) {s : State} (hq : s.lands q) (ho : plainOffset off = true) :
    plainWrite q off v s = writeReg0 q off v s := by
  obtain ⟨halign, hreg, hlock, hinback, hcycle, hreset, hctrl⟩ := (plainOffset_iff off).1 ho
  have hw := writeReg_of_ne q v s hcycle hreset hctrl
  have hwait := writeWaits_of_ne s q hinback
  obtain ⟨rfl, -⟩ | ⟨rfl | ⟨k, rfl⟩, harb⟩ := hq
  · simp [plainWrite, halign, hreg, hwait, hlock, hw]
  · simp [plainWrite, halign, hreg, harb, engRegWrite, hwait, hlock, hw]
  · simp [plainWrite, halign, hreg, harb, engRegWrite, hwait, hlock, hw]

theorem State.absent_of_lands {s : State} {q : Req} (hq : s.lands q) : s.absent q = false := by
  obtain ⟨rfl, h⟩ | ⟨rfl | ⟨k, rfl⟩, -⟩ := hq
  · simp [State.absent, h]
  · rfl
  · rfl

theorem asReq_of_present {s : State} {q : Req} (h : s.absent q = false) (r : Host.Outcome State Fault Refusal) :
    asReq q s r = r := by simp [asReq, h]

/-- REGISTER_WRITE of a plain offset by a requester whose writes land. -/
theorem exec_registerWrite_of_lands {q : Req} {off : BitVec 16} (v : Word) {s : State} (hq : s.lands q)
    (ho : plainOffset off.toNat = true) :
    exec (.registerWrite q off v) s = .next (writeReg0 q off.toNat v.toNat s) := by
  rw [← plainWrite_of_lands v.toNat hq ho]
  have ha := State.absent_of_lands hq
  obtain ⟨rfl, -⟩ | ⟨rfl | ⟨k, rfl⟩, -⟩ := hq <;> exact asReq_of_present ha _

/-! ### Writes of fields by their access codes -/

/-- A requester's write replaces a field of these codes by the written bits (Table SC-5). -/
def Field.takes (f : Field) (q : Req) : Bool := f.acc == .rw || (f.acc == .vw && q.voted)

theorem Field.of_lt (f : Field) (v : Nat) : f.of v < 2 ^ f.w := Nat.mod_lt _ (Nat.two_pow_pos _)

theorem Field.key_eq (f : Field) (i : Nat) : f.key i = i * 2097152 + f.key 0 := by
  unfold Field.key
  omega

theorem writeField_of_takes {q : Req} {f : Field} (h : f.takes q = true) (i v : Nat) (s : State) :
    writeField q i v f s = s.setFld f i (f.of v) := by
  unfold writeField
  cases ha : f.acc <;> simp_all [Field.takes]

theorem writeField_of_ro {f : Field} (h : f.acc = .ro) (q : Req) (i v : Nat) (s : State) : writeField q i v f s = s := by
  simp [writeField, h]

theorem writeField_of_unvoted {q : Req} (hq : q.voted = false) {f : Field} (h : f.acc = .vw) (i v : Nat) (s : State) :
    writeField q i v f s = s := by simp [writeField, h, hq]

theorem Kept.writeField (q : Req) (i v : Nat) (f : Field) (s : State) : Kept [f.key i] s (writeField q i v f s) := by
  unfold Machine.writeField
  split
  case h_2 | h_4 => exact Kept.setFld _ _ _ _
  case h_5 | h_7 =>
    split
    · exact Kept.setFld _ _ _ _
    · exact Kept.refl _ _
  all_goals exact Kept.refl _ _

/-- The fields of a register that its own write can change. -/
def writable (fs : List Field) : List Field := fs.filter (fun f => f.acc != .ro)

/-- A write of a register's fields leaves every field outside the register, and its RO fields. -/
theorem Kept.forEach_writeField (q : Req) (i v : Nat) (fs : List Field) (s : State) :
    Kept ((writable fs).map (fun f => f.key i)) s (forEach fs (Machine.writeField q i v) s) := by
  induction fs generalizing s with
  | nil => exact Kept.refl _ _
  | cons f fs ih =>
    rw [forEach_cons]
    by_cases hf : f.acc = .ro
    · rw [writeField_of_ro hf]
      simpa [writable, hf] using ih s
    · have hw : writable (f :: fs) = f :: writable fs := by simp [writable, hf]
      rw [hw]
      exact ((Kept.writeField q i v f s).mono (by simp)).trans ((ih _).mono (fun k hk => List.mem_cons_of_mem _ hk))

theorem fld_forEach_writeField_of_notMem (q : Req) (i v : Nat) {fs : List Field} {f : Field} (h : f.key 0 ∉ fs.map (fun g => g.key 0))
    (s : State) : (forEach fs (writeField q i v) s).fld f i = s.fld f i := by
  refine Kept.forEach_writeField q i v fs s f i (fun hm => h ?_)
  obtain ⟨g, hg, he⟩ := List.mem_map.1 hm
  rw [Field.key_eq g, Field.key_eq f] at he
  exact List.mem_map.2 ⟨g, List.mem_of_mem_filter hg, by omega⟩

/-- After a write of a register's fields each field that takes the write reads the written bits. -/
theorem fld_forEach_writeField (q : Req) (i v : Nat) {fs : List Field} (hfs : (fs.map (fun g => g.key 0)).Nodup) {f : Field}
    (hf : f ∈ fs) (ht : f.takes q = true) (s : State) : (forEach fs (writeField q i v) s).fld f i = f.of v := by
  induction fs generalizing s with
  | nil => cases hf
  | cons g fs ih =>
    obtain ⟨hg, hfs⟩ := List.nodup_cons.1 hfs
    rw [forEach_cons]
    obtain rfl | hf := List.mem_cons.1 hf
    · rw [fld_forEach_writeField_of_notMem q i v hg, writeField_of_takes ht, State.fld_setFld_self,
        Nat.mod_eq_of_lt (f.of_lt v)]
    · exact ih hfs hf _

theorem forEach_writeField_of_unvoted {q : Req} (hq : q.voted = false) (i v : Nat) {fs : List Field} (h : ∀ f ∈ fs, f.acc = .vw)
    (s : State) : forEach fs (writeField q i v) s = s := by
  induction fs generalizing s with
  | nil => rfl
  | cons f fs ih =>
    rw [forEach_cons, writeField_of_unvoted hq (h f (by simp))]
    exact ih (fun g hg => h g (List.mem_cons_of_mem _ hg)) s

/-- A write that does not count as rejected is the write of each field. -/
theorem writeFields_of_accepted {q : Req} {fs : List Field} {i v : Nat} {s : State} (h : s.countsRejected q fs i v = false) :
    writeFields q fs i v s = forEach fs (writeField q i v) s := by
  unfold writeFields
  dsimp only
  rw [h, onlyIf_false]

theorem writeFields_hw (fs : List Field) (i v : Nat) (s : State) :
    writeFields .hw fs i v s = forEach fs (writeField .hw i v) s :=
  writeFields_of_accepted (State.countsRejected_voted s rfl fs i v)

/-! ### The select registers (00 R18, R19) -/

/-- A register of one RW field at bit 0 takes the low bits of the value, and nothing else changes. -/
theorem writeFields_select {f : Field} (hrw : f.acc = .rw) (hlo : f.lo = 0) (q : Req) (i v : Nat) (s : State) :
    let t := writeFields q [f] i v s
    t.fld f i = v % 2 ^ f.w ∧ Kept [f.key i] s t ∧ t = { s with regs := t.regs } := by
  have ht : writeFields q [f] i v s = s.setFld f i (f.of v) := by
    rw [writeFields_of_accepted (by simp [State.countsRejected, hrw]), forEach_cons, forEach_nil,
      writeField_of_takes (by simp [Field.takes, hrw])]
  have hof : f.of v = v % 2 ^ f.w := by simp [Field.of, bitsOf, hlo]
  dsimp only
  rw [ht, hof]
  exact ⟨by rw [State.fld_setFld_self, Nat.mod_mod], Kept.setFld _ _ _ _, rfl⟩

/-- A write of the select register at a plain offset by a requester whose writes land is taken in the requester's own copy, and
nothing else changes. -/
theorem exec_select {q : Req} {off : BitVec 16} {f : Field} (v : Word) {s : State} (hq : s.lands q) (ho : plainOffset off.toNat = true)
    (hrw : f.acc = .rw) (hlo : f.lo = 0) (hw : writeReg0 q off.toNat v.toNat s = writeFields q [f] q.bank v.toNat s) :
    ∃ t, exec (.registerWrite q off v) s = .next t ∧ t.fld f q.bank = v.toNat % 2 ^ f.w ∧ Kept [f.key q.bank] s t
      ∧ t = { s with regs := t.regs } :=
  ⟨_, (exec_registerWrite_of_lands v hq ho).trans (congrArg _ hw), writeFields_select hrw hlo q q.bank v.toNat s⟩

theorem writeReg0_portsel (q : Req) (v : Nat) (s : State) :
    writeReg0 q 0x5040 v s = if v % 8 < 6 then writeFields q [CK_PORTSEL.PORT] q.bank v s else s := by
  have hof : CK_PORTSEL.PORT.of v = v % 8 := by simp [Field.of, bitsOf, CK_PORTSEL.PORT]
  rw [← hof]
  exact if_congr decide_eq_true_iff rfl rfl

/-- Settles O5: a select register has one RW field in a copy per requester, and CK_PORTSEL a span of 6. -/
theorem selectRegistersKeepToTheirUnits : Obligations.SelectRegistersKeepToTheirUnits := by
  unfold Obligations.SelectRegistersKeepToTheirUnits
  intro s q v hq
  refine ⟨fun h6 => ?_, fun h6 => ?_, ?_, ?_, ?_, ?_, ?_⟩
  · rw [exec_registerWrite_of_lands v hq (by decide)]
    exact congrArg _ ((writeReg0_portsel q v.toNat s).trans (if_neg (by omega)))
  · exact exec_select v hq (by decide) rfl rfl ((writeReg0_portsel q v.toNat s).trans (if_pos h6))
  · exact exec_select v hq (by decide) rfl rfl rfl
  · exact exec_select v hq (by decide) rfl rfl rfl
  · exact exec_select v hq (by decide) rfl rfl rfl
  · exact exec_select v hq (by decide) rfl rfl rfl
  · exact exec_select v hq (by decide) rfl rfl rfl

end Sys2Proof.Machine
end

section
/-! PROOFS. The writes of the front end's registers (02 R60, R61, R71, R74, R76, R92, R97). -/

namespace Sys2Proof.Machine

/-! ### What the tally leaves: the registers of the front end's page -/

/-- Every field of the front end's page (Table AR-7), as it reads. -/
def State.front (s : State) (f : Field) (i : Nat) : Nat := if f.addr / 4096 = 1 ∧ f.lo < 32 then s.fld f i else 0

theorem State.front_eq (s : State) {f : Field} (ha : f.addr / 4096 = 1) (hl : f.lo < 32) (i : Nat) : s.front f i = s.fld f i :=
  if_pos ⟨ha, hl⟩

/-- A field outside the front end's page, at a place of the register space. -/
def Field.offFront (f : Field) : Bool := f.addr / 4096 != 1 && decide (f.addr < 65536) && decide (f.lo < 32)

@[simp] theorem State.front_setFld {f : Field} (hf : f.offFront = true) (i v : Nat) (s : State) :
    (s.setFld f i v).front = s.front := by
  simp only [Field.offFront, Bool.and_eq_true, bne_iff_ne, decide_eq_true_eq] at hf
  obtain ⟨⟨hp, ha⟩, hl⟩ := hf
  funext g j
  unfold State.front
  split
  · exact State.fld_setFld_ne s v (Field.key_ne ha (by omega) hl (by omega) (.inr (.inl (by omega))))
  · rfl

@[simp] theorem State.front_raise (e : Nat) (s : State) : (s.raise e).front = s.front := by
  funext f i
  simp [State.front]

@[simp] theorem State.front_modHead (k : Nat) (g : HeadSt → HeadSt) (s : State) : (s.modHead k g).front = s.front := rfl

@[simp] theorem State.front_modSys (i : Nat) (g : SysSt → SysSt) (s : State) : (s.modSys i g).front = s.front := rfl

@[simp] theorem State.front_flag {f : Field} (hf : f.offFront = true) (e : Nat) (s : State) : (s.flag f e).front = s.front :=
  (State.front_raise e _).trans (State.front_setFld hf 0 1 s)

@[simp] theorem State.front_countFld {f : Field} (hf : f.offFront = true) (i n : Nat) (s : State) :
    (s.countFld f i n).front = s.front := State.front_setFld hf i _ s

@[simp] theorem State.front_onlyIf {c : Bool} {g : State → State} (hg : ∀ t, (g t).front = t.front) (s : State) :
    (onlyIf c g s).front = s.front := onlyIf_frame c hg s

@[simp] theorem setLatch_front {f : Field} (hf : f.offFront = true) (k : Nat) (s : State) : (setLatch f k s).front = s.front := by
  unfold setLatch
  split
  · rfl
  · exact (State.front_flag (by decide) evBB _).trans (State.front_setFld hf 0 _ s)

@[simp] theorem finalClaim_front (k code dir dur : Nat) (s : State) : (finalClaim k code dir dur s).front = s.front := by
  simp +decide [finalClaim]

@[simp] theorem State.front_forEach {α : Type} {l : List α} {g : α → State → State} (hg : ∀ x t, (g x t).front = t.front) (s : State) :
    (forEach l g s).front = s.front := forEach_frame l (fun x _ => hg x) s

@[simp] theorem resolveClaim_front (k code dir dur : Nat) (s : State) : (resolveClaim k code dir dur s).front = s.front := by
  simp +decide [resolveClaim]

@[simp] theorem orphan_front (k : Nat) (r : Crossing) (s : State) : (orphan k r s).front = s.front := by
  simp +decide [orphan]

@[simp] theorem countCrossing_front (k dir : Nat) (s : State) : (countCrossing k dir s).front = s.front := by
  unfold countCrossing
  split
  · simp +decide
  · split <;> simp +decide

/-- A crossing ends in WD and BB registers, whether it resolves a claim, is queued, or drives the oldest record out. -/
@[simp] theorem addCrossing_front (k : Nat) (r : Crossing) (s : State) : (addCrossing k r s).front = s.front := by
  unfold addCrossing
  dsimp only
  split
  · split
    · split <;> simp
    · simp
  · split
    · simp
    · split
      · split <;> simp
      · simp

@[simp] theorem tallyStep_front (k : Nat) (s : State) : (tallyStep k s).front = s.front := by
  unfold tallyStep
  dsimp only
  split
  · rfl
  · split
    · split
      · split <;> simp
      · simp
    · simp

@[simp] theorem setLevel_front (i : Nat) (p : Bool) (s : State) : (setLevel i p s).front = s.front := by
  unfold setLevel
  split
  · rfl
  · simp

@[simp] theorem pushEdge_front (i r : Nat) (s : State) : (pushEdge i r s).front = s.front := by
  unfold pushEdge
  split
  · simp +decide
  · rfl

/-- A new comparator state reaches WD registers, the edge FIFOs and the tally. -/
@[simp] theorem setCmp_front (i st : Nat) (s : State) : (setCmp i st s).front = s.front := by
  unfold setCmp
  split
  · rfl
  · have hmask : ∀ t : State, (onlyIf (st == 3) (State.modHead (i / 2) (fun h => { h with masked := h.masked || h.phase != 0 })) t).front
        = t.front := State.front_onlyIf (fun _ => rfl)
    dsimp only
    split
    · simp +decide [hmask]
    · split <;> simp +decide [hmask]

/-- A comparator that follows the run bit, the mode and the masking changes no register of the front end. -/
@[simp] theorem refreshCmp_front (i : Nat) (s : State) : (refreshCmp i s).front = s.front := by
  unfold refreshCmp
  dsimp only
  split
  · simp +decide
  · split
    · split <;> simp +decide
    · split <;> simp +decide

@[simp] theorem startSettle_front (i : Nat) (s : State) : (startSettle i s).front = s.front := rfl

end Sys2Proof.Machine
end

section
namespace Sys2Proof.Machine

/-! ### Written values -/

/-- A field at bit 0 is written with the low bits. -/
theorem Field.of_low {f : Field} (h : f.lo = 0) (v : Nat) : f.of v = v % 2 ^ f.w := by simp [Field.of, bitsOf, h]

/-- Setting a bit leaves a number that has it and adds the bit to one that has not. -/
theorem putBit_true_cases (v b : Nat) :
    (v / 2 ^ b % 2 = 1 ∧ putBit v b true = v) ∨ (v / 2 ^ b % 2 = 0 ∧ putBit v b true = v + 2 ^ b) := by
  unfold putBit
  rw [Nat.testBit_eq_decide_div_mod_eq]
  by_cases h : v / 2 ^ b % 2 = 1
  · simp [h]
  · simp [h]
    omega

/-! ### Voted writes of a register's fields -/

theorem State.lands_hw {s : State} (h : s.canVote = true) : s.lands .hw := .inl ⟨rfl, h⟩

theorem asReq_hw {s : State} (h : s.canVote = true) (r : Host.Outcome State Fault Refusal) : asReq .hw s r = r :=
  asReq_of_present (State.absent_of_lands (State.lands_hw h)) r

/-- Fields apart at index 0 are apart at every index: a key moves with the index alone. -/
theorem Field.key_ne_of_zero {f g : Field} (h : f.key 0 ≠ g.key 0) (i : Nat) : f.key i ≠ g.key i := by
  rw [Field.key_eq f, Field.key_eq g]
  omega

/-- A field of a register that a voted write has written reads the written bits. -/
theorem fld_writeFields_hw {fs : List Field} (hfs : (fs.map (fun g => g.key 0)).Nodup) {f : Field} (hf : f ∈ fs) (ht : f.takes .hw = true)
    (i v : Nat) (s : State) : (writeFields .hw fs i v s).fld f i = f.of v := by
  rw [writeFields_hw]
  exact fld_forEach_writeField .hw i v hfs hf ht s

theorem Kept.writeFields_hw (fs : List Field) (i v : Nat) (s : State) :
    Kept ((writable fs).map (fun f => f.key i)) s (writeFields .hw fs i v s) := by
  rw [Machine.writeFields_hw]
  exact Kept.forEach_writeField .hw i v fs s

/-! ### Routing (R60, R61) -/

/-- A system is not off when its register, or what is in force, due or staged for it, is not off (assumption 163). -/
theorem State.notOff_iff (s : State) (i : Nat) : s.notOff i = true ↔
    s.fld FE_EXC.MODE i ≠ 0 ∨ (s.sys i).exc.mode ≠ 0 ∨ (∃ e, (s.sys i).due = some e ∧ e.mode ≠ 0)
      ∨ (∃ e, (s.sys i).staged = some e ∧ e.mode ≠ 0) := by
  simp only [State.notOff, State.excs, State.target, List.any_append, List.any_cons, List.any_nil, Bool.or_eq_true, List.any_eq_true,
    Option.mem_toList, bne_iff_ne, Bool.or_false, or_assoc]
  exact or_left_comm

theorem exec_routeWrite_hw {s : State} (h : s.canVote = true) (hi : Bool) (v : Word) :
    exec (.routeWrite .hw hi v) s = .next (feRoute .hw hi (s.fld FE_SYSSEL.SYS 11) v.toNat s) := asReq_hw h _

theorem feRoute_notOff {s : State} {i : Nat} (h : s.notOff i = true) (hi : Bool) (v : Nat) :
    feRoute .hw hi i v s = s.flag FE_STATUS.ROUTEERR evFE := by simp [feRoute, Req.voted, h]

theorem feRoute_off {s : State} {i : Nat} (h : s.notOff i = false) (v : Nat) :
    feRoute .hw false i v s = writeFields .hw FE_ROUTE0.fields i v s := by simp [feRoute, Req.voted, h]

/-- FE_ROUTE0 of a system that is off takes its four pins. -/
theorem routeWrite_takes {s : State} (hv : s.canVote = true) (h : s.notOff (s.fld FE_SYSSEL.SYS 11) = false) (v : Word) :
    let i := s.fld FE_SYSSEL.SYS 11
    ∃ t, exec (.routeWrite .hw false v) s = .next t
      ∧ t.fld FE_ROUTE0.SENP i = v.toNat % 128 ∧ t.fld FE_ROUTE0.SENN i = v.toNat / 2 ^ 8 % 128
      ∧ t.fld FE_ROUTE0.EXCP i = v.toNat / 2 ^ 16 % 128 ∧ t.fld FE_ROUTE0.EXCN i = v.toNat / 2 ^ 24 % 128
      ∧ Kept [FE_ROUTE0.SENP.key i, FE_ROUTE0.SENN.key i, FE_ROUTE0.EXCP.key i, FE_ROUTE0.EXCN.key i] s t
      ∧ t = { s with regs := t.regs } := by
  intro i
  have hnd : (FE_ROUTE0.fields.map (fun g => g.key 0)).Nodup := by decide
  refine ⟨_, (exec_routeWrite_hw hv false v).trans (congrArg _ (feRoute_off h v.toNat)), ?_, ?_, ?_, ?_, ?_, ?_⟩
  · exact (fld_writeFields_hw hnd (by decide) rfl i _ s).trans (Field.of_low rfl _)
  · exact fld_writeFields_hw hnd (by decide) rfl i _ s
  · exact fld_writeFields_hw hnd (by decide) rfl i _ s
  · exact fld_writeFields_hw hnd (by decide) rfl i _ s
  · exact Kept.writeFields_hw FE_ROUTE0.fields i v.toNat s
  · exact writeFields_frame .hw _ _ _ s

/-! ### Test injections (R71) -/

theorem exec_testArm_hw {s : State} (h : s.canVote = true) (v : Word) :
    exec (.testArm .hw v) s = .next (feTest .hw (s.fld FE_SYSSEL.SYS 11) (putBit v.toNat 24 true) s) := asReq_hw h _

/-- Above FE_TEST's other fields, ARM alone sees the bit that arms. -/
theorem feTest_of_armed (v : Nat) : FE_TEST.AMPL.of (putBit v 24 true) = v % 2 ^ 8 ∧ FE_TEST.DUR.of (putBit v 24 true) = v / 2 ^ 16 % 2 ^ 8
    ∧ FE_TEST.ARM.of (putBit v 24 true) = 1 := by
  simp only [Field.of, bitsOf, FE_TEST.AMPL, FE_TEST.DUR, FE_TEST.ARM]
  obtain ⟨hb, hp⟩ | ⟨hb, hp⟩ := putBit_true_cases v 24
  · rw [hp]
    omega
  · rw [hp]
    omega

/-- FE_TEST with a duration is armed with its amplitude and duration. -/
theorem testArm_takes {s : State} (hv : s.canVote = true) {v : Word} (h : v.toNat / 2 ^ 16 % 2 ^ 8 ≠ 0) :
    let i := s.fld FE_SYSSEL.SYS 11
    ∃ t, exec (.testArm .hw v) s = .next t ∧ t.fld FE_TEST.ARM i = 1 ∧ t.fld FE_TEST.AMPL i = v.toNat % 2 ^ 8
      ∧ t.fld FE_TEST.DUR i = v.toNat / 2 ^ 16 % 2 ^ 8
      ∧ Kept [FE_TEST.AMPL.key i, FE_TEST.DUR.key i, FE_TEST.ARM.key i, FE_TEST.SKIP.key i] s t ∧ t = { s with regs := t.regs } := by
  intro i
  obtain ⟨hampl, hdur, harm⟩ := feTest_of_armed v.toNat
  have ht : feTest .hw i (putBit v.toNat 24 true) s = writeFields .hw FE_TEST.fields i (putBit v.toNat 24 true) s := by
    unfold feTest
    rw [hdur, if_neg (by simpa using fun _ => h)]
  have hnd : (FE_TEST.fields.map (fun g => g.key 0)).Nodup := by decide
  refine ⟨_, (exec_testArm_hw hv v).trans (congrArg _ ht), ?_, ?_, ?_, ?_, ?_⟩
  · exact (fld_writeFields_hw hnd (by decide) rfl i _ s).trans harm
  · exact (fld_writeFields_hw hnd (by decide) rfl i _ s).trans hampl
  · exact (fld_writeFields_hw hnd (by decide) rfl i _ s).trans hdur
  · exact Kept.writeFields_hw FE_TEST.fields i _ s
  · exact writeFields_frame .hw _ _ _ s

/-! ### Gain (R76) -/

theorem exec_gainRequest_hw {s : State} (h : s.canVote = true) (v : Word) :
    exec (.gainRequest .hw v) s = .next (feGain .hw (s.fld FE_SYSSEL.SYS 11) v.toNat s) := asReq_hw h _

/-- A request for a range that is not in force is pending after it, newly or still; the range in force stays. -/
theorem requestRange_pends {s : State} {i r : Nat} (hr : r < 4) (h : r ≠ s.fld FE_GAIN.RANGE i) :
    (requestRange i r s).fld FE_GAIN.PEND i = 1 ∧ (requestRange i r s).fld FE_GAIN.PRANGE i = r
      ∧ Kept [FE_GAIN.PEND.key i, FE_GAIN.PRANGE.key i] s (requestRange i r s) := by
  unfold requestRange
  rw [if_neg h]
  split
  · rename_i hp
    simp only [Bool.and_eq_true, State.isSet, beq_iff_eq] at hp
    exact ⟨hp.1, hp.2, Kept.refl _ _⟩
  · refine ⟨?_, ?_, ?_⟩
    · exact (State.fld_setFld_ne _ _ (Field.key_ne_of_zero (by decide) i)).trans
        (State.fld_setFld_self _ _ _ _)
    · exact (State.fld_setFld_self _ _ _ _).trans (Nat.mod_eq_of_lt hr)
    · exact ((Kept.setFld s FE_GAIN.PEND i 1).mono (by simp)).trans
        ((Kept.setFld (s.setFld FE_GAIN.PEND i 1) FE_GAIN.PRANGE i r).mono (by simp))

/-- FE_GAIN with AUTO clear asks for FIX; RANGE stays as it is. -/
theorem gainRequest_takes {s : State} (hv : s.canVote = true) {v : Word} (hauto : v.toNat % 2 = 0)
    (h : v.toNat / 2 % 4 ≠ s.fld FE_GAIN.RANGE (s.fld FE_SYSSEL.SYS 11)) :
    let i := s.fld FE_SYSSEL.SYS 11
    ∃ t, exec (.gainRequest .hw v) s = .next t ∧ t.fld FE_GAIN.AUTO i = 0 ∧ t.fld FE_GAIN.FIX i = v.toNat / 2 % 4
      ∧ t.fld FE_GAIN.PEND i = 1 ∧ t.fld FE_GAIN.PRANGE i = v.toNat / 2 % 4 ∧ t.fld FE_GAIN.RANGE i = s.fld FE_GAIN.RANGE i
      ∧ Kept [FE_GAIN.AUTO.key i, FE_GAIN.FIX.key i, FE_GAIN.PEND.key i, FE_GAIN.PRANGE.key i] s t := by
  intro i
  have hfix : FE_GAIN.FIX.of v.toNat = v.toNat / 2 % 4 := rfl
  have hzero : FE_GAIN.AUTO.of v.toNat = 0 := (Field.of_low rfl _).trans hauto
  have hnd : (FE_GAIN.fields.map (fun g => g.key 0)).Nodup := by decide
  have hw : Kept [FE_GAIN.AUTO.key i, FE_GAIN.FIX.key i] s (writeFields .hw FE_GAIN.fields i v.toNat s) :=
    Kept.writeFields_hw FE_GAIN.fields i v.toNat s
  have hg : feGain .hw i v.toNat s
      = requestRange i (v.toNat / 2 % 4) (writeFields .hw FE_GAIN.fields i v.toNat s) := by simp [feGain, Req.voted, hzero, hfix]
  have hrange : (writeFields .hw FE_GAIN.fields i v.toNat s).fld FE_GAIN.RANGE i = s.fld FE_GAIN.RANGE i :=
    hw _ i (by simp [Field.key_ne_of_zero (show FE_GAIN.RANGE.key 0 ≠ FE_GAIN.AUTO.key 0 by decide),
      Field.key_ne_of_zero (show FE_GAIN.RANGE.key 0 ≠ FE_GAIN.FIX.key 0 by decide)])
  obtain ⟨hpend, hprange, hkept⟩ := requestRange_pends (Nat.mod_lt _ (by decide)) (hrange ▸ h)
  have hkeep : ∀ f : Field, f.key 0 ≠ FE_GAIN.PEND.key 0 → f.key 0 ≠ FE_GAIN.PRANGE.key 0 →
      (requestRange i (v.toNat / 2 % 4) (writeFields .hw FE_GAIN.fields i v.toNat s)).fld f i
        = (writeFields .hw FE_GAIN.fields i v.toNat s).fld f i := fun f h1 h2 =>
    hkept f i (by simp [Field.key_ne_of_zero h1, Field.key_ne_of_zero h2])
  refine ⟨_, (exec_gainRequest_hw hv v).trans (congrArg _ hg), ?_, ?_, hpend, hprange, ?_, ?_⟩
  · exact (hkeep _ (by decide) (by decide)).trans ((fld_writeFields_hw hnd (by decide) rfl i _ s).trans hzero)
  · exact (hkeep _ (by decide) (by decide)).trans ((fld_writeFields_hw hnd (by decide) rfl i _ s).trans hfix)
  · exact (hkeep _ (by decide) (by decide)).trans hrange
  · exact (hw.mono (by simp +contextual)).trans (hkept.mono (by simp +contextual))

/-! ### FE_CTRL (R74, Table FE-4) -/

theorem exec_feCtrlWrite_hw {s : State} (h : s.canVote = true) (v : Word) :
    exec (.feCtrlWrite .hw v) s = .next (feCtrl .hw v.toNat s) := asReq_hw h _

/-- The notch combinations of Table FE-4, with the averaging window each belongs to. -/
def notchPairs : List (Nat × Nat) := [(0, 0), (2, 0), (0, 1), (1, 1), (2, 1), (3, 1), (0, 2), (2, 2), (4, 2), (6, 2), (0, 3),
  (1, 3), (2, 3), (3, 3), (4, 3), (5, 3), (6, 3), (7, 3)]

theorem notchOk_iff {notch auxt : Nat} (hn : notch < 8) (ha : auxt < 4) : notchOk auxt notch = true ↔ (notch, auxt) ∈ notchPairs := by
  have hall : ∀ n < 8, ∀ a < 4, notchOk a n = true ↔ (n, a) ∈ notchPairs := by decide
  exact hall notch hn auxt ha

/-- FE_CTRL refuses a notch combination outside Table FE-4 and a MUXSET outside 2 to 12. -/
theorem feCtrl_refused {v : Nat} (h : (v / 2 % 8, v / 2 ^ 4 % 4) ∉ notchPairs ∨ v / 2 ^ 8 % 16 < 2 ∨ 12 < v / 2 ^ 8 % 16) (s : State) :
    feCtrl .hw v s = s.flag FE_STATUS.CFGERR evFE := by
  rw [← notchOk_iff (Nat.mod_lt _ (by decide)) (Nat.mod_lt _ (by decide)), Bool.not_eq_true] at h
  unfold feCtrl
  refine (if_neg (by decide)).trans (if_pos ?_)
  simp only [Bool.or_eq_true, Bool.not_eq_true', decide_eq_true_eq, or_assoc]
  exact h

/-- FE_CTRL takes the other values: whatever settling delays and comparators follow them, its page keeps what was written. -/
theorem feCtrl_taken_front {v : Nat} (hp : (v / 2 % 8, v / 2 ^ 4 % 4) ∈ notchPairs) (h2 : 2 ≤ v / 2 ^ 8 % 16) (h12 : v / 2 ^ 8 % 16 ≤ 12)
    (s : State) : (feCtrl .hw v s).front = (writeFields .hw FE_CTRL.fields 0 v s).front := by
  have hn : notchOk (FE_CTRL.AUXT.of v) (FE_CTRL.NOTCH.of v) = true :=
    (notchOk_iff (Nat.mod_lt _ (by decide)) (Nat.mod_lt _ (by decide))).2 hp
  have hm : FE_CTRL.MUXSET.of v = v / 2 ^ 8 % 16 := rfl
  have hsettle : ∀ (c : Bool) (l : List Nat) (t : State), (onlyIf c (forEach l startSettle) t).front = t.front := fun c l t =>
    State.front_onlyIf (fun u => State.front_forEach startSettle_front u) t
  unfold feCtrl
  rw [if_neg (by decide)]
  dsimp only
  rw [hn, hm, if_neg (by simp; omega), State.front_forEach refreshCmp_front, hsettle]

theorem feCtrlWrite_takes {s : State} (hv : s.canVote = true) {v : Word} (hp : (v.toNat / 2 % 8, v.toNat / 2 ^ 4 % 4) ∈ notchPairs)
    (h2 : 2 ≤ v.toNat / 2 ^ 8 % 16) (h12 : v.toNat / 2 ^ 8 % 16 ≤ 12) :
    ∃ t, exec (.feCtrlWrite .hw v) s = .next t ∧ t.fld FE_CTRL.RUN = v.toNat % 2 ∧ t.fld FE_CTRL.NOTCH = v.toNat / 2 % 8
      ∧ t.fld FE_CTRL.AUXT = v.toNat / 2 ^ 4 % 4 ∧ t.fld FE_CTRL.MUXSET = v.toNat / 2 ^ 8 % 16 := by
  have hnd : (FE_CTRL.fields.map (fun g => g.key 0)).Nodup := by decide
  have hread : ∀ f ∈ FE_CTRL.fields, (feCtrl .hw v.toNat s).fld f = f.of v.toNat := by
    intro f hf
    obtain ⟨hpage, hlo, ht⟩ : f.addr / 4096 = 1 ∧ f.lo < 32 ∧ f.takes .hw = true := by
      revert f
      decide
    rw [← State.front_eq _ hpage hlo, feCtrl_taken_front hp h2 h12, State.front_eq _ hpage hlo]
    exact fld_writeFields_hw hnd hf ht 0 _ s
  refine ⟨_, exec_feCtrlWrite_hw hv v, ?_, ?_, ?_, ?_⟩
  · exact (hread _ (by decide)).trans (Field.of_low rfl _)
  · exact hread _ (by decide)
  · exact hread _ (by decide)
  · exact hread _ (by decide)

/-! ### FE_HOLD, a register of VW fields (R15) -/

theorem writeReg0_feHold (q : Req) (v : Nat) (s : State) :
    writeReg0 q 0x110C v s = writeFields q FE_HOLD.fields (s.fld FE_SYSSEL.SYS q.bank) v s := rfl

theorem feHold_takes {s : State} (hv : s.canVote = true) (v : Word) :
    let i := s.fld FE_SYSSEL.SYS 11
    ∃ t, exec (.registerWrite .hw 0x110C#16 v) s = .next t
      ∧ t.fld FE_HOLD.HOLD i = v.toNat % 2 ^ 9 ∧ t.fld FE_HOLD.FLOOR i = v.toNat / 2 ^ 16 % 2 ^ 9
      ∧ Kept [FE_HOLD.HOLD.key i, FE_HOLD.FLOOR.key i] s t ∧ t = { s with regs := t.regs } := by
  intro i
  have hnd : (FE_HOLD.fields.map (fun g => g.key 0)).Nodup := by decide
  refine ⟨_, (exec_registerWrite_of_lands v (State.lands_hw hv) (by decide)).trans (congrArg _ (writeReg0_feHold .hw v.toNat s)),
    ?_, ?_, ?_, ?_⟩
  · exact (fld_writeFields_hw hnd (by decide) rfl i _ s).trans (Field.of_low rfl _)
  · exact fld_writeFields_hw hnd (by decide) rfl i _ s
  · exact Kept.writeFields_hw FE_HOLD.fields i _ s
  · exact writeFields_frame .hw _ _ _ s

/-- A write of VW fields without the voted flag leaves them, and counts as rejected when it would have changed one. -/
theorem writeFields_unvoted {q : Req} (hq : q.voted = false) {fs : List Field} (hfs : ∀ f ∈ fs, f.acc = .vw) (i v : Nat) (s : State) :
    writeFields q fs i v s = if ∀ f ∈ fs, s.fld f i = f.of v then s else s.reject q := by
  have hc : s.countsRejected q fs i v = true ↔ ∃ f ∈ fs, s.fld f i ≠ f.of v := by
    simp only [State.countsRejected, hq, Bool.not_false, Bool.true_and, List.any_eq_true]
    exact exists_congr (fun f => and_congr_right (fun hf => by simp [hfs f hf]))
  unfold writeFields
  dsimp only
  rw [forEach_writeField_of_unvoted hq i v hfs]
  split
  · rename_i h
    have hno : s.countsRejected q fs i v = false := Bool.eq_false_iff.2 (fun hr => by
      obtain ⟨f, hf, hn⟩ := hc.1 hr
      exact hn (h f hf))
    rw [hno, onlyIf_false]
  · rename_i h
    rw [hc.2 (by simpa using h), onlyIf_true]

/-- A write of FE_HOLD by the Root engine leaves it, and counts as rejected when it would have changed it. -/
theorem feHold_root {s : State} (harb : s.arbHolds .root = false) (v : Word) :
    let j := s.fld FE_SYSSEL.SYS 4
    let same := s.fld FE_HOLD.HOLD j = v.toNat % 2 ^ 9 ∧ s.fld FE_HOLD.FLOOR j = v.toNat / 2 ^ 16 % 2 ^ 9
    ∃ t, exec (.registerWrite .root 0x110C#16 v) s = .next t
      ∧ Kept [MI_ILONG.REJ.key (s.input .root)] s t ∧ t = { s with regs := t.regs }
      ∧ (same → t.regs = s.regs)
      ∧ (¬ same → t.fld MI_ILONG.REJ (s.input .root) = min (2 ^ 16 - 1) (s.fld MI_ILONG.REJ (s.input .root) + 1)) := by
  intro j same
  have hsame : (∀ f ∈ FE_HOLD.fields, s.fld f j = f.of v.toNat) ↔ same := by
    have hhold : FE_HOLD.HOLD.of v.toNat = v.toNat % 2 ^ 9 := Field.of_low rfl _
    have hfloor : FE_HOLD.FLOOR.of v.toNat = v.toNat / 2 ^ 16 % 2 ^ 9 := rfl
    simp only [FE_HOLD, List.forall_mem_cons, hhold, hfloor, same]
    simp
  have hlands : s.lands .root := .inr ⟨.inl rfl, harb⟩
  have hw : writeReg0 .root 0x110C v.toNat s = if same then s else s.reject .root := by
    rw [writeReg0_feHold, writeFields_unvoted rfl (by decide)]
    exact if_congr hsame rfl rfl
  refine ⟨_, (exec_registerWrite_of_lands v hlands (by decide)).trans (congrArg _ hw), ?_⟩
  by_cases h : same
  · rw [if_pos h]
    exact ⟨Kept.refl _ _, rfl, fun _ => rfl, fun hn => absurd h hn⟩
  · rw [if_neg h]
    exact ⟨Kept.reject s .root, State.reject_frame s .root, fun hs => absurd hs h, fun _ => State.fld_reject s .root⟩

/-! ### The front end's registers together -/

theorem exec_retirementRequest_beyond {s : State} (hv : s.canVote = true) {v : Word} (h : 71 < v.toNat % 2 ^ 7) :
    exec (.retirementRequest .hw v) s = .next (s.flag FE_STATUS.CFGERR evFE) := by
  have hof : FE_RETIRE.SLICE.of v.toNat = v.toNat % 2 ^ 7 := Field.of_low rfl _
  refine (asReq_hw hv _).trans (congrArg _ ?_)
  unfold feRetire
  rw [if_neg (by decide), hof]
  exact if_pos h

theorem exec_diagnosticRequest_second {s : State} (hv : s.canVote = true) (v : Word)
    (h : (s.sys (s.fld FE_SYSSEL.SYS 11)).diag.isSome = true) :
    exec (.diagnosticRequest .hw v) s = .next (s.flag FE_STATUS.DIAGREJ evFE) := by
  refine (asReq_hw hv _).trans (congrArg _ ?_)
  unfold feDiag
  refine (if_neg (by decide)).trans (if_pos ?_)
  have hd : (s.sys (s.selSys .hw)).diag.isSome = true := h
  simp [hd]

/-- Settles O9, register by register. -/
theorem frontEndRegistersTakeOrRefuseWrites : Obligations.FrontEndRegistersTakeOrRefuseWrites := by
  unfold Obligations.FrontEndRegistersTakeOrRefuseWrites
  refine ⟨fun s v hi hv => ⟨fun hon => ?_, exec_retirementRequest_beyond hv, exec_diagnosticRequest_second hv v, fun hm => ?_⟩,
    fun s v hv => ⟨fun hmode hexc hdue hstaged => ?_, testArm_takes hv, gainRequest_takes hv⟩, fun s v hv => ⟨fun hok => ?_, fun hbad => ?_⟩,
    fun s v => ⟨fun hv => feHold_takes hv v, fun harb => feHold_root harb v⟩⟩
  · exact (exec_routeWrite_hw hv hi v).trans (congrArg _ (feRoute_notOff ((State.notOff_iff s _).2 hon) hi v.toNat))
  · exact (exec_feCtrlWrite_hw hv v).trans (congrArg _ (feCtrl_refused (.inr hm) s))
  · refine routeWrite_takes hv (Bool.eq_false_iff.2 (fun hon => ?_)) v
    obtain h | h | ⟨e, he, h⟩ | ⟨e, he, h⟩ := (State.notOff_iff s _).1 hon
    · exact h hmode
    · exact h hexc
    · exact h (hdue e he)
    · exact h (hstaged e he)
  · obtain ⟨h2, h12, hp⟩ := hok
    exact feCtrlWrite_takes hv hp h2 h12
  · exact (exec_feCtrlWrite_hw hv v).trans (congrArg _ (feCtrl_refused (.inl hbad) s))

end Sys2Proof.Machine
end

section
namespace Sys2Proof.Machine

/-- A byte of a Heartwood RAM copy that nothing has written reads 0. -/
theorem memInit_hwram {a : Nat} (h : a < 2 ^ 32) : memInit (memKey 1 a) = 0#8 := by
  unfold memInit memKey
  rw [if_neg (by omega), if_neg (by omega), if_neg (by omega)]

/-- A byte of the mirror memory that nothing has written reads ones. -/
theorem memInit_mirror {a : Nat} (h : a < 0x4000) : memInit (memKey 11 a) = 0xFF#8 := by
  unfold memInit memKey
  rw [if_neg (by omega), if_neg (by omega), if_pos (by omega)]

/-- Settles O2: the reset state lists no field, engine, output or byte, so each reads as unlisted. -/
theorem resetStateIsAsSpecified : Obligations.ResetStateIsAsSpecified := by
  unfold Obligations.ResetStateIsAsSpecified
  exact ⟨fun _ _ => rfl, fun _ => ⟨rfl, rfl, rfl⟩, rfl, rfl, rfl, fun _ => rfl, rfl, fun _ h => memInit_hwram h,
    fun _ h => memInit_mirror h, rfl, rfl, rfl, rfl, rfl⟩

end Sys2Proof.Machine
end

section
/-!
PROOFS. What the work of a cycle boundary leaves alone: a frame lemma `X_steady` for each function that
`homeBoundary` runs.
-/
namespace Sys2Proof.Machine

/-- What the work of a boundary leaves alone: time base, network time, cycle count, earliest coming boundary, queue of
commands, requested reset. -/
def State.steady (s : State) : Nat × BitVec 64 × Nat × Nat × List Instr × Option (Nat × Nat) :=
  (s.tb, s.now, s.cycle, s.cycNext, s.pending, s.keeper.resetReq)

@[simp] theorem steady_forEach {α : Type} {l : List α} {f : α → State → State} (hf : ∀ x t, (f x t).steady = t.steady)
    (s : State) : (forEach l f s).steady = s.steady := forEach_frame l (fun x _ => hf x) s

@[simp] theorem steady_onlyIf {c : Bool} {f : State → State} (hf : ∀ t, (f t).steady = t.steady) (s : State) :
    (onlyIf c f s).steady = s.steady := onlyIf_frame c hf s

@[simp] theorem steady_modKeeper {f : Keeper → Keeper} (hf : ∀ k, (f k).resetReq = k.resetReq) (s : State) :
    (s.modKeeper f).steady = s.steady := by
  simp [State.steady, hf]

theorem steady_ite {c : Prop} [Decidable c] {s t u : State} (ht : t.steady = s.steady) (hu : u.steady = s.steady) :
    (if c then t else u).steady = s.steady := by
  split
  · exact ht
  · exact hu

/-- A fold over a result and a state, as a memory span is read or written. -/
theorem steady_foldl {α : Type} {f : Bool × State → α → Bool × State} (hf : ∀ r x, (f r x).2.steady = r.2.steady)
    (l : List α) (r : Bool × State) : (l.foldl f r).2.steady = r.2.steady := by
  induction l generalizing r with
  | nil => rfl
  | cons x l ih => exact (ih _).trans (hf r x)

/-! ### Registers, ports and events -/

@[simp] theorem State.modTime_steady (f : TimeSt → TimeSt) (s : State) : (State.modTime f s).steady = s.steady := by rfl

@[simp] theorem State.modPort_steady (p : Nat) (f : Port → Port) (s : State) : (State.modPort p f s).steady = s.steady := by rfl

@[simp] theorem enqueue_steady (p e : Nat) (s : State) : (enqueue p e s).steady = s.steady := by rfl

@[simp] theorem State.setFld_steady (f : Field) (i v : Nat) (s : State) : (State.setFld f i v s).steady = s.steady := by rfl

@[simp] theorem State.putFbit_steady (f : Field) (i b : Nat) (v : Bool) (s : State) : (State.putFbit f i b v s).steady = s.steady := by rfl

@[simp] theorem pushDevice_steady (e cause p : Nat) (s : State) : (pushDevice e cause p s).steady = s.steady := by
  unfold pushDevice
  split <;> simp

@[simp] theorem hostDevice_steady (cause head : Nat) (s : State) : (hostDevice cause head s).steady = s.steady := by
  simp [hostDevice]

@[simp] theorem State.modEng_steady (i : Nat) (f : Engine → Engine) (s : State) : (State.modEng i f s).steady = s.steady := by rfl

@[simp] theorem State.pendEng_steady (i e : Nat) (s : State) : (State.pendEng i e s).steady = s.steady := by rfl

@[simp] theorem State.modCore_steady (c : Nat) (f : Core → Core) (s : State) : (State.modCore c f s).steady = s.steady := by rfl

@[simp] theorem State.toHeart_steady (g : Sig) (s : State) : (State.toHeart g s).steady = s.steady := by
  unfold State.toHeart
  dsimp only
  (repeat' split) <;> simp

@[simp] theorem State.raise_steady (e : Nat) (s : State) : (State.raise e s).steady = s.steady := by
  simp [State.raise]

@[simp] theorem State.flag_steady (f : Field) (e : Nat) (s : State) : (State.flag f e s).steady = s.steady := by
  simp [State.flag]

/-! ### The time unit -/

@[simp] theorem setEpoch_steady (d : Int) (e : Nat) (s : State) : (setEpoch d e s).steady = s.steady := by
  unfold setEpoch
  split <;> simp

@[simp] theorem labelEpoch_steady (e : Nat) (s : State) : (labelEpoch e s).steady = s.steady := by
  unfold labelEpoch
  split <;> simp

@[simp] theorem refreshTq_steady (s : State) : (refreshTq s).steady = s.steady := by
  unfold refreshTq
  dsimp only
  (repeat' split) <;> simp

theorem timeBoundary_steady {s : State} (hs : s.time.stepDue = false) (hy : s.time.yields = none) : (timeBoundary s).steady = s.steady := by
  have hyield : masterYield s = s := by simp [masterYield, hy]
  unfold timeBoundary
  dsimp only
  rw [hyield, hs, onlyIf_false]
  refine (refreshTq_steady _).trans ((State.modTime_steady _ _).trans (steady_ite (labelEpoch_steady _ s) (steady_ite ?_ rfl)))
  exact (State.setFld_steady _ _ _ _).trans (labelEpoch_steady _ s)

/-! ### The rings -/

@[simp] theorem State.modRing_steady (r : Nat) (f : RingSt → RingSt) (s : State) : (State.modRing r f s).steady = s.steady := by rfl

@[simp] theorem setNode_steady (r v : Nat) (s : State) : (setNode r v s).steady = s.steady := by
  unfold setNode
  dsimp only
  split
  · rfl
  · split
    · split
      · refine Eq.trans (b := (State.setFld GR_STATUS.LEARN 0 1 _).steady) rfl ?_
        simp
      · simp
    · simp

@[simp] theorem remeasure_steady (s : State) : (remeasure s).steady = s.steady := by
  simp [remeasure]

@[simp] theorem State.countFld_steady (f : Field) (i n : Nat) (s : State) : (State.countFld f i n s).steady = s.steady := by rfl

@[simp] theorem setSt_steady (c v : Nat) (s : State) : (setSt c v s).steady = s.steady := by rfl

@[simp] theorem dropHeld_steady (s : State) : (dropHeld s).steady = s.steady := by
  simp [dropHeld]

@[simp] theorem enterTq_steady (q : Nat) (s : State) : (enterTq q s).steady = s.steady := by
  unfold enterTq
  dsimp only
  (repeat' split) <;> simp

@[simp] theorem reroute_steady (s : State) : (reroute s).steady = s.steady := by
  unfold reroute
  dsimp only
  split <;> simp

@[simp] theorem ringBoundary_steady (r b : Nat) (s : State) : (ringBoundary r b s).steady = s.steady := by
  have hset : (s.setFld (nsCyc r) 0 (s.cycOf r b)).steady = s.steady := State.setFld_steady _ _ _ s
  unfold ringBoundary
  dsimp only
  split
  · exact hset
  · refine steady_ite (steady_ite ((reroute_steady _).trans ((State.setFld_steady _ _ _ _).trans ((State.modRing_steady _ _ _).trans ?_)))
      ((State.setFld_steady _ _ _ _).trans ((State.modRing_steady _ _ _).trans ?_))) ?_
    all_goals
      exact steady_ite ((setNode_steady _ _ _).trans ((State.modRing_steady _ _ _).trans hset))
        (steady_ite ((setNode_steady _ _ _).trans ((State.modRing_steady _ _ _).trans hset)) ((State.modRing_steady _ _ _).trans hset))

/-! ### The Heartwood, its cores and the vital outputs -/

@[simp] theorem State.modHeart_steady (f : Heart → Heart) (s : State) : (State.modHeart f s).steady = s.steady := by rfl

@[simp] theorem copyRam_steady (a b : Nat) (s : State) : (copyRam a b s).steady = s.steady := by rfl

@[simp] theorem retireCore_steady (c : Nat) (stfail : Bool) (s : State) : (retireCore c stfail s).steady = s.steady := by
  simp [retireCore]

@[simp] theorem votedHandover_steady (pass : Bool) (s : State) : (votedHandover pass s).steady = s.steady := by
  unfold votedHandover
  refine (hostDevice_steady _ _ _).trans ((State.flag_steady _ _ _).trans ((steady_modKeeper (fun _ => rfl) _).trans ?_))
  refine (State.setFld_steady _ _ _ _).trans ((State.modHeart_steady _ _).trans ((State.setFld_steady _ _ _ _).trans ?_))
  refine (State.setFld_steady _ _ _ _).trans ((steady_forEach (fun c t => State.modCore_steady c _ t) _).trans (steady_ite ?_ ?_))
  · simp
  · simp

@[simp] theorem traceHap_steady (kind : Nat) (s : State) : (traceHap kind s).steady = s.steady := by
  rw [traceHap_frame]
  rfl

@[simp] theorem reachIndex_steady (c d : Nat) (s : State) : (reachIndex c d s).steady = s.steady := by
  simp [reachIndex]

@[simp] theorem haltEngine_steady (i : Nat) (s : State) : (haltEngine i s).steady = s.steady := by
  unfold haltEngine
  split
  · split <;> simp
  · simp
  · rfl

@[simp] theorem noteClose_steady (c : Nat) (why : CloseWhy) (s : State) : (noteClose c why s).steady = s.steady := by
  unfold noteClose
  split
  · split <;> simp
  · rfl

@[simp] theorem recordMis_steady (kind core addr : Nat) (inj : Bool) (s : State) :
    (recordMis kind core addr inj s).steady = s.steady := by rfl

@[simp] theorem dropCore_steady (c : Nat) (s : State) : (dropCore c s).steady = s.steady := by rfl

@[simp] theorem safeTransmit_steady (s : State) : (safeTransmit s).steady = s.steady := by rfl

@[simp] theorem safeLaunches_steady (s : State) : (safeLaunches s).steady = s.steady := by
  simp [safeLaunches]

@[simp] theorem State.modVo_steady (n : Nat) (f : VoSt → VoSt) (s : State) : (State.modVo n f s).steady = s.steady := by rfl

@[simp] theorem refreshVos_steady (s : State) : (refreshVos s).steady = s.steady := by rfl

@[simp] theorem safeOutputs_steady (s : State) : (safeOutputs s).steady = s.steady := by
  simp [safeOutputs]

@[simp] theorem safeState_steady (kind addr : Nat) (s : State) : (safeState kind addr s).steady = s.steady := by
  unfold safeState
  split <;> simp

@[simp] theorem settlePair_steady (get : Core → Option MarkSig) (clr : Core → Core) (s : State) :
    (settlePair get clr s).steady = s.steady := by
  unfold settlePair
  dsimp only
  (repeat' split) <;> simp

@[simp] theorem showFences_steady (c : Nat) (s : State) : (showFences c s).steady = s.steady := by rfl

@[simp] theorem fence_steady (c kind addr : Nat) (inj : Bool) (s : State) : (fence c kind addr inj s).steady = s.steady := by
  simp [fence]

@[simp] theorem oddCore_steady (c kind addr : Nat) (inj : Bool) (s : State) : (oddCore c kind addr inj s).steady = s.steady := by
  unfold oddCore
  split <;> simp

@[simp] theorem passProof_steady (c : Nat) (s : State) : (passProof c s).steady = s.steady := by rfl

@[simp] theorem closeGroup_steady (c : Nat) (why : CloseWhy) (s : State) : (closeGroup c why s).steady = s.steady := by
  unfold closeGroup
  dsimp only
  (repeat' split) <;> simp

@[simp] theorem sweepCompare_steady (l : List (Nat × MarkSig)) (s : State) : (sweepCompare l s).steady = s.steady := by
  unfold sweepCompare
  dsimp only
  (repeat' split) <;> simp

@[simp] theorem rejoin_steady (a c : Nat) (s : State) : (rejoin a c s).steady = s.steady := by
  unfold rejoin
  dsimp only
  (repeat' split) <;> simp

@[simp] theorem splitHandover_steady (s : State) : (splitHandover s).steady = s.steady := by
  have hpend : ∀ (c : Nat) (l : List (Sig × Nat)) (t : State), (forEach l (fun p u => match p.1 with
      | .event e => u.pendEng c e
      | _ => u) t).steady = t.steady := by
    intro c l t
    refine steady_forEach (fun p u => ?_) t
    split <;> simp
  unfold splitHandover
  refine (hostDevice_steady _ _ _).trans ((State.flag_steady _ _ _).trans ((State.modHeart_steady _ _).trans ?_))
  refine (State.setFld_steady _ _ _ _).trans ((steady_forEach dropCore_steady _).trans ?_)
  exact (hpend _ _ _).trans ((hpend _ _ _).trans ((State.modEng_steady _ _ _).trans (State.setFld_steady _ _ _ _)))

@[simp] theorem markComplete_steady (d : Nat) (s : State) : (markComplete d s).steady = s.steady := by
  unfold markComplete
  dsimp only
  (repeat' split) <;> simp

@[simp] theorem takeMark_steady (c d : Nat) (s : State) : (takeMark c d s).steady = s.steady := by
  unfold takeMark
  dsimp only
  split <;> simp

@[simp] theorem sweepComplete_steady (s : State) : (sweepComplete s).steady = s.steady := by
  unfold sweepComplete
  dsimp only
  split <;> simp

@[simp] theorem takeSweep_steady (c d : Nat) (s : State) : (takeSweep c d s).steady = s.steady := by
  unfold takeSweep
  dsimp only
  split <;> simp

@[simp] theorem takeSignal_steady (c : Nat) (s : State) : (takeSignal c s).steady = s.steady := by
  unfold takeSignal
  dsimp only
  (repeat' split) <;> simp

@[simp] theorem heartBoundary_steady (s : State) : (heartBoundary s).steady = s.steady := by
  have hfirst : (match s.heart.modeNext with
      | some m => hostDevice 4 0 ((s.setFld ID_BOOT.HWMODE 0 m).modHeart (fun h => { h with modeNext := none }))
      | none => s).steady = s.steady := by
    split <;> simp
  unfold heartBoundary
  refine steady_ite ?_ (steady_ite ((State.modHeart_steady _ _).trans hfirst) ?_)
  · have hstep := (steady_forEach (l := [0, 1]) (fun c t => State.modEng_steady c (fun e => { e with step := 0#32, budgeted := false }) t)
      _).trans hfirst
    dsimp only
    split
    · exact steady_ite ((votedHandover_steady _ _).trans hstep) hstep
    · exact hstep
  · refine (steady_forEach (fun c t => steady_ite (takeSignal_steady c t) rfl) _).trans ?_
    exact (State.toHeart_steady _ _).trans hfirst

@[simp] theorem voBoundary_steady (t len : Nat) (s : State) : (voBoundary t len s).steady = s.steady := by
  simp [voBoundary]

/-! ### Memory and the mirror -/

@[simp] theorem State.setBad_steady (k n : Nat) (s : State) : (State.setBad k n s).steady = s.steady := by rfl

@[simp] theorem State.wrL_steady (k : Nat) (l : List Byte) (s : State) : (State.wrL k l s).steady = s.steady := by
  rw [State.wrL_frame]
  rfl

@[simp] theorem State.correct_steady (k : Nat) (s : State) : (State.correct k s).steady = s.steady := by
  simp [State.correct]

@[simp] theorem State.recordUe_steady (inp k : Nat) (write : Bool) (s : State) : (State.recordUe inp k write s).steady = s.steady := by
  simp [State.recordUe]

@[simp] theorem State.mergeBlock_steady (inp k : Nat) (s : State) : (State.mergeBlock inp k s).2.steady = s.steady := by
  unfold State.mergeBlock
  split <;> simp

@[simp] theorem writePart_steady (inp k : Nat) (l : List Byte) (a : Nat) (s : State) : (writePart inp k l a s).2.steady = s.steady := by
  unfold writePart
  dsimp only
  (repeat' split) <;> simp

@[simp] theorem writeSpan_steady (inp k : Nat) (l : List Byte) (s : State) : (writeSpan inp k l s).2.steady = s.steady := by
  unfold writeSpan
  refine steady_foldl (fun r j => ?_) _ _
  exact writePart_steady _ _ _ _ r.2

@[simp] theorem votedWr_steady (k n v : Nat) (s : State) : (votedWr k n v s).steady = s.steady := by
  simp [votedWr]

@[simp] theorem setOwner_steady (e node : Nat) (ring bob : Nat) (mig : Bool) (s : State) :
    (setOwner e node ring bob mig s).steady = s.steady := by
  simp [setOwner]

@[simp] theorem applyMove_steady (m : MoveSt) (s : State) : (applyMove m s).steady = s.steady := by
  unfold applyMove
  split
  · rfl
  · exact setOwner_steady _ _ _ _ _ s

@[simp] theorem mirrorWrite_steady (x v : Nat) (s : State) : (mirrorWrite x v s).steady = s.steady := by
  unfold mirrorWrite
  dsimp only
  split <;> simp

@[simp] theorem openMirror_steady (s : State) : (openMirror s).steady = s.steady := by
  simp [openMirror]

@[simp] theorem endSwitch_steady (e : Nat) (s : State) : (endSwitch e s).steady = s.steady := by rfl

@[simp] theorem State.readBlock_steady (inp k : Nat) (s : State) : (State.readBlock inp k s).2.steady = s.steady := by
  unfold State.readBlock
  split <;> simp

@[simp] theorem readSpan_steady (inp k n : Nat) (s : State) : (readSpan inp k n s).2.steady = s.steady := by
  unfold readSpan
  refine steady_foldl (fun r j => ?_) _ _
  exact State.readBlock_steady _ _ r.2

@[simp] theorem sweepOne_steady (e : Nat) (s : State) : (sweepOne e s).steady = s.steady := by
  unfold sweepOne
  dsimp only
  (repeat' split) <;> simp

@[simp] theorem bumpMirseq_steady (s : State) : (bumpMirseq s).steady = s.steady := by
  simp [bumpMirseq]

@[simp] theorem writeSummary_steady (g : Nat) (s : State) : (writeSummary g s).steady = s.steady := by
  simp [writeSummary]

@[simp] theorem canopySweep_steady (s : State) : (canopySweep s).steady = s.steady := by
  have hdue : (forEach (s.graft.moves.filter (fun m => cycReached m.ch (s.fld CK_NODEST.CYC))) applyMove s).steady = s.steady :=
    steady_forEach applyMove_steady s
  unfold canopySweep
  dsimp only
  refine steady_ite hdue ?_
  refine (steady_onlyIf bumpMirseq_steady _).trans ((steady_forEach writeSummary_steady _).trans ?_)
  exact (steady_onlyIf openMirror_steady _).trans ((steady_forEach sweepOne_steady _).trans hdue)

/-! ### The Graft -/

@[simp] theorem State.modGraft_steady (f : GraftSt → GraftSt) (s : State) : (State.modGraft f s).steady = s.steady := by rfl

@[simp] theorem refreshCoord_steady (s : State) : (refreshCoord s).steady = s.steady := by
  unfold refreshCoord
  dsimp only
  (repeat' split) <;> simp

@[simp] theorem hear_steady (n t : Nat) (s : State) : (hear n t s).steady = s.steady := by
  simp [hear]

@[simp] theorem queueMsg_steady (r ty : Nat) (m : GMsg) (s : State) : (queueMsg r ty m s).steady = s.steady := by rfl

@[simp] theorem sendMsg_steady (ty : Nat) (dst : Option Nat) (seg sbob : Nat) (body : List Byte) (s : State) :
    (sendMsg ty dst seg sbob body s).steady = s.steady := by
  unfold sendMsg
  dsimp only
  (repeat' split) <;> simp

@[simp] theorem State.modMig_steady (x : Nat) (f : MigSt → MigSt) (s : State) : (State.modMig x f s).steady = s.steady := by rfl

@[simp] theorem digestSlot_steady (c x : Nat) (s : State) : (digestSlot c x s).steady = s.steady := by
  unfold digestSlot
  dsimp only
  (repeat' split) <;> simp

@[simp] theorem noteLoad_steady (n v : Nat) (s : State) : (noteLoad n v s).steady = s.steady := by rfl

@[simp] theorem endSearch_steady (src b : Nat) (s : State) : (endSearch src b s).steady = s.steady := by rfl

@[simp] theorem setMode_steady (b mode x : Nat) (s : State) : (setMode b mode x s).steady = s.steady := by rfl

@[simp] theorem sendOffer_steady (x : Nat) (s : State) : (sendOffer x s).steady = s.steady := by
  simp [sendOffer]

@[simp] theorem dropMsgs_steady (b : Nat) (s : State) : (dropMsgs b s).steady = s.steady := by rfl

@[simp] theorem setDirty_steady (p d : Nat) (s : State) : (setDirty p d s).steady = s.steady := by rfl

@[simp] theorem pushCommand_steady (e bob p : Nat) (s : State) : (pushCommand e bob p s).steady = s.steady := by
  unfold pushCommand
  dsimp only
  split <;> simp

@[simp] theorem hostCommand_steady (sub bob : Nat) (result tag : Nat) (s : State) :
    (hostCommand sub bob result tag s).steady = s.steady := by
  simp [hostCommand]

@[simp] theorem orderResult_steady (bob code : Nat) (result reason tag : Nat) (s : State) :
    (orderResult bob code result reason tag s).steady = s.steady := by
  simp [orderResult]

@[simp] theorem writePoint_steady (p v : Nat) (s : State) : (writePoint p v s).steady = s.steady := by
  unfold writePoint
  split <;> simp

@[simp] theorem leaveMap_steady (b : Nat) (pts : List Nat) (s : State) : (leaveMap b pts s).steady = s.steady := by
  simp [leaveMap]

@[simp] theorem checkEmpty_steady (s : State) : (checkEmpty s).steady = s.steady := by
  unfold checkEmpty
  split <;> simp

@[simp] theorem clearSlot_steady (x : Nat) (s : State) : (clearSlot x s).steady = s.steady := by rfl

@[simp] theorem endMig_steady (x result reason : Nat) (tell : Bool) (s : State) : (endMig x result reason tell s).steady = s.steady := by
  unfold endMig
  dsimp only
  (repeat' split) <;> simp

@[simp] theorem planTarget_steady (src b n : Nat) (s : State) : (planTarget src b n s).steady = s.steady := by rfl

@[simp] theorem askTarget_steady (x : Nat) (s : State) : (askTarget x s).steady = s.steady := by
  unfold askTarget
  dsimp only
  (repeat' split) <;> simp

@[simp] theorem startMig_steady (x b : Nat) (code tag : Nat) (target : Option Nat) (s : State) :
    (startMig x b code tag target s).steady = s.steady := by
  unfold startMig
  split <;> simp

@[simp] theorem evacStep_steady (s : State) : (evacStep s).steady = s.steady := by
  unfold evacStep
  split
  · rfl
  · refine steady_forEach (fun b t => ?_) s
    split <;> simp

@[simp] theorem graftBoundary_steady (c : Nat) (s : State) : (graftBoundary c s).steady = s.steady := by
  unfold graftBoundary
  dsimp only
  refine steady_ite rfl (steady_ite ?_ ((evacStep_steady _).trans ?_))
  rotate_left
  · refine (steady_ite rfl (steady_ite (noteLoad_steady _ _ _) (steady_ite (sendMsg_steady _ _ _ _ _ _) rfl))).trans ?_
    refine (State.modGraft_steady _ _).trans ((steady_ite rfl (sendMsg_steady _ _ _ _ _ _)).trans ?_)
    refine (steady_ite (sendMsg_steady _ _ _ _ _ _) rfl).trans ?_
    refine (steady_forEach (digestSlot_steady c) _).trans ((State.modGraft_steady _ _).trans ?_)
    refine (steady_ite (hear_steady _ _ _) (refreshCoord_steady _)).trans ?_
    refine (steady_ite rfl (steady_ite (State.setFld_steady _ _ _ _) (steady_ite (State.setFld_steady _ _ _ _) rfl))).trans ?_
    exact steady_ite ((State.modGraft_steady _ _).trans (State.setFld_steady _ _ _ _)) rfl
  · refine (steady_forEach (digestSlot_steady c) _).trans ((State.modGraft_steady _ _).trans ?_)
    refine (steady_ite (hear_steady _ _ _) (refreshCoord_steady _)).trans ?_
    refine (steady_ite rfl (steady_ite (State.setFld_steady _ _ _ _) (steady_ite (State.setFld_steady _ _ _ _) rfl))).trans ?_
    exact steady_ite ((State.modGraft_steady _ _).trans (State.setFld_steady _ _ _ _)) rfl

/-! ### Timers, rates and steps -/

@[simp] theorem State.modSec_steady (b : Nat) (f : SecSt → SecSt) (s : State) : (State.modSec b f s).steady = s.steady := by rfl

@[simp] theorem runTimer_steady (b n : Nat) (s : State) : (runTimer b n s).steady = s.steady := by
  unfold runTimer
  dsimp only
  split <;> simp

@[simp] theorem tickTimer_steady (b : Nat) (s : State) : (tickTimer b s).steady = s.steady := by
  unfold tickTimer
  split <;> simp

@[simp] theorem State.modPlan_steady (f : PlanSt → PlanSt) (s : State) : (State.modPlan f s).steady = s.steady := by rfl

@[simp] theorem planBoundary_steady (s : State) : (planBoundary s).steady = s.steady := by
  unfold planBoundary
  split <;> simp

@[simp] theorem rateBoundary_steady (busy : List Nat) (len : Nat) (s : State) : (rateBoundary busy len s).steady = s.steady := by
  unfold rateBoundary
  refine (planBoundary_steady _).trans ?_
  change (onlyIf _ (State.flag AG_STATUS.LOWRATE evAG) _).steady = s.steady
  refine (steady_onlyIf (State.flag_steady _ _) _).trans ((State.setFld_steady _ _ _ _).trans (steady_forEach (fun p t => ?_) s))
  exact (State.setFld_steady _ _ _ _).trans (State.setFld_steady _ _ _ t)

@[simp] theorem clearSteps_steady (s : State) : (clearSteps s).steady = s.steady := by
  simp [clearSteps]

/-! ### Claims and the origin ring -/

@[simp] theorem finishClaim_steady (ev code : Nat) (s : State) : (finishClaim ev code s).steady = s.steady := by rfl

@[simp] theorem State.modHead_steady (k : Nat) (f : HeadSt → HeadSt) (s : State) : (State.modHead k f s).steady = s.steady := by rfl

@[simp] theorem State.reject_steady (q : Req) (s : State) : (State.reject q s).steady = s.steady := by rfl

@[simp] theorem claimRes_steady (k code dir : Nat) (s : State) : (claimRes k code dir s).steady = s.steady := by rfl

@[simp] theorem finalClaim_steady (k code : Nat) (dir dur : Nat) (s : State) : (finalClaim k code dir dur s).steady = s.steady := by
  simp [finalClaim]

@[simp] theorem giveClaim_steady (k code : Nat) (dir dur : Nat) (s : State) : (giveClaim k code dir dur s).steady = s.steady := by
  simp [giveClaim]

@[simp] theorem wdClaim_steady (q : Req) (v : Nat) (s : State) : (wdClaim q v s).steady = s.steady := by
  unfold wdClaim
  dsimp only
  (repeat' split) <;> simp

@[simp] theorem claimHead_steady (k n : Nat) (s : State) : (claimHead k n s).steady = s.steady := by
  induction n generalizing s with
  | zero => rfl
  | succ n ih =>
    unfold claimHead
    dsimp only
    split
    · rfl
    · split
      · simp [ih]
      · split
        · rfl
        · split
          · exact (wdClaim_steady _ _ _).trans (State.setFld_steady _ _ _ _)
          · simp [ih]

@[simp] theorem takeOrigin_steady (s : State) : (takeOrigin s).steady = s.steady := by
  unfold takeOrigin
  refine (steady_forEach (fun k t => claimHead_steady k 64 t) _).trans ((State.setFld_steady _ _ _ _).trans ?_)
  refine steady_forEach (fun i t => ?_) s
  dsimp only
  generalize t.fld BB_ORIGBASE.BASE + _ = k
  have hread := State.readBlock_steady 12 k t
  generalize t.readBlock 12 k = d at *
  exact steady_ite hread (steady_ite hread (steady_ite hread hread))

/-! ### Publication and the idle pass -/

@[simp] theorem accumulate_steady (s : State) : (accumulate s).steady = s.steady := by
  unfold accumulate
  refine steady_forEach (fun p t => ?_) s
  rfl

@[simp] theorem writeOwn_steady (b report : Nat) (s : State) : (writeOwn b report s).steady = s.steady := by
  unfold writeOwn
  dsimp only
  split <;> simp

@[simp] theorem enterBitmap_steady (p : Nat) (s : State) : (enterBitmap p s).steady = s.steady := by
  unfold enterBitmap
  split <;> simp

@[simp] theorem pushChange_steady (e d p : Nat) (s : State) : (pushChange e d p s).steady = s.steady := by
  unfold pushChange
  split <;> simp

@[simp] theorem hostSection_steady (b report count : Nat) (s : State) : (hostSection b report count s).steady = s.steady := by
  simp [hostSection]

@[simp] theorem writeSection_steady (b : Nat) (s : State) : (writeSection b s).steady = s.steady := by
  unfold writeSection
  dsimp only
  split <;> simp

@[simp] theorem hostPoint_steady (pt : Nat) (s : State) : (hostPoint pt s).steady = s.steady := by
  simp [hostPoint]

@[simp] theorem writePointWord_steady (p facts : Nat) (s : State) : (writePointWord p facts s).steady = s.steady := by
  unfold writePointWord
  dsimp only
  split <;> simp

@[simp] theorem publishBobbin_steady (before : State) (b : Nat) (s : State) : (publishBobbin before b s).steady = s.steady := by
  unfold publishBobbin
  split <;> simp

@[simp] theorem writeHeader_steady (s : State) : (writeHeader s).steady = s.steady := by
  simp [writeHeader]

@[simp] theorem writeHeadWords_steady (k : Nat) (s : State) : (writeHeadWords k s).steady = s.steady := by
  simp [writeHeadWords]

@[simp] theorem clearFacts_steady (k facts : Nat) (s : State) : (clearFacts k facts s).steady = s.steady := by
  simp [clearFacts]

@[simp] theorem State.modPt_steady (x : Nat) (f : PtSt → PtSt) (s : State) : (State.modPt x f s).steady = s.steady := by rfl

@[simp] theorem clearLatches_steady (p : Nat) (s : State) : (clearLatches p s).steady = s.steady := by
  simp [clearLatches]

@[simp] theorem storeState_steady (cyc n : Nat) (b : List Byte) (s : State) : (storeState cyc n b s).steady = s.steady := by
  unfold storeState
  dsimp only
  split <;> simp

@[simp] theorem storeOwn_steady (s : State) : (storeOwn s).steady = s.steady := by
  unfold storeOwn
  split <;> simp

@[simp] theorem markReady_steady (i : Nat) (s : State) : (markReady i s).steady = s.steady := by
  unfold markReady
  dsimp only
  split
  · exact State.putFbit_steady _ _ _ _ _
  · split
    · exact State.putFbit_steady _ _ _ _ _
    · split
      · exact State.setFld_steady _ _ _ _
      · exact State.setFld_steady _ _ _ _

@[simp] theorem fillBuffer_steady (i : Nat) (l : List Byte) (s : State) : (fillBuffer i l s).steady = s.steady := by
  simp [fillBuffer]

@[simp] theorem fillSlots_steady (r : Nat) (k : Prick) (l : List (Nat × Nat × Nat)) (evs : List Nat) (ms : List (Nat × GMsg)) (s : State) :
    (fillSlots r k l evs ms s).steady = s.steady := by
  induction l generalizing evs ms s with
  | nil => rfl
  | cons x rest ih =>
    unfold fillSlots
    dsimp only
    rw [ih, fillBuffer_steady]
    split <;> rfl

@[simp] theorem publishRing_steady (r : Nat) (s : State) : (publishRing r s).steady = s.steady := by
  unfold publishRing
  split
  · rfl
  · refine steady_ite ((fillBuffer_steady _ _ _).trans (steady_ite ?_ ?_)) ?_
    all_goals exact fillSlots_steady _ _ _ _ _ s

@[simp] theorem sendSeg_steady (x i : Nat) (s : State) : (sendSeg x i s).steady = s.steady := by
  simp [sendSeg]

@[simp] theorem nextSegment_steady (x : Nat) (s : State) : (nextSegment x s).steady = s.steady := by
  unfold nextSegment
  dsimp only
  split <;> simp

@[simp] theorem publish_steady (s : State) : (publish s).steady = s.steady := by
  unfold publish
  split <;> simp

@[simp] theorem cmdResult_steady (c : Cmd) (result : Nat) (s : State) : (cmdResult c result s).steady = s.steady := by
  unfold cmdResult
  split <;> simp

@[simp] theorem giveResults_steady (s : State) : (giveResults s).steady = s.steady := by
  exact steady_forEach (fun (r : Cmd × Nat) t => cmdResult_steady r.1 r.2 t) _

@[simp] theorem commitBobbins_steady (before : State) (bs : List Nat) (s : State) : (commitBobbins before bs s).steady = s.steady := by
  simp [commitBobbins]

@[simp] theorem idlePass_steady (s : State) : (idlePass s).steady = s.steady := by
  unfold idlePass
  split <;> simp

end Sys2Proof.Machine
end

section
/-! PROOFS. CYCLE_BOUNDARY brings network time to the coming boundary (06 R254, 09 R346). -/
namespace Sys2Proof.Machine

/-! ### Steps after the boundary (09 R346) -/

theorem State.pendEng_step (s : State) (i e j : Nat) : ((s.pendEng i e).eng j).step = (s.eng j).step := by
  by_cases h : j = i
  · subst h
    rw [State.pendEng_eng_self]
  · rw [State.pendEng_eng_ne s e h]

theorem State.raise_step (s : State) (e j : Nat) : ((s.raise e).eng j).step = (s.eng j).step := by
  unfold State.raise
  rw [State.pendEng_step]
  unfold State.toHeart
  split
  · exact (State.pendEng_step _ 1 e j).trans (State.pendEng_step s 0 e j)
  · rw [forEach_modCore_frame]
    rfl

theorem State.setFld_step (f : Field) (i v j : Nat) (s : State) : ((s.setFld f i v).eng j).step = (s.eng j).step := rfl

theorem State.flag_step (f : Field) (e j : Nat) (s : State) : ((s.flag f e).eng j).step = (s.eng j).step :=
  (State.raise_step _ e j).trans (State.setFld_step f 0 1 j s)

theorem planBoundary_step (j : Nat) (s : State) : ((planBoundary s).eng j).step = (s.eng j).step := by
  unfold planBoundary
  split <;> rfl

/-- Measuring the rates of a completed cycle counts no step. -/
theorem rateBoundary_step (busy : List Nat) (len : Nat) (s : State) (j : Nat) :
    ((rateBoundary busy len s).eng j).step = (s.eng j).step := by
  unfold rateBoundary
  refine (planBoundary_step j _).trans ?_
  change ((onlyIf _ (State.flag AG_STATUS.LOWRATE evAG) _).eng j).step = _
  refine (onlyIf_frame (g := fun u => (u.eng j).step) _ (fun t => State.flag_step _ _ j t) _).trans ((State.setFld_step _ _ _ j _).trans ?_)
  refine forEach_frame (g := fun u => (u.eng j).step) _ (fun p _ t => ?_) s
  exact (State.setFld_step _ _ _ j _).trans (State.setFld_step _ _ _ j t)

/-- After `forEach` has set STEP to 0 in the engines of a list, it is 0 in each of them. -/
theorem forEach_clearStep {l : List Nat} {i : Nat} {s : State} (hi : i ∈ l ∨ (s.eng i).step = 0#32) :
    ((forEach l (fun i => State.modEng i (fun e => { e with step := 0#32, budgeted := false })) s).eng i).step = 0#32 := by
  induction l generalizing s with
  | nil => simpa using hi
  | cons x l ih =>
    refine ih (s := s.modEng x _) ?_
    rw [State.modEng_eng]
    split
    · exact .inr rfl
    · rename_i hne
      exact hi.imp_left (fun h => (List.mem_cons.1 h).resolve_left hne)

theorem clearSteps_step (s : State) {i : Nat} (h3 : 3 ≤ i) (h9 : i ≤ 9) : ((clearSteps s).eng i).step = 0#32 := by
  refine forEach_clearStep (.inl ?_)
  have : i = 3 ∨ i = 4 ∨ i = 5 ∨ i = 6 ∨ i = 7 ∨ i = 8 ∨ i = 9 := by omega
  simpa using this

/-! ### The boundary (06 R254) -/

/-- The work of the home ring's boundary before a reset that waits for an empty node: that of `homeBoundary`. -/
def boundaryWork (busy : List Nat) (s : State) : State :=
  let t := timeBoundary { s with cycle := s.cycle + 1 }
  let r := onlyIf (t.joined 0) (ringBoundary 0 t.nowTu) t
  let h := heartBoundary (voBoundary t.nowTu s.cycleLen r)
  let g := onlyIf h.canVote (fun u => canopySweep (graftBoundary (u.cycOf 0 t.nowTu) u)) h
  rateBoundary busy s.cycleLen (clearSteps (idlePass (forEach ((List.range 256).filter g.active) tickTimer g)))

theorem homeBoundary_eq (busy : List Nat) (s : State) : homeBoundary busy s = resetWhenEmpty (boundaryWork busy s) := rfl

/-- With no step and no yield due, the work of a boundary leaves the clocks alone but for the cycle count. -/
theorem boundaryWork_steady (busy : List Nat) {s : State} (hs : s.time.stepDue = false) (hy : s.time.yields = none) :
    (boundaryWork busy s).steady = ({ s with cycle := s.cycle + 1 } : State).steady := by
  unfold boundaryWork
  refine (rateBoundary_steady _ _ _).trans ((clearSteps_steady _).trans ((idlePass_steady _).trans ?_))
  refine (steady_forEach tickTimer_steady _).trans ?_
  refine (steady_onlyIf (fun t => (canopySweep_steady _).trans (graftBoundary_steady _ t)) _).trans ?_
  refine (heartBoundary_steady _).trans ((voBoundary_steady _ _ _).trans ?_)
  exact (steady_onlyIf (ringBoundary_steady 0 _) _).trans (timeBoundary_steady hs hy)

theorem boundaryWork_step (busy : List Nat) (s : State) {i : Nat} (h3 : 3 ≤ i) (h9 : i ≤ 9) :
    ((boundaryWork busy s).eng i).step = 0#32 :=
  (rateBoundary_step _ _ _ i).trans (clearSteps_step _ h3 h9)

theorem resetWhenEmpty_of_none {s : State} (h : s.keeper.resetReq = none) : resetWhenEmpty s = s := by
  simp [resetWhenEmpty, h]

/-- With no step, yield or reset due, the home boundary is its work alone. -/
theorem homeBoundary_of_quiet (busy : List Nat) {s : State} (hs : s.time.stepDue = false) (hy : s.time.yields = none)
    (hr : s.keeper.resetReq = none) : homeBoundary busy s = boundaryWork busy s := by
  have hreq : (boundaryWork busy s).keeper.resetReq = s.keeper.resetReq :=
    congrArg (fun x => x.2.2.2.2.2) (boundaryWork_steady busy hs hy)
  rw [homeBoundary_eq, resetWhenEmpty_of_none (hreq.trans hr)]

/-! ### Reaching the boundary -/

theorem le_nextMultiple {l : Nat} (hl : 0 < l) (t : Nat) : t ≤ nextMultiple l t := by
  unfold nextMultiple
  have := Nat.div_add_mod (t + l - 1) l
  have := Nat.mod_lt (t + l - 1) hl
  rw [Nat.mul_comm]
  omega

theorem State.cycleLen_pos (s : State) : 0 < s.cycleLen := by
  unfold State.cycleLen
  positivity

/-- Network time reads what it has been advanced to. -/
theorem State.nowTu_advanceNow {s : State} {b : Nat} (h : s.nowTu ≤ b) (hb : b < 2 ^ 64) : (s.advanceNow b).nowTu = b := by
  have hadd : (s.advanceNow b).nowTu = (s.nowTu + (b - s.nowTu)) % 2 ^ 64 := by
    simp [State.advanceNow, State.advance, State.nowTu, BitVec.toNat_add]
  rw [hadd, Nat.add_sub_cancel' h, Nat.mod_eq_of_lt hb]

/-- The state at the coming boundary, before its work. -/
def State.atNextBoundary (s : State) : State :=
  let t := s.advanceNow (nextMultiple s.cycleLen (max s.nowTu s.cycNext))
  { t with cycNext := t.nowTu + 1 }

/-- With one ring, the coming boundary is the home ring's. -/
theorem toBoundary_of_one_ring (busy : List Nat) {s : State} (h1 : s.joined 1 = false)
    (hnow : s.atNextBoundary.nowTu = nextMultiple s.cycleLen (max s.nowTu s.cycNext)) :
    toBoundary busy s = homeBoundary busy s.atNextBoundary := by
  have hstep : s.boundaryStep = s.cycleLen := by simp [State.boundaryStep, h1]
  have hj : s.atNextBoundary.joined 1 = false := h1
  have hhome : (s.atNextBoundary.nowTu % s.atNextBoundary.cycleLen == 0) = true := by
    rw [hnow, beq_iff_eq]
    exact Nat.mul_mod_left _ s.cycleLen
  unfold toBoundary
  rw [hstep]
  change onlyIf (s.atNextBoundary.nowTu % s.atNextBoundary.cycleLen == 0) (homeBoundary busy)
    (onlyIf (s.atNextBoundary.joined 1 && s.atNextBoundary.nowTu % s.atNextBoundary.ringLen 1 == 0) (ringBoundary 1 s.atNextBoundary.nowTu) s.atNextBoundary) = _
  rw [hj, hhome, Bool.false_and, onlyIf_false, onlyIf_true]

/-- Settles O23: time passes to the boundary, whose work leaves the clocks but for the cycle count, and clears STEP last. -/
theorem cycleBoundaryComes : Obligations.CycleBoundaryComes := by
  unfold Obligations.CycleBoundaryComes
  intro s busy b hrun h1 hs hy hr hb
  have hle : s.nowTu ≤ b := (le_max_left _ _).trans (le_nextMultiple s.cycleLen_pos _)
  have hnow : s.atNextBoundary.nowTu = b := State.nowTu_advanceNow hle hb
  have hexec : exec (.cycleBoundary busy) s = .next (boundaryWork busy s.atNextBoundary) := by
    change Host.Outcome.next (onlyIf s.running (toBoundary busy) s) = _
    rw [hrun, onlyIf_true, toBoundary_of_one_ring busy h1 hnow, homeBoundary_of_quiet (s := s.atNextBoundary) busy hs hy hr]
  have hsteady := boundaryWork_steady busy (s := s.atNextBoundary) hs hy
  obtain ⟨htb, hn, hcycle, hnext, -⟩ := by simpa only [State.steady, Prod.mk.injEq] using hsteady
  refine ⟨_, hexec, ?_, htb, hcycle, ?_, fun i h3 h9 => boundaryWork_step busy _ h3 h9⟩
  · exact (congrArg BitVec.toNat hn).trans hnow
  · exact hnext.trans (congrArg (· + 1) hnow)

end Sys2Proof.Machine
end

section
/-! PROOFS. What GRID_INSTANT is held to (02 R54, R84, R99, R104), and what leaves it alone: a lemma `X_sensing` for each function of the
wheel detection and of the placement that runs at a grid instant. -/

namespace Sys2Proof.Machine

/-- The clocks and the registers that a grid instant is held to: FE_RESULT by system, the ranges in force, the run bit, the head-blind bits. -/
structure GridView where
  tb : Nat
  now : BitVec 64
  gridNext : Nat
  word : Nat → Nat
  range : Nat → Nat
  run : Nat → Nat
  headBlind : Nat → Nat

def State.gridView (s : State) : GridView :=
  { tb := s.tb, now := s.now, gridNext := s.gridNext, word := fun i => s.fld FE_RESULT.WORD i,
    range := fun i => s.fld FE_GAIN.RANGE i, run := fun i => s.fld FE_CTRL.RUN i, headBlind := fun i => s.fld FE_HEADBLIND.HB i }

/-- The part of a system's hidden state that its blindness, its word rate and the masking of its comparator go by. -/
def SysSt.conversion (x : SysSt) : SysSt :=
  { SysSt.reset with exc := x.exc, mux := x.mux, unconv := x.unconv, isOpen := x.isOpen, compl := x.compl, holdLow := x.holdLow,
                     maskSettle := x.maskSettle, diag := x.diag, settle := x.settle }

/-- What a grid instant is held to, and the conversion of every system. -/
structure Sensing extends GridView where
  systems : Nat → SysSt

def State.sensing (s : State) : Sensing := { s.gridView with systems := fun i => (s.sys i).conversion }

theorem State.gridView_of_sensing {s t : State} (h : t.sensing = s.sensing) : t.gridView = s.gridView := congrArg Sensing.toGridView h

theorem State.sensing_of_gridView {s t : State} (h : t.gridView = s.gridView) (hs : ∀ i, (t.sys i).conversion = (s.sys i).conversion) :
    t.sensing = s.sensing := by
  unfold State.sensing
  rw [h, funext hs]

/-! ### Blindness and word rate go by it -/

/-- Blindness is decided by the run bit and the system's conversion (Table FE-6). -/
theorem State.blind_of_conversion {s t : State} (hrun : t.fld FE_CTRL.RUN = s.fld FE_CTRL.RUN) {i : Nat}
    (hx : (t.sys i).conversion = (s.sys i).conversion) : t.blind i = s.blind i := by
  have hblind : ∀ u : State, u.blind i = (!(u.fld FE_CTRL.RUN == 1) || (u.sys i).conversion.exc.mode == 0 || (u.sys i).conversion.unconv
      || (u.sys i).conversion.isOpen || (u.sys i).conversion.compl || (u.sys i).conversion.holdLow || (u.sys i).conversion.rerouted
      || (u.sys i).conversion.settle != 0) := fun u => rfl
  rw [hblind t, hblind s, hrun, hx]

/-- The instants of a system's words are decided by its conversion (Table FE-9). -/
theorem State.isWord_of_conversion {s t : State} {i : Nat} (h : (t.sys i).conversion = (s.sys i).conversion) (n : Nat) :
    t.isWord i n = s.isWord i n := by
  obtain ⟨hexc, hmux, hunconv⟩ : (t.sys i).exc = (s.sys i).exc ∧ (t.sys i).mux = (s.sys i).mux ∧ (t.sys i).unconv = (s.sys i).unconv := by
    simp only [SysSt.conversion, SysSt.mk.injEq] at h
    simp [h]
  have hrate : t.rate i = s.rate i := by simp only [State.rate, hexc, hmux, hunconv]
  simp only [State.isWord, hrate]

/-! ### The primitive operations -/

@[simp] theorem State.sensing_forEach {α : Type} {l : List α} {f : α → State → State} (hf : ∀ x t, (f x t).sensing = t.sensing)
    (s : State) : (forEach l f s).sensing = s.sensing := forEach_frame l (fun x _ => hf x) s

@[simp] theorem State.sensing_onlyIf {c : Bool} {f : State → State} (hf : ∀ t, (f t).sensing = t.sensing) (s : State) :
    (onlyIf c f s).sensing = s.sensing := onlyIf_frame c hf s

/-- The fields stand at different places of the register space. -/
def Field.apart (f g : Field) : Bool :=
  decide (f.addr < 65536) && decide (g.addr < 65536) && decide (f.lo < 32) && decide (g.lo < 32) && (f.addr != g.addr || f.lo != g.lo)

theorem Field.key_ne_of_apart {f g : Field} (h : f.apart g = true) (i j : Nat) : g.key j ≠ f.key i := by
  simp only [Field.apart, Bool.and_eq_true, decide_eq_true_eq, Bool.or_eq_true, bne_iff_ne] at h
  obtain ⟨⟨⟨⟨hfa, hga⟩, hfl⟩, hgl⟩, hne⟩ := h
  exact Field.key_ne hfa hga hfl hgl (.inr hne)

theorem State.fld_setFld_apart {f g : Field} (h : f.apart g = true) (i v j : Nat) (s : State) : (s.setFld f i v).fld g j = s.fld g j :=
  State.fld_setFld_ne s v (Field.key_ne_of_apart h i j)

/-- A field apart from those that a grid instant is held to. -/
def Field.offGrid (f : Field) : Bool := [FE_RESULT.WORD, FE_GAIN.RANGE, FE_CTRL.RUN, FE_HEADBLIND.HB].all f.apart

@[simp] theorem State.gridView_setFld {f : Field} (hf : f.offGrid = true) (i v : Nat) (s : State) :
    (s.setFld f i v).gridView = s.gridView := by
  have hkept : ∀ g ∈ [FE_RESULT.WORD, FE_GAIN.RANGE, FE_CTRL.RUN, FE_HEADBLIND.HB], ∀ j, (s.setFld f i v).fld g j = s.fld g j :=
    fun g hg j => State.fld_setFld_apart (List.all_eq_true.1 hf g hg) i v j s
  simp [State.gridView, hkept]

@[simp] theorem State.sensing_setFld {f : Field} (hf : f.offGrid = true) (i v : Nat) (s : State) : (s.setFld f i v).sensing = s.sensing :=
  State.sensing_of_gridView (State.gridView_setFld hf i v s) (fun _ => rfl)

@[simp] theorem State.sensing_putFbit {f : Field} (hf : f.offGrid = true) (i b : Nat) (v : Bool) (s : State) :
    (s.putFbit f i b v).sensing = s.sensing := State.sensing_setFld hf i _ s

@[simp] theorem State.sensing_countFld {f : Field} (hf : f.offGrid = true) (i n : Nat) (s : State) :
    (s.countFld f i n).sensing = s.sensing := State.sensing_setFld hf i _ s

@[simp] theorem State.sensing_reject (q : Req) (s : State) : (s.reject q).sensing = s.sensing := State.sensing_countFld (by decide) _ _ s

@[simp] theorem State.sensing_raise (e : Nat) (s : State) : (s.raise e).sensing = s.sensing := by
  rw [State.raise_frame]
  rfl

@[simp] theorem State.sensing_flag {f : Field} (hf : f.offGrid = true) (e : Nat) (s : State) : (s.flag f e).sensing = s.sensing :=
  (State.sensing_raise e _).trans (State.sensing_setFld hf 0 1 s)

/-- A change of a system's hidden state that leaves its conversion. -/
theorem State.sensing_modSys {g : SysSt → SysSt} (hg : ∀ x, (g x).conversion = x.conversion) (i : Nat) (s : State) :
    (s.modSys i g).sensing = s.sensing := by
  refine State.sensing_of_gridView rfl (fun j => ?_)
  by_cases h : j = i
  · subst h
    rw [State.modSys_sys_self, hg]
  · rw [State.modSys_sys_ne _ _ _ _ h]

@[simp] theorem State.sensing_modHead (k : Nat) (g : HeadSt → HeadSt) (s : State) : (s.modHead k g).sensing = s.sensing := by rfl

@[simp] theorem State.sensing_modEng (i : Nat) (g : Engine → Engine) (s : State) : (s.modEng i g).sensing = s.sensing := by rfl

@[simp] theorem State.sensing_modPlan (g : PlanSt → PlanSt) (s : State) : (s.modPlan g).sensing = s.sensing := by rfl

@[simp] theorem State.sensing_setDet (e k : Nat) (d : DetSt) (s : State) : (s.setDet e k d).sensing = s.sensing := by rfl

@[simp] theorem State.sensing_enqueue (p e : Nat) (s : State) : (enqueue p e s).sensing = s.sensing := by rfl

@[simp] theorem State.sensing_setBad (k n : Nat) (s : State) : (s.setBad k n).sensing = s.sensing := by rfl

@[simp] theorem State.sensing_wr (k n v : Nat) (s : State) : (s.wr k n v).sensing = s.sensing := by
  rw [State.wr_frame]
  rfl

/-! ### Comparators and the tally (03 R142 to R154) -/

@[simp] theorem setLatch_sensing {f : Field} (hf : f.offGrid = true) (k : Nat) (s : State) : (setLatch f k s).sensing = s.sensing := by
  unfold setLatch
  split
  · rfl
  · exact (State.sensing_flag (by decide) evBB _).trans (State.sensing_putFbit hf 0 k true s)

@[simp] theorem finalClaim_sensing (k code dir dur : Nat) (s : State) : (finalClaim k code dir dur s).sensing = s.sensing := by
  simp +decide [finalClaim]

@[simp] theorem resolveClaim_sensing (k code dir dur : Nat) (s : State) : (resolveClaim k code dir dur s).sensing = s.sensing := by
  simp +decide [resolveClaim]

@[simp] theorem orphan_sensing (k : Nat) (r : Crossing) (s : State) : (orphan k r s).sensing = s.sensing := by
  simp +decide [orphan]

@[simp] theorem countCrossing_sensing (k dir : Nat) (s : State) : (countCrossing k dir s).sensing = s.sensing := by
  unfold countCrossing
  (repeat' split) <;> simp +decide

@[simp] theorem addCrossing_sensing (k : Nat) (r : Crossing) (s : State) : (addCrossing k r s).sensing = s.sensing := by
  unfold addCrossing
  dsimp only
  (repeat' split) <;> simp

@[simp] theorem tallyStep_sensing (k : Nat) (s : State) : (tallyStep k s).sensing = s.sensing := by
  unfold tallyStep
  dsimp only
  (repeat' split) <;> simp

@[simp] theorem setLevel_sensing (i : Nat) (p : Bool) (s : State) : (setLevel i p s).sensing = s.sensing := by
  unfold setLevel
  split
  · rfl
  · exact (tallyStep_sensing _ _).trans ((State.sensing_modHead _ _ _).trans (State.sensing_modSys (by intro; rfl) i s))

@[simp] theorem pushEdge_sensing (i r : Nat) (s : State) : (pushEdge i r s).sensing = s.sensing := by
  unfold pushEdge
  split
  · exact State.sensing_flag (by decide) evWD s
  · rfl

@[simp] theorem setCmp_sensing (i st : Nat) (s : State) : (setCmp i st s).sensing = s.sensing := by
  have hinj : ∀ (t : State) (g : SysSt → Option Injection), (t.modSys i (fun x => { x with inj := g x })).sensing = t.sensing :=
    fun t g => State.sensing_modSys (by intro; rfl) i t
  unfold setCmp
  dsimp only
  (repeat' split) <;> simp +decide [hinj]

/-- A comparator that follows the run bit, the mode and the masking leaves what a grid instant is held to. -/
@[simp] theorem refreshCmp_sensing (i : Nat) (s : State) : (refreshCmp i s).sensing = s.sensing := by
  have hoff : ∀ t : State, ((t.setFld WD_CMPST.ACQ i 0).modSys i (fun y => { y with acqAt := none, retryAt := none })).sensing = t.sensing :=
    fun t => (State.sensing_modSys (by intro; rfl) i _).trans (State.sensing_setFld (by decide) i 0 t)
  unfold refreshCmp
  dsimp only
  (repeat' split)
  · exact (hoff _).trans (setCmp_sensing i 4 s)
  · rfl
  · exact (hoff _).trans (setCmp_sensing i 3 s)
  · exact (State.sensing_modSys (by intro; rfl) i _).trans ((hoff _).trans (setCmp_sensing i 2 s))
  · rfl

@[simp] theorem retakeLevel_sensing (i : Nat) (s : State) : (retakeLevel i s).sensing = s.sensing := by
  unfold retakeLevel
  split <;> simp

/-! ### Heads and their configuration (03 R161) -/

@[simp] theorem resetHead_sensing (k code : Nat) (s : State) : (resetHead k code s).sensing = s.sensing := by
  have hreset : (forEach (List.range 6) (fun e => dropDet e k)
      (resetTally k ((s.putFbit WD_PASS.PASS 0 k false).putFbit WD_CLEAN.CLEAN 0 k false))).sensing = s.sensing := by
    simp +decide [resetTally, dropDet]
  unfold resetHead
  dsimp only
  split
  · exact (resolveClaim_sensing _ _ _ _ _).trans hreset
  · exact hreset

@[simp] theorem applyHcfg_sensing (k v : Nat) (s : State) : (applyHcfg k v s).sensing = s.sensing := by
  simp +decide [applyHcfg]

@[simp] theorem stepHcfg_sensing (k : Nat) (s : State) : (stepHcfg k s).sensing = s.sensing := by
  unfold stepHcfg
  (repeat' split) <;> simp

@[simp] theorem pushDevice_sensing (e cause p : Nat) (s : State) : (pushDevice e cause p s).sensing = s.sensing := by
  unfold pushDevice
  split <;> simp +decide

@[simp] theorem hostDevice_sensing (cause head : Nat) (s : State) : (hostDevice cause head s).sensing = s.sensing := by
  simp [hostDevice]

@[simp] theorem stepTally_sensing (k : Nat) (s : State) : (stepTally k s).sensing = s.sensing := by
  have hlevel : ∀ (i : Nat) (t : State), (t.modSys i (fun x => { x with level := false })).sensing = t.sensing :=
    fun i t => State.sensing_modSys (by intro; rfl) i t
  unfold stepTally
  dsimp only
  (repeat' split) <;> simp +decide [hlevel]

/-! ### Baselines (03 R145) -/

@[simp] theorem moveBase_sensing (i f : Nat) (s : State) : (moveBase i f s).sensing = s.sensing := by
  have hbase : ∀ v, (setBase i v s).sensing = s.sensing := fun v =>
    (State.sensing_modSys (by intro; rfl) i _).trans (State.sensing_setFld (by decide) i _ s)
  unfold moveBase
  exact (State.sensing_onlyIf (State.sensing_flag (by decide) evWD) _).trans (hbase _)

@[simp] theorem stepBase_sensing (i env : Nat) (s : State) : (stepBase i env s).sensing = s.sensing := by
  unfold stepBase
  split <;> simp

/-! ### The detection program (03 R115 to R140) -/

@[simp] theorem pushRing_sensing (b : Nat) (remote : Bool) (v : Nat) (s : State) : (pushRing b remote v s).sensing = s.sensing := by
  cases remote
  all_goals
    unfold pushRing
    dsimp only
    (repeat' split) <;> simp +decide

@[simp] theorem ringStore_sensing (a v : Nat) (s : State) : (ringStore a v s).sensing = s.sensing := by
  simp [ringStore]

@[simp] theorem noteTest_sensing (v : Nat) (s : State) : (noteTest v s).sensing = s.sensing := by
  unfold noteTest
  (repeat' split) <;> rfl

@[simp] theorem noteEvent_sensing (shadow : Bool) (v : Nat) (s : State) : (noteEvent shadow v s).sensing = s.sensing := by
  unfold noteEvent
  (repeat' split) <;> rfl

@[simp] theorem originPush_sensing (q : Req) (whole : Bool) (v : Nat) (s : State) : (originPush q whole v s).sensing = s.sensing := by
  unfold originPush
  dsimp only
  (repeat' split) <;> simp +decide

@[simp] theorem shadowPush_sensing (q : Req) (whole : Bool) (v : Nat) (s : State) : (shadowPush q whole v s).sensing = s.sensing := by
  unfold shadowPush
  dsimp only
  (repeat' split) <;> simp +decide

@[simp] theorem writeEvent_sensing (e k v : Nat) (s : State) : (writeEvent e k v s).sensing = s.sensing := by
  unfold writeEvent
  dsimp only
  split <;> simp +decide

@[simp] theorem wdPass_sensing (q : Req) (set : Bool) (v : Nat) (s : State) : (wdPass q set v s).sensing = s.sensing := by
  unfold wdPass
  dsimp only
  split <;> simp +decide

@[simp] theorem setPassage_sensing (e k : Nat) (on : Bool) (s : State) : (setPassage e k on s).sensing = s.sensing := by
  unfold setPassage
  split <;> simp +decide

@[simp] theorem trackBase_sensing (n i : Nat) (d : SysDet) (s : State) : (trackBase n i d s).2.sensing = s.sensing := by
  unfold trackBase
  split <;> rfl

@[simp] theorem writeTests_sensing (e k : Nat) (d : DetSt) (s : State) : (writeTests e k d s).2.sensing = s.sensing := by
  unfold writeTests
  generalize d.marks = l
  induction l generalizing d s with
  | nil => rfl
  | cons m l ih =>
    rw [List.foldl_cons]
    split
    · exact (ih _ _).trans (writeEvent_sensing _ _ _ _)
    · exact ih d s

@[simp] theorem evalPair_sensing (tb : DetTables) (e k : Nat) (d : DetSt) (s : State) : (evalPair tb e k d s).2.sensing = s.sensing := by
  unfold evalPair
  dsimp only
  (repeat' split) <;> simp

@[simp] theorem detectOn_sensing (tb : DetTables) (n e k : Nat) (s : State) : (detectOn tb n e k s).sensing = s.sensing := by
  unfold detectOn
  dsimp only
  (repeat' split) <;> simp

@[simp] theorem stepDetect_sensing (n k : Nat) (s : State) : (stepDetect n k s).sensing = s.sensing := by
  unfold stepDetect
  (repeat' split) <;> simp

/-! ### Proofs of heads (03 R157, R611) -/

@[simp] theorem proofFail_sensing (k : Nat) (s : State) : (proofFail k s).sensing = s.sensing := by
  simp +decide [proofFail]

theorem proofField_offGrid (i : Nat) : (proofField i).offGrid = true := by
  unfold proofField
  split <;> decide

@[simp] theorem judgeRound_sensing (k : Nat) (q : Nat × List Nat) (s : State) : (judgeRound k q s).sensing = s.sensing := by
  have hinj : ∀ (i : Nat) (t : State), (t.modSys i (fun x => { x with inj := none })).sensing = t.sensing :=
    fun i t => State.sensing_modSys (by intro; rfl) i t
  unfold judgeRound
  dsimp only
  (repeat' split) <;> simp +decide [hinj, proofField_offGrid]

@[simp] theorem judgeMark_sensing (m k : Nat) (s : State) : (judgeMark m k s).sensing = s.sensing := by
  unfold judgeMark
  split <;> simp

@[simp] theorem wdProofEng_sensing (q : Req) (v : Nat) (s : State) : (wdProofEng q v s).sensing = s.sensing := by
  unfold wdProofEng
  dsimp only
  (repeat' split) <;> simp +decide

@[simp] theorem reportProof_sensing (k : Nat) (p : ProofSt) (s : State) : (reportProof k p s).sensing = s.sensing := by
  unfold reportProof
  dsimp only
  split
  · rfl
  · split <;> simp

@[simp] theorem stepProof_sensing (k : Nat) (s : State) : (stepProof k s).sensing = s.sensing := by
  simp [stepProof]

/-! ### The turn of the Graft program (08 R309 to R317, 15 R553, R555) -/

@[simp] theorem setShad_sensing (k v : Nat) (s : State) : (setShad k v s).sensing = s.sensing := by
  simp +decide [setShad]

@[simp] theorem releaseLatches_sensing (p k : Nat) (s : State) : (releaseLatches p k s).sensing = s.sensing := by rfl

@[simp] theorem retireSapwood_sensing (k : Nat) (s : State) : (retireSapwood k s).sensing = s.sensing := by
  unfold retireSapwood
  dsimp only
  split <;> simp +decide

@[simp] theorem agEngret_sensing (q : Req) (v : Nat) (s : State) : (agEngret q v s).sensing = s.sensing := by
  unfold agEngret
  dsimp only
  (repeat' split) <;> simp +decide

@[simp] theorem placeHead_sensing (k v : Nat) (s : State) : (placeHead k v s).sensing = s.sensing := by
  unfold placeHead
  dsimp only
  (repeat' split) <;> simp +decide

@[simp] theorem grHplace_sensing (q : Req) (k v : Nat) (s : State) : (grHplace q k v s).sensing = s.sensing := by
  unfold grHplace
  (repeat' split) <;> simp +decide

@[simp] theorem leaveHead_sensing (e k : Nat) (s : State) : (leaveHead e k s).sensing = s.sensing := by
  unfold leaveHead
  dsimp only
  (repeat' split) <;> simp [graftWrite]

@[simp] theorem leaveEngine_sensing (e : Nat) (s : State) : (leaveEngine e s).sensing = s.sensing := by
  unfold leaveEngine
  dsimp only
  (repeat' split) <;> simp

@[simp] theorem feRetire_sensing (q : Req) (v : Nat) (s : State) : (feRetire q v s).sensing = s.sensing := by
  have hcounted : ∀ (i : Nat) (t : State), (t.modSys i (fun x => { x with retCounted := false })).sensing = t.sensing :=
    fun i t => State.sensing_modSys (by intro; rfl) i t
  unfold feRetire
  dsimp only
  (repeat' split) <;> simp +decide [hcounted, State.setSlice]

@[simp] theorem leaveSlice_sensing (k : Nat) (s : State) : (leaveSlice k s).sensing = s.sensing := by
  unfold leaveSlice
  split <;> simp

@[simp] theorem rescueHead_sensing (k : Nat) (s : State) : (rescueHead k s).sensing = s.sensing := by
  unfold rescueHead
  (repeat' split) <;> simp [graftWrite]

@[simp] theorem graftTurn_sensing (s : State) : (graftTurn s).sensing = s.sensing := by
  unfold graftTurn
  split <;> simp

end Sys2Proof.Machine
end

section
/-! PROOFS. One bit of a number, and one element of an iteration. -/

namespace Sys2Proof.Machine

/-! ### Bits of a field -/

/-- Adding a bit that is clear leaves the others. -/
theorem testBit_add_two_pow {v i : Nat} (hv : v.testBit i = false) {j : Nat} (h : j ≠ i) : (v + 2 ^ i).testBit j = v.testBit j := by
  obtain hlt | hgt := Nat.lt_or_gt_of_ne h
  · rw [Nat.add_comm]
    exact Nat.testBit_two_pow_add_gt hlt v
  · rw [Nat.testBit_eq_decide_div_mod_eq, decide_eq_false_iff_not] at hv
    have hdiv : (v + 2 ^ i) / 2 ^ (i + 1) = v / 2 ^ (i + 1) := by
      rw [Nat.pow_succ, ← Nat.div_div_eq_div_mul, ← Nat.div_div_eq_div_mul, Nat.add_div_right v (Nat.two_pow_pos i)]
      omega
    have hhigh : ∀ x : Nat, x.testBit j = (x / 2 ^ (i + 1)).testBit (j - (i + 1)) := fun x => by
      rw [Nat.testBit_div_two_pow]
      congr 1
      omega
    rw [hhigh, hdiv, ← hhigh]

/-- `putBit` sets its bit and leaves the others. -/
theorem testBit_putBit (v i : Nat) (b : Bool) (j : Nat) : (putBit v i b).testBit j = if j = i then b else v.testBit j := by
  unfold putBit
  by_cases hb : v.testBit i = b
  · rw [if_pos hb]
    split
    · rename_i h
      exact h ▸ hb
    · rfl
  · rw [if_neg hb]
    cases b with
    | false =>
      have hv : v.testBit i = true := by simpa using hb
      have hsum : v - 2 ^ i + 2 ^ i = v := Nat.sub_add_cancel (Nat.ge_two_pow_of_testBit hv)
      have hclear : (v - 2 ^ i).testBit i = false := by
        rw [← hsum, Nat.add_comm, Nat.testBit_two_pow_add_eq] at hv
        simpa using hv
      rw [if_neg Bool.false_ne_true]
      split
      · rename_i h
        rw [h, hclear]
      · rename_i h
        rw [← testBit_add_two_pow hclear h, hsum]
    | true =>
      have hclear : v.testBit i = false := by simpa using hb
      rw [if_pos rfl]
      split
      · rename_i h
        rw [h, Nat.add_comm, Nat.testBit_two_pow_add_eq, hclear, Bool.not_false]
      · rename_i h
        exact testBit_add_two_pow hclear h

/-- A bit of a field after one bit of it has been set. -/
theorem State.fbit_putFbit (s : State) (f : Field) (i b : Nat) (v : Bool) {j : Nat} (hj : j < f.w) :
    (s.putFbit f i b v).fbit f j i = if j = b then v else s.fbit f j i := by
  unfold State.fbit
  rw [State.fld_putFbit_self, Nat.testBit_mod_two_pow, testBit_putBit, decide_eq_true hj, Bool.true_and]

/-! ### One element of an iteration -/

/-- What only one element's change touches: the iteration gives it as that change gives it, from a state in which it is as at the start. -/
theorem forEach_once {α β : Type} {l : List α} (hl : l.Nodup) {x : α} (hx : x ∈ l) {f : α → State → State} {P : State → Prop}
    {g : State → β} (hP : ∀ y t, P t → P (f y t)) (hg : ∀ y, y ≠ x → ∀ t, P t → g (f y t) = g t) {s : State} (hs : P s) :
    ∃ t, P t ∧ g t = g s ∧ g (forEach l f s) = g (f x t) := by
  obtain ⟨l₁, l₂, rfl⟩ := List.append_of_mem hx
  obtain ⟨hnot, -⟩ := List.nodup_cons.1 (List.nodup_middle.1 hl)
  have hskip : ∀ (m : List α) (u : State), x ∉ m → P u → P (forEach m f u) ∧ g (forEach m f u) = g u := fun m u hm hu =>
    forEach_keeps (P := fun t => P t ∧ g t = g u) m
      (fun y hy t ht => ⟨hP y t ht.1, (hg y (fun h => hm (h ▸ hy)) t ht.1).trans ht.2⟩) ⟨hu, rfl⟩
  obtain ⟨hP₁, hg₁⟩ := hskip l₁ s (fun h => hnot (List.mem_append_left _ h)) hs
  have h₂ := hskip l₂ (f x (forEach l₁ f s)) (fun h => hnot (List.mem_append_right _ h)) (hP x _ hP₁)
  exact ⟨_, hP₁, hg₁, by rw [forEach_append, forEach_cons, h₂.2]⟩

end Sys2Proof.Machine
end

section
/-! PROOFS. GRID_INSTANT and the timers of the sample grid (02 R54, R71, R79, R84, R85, R102). -/

namespace Sys2Proof.Machine

/-! ### What the first steps of an instant leave alone -/

@[simp] theorem State.gridView_forEach {α : Type} {l : List α} {f : α → State → State} (hf : ∀ x t, (f x t).gridView = t.gridView)
    (s : State) : (forEach l f s).gridView = s.gridView := forEach_frame l (fun x _ => hf x) s

@[simp] theorem State.gridView_onlyIf {c : Bool} {f : State → State} (hf : ∀ t, (f t).gridView = t.gridView) (s : State) :
    (onlyIf c f s).gridView = s.gridView := onlyIf_frame c hf s

@[simp] theorem State.gridView_putFbit {f : Field} (hf : f.offGrid = true) (i b : Nat) (v : Bool) (s : State) :
    (s.putFbit f i b v).gridView = s.gridView := State.gridView_setFld hf i _ s

@[simp] theorem State.gridView_flag {f : Field} (hf : f.offGrid = true) (e : Nat) (s : State) : (s.flag f e).gridView = s.gridView :=
  State.gridView_of_sensing (State.sensing_flag hf e s)

@[simp] theorem State.gridView_modSys (i : Nat) (g : SysSt → SysSt) (s : State) : (s.modSys i g).gridView = s.gridView := by rfl

@[simp] theorem State.gridView_modHead (k : Nat) (g : HeadSt → HeadSt) (s : State) : (s.modHead k g).gridView = s.gridView := by rfl

@[simp] theorem refreshCmp_gridView (i : Nat) (s : State) : (refreshCmp i s).gridView = s.gridView :=
  State.gridView_of_sensing (refreshCmp_sensing i s)

@[simp] theorem startSettleAt_gridView (i n : Nat) (s : State) : (startSettleAt i n s).gridView = s.gridView := by rfl

@[simp] theorem showDiag_gridView (i : Nat) (s : State) : (showDiag i s).gridView = s.gridView := by
  simp +decide [showDiag]

@[simp] theorem defer_gridView {f : Field} (hf : f.offGrid = true) (i : Nat) (s : State) : (defer f i s).gridView = s.gridView :=
  State.gridView_setFld hf i _ s

/-! ### Counting words, inputs and faults -/

@[simp] theorem settled_gridView (i : Nat) (s : State) : (settled i s).gridView = s.gridView := by
  unfold settled
  dsimp only
  split <;> simp

@[simp] theorem countSettle_gridView (i : Nat) (s : State) : (countSettle i s).gridView = s.gridView := by
  unfold countSettle
  split <;> simp

@[simp] theorem countWord_gridView (n i : Nat) (s : State) : (countWord n i s).gridView = s.gridView := by
  have hretake : ∀ t : State, (retakeLevel i t).gridView = t.gridView := fun t => State.gridView_of_sensing (retakeLevel_sensing i t)
  unfold countWord
  split
  · simp [hretake]
  · rfl

@[simp] theorem stepInput_gridView (g : GridIn) (n i : Nat) (s : State) : (stepInput g n i s).gridView = s.gridView := by
  simp [stepInput, apply_ite State.gridView]

@[simp] theorem leaveService_gridView (code k : Nat) (s : State) : (leaveService code k s).gridView = s.gridView := by
  unfold leaveService
  split <;> simp +decide [State.setSlice]

@[simp] theorem toMux_gridView (n i : Nat) (s : State) : (toMux n i s).gridView = s.gridView := by
  unfold toMux
  split
  · rfl
  · split <;> simp +decide

@[simp] theorem retireSlices_gridView (n code : Nat) (l : List Nat) (s : State) : (retireSlices n code l s).gridView = s.gridView := by
  simp [retireSlices]

@[simp] theorem stepFaults_gridView (g : GridIn) (n : Nat) (s : State) : (stepFaults g n s).gridView = s.gridView := by
  unfold stepFaults
  rw [retireSlices_gridView]
  rfl

@[simp] theorem stepDip_gridView (n : Nat) (s : State) : (stepDip n s).gridView = s.gridView := by
  have hhold : ∀ (i : Nat) (t : State), (holdSystem i t).gridView = t.gridView := fun i t => by
    unfold holdSystem
    split <;> simp +decide
  have hrelease : ∀ (i : Nat) (t : State), (releaseSystem n i t).gridView = t.gridView := fun i t => by
    unfold releaseSystem
    split <;> simp
  unfold stepDip
  (repeat' split) <;> simp +decide [hhold, hrelease]

/-! ### Heads -/

@[simp] theorem stepWindow_gridView (k : Nat) (s : State) : (stepWindow k s).gridView = s.gridView := by
  simp +decide [stepWindow]

@[simp] theorem takeHandOver_gridView (k : Nat) (s : State) : (takeHandOver k s).gridView = s.gridView := by
  apply State.gridView_of_sensing
  unfold takeHandOver
  dsimp only
  split <;> simp +decide

@[simp] theorem takeForce_gridView (k p : Nat) (s : State) : (takeForce k p s).gridView = s.gridView := by
  have hmoved : ∀ (x : Nat) (t : State), (markMoved x t).sensing = t.sensing := fun x t => by rfl
  apply State.gridView_of_sensing
  unfold takeForce
  dsimp only
  (repeat' split) <;> simp +decide [hmoved]

@[simp] theorem stepHead_gridView (k : Nat) (s : State) : (stepHead k s).gridView = s.gridView := by
  unfold stepHead
  dsimp only
  (repeat' split) <;> simp

@[simp] theorem stepAbort_gridView (n i : Nat) (s : State) : (stepAbort n i s).gridView = s.gridView := by
  unfold stepAbort
  split <;> simp +decide [restoreRoutingAt]

/-! ### Excitation, retirement, diagnostics and injections -/

@[simp] theorem applyExc_gridView (n i : Nat) (e : Exc) (s : State) : (applyExc n i e s).gridView = s.gridView := by
  unfold applyExc
  dsimp only
  (repeat' split) <;> simp +decide

@[simp] theorem stepExc_gridView (n i : Nat) (s : State) : (stepExc n i s).gridView = s.gridView := by
  unfold stepExc
  (repeat' split) <;> simp +decide

@[simp] theorem stepRetire_gridView (n k : Nat) (s : State) : (stepRetire n k s).gridView = s.gridView := by
  unfold stepRetire
  (repeat' split) <;> simp +decide

@[simp] theorem stepDiag_gridView (i : Nat) (s : State) : (stepDiag i s).gridView = s.gridView := by
  unfold stepDiag
  (repeat' split) <;> simp +decide [startDiag]

@[simp] theorem stepInject_gridView (n i : Nat) (s : State) : (stepInject n i s).gridView = s.gridView := by
  unfold stepInject
  dsimp only
  (repeat' split) <;> simp +decide

/-! ### Ranges (Table FE-11, step 5) -/

/-- From `s` to `t` only ranges have changed, and each to a range of Table FE-5. -/
def Ranged (s t : State) : Prop :=
  t.gridView = { s.gridView with range := t.gridView.range } ∧ ∀ x, s.fld FE_GAIN.RANGE x < 4 → t.fld FE_GAIN.RANGE x < 4

theorem Ranged.of_gridView {s t u : State} (h : Ranged s t) (hu : u.gridView = t.gridView) : Ranged s u := by
  obtain ⟨hview, hrange⟩ := h
  refine ⟨?_, fun x hx => ?_⟩
  · rw [hu]
    exact hview
  · exact (congrArg (fun v : GridView => v.range x) hu).trans_lt (hrange x hx)

theorem Ranged.refl (s : State) : Ranged s s := ⟨rfl, fun _ h => h⟩

theorem Ranged.setRange {s t : State} (h : Ranged s t) (i r : Nat) : Ranged s (t.setFld FE_GAIN.RANGE i r) := by
  obtain ⟨hview, hrange⟩ := h
  have hset : (t.setFld FE_GAIN.RANGE i r).gridView = { t.gridView with range := (t.setFld FE_GAIN.RANGE i r).gridView.range } := by
    simp +decide [State.gridView, State.fld_setFld_apart]
  refine ⟨?_, fun x hx => ?_⟩
  · rw [hset, hview]
  · by_cases hxi : x = i
    · subst hxi
      rw [State.fld_setFld_self]
      exact Nat.mod_lt _ (by decide)
    · rw [State.fld_setFld_ne t r (Field.key_ne (by decide) (by decide) (by decide) (by decide) (.inl (Ne.symm hxi)))]
      exact hrange x hx

/-- Step 5 changes ranges alone. -/
theorem Ranged.stepRange {s t : State} (h : Ranged s t) (i : Nat) : Ranged s (stepRange i t) := by
  unfold Machine.stepRange
  split
  · exact h
  · split
    · refine (h.setRange i (t.fld FE_GAIN.PRANGE i)).of_gridView ?_
      simp +decide
    · split
      · exact h
      · refine h.of_gridView ?_
        simp +decide

/-! ### Blindness (Table FE-6) -/

/-- From `s` to `t` only head-blind bits have changed. -/
def BlindShown (s t : State) : Prop := t.sensing = { s.sensing with headBlind := t.sensing.headBlind }

theorem BlindShown.blind {s t : State} (h : BlindShown s t) (i : Nat) : t.blind i = s.blind i :=
  State.blind_of_conversion (congrArg (fun v : Sensing => v.run 0) h) (congrArg (fun v : Sensing => v.systems i) h)

theorem stepBlind_sensing (k : Nat) (s : State) :
    (stepBlind k s).sensing = (s.putFbit FE_HEADBLIND.HB 0 k (s.blind (2 * k) && s.blind (2 * k + 1))).sensing := by
  unfold stepBlind
  dsimp only
  (repeat' split) <;> simp +decide

theorem BlindShown.stepBlind {s t : State} (h : BlindShown s t) (k : Nat) : BlindShown s (stepBlind k t) := by
  have hput : ∀ b, (t.putFbit FE_HEADBLIND.HB 0 k b).sensing
      = { t.sensing with headBlind := (t.putFbit FE_HEADBLIND.HB 0 k b).sensing.headBlind } := fun b => by
    simp +decide [State.sensing, State.gridView, State.putFbit, State.fld_setFld_apart]
    rfl
  unfold BlindShown
  rw [stepBlind_sensing, hput, h]

/-- The head-blind bits after a change of one head's (R84). -/
theorem fbit_stepBlind {k h : Nat} (hh : h < 32) (s : State) :
    (stepBlind k s).fbit FE_HEADBLIND.HB h = if h = k then s.blind (2 * k) && s.blind (2 * k + 1) else s.fbit FE_HEADBLIND.HB h :=
  (congrArg (fun v : Sensing => (v.headBlind 0).testBit h) (stepBlind_sensing k s)).trans (State.fbit_putFbit s _ 0 k _ hh)

/-- After every head's step each head-blind bit shows whether both systems of its head are blind, and nothing else has changed. -/
theorem forEach_stepBlind (s : State) :
    BlindShown s (forEach (List.range 32) stepBlind s)
      ∧ ∀ h, h < 32 → (forEach (List.range 32) stepBlind s).fbit FE_HEADBLIND.HB h = (s.blind (2 * h) && s.blind (2 * h + 1)) := by
  refine ⟨forEach_keeps (P := BlindShown s) _ (fun k _ t ht => ht.stepBlind k) rfl, fun h hh => ?_⟩
  obtain ⟨t, ht, -, hval⟩ := forEach_once (P := BlindShown s) (g := fun u => u.fbit FE_HEADBLIND.HB h) List.nodup_range
    (List.mem_range.2 hh) (f := stepBlind) (fun k t ht => ht.stepBlind k)
    (fun k hk t _ => (fbit_stepBlind hh t).trans (if_neg (Ne.symm hk))) (s := s) rfl
  rw [hval, fbit_stepBlind hh, if_pos rfl, ht.blind, ht.blind]

/-! ### Words (Table FE-10) -/

/-- From `s` to `t` only words have changed. -/
def WordsShown (s t : State) : Prop := t.sensing = { s.sensing with word := t.sensing.word }

theorem sample_sensing (i : Nat) (v : Int) (s : State) : (sample i v s).2.sensing = s.sensing := by
  unfold sample
  dsimp only
  (repeat' split) <;> rfl

/-- A request for a range leaves the range in force (R76). -/
theorem requestRange_sensing (i r : Nat) (s : State) : (requestRange i r s).sensing = s.sensing := by
  have hcounted : ∀ t : State, (t.modSys i (fun x => { x with rngCounted := false })).sensing = t.sensing :=
    State.sensing_modSys (by intro; rfl) i
  unfold requestRange
  (repeat' split) <;> simp +decide [hcounted]

theorem autoRange_sensing (i : Nat) (usable : Bool) (d : Int) (s : State) : (autoRange i usable d s).sensing = s.sensing := by
  have hruns : ∀ big small : Nat, (s.modSys i (fun x => { x with big := big, small := small })).sensing = s.sensing :=
    fun big small => State.sensing_modSys (by intro; rfl) i s
  unfold autoRange
  dsimp only
  (repeat' split) <;> simp only [requestRange_sensing, hruns]

/-- The tag bits below SEQ (Table FE-10). -/
theorem wordTags_lt {data range : Nat} (hd : data < 2 ^ 16) (hr : range < 4) (b t m o p h : Bool) :
    data + range * 2 ^ 16 + bit b * 2 ^ 18 + bit t * 2 ^ 19 + bit m * 2 ^ 20 + bit o * 2 ^ 21 + bit p * 2 ^ 22 + bit h * 2 ^ 23 < 2 ^ 24 := by
  have hbit : ∀ c : Bool, bit c ≤ 1 := by decide
  have := hbit b
  have := hbit t
  have := hbit m
  have := hbit o
  have := hbit p
  have := hbit h
  omega

theorem unsgn_lt (w : Nat) (x : Int) : unsgn w x < 2 ^ w := by
  have hpos : (0 : Int) < ((2 ^ w : Nat) : Int) := by exact_mod_cast Nat.two_pow_pos w
  have := Int.emod_nonneg x hpos.ne'
  have := Int.emod_lt_of_pos x hpos
  unfold unsgn
  omega

/-- Writing a word changes that system's word alone. -/
theorem State.sensing_setWord (i v : Nat) (s : State) :
    (s.setFld FE_RESULT.WORD i v).sensing = { s.sensing with word := Function.update s.sensing.word i (v % 2 ^ 32) } := by
  have hword : (fun j => (s.setFld FE_RESULT.WORD i v).fld FE_RESULT.WORD j)
      = Function.update (fun j => s.fld FE_RESULT.WORD j) i (v % 2 ^ 32) := by
    funext j
    by_cases h : j = i
    · subst h
      rw [State.fld_setFld_self, Function.update_self]
      rfl
    · rw [State.fld_setFld_ne s v (Field.key_ne (by decide) (by decide) (by decide) (by decide) (.inl (Ne.symm h))),
        Function.update_of_ne h]
  simp +decide only [State.sensing, State.gridView, hword, State.fld_setFld_apart]
  rfl

/-- A word carries the next SEQ above its tag and its data (R103, Table FE-10), and nothing else changes. -/
theorem stepWord_sensing {n i : Nat} {s : State} (h : s.isWord i n = true) (g : GridIn) :
    ∃ low, (s.fld FE_GAIN.RANGE i < 4 → low < 2 ^ 24)
      ∧ (stepWord g n i s).sensing = { s.sensing with
          word := Function.update s.sensing.word i ((low + (s.fld FE_RESULT.WORD i / 2 ^ 24 + 1) % 256 * 2 ^ 24) % 2 ^ 32) } := by
  unfold stepWord
  rw [if_neg (by simp [h])]
  dsimp only
  generalize hp : (if s.blind i = true then _ else _ : Int × State) = p
  have hps : p.2.sensing = s.sensing := by
    rw [← hp]
    split
    · rfl
    · exact sample_sensing i _ s
  have hrange : p.2.fld FE_GAIN.RANGE i = s.fld FE_GAIN.RANGE i := congrArg (fun v : Sensing => v.range i) hps
  have hword : p.2.fld FE_RESULT.WORD i = s.fld FE_RESULT.WORD i := congrArg (fun v : Sensing => v.word i) hps
  have hlatch : ∀ (w : Option (Nat × Nat)) (e : Nat) (u : State), (u.setLatchWord (3 + e) i w).sensing = u.sensing := fun _ _ _ => rfl
  have htime : ∀ (w : Nat) (u : State), (u.modSys i (fun y => { y with wordTime := w })).sensing = u.sensing := fun w u =>
    State.sensing_modSys (by intro; rfl) i u
  rw [hrange, hword]
  apply Exists.intro
  constructor
  rotate_left
  · rw [autoRange_sensing, State.sensing_forEach (hlatch _), htime, State.sensing_setWord, hps]
  · exact fun hr => wordTags_lt (unsgn_lt 16 _) hr _ _ _ _ _ _

/-- A system's step changes words alone of what a grid instant is held to. -/
theorem stepWord_shown (g : GridIn) (n i : Nat) (s : State) : WordsShown s (stepWord g n i s) := by
  by_cases h : s.isWord i n = true
  · obtain ⟨low, -, hs⟩ := stepWord_sensing h g
    unfold WordsShown
    rw [hs]
  · unfold WordsShown stepWord
    rw [if_pos (by simpa using h)]

theorem WordsShown.trans {s t u : State} (h : WordsShown s t) (h' : WordsShown t u) : WordsShown s u := by
  unfold WordsShown at *
  rw [h', h]

theorem WordsShown.isWord {s t : State} (h : WordsShown s t) (i n : Nat) : t.isWord i n = s.isWord i n :=
  State.isWord_of_conversion (congrArg (fun v : Sensing => v.systems i) h) n

theorem word_stepWord_ne {i x : Nat} (hx : i ≠ x) (g : GridIn) (n : Nat) (s : State) :
    (stepWord g n i s).fld FE_RESULT.WORD x = s.fld FE_RESULT.WORD x := by
  by_cases h : s.isWord i n = true
  · obtain ⟨low, -, hs⟩ := stepWord_sensing h g
    exact (congrArg (fun v : Sensing => v.word x) hs).trans (Function.update_of_ne (Ne.symm hx) _ _)
  · unfold stepWord
    rw [if_pos (by simpa using h)]

/-- SEQ of a system after its own step (R103). -/
theorem seq_stepWord {s : State} {i : Nat} (hr : s.fld FE_GAIN.RANGE i < 4) (g : GridIn) (n : Nat) :
    (stepWord g n i s).fld FE_RESULT.WORD i / 2 ^ 24
      = if s.isWord i n then (s.fld FE_RESULT.WORD i / 2 ^ 24 + 1) % 256 else s.fld FE_RESULT.WORD i / 2 ^ 24 := by
  split
  · rename_i h
    obtain ⟨low, hlow, hs⟩ := stepWord_sensing h g
    have hw : (stepWord g n i s).fld FE_RESULT.WORD i = _ :=
      (congrArg (fun v : Sensing => v.word i) hs).trans (Function.update_self _ _ _)
    have := hlow hr
    rw [hw]
    omega
  · rename_i h
    unfold stepWord
    rw [if_pos (by simpa using h)]

/-- After every system's step the SEQ of exactly the systems with a word has advanced, and nothing but words has changed. -/
theorem forEach_stepWord (g : GridIn) (n : Nat) (s : State) :
    WordsShown s (forEach (List.range 64) (stepWord g n) s)
      ∧ ∀ x, x < 64 → s.fld FE_GAIN.RANGE x < 4 → (forEach (List.range 64) (stepWord g n) s).fld FE_RESULT.WORD x / 2 ^ 24
          = if s.isWord x n then (s.fld FE_RESULT.WORD x / 2 ^ 24 + 1) % 256 else s.fld FE_RESULT.WORD x / 2 ^ 24 := by
  have hstep : ∀ i t, WordsShown s t → WordsShown s (stepWord g n i t) := fun i t ht => ht.trans (stepWord_shown g n i t)
  refine ⟨forEach_keeps (P := WordsShown s) _ (fun i _ => hstep i) rfl, fun x hx hr => ?_⟩
  obtain ⟨t, ht, hword, hval⟩ := forEach_once (P := WordsShown s) (g := fun u => u.fld FE_RESULT.WORD x) List.nodup_range
    (List.mem_range.2 hx) hstep (fun i hi t _ => word_stepWord_ne hi g n t) (s := s) rfl
  have hrt : t.fld FE_GAIN.RANGE x = s.fld FE_GAIN.RANGE x := congrArg (fun v : Sensing => v.range x) ht
  rw [hval, seq_stepWord (hrt ▸ hr), hword, ht.isWord]

/-! ### The instant (R54, R105) -/

/-- Steps 1 to 4 of Table FE-11, with the words counted and the inputs judged before them. -/
def beforeRanges (g : GridIn) (n : Nat) (s : State) : State :=
  let s := forEach (List.range 64) (stepInput g n) (forEach (List.range 64) (countWord n) s)
  let s := stepDip n (stepFaults g n s)
  forEach (List.range 64) (stepAbort n) (forEach (List.range 32) stepHead (forEach (List.range 32) stepWindow s))

/-- Steps 6 to 9 of Table FE-11. -/
def afterRanges (n : Nat) (s : State) : State :=
  let s := forEach (List.range 72) (stepRetire n) (forEach (List.range 64) (stepExc n) s)
  forEach (List.range 64) (stepInject n) (forEach (List.range 64) stepDiag s)

/-- What follows the words of an instant. -/
def afterWords (g : GridIn) (n : Nat) (s : State) : State :=
  let s := forEach g.envs (fun p => stepBase p.1.val p.2.toNat) s
  let s := forEach (List.range 32) stepTally (forEach (List.range 32) stepHcfg (forEach (List.range 32) (stepDetect n) s))
  graftTurn (forEach (List.range 32) stepProof s)

theorem atInstant_eq (g : GridIn) (n : Nat) (s : State) :
    atInstant g n s = afterWords g n (forEach (List.range 64) (stepWord g n) (forEach (List.range 32) stepBlind
      (afterRanges n (forEach (List.range 64) stepRange (beforeRanges g n s))))) := rfl

theorem beforeRanges_gridView (g : GridIn) (n : Nat) (s : State) : (beforeRanges g n s).gridView = s.gridView := by
  simp [beforeRanges]

theorem afterRanges_gridView (n : Nat) (s : State) : (afterRanges n s).gridView = s.gridView := by
  simp [afterRanges]

theorem afterWords_sensing (g : GridIn) (n : Nat) (s : State) : (afterWords g n s).sensing = s.sensing := by
  simp [afterWords]

/-- The instant up to the blindness of the heads changes ranges alone of what it is held to. -/
theorem ranged_beforeBlind (g : GridIn) (n : Nat) (s : State) :
    Ranged s (afterRanges n (forEach (List.range 64) stepRange (beforeRanges g n s))) :=
  (forEach_keeps (P := Ranged s) _ (fun i _ _ ht => ht.stepRange i)
    ((Ranged.refl s).of_gridView (beforeRanges_gridView g n s))).of_gridView (afterRanges_gridView n _)

/-- From `s` to `t` the clocks stand, each head-blind bit shows the blindness of its head, and the SEQ of exactly the systems with a word at
instant `n` has advanced. -/
def ShowsInstant (n : Nat) (s t : State) : Prop :=
  t.tb = s.tb ∧ t.now = s.now ∧ t.gridNext = s.gridNext
    ∧ (∀ h, h < 32 → t.fbit FE_HEADBLIND.HB h = (t.blind (2 * h) && t.blind (2 * h + 1)))
    ∧ (∀ x, x < 64 → s.fld FE_GAIN.RANGE x < 4 → t.fld FE_RESULT.WORD x / 2 ^ 24
        = if t.isWord x n then (s.fld FE_RESULT.WORD x / 2 ^ 24 + 1) % 256 else s.fld FE_RESULT.WORD x / 2 ^ 24)

/-- An instant whose steps change ranges alone, then show the blindness, then the words, and then nothing more. -/
theorem ShowsInstant.of_steps {n : Nat} {s a t : State} (g : GridIn) (ha : Ranged s a)
    (ht : t.sensing = (forEach (List.range 64) (stepWord g n) (forEach (List.range 32) stepBlind a)).sensing) : ShowsInstant n s t := by
  obtain ⟨hview, hrange⟩ := ha
  obtain ⟨hblind, hbits⟩ := forEach_stepBlind a
  obtain ⟨hwords, hseq⟩ := forEach_stepWord g n (forEach (List.range 32) stepBlind a)
  generalize forEach (List.range 32) stepBlind a = b at *
  generalize forEach (List.range 64) (stepWord g n) b = c at *
  have hlast : t.sensing = { a.sensing with word := t.sensing.word, headBlind := t.sensing.headBlind } := by
    unfold WordsShown at hwords
    unfold BlindShown at hblind
    rw [ht, hwords, hblind]
  obtain ⟨htb, hnow, hnext⟩ : a.tb = s.tb ∧ a.now = s.now ∧ a.gridNext = s.gridNext :=
    ⟨congrArg GridView.tb hview, congrArg GridView.now hview, congrArg GridView.gridNext hview⟩
  refine ⟨(congrArg (fun v : Sensing => v.tb) hlast).trans htb, (congrArg (fun v : Sensing => v.now) hlast).trans hnow,
    (congrArg (fun v : Sensing => v.gridNext) hlast).trans hnext, fun h hh => ?_, fun x hx hr => ?_⟩
  · have hsee : ∀ i, t.blind i = a.blind i := fun i =>
      State.blind_of_conversion (congrArg (fun v : Sensing => v.run 0) hlast) (congrArg (fun v : Sensing => v.systems i) hlast)
    rw [hsee, hsee, ← hbits h hh]
    exact (congrArg (fun v : Sensing => (v.headBlind 0).testBit h) ht).trans
      (congrArg (fun v : Sensing => (v.headBlind 0).testBit h) hwords)
  · have hrate : t.isWord x n = b.isWord x n :=
      (State.isWord_of_conversion (congrArg (fun v : Sensing => v.systems x) ht) n).trans (hwords.isWord x n)
    have hbr : b.fld FE_GAIN.RANGE x < 4 := (congrArg (fun v : Sensing => v.range x) hblind).trans_lt (hrange x hr)
    have hbw : b.fld FE_RESULT.WORD x = s.fld FE_RESULT.WORD x :=
      (congrArg (fun v : Sensing => v.word x) hblind).trans (congrArg (fun v : GridView => v.word x) hview)
    have htw : t.fld FE_RESULT.WORD x = c.fld FE_RESULT.WORD x := congrArg (fun v : Sensing => v.word x) ht
    rw [htw, hrate, hseq x hx hbr, hbw]

/-- Everything due at an instant. -/
theorem atInstant_shows (g : GridIn) (n : Nat) (s : State) : ShowsInstant n s (atInstant g n s) :=
  ShowsInstant.of_steps g (ranged_beforeBlind g n s) (by rw [atInstant_eq, afterWords_sensing])

/-- GRID_INSTANT: time passes to the coming instant, which shows what `atInstant_shows` says. -/
theorem exec_gridInstant {s : State} (h : s.nowTu ≤ s.comingInstant.2) (hb : s.comingInstant.2 < 2 ^ 64) (g : GridIn) :
    ∃ t, exec (.gridInstant g) s = .next t ∧ t.nowTu = s.comingInstant.2 ∧ t.gridNext = s.comingInstant.2 + 1
      ∧ t.tb = s.tb + (s.comingInstant.2 - s.nowTu)
      ∧ (∀ h, h < 32 → t.fbit FE_HEADBLIND.HB h = (t.blind (2 * h) && t.blind (2 * h + 1)))
      ∧ (∀ x, x < 64 → s.fld FE_GAIN.RANGE x < 4 →
          t.fld FE_RESULT.WORD x / 2 ^ 24 = if t.isWord x s.comingInstant.1 then (s.fld FE_RESULT.WORD x / 2 ^ 24 + 1) % 256
            else s.fld FE_RESULT.WORD x / 2 ^ 24) := by
  obtain ⟨htb, hnow, hnext, hblind, hwords⟩ := atInstant_shows g s.comingInstant.1
    { s.advanceNow s.comingInstant.2 with gridNext := s.comingInstant.2 + 1 }
  exact ⟨_, rfl, (congrArg BitVec.toNat hnow).trans (State.nowTu_advanceNow h hb), hnext, htb, hblind, hwords⟩

/-! ### The timers (R71, R79, R85) -/

/-- The window bits after one has been set. -/
theorem State.window_putFbit (s : State) (k : Nat) (b : Bool) {h : Nat} (hh : h < 32) :
    (s.putFbit FE_WINDOW.WIN 0 k b).window h = if h = k then b else s.window h := State.fbit_putFbit s FE_WINDOW.WIN 0 k b hh

/-- WINDOW_CLOSE: at its last count a window that nothing opens closes, and no other (R79). -/
theorem exec_windowClose {s : State} {k : Fin 32} (hopen : s.window k.val = true) (hno : s.opens k.val = false)
    (hlast : (s.head k.val).closing ≤ 1) :
    ∃ t, exec (.windowClose k) s = .next t ∧ t.window k.val = false
      ∧ (∀ h, h < 32 → h ≠ k.val → t.window h = s.window h) ∧ Kept [FE_WINDOW.WIN.key 0] s t := by
  refine ⟨(s.atComing.putFbit FE_WINDOW.WIN 0 k.val false).modHead k.val (fun h => { h with closing := 0 }), ?_, ?_, fun h hh hne => ?_, ?_⟩
  · exact if_pos (by simp [hopen, hno, hlast])
  · exact (State.window_putFbit s.atComing k.val false k.isLt).trans (if_pos rfl)
  · exact (State.window_putFbit s.atComing k.val false hh).trans (if_neg hne)
  · exact Kept.setFld s.atComing _ _ _

/-- SETTLING_END: after the last word of the delay the system is neither settling nor masked for it (R85, 03 R146). -/
theorem exec_settlingEnd {s : State} {i : Fin 64} (hset : (s.sys i.val).settle = 1) (hword : s.isWord i.val s.comingInstant.1 = true) :
    ∃ t, exec (.settlingEnd i) s = .next t ∧ (t.sys i.val).settle = 0 ∧ (t.sys i.val).maskSettle = false := by
  refine ⟨settled i.val s.atComing, if_pos (by simp [hset, hword]), ?_⟩
  have hsens : (settled i.val s.atComing).sensing = (s.atComing.modSys i.val (fun x => { x with settle := 0, maskSettle := false })).sensing := by
    unfold settled
    dsimp only
    split
    · exact refreshCmp_sensing _ _
    · rfl
  have hconv := congrArg (fun v : Sensing => v.systems i.val) hsens
  simp only [State.sensing, State.modSys_sys_self] at hconv
  exact ⟨congrArg SysSt.settle hconv, congrArg SysSt.maskSettle hconv⟩

/-- INJECTION_END: the injection has run its last word, and its tail of eight words follows the coming one (R71, 03 R151). -/
theorem exec_injectionEnd {s : State} {i : Fin 64} {j : Injection} (hinj : (s.sys i.val).inj = some j) (hleft : j.left = 1)
    (hword : s.isWord i.val s.comingInstant.1 = true) :
    ∃ t, exec (.injectionEnd i) s = .next t ∧ (t.sys i.val).inj = some { j with left := 0, tail := 9, stop := t.nowTu }
      ∧ (∀ n, n ≠ i.val → t.sys n = s.sys n) ∧ t.regs = s.regs := by
  have hexec : exec (.injectionEnd i) s = .next (s.atComing.modSys i.val
      (fun x => { x with inj := some { j.endAt s.atComing.nowTu with tail := 9 } })) := by
    change execInjectionEnd i s = _
    unfold execInjectionEnd
    rw [hinj]
    exact if_pos (by simp [hleft, hword])
  refine ⟨_, hexec, ?_, fun n hn => ?_, rfl⟩
  · rw [State.modSys_sys_self]
    rfl
  · exact State.modSys_sys_ne _ _ _ _ hn

/-- Settles O11: the instant by what each of its steps leaves, the timers one by one. -/
theorem gridTimers : Obligations.GridTimers := by
  unfold Obligations.GridTimers
  exact fun s g k i j => ⟨fun h hb => exec_gridInstant h hb g, exec_windowClose, exec_settlingEnd, exec_injectionEnd⟩

end Sys2Proof.Machine
end

section
/-! PROOFS. Writes of FE_EXC (02 R60, R63, R65). -/

namespace Sys2Proof.Machine

/-! ### The bit that arms a written value -/

/-- A bit outside a field is not written to it. -/
theorem Field.of_putBit {f : Field} {b : Nat} (h : b < f.lo ∨ f.lo + f.w ≤ b) (v : Nat) (x : Bool) : f.of (putBit v b x) = f.of v := by
  unfold Field.of bitsOf
  refine Nat.eq_of_testBit_eq (fun j => ?_)
  rw [Nat.testBit_mod_two_pow, Nat.testBit_mod_two_pow, Nat.testBit_div_two_pow, Nat.testBit_div_two_pow, testBit_putBit]
  by_cases hj : j < f.w
  · rw [if_neg (by omega)]
  · simp [hj]

/-- A one-bit field is written with its bit. -/
theorem Field.of_putBit_self {f : Field} (hw : f.w = 1) (v : Nat) (x : Bool) : f.of (putBit v f.lo x) = bit x := by
  have hbit : (putBit v f.lo x).testBit f.lo = x := by rw [testBit_putBit, if_pos rfl]
  rw [Nat.testBit_eq_decide_div_mod_eq] at hbit
  unfold Field.of bitsOf bit
  rw [hw]
  cases x with
  | false => simpa using of_decide_eq_false hbit
  | true => simpa using of_decide_eq_true hbit

/-- FE_EXC's fields in a value, whatever its ARM is made. -/
theorem excOf_putBit (v : Nat) (arm : Bool) :
    excOf (putBit v 24 arm) = { mode := v % 4, ipk := v / 2 ^ 4 % 2 ^ 9, freq := v / 2 ^ 16 % 2 ^ 6 } := by
  have hmode : FE_EXC.MODE.of (putBit v 24 arm) = v % 4 := (Field.of_putBit (by decide) v arm).trans (Field.of_low rfl v)
  have hipk : FE_EXC.IPK.of (putBit v 24 arm) = v / 2 ^ 4 % 2 ^ 9 := Field.of_putBit (by decide) v arm
  have hfreq : FE_EXC.FREQ.of (putBit v 24 arm) = v / 2 ^ 16 % 2 ^ 6 := Field.of_putBit (by decide) v arm
  rw [excOf, hmode, hipk, hfreq]

/-! ### An accepted change (R65) -/

/-- The fields of FE_EXC that an accepted change shows, for system `i`. -/
def excKeys (i : Nat) : List Nat := [FE_EXC.MODE.key i, FE_EXC.IPK.key i, FE_EXC.FREQ.key i, FE_EXC.ARM.key i]

/-- What an accepted change does to the system: it is staged, or due at the next grid instant. -/
def SysSt.accept (e : Exc) (arm : Bool) (x : SysSt) : SysSt :=
  if arm then { x with staged := some e } else { x with due := some e, dueCounted := false }

theorem acceptExc_eq (i : Nat) (e : Exc) (arm : Bool) (s : State) :
    acceptExc i e arm s = ((showExc i e s).setFld FE_EXC.ARM i (bit arm)).modSys i (SysSt.accept e arm) := rfl

theorem Kept.modSys (ks : List Nat) (i : Nat) (g : SysSt → SysSt) (s : State) : Kept ks s (s.modSys i g) := fun _ _ _ => by rfl

theorem acceptExc_kept (i : Nat) (e : Exc) (arm : Bool) (s : State) : Kept (excKeys i) s (acceptExc i e arm s) := by
  have hset : ∀ (f : Field) (v : Nat) (t : State), f.key i ∈ excKeys i → Kept (excKeys i) t (t.setFld f i v) := fun f v t hf =>
    (Kept.setFld t f i v).mono (by simpa using hf)
  rw [acceptExc_eq, showExc]
  exact (((hset FE_EXC.MODE _ s (by simp [excKeys])).trans (hset FE_EXC.IPK _ _ (by simp [excKeys]))).trans
    (hset FE_EXC.FREQ _ _ (by simp [excKeys]))).trans ((hset FE_EXC.ARM _ _ (by simp [excKeys])).trans (Kept.modSys _ i _ _))

/-- The fields read the accepted excitation. -/
theorem acceptExc_fields {e : Exc} (hm : e.mode < 4) (hi : e.ipk < 2 ^ 9) (hf : e.freq < 2 ^ 6) (i : Nat) (arm : Bool) (s : State) :
    let t := acceptExc i e arm s
    t.fld FE_EXC.MODE i = e.mode ∧ t.fld FE_EXC.IPK i = e.ipk ∧ t.fld FE_EXC.FREQ i = e.freq ∧ t.fld FE_EXC.ARM i = bit arm := by
  have hbit : bit arm % 2 ^ 1 = bit arm := by cases arm <;> rfl
  have hsys : ∀ (t : State) (f : Field), (t.modSys i (SysSt.accept e arm)).fld f i = t.fld f i := fun t f =>
    Kept.modSys [] i _ t f i (by simp)
  dsimp only
  rw [acceptExc_eq]
  simp +decide only [hsys, showExc, State.fld_setFld_apart, State.fld_setFld_self]
  exact ⟨Nat.mod_eq_of_lt hm, Nat.mod_eq_of_lt hi, Nat.mod_eq_of_lt hf, hbit⟩

/-- The system takes the change, and nothing but it and register fields moves. -/
theorem acceptExc_systems (i : Nat) (e : Exc) (arm : Bool) (s : State) :
    let t := acceptExc i e arm s
    t.sys i = (s.sys i).accept e arm ∧ (∀ j, j ≠ i → t.sys j = s.sys j) ∧ t = { s with regs := t.regs, systems := t.systems } :=
  ⟨State.modSys_sys_self _ _ _, fun _ hj => State.modSys_sys_ne _ _ _ _ hj, rfl⟩

/-! ### FE_EXC -/

/-- A voted write of FE_EXC with ARM as given that meets the checks is accepted. -/
theorem feExc_accepted {s : State} {i v : Nat} {arm : Bool} {e : Exc} (he : excOf (putBit v 24 arm) = e) (hm : e.mode ≠ 3) (hi : e.ipk ≤ 256)
    (hr : s.routeErr i e = false) (hx : s.excErr i e = false) : feExc .hw i (putBit v 24 arm) s = acceptExc i e arm s := by
  have hspan : e.badSpan = false := by simpa [Exc.badSpan, hm] using hi
  have harm : (FE_EXC.ARM.of (putBit v 24 arm) == 1) = arm := by
    rw [show FE_EXC.ARM.of (putBit v 24 arm) = bit arm from Field.of_putBit_self rfl v arm]
    cases arm <;> rfl
  unfold feExc
  rw [he]
  dsimp only
  rw [hspan, hr, hx, harm]
  rfl

/-- EXCITATION_WRITE and EXCITATION_STAGE by the voted Heartwood. -/
theorem exec_excitation_hw {s : State} (h : s.canVote = true) (arm : Bool) (v : Word) :
    exec (if arm then .excitationStage .hw v else .excitationWrite .hw v) s
      = .next (feExc .hw (s.fld FE_SYSSEL.SYS 11) (putBit v.toNat 24 arm) s) := by
  cases arm <;> exact asReq_hw h _

/-- A write that meets the checks shows its value, is due or staged for the selected system, and changes nothing else. -/
theorem excitation_accepted {s : State} {v : Word} (hv : s.canVote = true) (arm : Bool) :
    let i := s.fld FE_SYSSEL.SYS 11
    let e : Exc := { mode := v.toNat % 4, ipk := v.toNat / 2 ^ 4 % 2 ^ 9, freq := v.toNat / 2 ^ 16 % 2 ^ 6 }
    e.mode ≠ 3 → e.ipk ≤ 256 → s.routeErr i e = false → s.excErr i e = false →
      ∃ t, exec (if arm then .excitationStage .hw v else .excitationWrite .hw v) s = .next t
        ∧ t.fld FE_EXC.MODE i = e.mode ∧ t.fld FE_EXC.IPK i = e.ipk ∧ t.fld FE_EXC.FREQ i = e.freq
        ∧ t.fld FE_EXC.ARM i = bit arm ∧ Kept (excKeys i) s t
        ∧ t.sys i = (s.sys i).accept e arm
        ∧ (∀ j, j ≠ i → t.sys j = s.sys j) ∧ t = { s with regs := t.regs, systems := t.systems } := by
  intro i e hm hi hr hx
  have hexec := (exec_excitation_hw hv arm v).trans (congrArg _ (feExc_accepted (excOf_putBit v.toNat arm) hm hi hr hx))
  obtain ⟨hmode, hipk, hfreq, harm⟩ := acceptExc_fields (e := e) (Nat.mod_lt _ (by decide)) (Nat.mod_lt _ (by decide))
    (Nat.mod_lt _ (by decide)) i arm s
  exact ⟨_, hexec, hmode, hipk, hfreq, harm, acceptExc_kept i e arm s, acceptExc_systems i e arm s⟩

/-- The fields of an accepted change are none of FE_STATUS. -/
theorem fld_status_of_kept {i : Nat} {s t : State} (h : Kept (excKeys i) s t) {f : Field} (ha : f.addr = FE_STATUS.addr) (hl : f.lo < 32) (k : Nat) :
    t.fld f k = s.fld f k := by
  have hne : ∀ g : Field, g.addr = FE_EXC.addr → g.lo < 32 → f.key k ≠ g.key i := fun g hg hgl =>
    Field.key_ne (hg ▸ by decide) (ha ▸ by decide) hgl hl (.inr (.inl (by rw [hg, ha]; decide)))
  refine h f k ?_
  simp only [excKeys, List.mem_cons, List.not_mem_nil, or_false, not_or]
  exact ⟨hne _ rfl (by decide), hne _ rfl (by decide), hne _ rfl (by decide), hne _ rfl (by decide)⟩

/-- Settles O8: a write that meets the checks is accepted, and off meets routing and excitation checks. -/
theorem excitationWritesWaitForTheGrid : Obligations.ExcitationWritesWaitForTheGrid := by
  unfold Obligations.ExcitationWritesWaitForTheGrid
  refine ⟨fun s v hv hm hi hr hx => ⟨excitation_accepted hv false hm hi hr hx, excitation_accepted hv true hm hi hr hx⟩,
    fun s v hv hoff hi => ?_⟩
  obtain ⟨t, hexec, hmode, -, -, -, hkept, hsys, -, -⟩ := excitation_accepted (s := s) (v := v) hv false (by simp [hoff]) hi
    (by simp [State.routeErr, hoff]) (by simp [State.excErr, hoff])
  refine ⟨t, hexec, hmode.trans hoff, ?_, fun f k ha hl => fld_status_of_kept hkept ha hl k⟩
  rw [hsys]
  exact congrArg some hoff

end Sys2Proof.Machine
end

section
/-! PROOFS. Retirement requests, diagnostics and the result window (02 R92 to R97, R104). -/

namespace Sys2Proof.Machine

/-! ### Retirement requests (R97) -/

/-- Replacing the two bits at place `m` of a word of sixteen pairs. -/
theorem bitsOf_replace {m : Nat} (hm : m < 16) (r v : Nat) :
    bitsOf ((r - bitsOf r (2 * m) 2 * 4 ^ m + v % 4 * 4 ^ m) % 2 ^ 32) (2 * m) 2 = v % 4 := by
  have hp : 2 ^ (2 * m) = 4 ^ m := Nat.pow_mul 2 2 m
  have hsplit : 2 ^ 32 = 4 ^ m * (4 * 4 ^ (15 - m)) := by
    rw [← Nat.pow_succ', ← Nat.pow_add, show m + (15 - m).succ = 16 by omega]
    rfl
  have hpos : 0 < 4 ^ m := Nat.pow_pos (by decide)
  have hdiv : (r - r / 4 ^ m % 4 * 4 ^ m + v % 4 * 4 ^ m) / 4 ^ m = r / 4 ^ m - r / 4 ^ m % 4 + v % 4 := by
    rw [Nat.add_mul_div_right _ _ hpos, Nat.mul_comm (r / 4 ^ m % 4), Nat.sub_mul_div]
  unfold bitsOf
  rw [hp, hsplit, show 2 ^ 2 = 4 from rfl, Nat.mod_mul_right_div_self, Nat.mod_mod_of_dvd _ (Dvd.intro _ rfl), hdiv]
  omega

/-- A slice reads the code it has been set to (Table FE-20). -/
theorem State.slice_setSlice (s : State) (k v : Nat) : (s.setSlice k v).slice k = v % 4 := by
  unfold State.slice State.setSlice
  rw [State.fld_setFld_self]
  exact bitsOf_replace (Nat.mod_lt _ (by decide)) _ v

/-- RETIREMENT_REQUEST of a slice in service marks it. -/
theorem exec_retirementRequest {s : State} (hv : s.canVote = true) {v : Word} (hk : v.toNat % 2 ^ 7 ≤ 71)
    (hs : s.slice (v.toNat % 2 ^ 7) = 0) :
    ∃ t, exec (.retirementRequest .hw v) s = .next t ∧ t.slice (v.toNat % 2 ^ 7) = 1
      ∧ Kept [FE_SLICEST.ST.key (v.toNat % 2 ^ 7 / 16)] s t := by
  have hof : FE_RETIRE.SLICE.of v.toNat = v.toNat % 2 ^ 7 := Field.of_low rfl _
  have hret : feRetire .hw v.toNat s
      = (s.setSlice (v.toNat % 2 ^ 7) 1).modSys (v.toNat % 2 ^ 7) (fun x => { x with retCounted := false }) := by
    unfold feRetire
    rw [if_neg (by decide), hof]
    dsimp only
    rw [if_neg (by omega), if_neg (not_not.2 hs)]
  exact ⟨_, (asReq_hw hv _).trans (congrArg _ hret), State.slice_setSlice s _ 1, Kept.setFld s _ _ _⟩

/-! ### Diagnostics (R92, R95) -/

/-- FE_DIAG shows a request that waits as PEND, and one that runs as BUSY (Table FE-33). -/
theorem showDiag_fields (i : Nat) (s : State) :
    (showDiag i s).fld FE_DIAG.PEND i = bit ((s.sys i).diag.any (fun d => !d.running))
      ∧ (showDiag i s).fld FE_DIAG.BUSY i = bit ((s.sys i).diag.any (fun d => d.running)) := by
  have hbit : ∀ b : Bool, bit b % 2 ^ 1 = bit b := by decide
  simp +decide only [showDiag, State.fld_setFld_apart, State.fld_setFld_self]
  cases (s.sys i).diag with
  | none => exact ⟨rfl, rfl⟩
  | some d => exact ⟨hbit _, hbit _⟩

theorem showDiag_kept (i : Nat) (s : State) : Kept [FE_DIAG.PEND.key i, FE_DIAG.BUSY.key i] s (showDiag i s) :=
  ((Kept.setFld s FE_DIAG.PEND i _).mono (by simp)).trans ((Kept.setFld _ FE_DIAG.BUSY i _).mono (by simp))

/-- DIAGNOSTIC_REQUEST of a kind that needs no mux position is held while none is pending or running. -/
theorem exec_diagnosticRequest {s : State} (hv : s.canVote = true) {v : Word} (hk : v.toNat % 8 ≤ 3 ∨ v.toNat % 8 = 5)
    (hd : (s.sys (s.fld FE_SYSSEL.SYS 11)).diag = none) :
    let i := s.fld FE_SYSSEL.SYS 11
    ∃ t, exec (.diagnosticRequest .hw v) s = .next t
      ∧ (t.sys i).diag = some { kind := v.toNat % 8, running := false, counted := false, ready := 0, pos := none }
      ∧ t.fld FE_DIAG.PEND i = 1 ∧ t.fld FE_DIAG.BUSY i = 0 ∧ Kept [FE_DIAG.PEND.key i, FE_DIAG.BUSY.key i] s t := by
  intro i
  have hof : FE_DIAG.KIND.of v.toNat = v.toNat % 8 := Field.of_low rfl _
  let d : Diag := { kind := v.toNat % 8, running := false, counted := false, ready := 0, pos := none }
  let u : State := s.modSys i (fun x => { x with diag := some d })
  have hdiag : (u.sys i).diag = some d := congrArg SysSt.diag (State.modSys_sys_self s i _)
  have hreq : feDiag .hw i v.toNat s = showDiag i u := by
    have hok : (decide (5 < v.toNat % 8) || (s.sys i).diag.isSome || (v.toNat % 8 == 4 && s.freeMux.isNone)) = false := by
      have h5 : ¬ 5 < v.toNat % 8 := by omega
      have h4 : v.toNat % 8 ≠ 4 := by omega
      simp [i, hd, h5, h4]
    unfold feDiag
    rw [if_neg (by decide), hof]
    dsimp only
    rw [hok]
    rfl
  obtain ⟨hpend, hbusy⟩ := showDiag_fields i u
  rw [hdiag] at hpend hbusy
  exact ⟨_, (asReq_hw hv _).trans (congrArg _ hreq), hdiag, hpend, hbusy, showDiag_kept i u⟩

/-- The register fields that a measured lead changes, for system `i`. -/
def leadKeys (i : Nat) : List Nat := [FE_LEAD.LEADR.key i, FE_LEAD.SRC.key i, FE_STATUS.LEADJUMP.key 0]

theorem leadReplace_kept (i : Nat) (v : Int) (s : State) : Kept (leadKeys i) s (leadReplace i v s) := by
  unfold leadReplace
  dsimp only
  split
  · generalize hp : (if 0 ≤ v ∧ v < 65536 then (v.toNat, s) else s.fresh) = p
    have hfresh : Kept [] s p.2 := by
      rw [← hp]
      split <;> exact Kept.refl _ _
    have hset : ∀ (f : Field) (x : Nat) (t : State), f.key i ∈ leadKeys i → Kept (leadKeys i) t (t.setFld f i x) := fun f x t hf =>
      (Kept.setFld t f i x).mono (by simpa using hf)
    have hlead := ((hfresh.mono (by simp)).trans (hset FE_LEAD.LEADR (p.1 % 65536) p.2 (by simp [leadKeys]))).trans
      (hset FE_LEAD.SRC 1 _ (by simp [leadKeys]))
    exact onlyIf_keeps (P := Kept (leadKeys i) s) _
      (fun t ht => ht.trans ((Kept.flag t FE_STATUS.LEADJUMP evFE).mono (by simp [leadKeys]))) hlead
  · exact Kept.refl _ _

/-- The result that a diagnostic leaves in FE_AUXRES (Table FE-33). -/
def showResult (i : Nat) (d : Diag) (value : Int) (isOpen : Bool) (s : State) : State :=
  let s := (s.setFld FE_AUXRES.VALUE i (unsgn 24 value)).setFld FE_AUXRES.KIND i d.kind
  ((s.setFld FE_AUXRES.VALID i 1).setFld FE_AUXRES.ABORT i 0).setFld FE_AUXRES.OPEN i (bit (d.kind == 3 && isOpen))

/-- DIAGNOSTIC_COMPLETE of a running diagnostic: time passes to its instant, the result is shown, a measured lead is taken, and the routing is
restored (R95). -/
theorem exec_diagnosticComplete {s : State} {j : Fin 64} {d : Diag} (hd : (s.sys j.val).diag = some d) (hrun : d.running = true)
    (value : Int) (isOpen : Bool) :
    exec (.diagnosticComplete j value isOpen) s = .next (restoreRouting j.val (onlyIf (d.kind == 0) (leadReplace j.val value)
      (showResult j.val d value isOpen (s.advanceNow (s.nextInstant (max (max s.nowTu s.gridNext) d.ready)).2)))) := by
  change execDiagnosticComplete j value isOpen s = _
  unfold execDiagnosticComplete
  dsimp only
  rw [hd]
  exact if_neg (by simp [hrun])

theorem showResult_fields {d : Diag} (hk : d.kind ≤ 5) (i : Nat) (value : Int) (o : Bool) (s : State) :
    let t := showResult i d value o s
    t.fld FE_AUXRES.VALID i = 1 ∧ t.fld FE_AUXRES.ABORT i = 0 ∧ t.fld FE_AUXRES.KIND i = d.kind
      ∧ t.fld FE_AUXRES.VALUE i = (value % 2 ^ 24).toNat ∧ t.fld FE_AUXRES.OPEN i = (if d.kind = 3 ∧ o = true then 1 else 0) := by
  have hopen : bit (d.kind == 3 && o) % 2 ^ 1 = if d.kind = 3 ∧ o = true then 1 else 0 := by
    cases o <;> by_cases h : d.kind = 3 <;> simp [h, bit]
  have hkind : d.kind % 2 ^ 3 = d.kind := Nat.mod_eq_of_lt (by omega)
  have hvalue : unsgn 24 value % 2 ^ 24 = (value % 2 ^ 24).toNat := Nat.mod_eq_of_lt (unsgn_lt 24 value)
  simp +decide only [showResult, State.fld_setFld_apart, State.fld_setFld_self]
  exact ⟨trivial, trivial, hkind, hvalue, hopen⟩

/-- Restoring the routing ends the diagnostic, and leaves every field of the front end's page but FE_DIAG's PEND and BUSY (R94, R95). -/
theorem restoreRouting_ends (i : Nat) (s : State) :
    let t := restoreRouting i s
    (t.sys i).diag = none ∧ t.fld FE_DIAG.BUSY i = 0
      ∧ ∀ f : Field, f.addr / 4096 = 1 → f.lo < 32 → f.key i ∉ [FE_DIAG.PEND.key i, FE_DIAG.BUSY.key i] → t.fld f i = s.fld f i := by
  let u : State := s.modSys i (fun x => { x with diag := none })
  have hu : (u.sys i).diag = none := congrArg SysSt.diag (State.modSys_sys_self s i _)
  obtain ⟨hdiag, hfront⟩ : ((restoreRouting i s).sys i).diag = none ∧ (restoreRouting i s).front = (showDiag i u).front := by
    unfold restoreRouting
    dsimp only
    split
    · have hsettle : ((startSettle i (showDiag i u)).sys i).diag = none := (congrArg SysSt.diag (State.modSys_sys_self _ i _)).trans hu
      have hconv := congrArg (fun v : Sensing => (v.systems i).diag) (refreshCmp_sensing i (startSettle i (showDiag i u)))
      exact ⟨hconv.trans hsettle, (refreshCmp_front i _).trans (startSettle_front i _)⟩
    · exact ⟨hu, rfl⟩
  have hfld : ∀ f : Field, f.addr / 4096 = 1 → f.lo < 32 → (restoreRouting i s).fld f i = (showDiag i u).fld f i := fun f ha hl => by
    rw [← State.front_eq _ ha hl, hfront, State.front_eq _ ha hl]
  refine ⟨hdiag, ?_, fun f ha hl hf => (hfld f ha hl).trans (showDiag_kept i u f i hf)⟩
  rw [hfld _ (by decide) (by decide), (showDiag_fields i u).2, hu]
  rfl

/-- A running diagnostic that completes leaves its result in FE_AUXRES and is over. -/
theorem diagnosticComplete_writes {s : State} {j : Fin 64} {d : Diag} (hd : (s.sys j.val).diag = some d) (hrun : d.running = true)
    (hk : d.kind ≤ 5) (value : Int) (o : Bool) :
    ∃ t, exec (.diagnosticComplete j value o) s = .next t ∧ t.fld FE_AUXRES.VALID j.val = 1 ∧ t.fld FE_AUXRES.ABORT j.val = 0
      ∧ t.fld FE_AUXRES.KIND j.val = d.kind ∧ t.fld FE_AUXRES.VALUE j.val = (value % 2 ^ 24).toNat
      ∧ t.fld FE_AUXRES.OPEN j.val = (if d.kind = 3 ∧ o = true then 1 else 0)
      ∧ (t.sys j.val).diag = none ∧ t.fld FE_DIAG.BUSY j.val = 0 := by
  refine ⟨_, exec_diagnosticComplete hd hrun value o, ?_⟩
  generalize s.advanceNow _ = s'
  obtain ⟨hvalid, habort, hkind, hvalue, hopen⟩ := showResult_fields hk j.val value o s'
  generalize showResult j.val d value o s' = r at hvalid habort hkind hvalue hopen ⊢
  have hlead : Kept (leadKeys j.val) r (onlyIf (d.kind == 0) (leadReplace j.val value) r) :=
    onlyIf_keeps (P := Kept (leadKeys j.val) r) _ (fun t ht => ht.trans (leadReplace_kept j.val value t)) (Kept.refl _ r)
  obtain ⟨hdiag, hbusy, hfld⟩ := restoreRouting_ends j.val (onlyIf (d.kind == 0) (leadReplace j.val value) r)
  generalize onlyIf (d.kind == 0) (leadReplace j.val value) r = l at hlead hdiag hbusy hfld ⊢
  have hkeep : ∀ f ∈ FE_AUXRES.fields, (restoreRouting j.val l).fld f j.val = r.fld f j.val := by
    intro f hf
    obtain ⟨hpage, hlo, hapart⟩ : f.addr / 4096 = 1 ∧ f.lo < 32
        ∧ ∀ g ∈ [FE_DIAG.PEND, FE_DIAG.BUSY, FE_LEAD.LEADR, FE_LEAD.SRC, FE_STATUS.LEADJUMP], g.apart f = true := by
      revert f
      decide
    have hne : ∀ g ∈ [FE_DIAG.PEND, FE_DIAG.BUSY, FE_LEAD.LEADR, FE_LEAD.SRC, FE_STATUS.LEADJUMP], ∀ i, f.key j.val ≠ g.key i :=
      fun g hg i => Field.key_ne_of_apart (hapart g hg) i j.val
    exact (hfld f hpage hlo (by simp [hne])).trans (hlead f j.val (by simp [leadKeys, hne]))
  exact ⟨(hkeep _ (by decide)).trans hvalid, (hkeep _ (by decide)).trans habort, (hkeep _ (by decide)).trans hkind,
    (hkeep _ (by decide)).trans hvalue, (hkeep _ (by decide)).trans hopen, hdiag, hbusy⟩

/-! ### The result window (R104) -/

/-- RESULT_READ delivers the selected word and latches its time for the reader alone. -/
theorem exec_resultRead {s : State} {q : Req} (h : s.absent q = false) :
    ∃ t, exec (.resultRead q) s = .next t
      ∧ Tab.get 0 t.delivered q.bank = s.fld FE_RESULT.WORD (s.fld FE_SYSSEL.SYS q.bank)
      ∧ t.fld FE_RESTIME.TIME q.bank = (s.sys (s.fld FE_SYSSEL.SYS q.bank)).wordTime % 2 ^ 32
      ∧ Kept [FE_RESTIME.TIME.key q.bank] s t ∧ t = { s with regs := t.regs, delivered := t.delivered } := by
  refine ⟨deliver q (feResult q (s.selSys q) s), asReq_of_present h _, ?_, ?_, ?_, rfl⟩
  · exact Tab.get_set_self _ _ _ _
  · exact State.fld_setFld_self _ _ _ _
  · exact Kept.setFld s _ _ _

/-- Settles O10, request by request. -/
theorem frontEndRequestsAndResults : Obligations.FrontEndRequestsAndResults := by
  unfold Obligations.FrontEndRequestsAndResults
  exact fun s v j value o q d => ⟨fun hv hk hs => exec_retirementRequest hv hk hs, fun hv hk hd => exec_diagnosticRequest hv hk hd,
    fun hd hrun hk => diagnosticComplete_writes hd hrun hk value o, exec_resultRead⟩

end Sys2Proof.Machine
end

section
/-! PROOFS. What claims, orphans, crossings and comparator changes leave, and what a claim's end shows (03 R142 to R154). -/

namespace Sys2Proof.Machine

/-! ### Reads past a change of another field, and past an event -/

theorem State.fld_flag_apart {f g : Field} (h : f.apart g = true) (e j : Nat) (s : State) : (s.flag f e).fld g j = s.fld g j :=
  (State.raise_fld _ e g j).trans (State.fld_setFld_apart h 0 1 j s)

theorem State.fld_countFld_apart {f g : Field} (h : f.apart g = true) (i n j : Nat) (s : State) :
    (s.countFld f i n).fld g j = s.fld g j := State.fld_setFld_apart h i _ j s

theorem State.fld_putFbit_apart {f g : Field} (h : f.apart g = true) (i b j : Nat) (v : Bool) (s : State) :
    (s.putFbit f i b v).fld g j = s.fld g j := State.fld_setFld_apart h i _ j s

@[simp] theorem State.flag_heads (s : State) (f : Field) (e : Nat) : (s.flag f e).heads = s.heads := by rw [State.flag_frame]

@[simp] theorem State.flag_systems (s : State) (f : Field) (e : Nat) : (s.flag f e).systems = s.systems := by rw [State.flag_frame]

@[simp] theorem State.flag_tb (s : State) (f : Field) (e : Nat) : (s.flag f e).tb = s.tb := by rw [State.flag_frame]

theorem State.head_of_heads {s t : State} (h : t.heads = s.heads) (k : Nat) : t.head k = s.head k := by
  unfold State.head
  rw [h]

theorem State.sys_of_systems {s t : State} (h : t.systems = s.systems) (i : Nat) : t.sys i = s.sys i := by
  unfold State.sys
  rw [h]

/-! ### Every field apart from some -/

/-- Every field that stands apart from those of `fs` reads in `t` as in `s`, at every index. -/
def KeptBut (fs : List Field) (s t : State) : Prop :=
  ∀ g : Field, fs.all (fun f => f.apart g) = true → ∀ j, t.fld g j = s.fld g j

namespace KeptBut

variable {fs : List Field} {s t : State}

theorem refl (fs : List Field) (s : State) : KeptBut fs s s := fun _ _ _ => rfl

theorem trans {u : State} (h : KeptBut fs s t) (h' : KeptBut fs t u) : KeptBut fs s u :=
  fun g hg j => (h' g hg j).trans (h g hg j)

theorem mono {gs : List Field} (hs : fs ⊆ gs) (h : KeptBut fs s t) : KeptBut gs s t :=
  fun g hg j => h g (List.all_eq_true.2 (fun f hf => List.all_eq_true.1 hg f (hs hf))) j

theorem setFld (h : KeptBut fs s t) {f : Field} (hf : f ∈ fs) (i v : Nat) : KeptBut fs s (t.setFld f i v) :=
  fun g hg j => (State.fld_setFld_apart (List.all_eq_true.1 hg f hf) i v j t).trans (h g hg j)

theorem countFld (h : KeptBut fs s t) {f : Field} (hf : f ∈ fs) (i n : Nat) : KeptBut fs s (t.countFld f i n) := h.setFld hf i _

theorem putFbit (h : KeptBut fs s t) {f : Field} (hf : f ∈ fs) (i b : Nat) (v : Bool) : KeptBut fs s (t.putFbit f i b v) :=
  h.setFld hf i _

theorem flag (h : KeptBut fs s t) {f : Field} (hf : f ∈ fs) (e : Nat) : KeptBut fs s (t.flag f e) :=
  fun g hg j => (State.fld_flag_apart (List.all_eq_true.1 hg f hf) e j t).trans (h g hg j)

theorem modHead (h : KeptBut fs s t) (k : Nat) (m : HeadSt → HeadSt) : KeptBut fs s (t.modHead k m) := h

theorem modSys (h : KeptBut fs s t) (i : Nat) (m : SysSt → SysSt) : KeptBut fs s (t.modSys i m) := h

end KeptBut

/-! ### Claims and orphans (R152 to R154) -/

/-- The fields that the end of a claim writes. -/
def claimFields : List Field :=
  [WD_HCLM.CODE, WD_HCLM.RDIR, WD_HCLM.DUR, WD_HCLM.HELD, WD_XCOUNT.FAILS, WD_STATUS.CLAIMDONE]

/-- The fields that an orphan writes. -/
def orphanFields : List Field :=
  [WD_HCLM.CODE, WD_HCLM.RDIR, WD_HCLM.DUR, WD_XCOUNT.ORPHANS, WD_STATUS.ORPHAN, BB_ORPHLAT.LAT, BB_STATUS.LATCH]

theorem finalClaim_kept (k code dir dur : Nat) (s : State) : KeptBut claimFields s (finalClaim k code dir dur s) :=
  onlyIf_keeps (P := KeptBut claimFields s) _ (fun _ h => h.countFld (by decide) 0 1)
    ((((KeptBut.refl _ s).setFld (by decide) k code).setFld (by decide) k dir).setFld (by decide) k _)

theorem resolveClaim_kept (k code dir dur : Nat) (s : State) : KeptBut claimFields s (resolveClaim k code dir dur s) :=
  (((KeptBut.refl _ s).modHead k _).trans (finalClaim_kept k code dir dur _) |>.setFld (by decide) k 0).flag (by decide) evWD

theorem setLatch_kept (f : Field) (k : Nat) (s : State) : KeptBut [f, BB_STATUS.LATCH] s (setLatch f k s) := by
  unfold setLatch
  split
  · exact KeptBut.refl _ s
  · exact ((KeptBut.refl _ s).putFbit (by simp) 0 k true).flag (by simp) evBB

/-- An orphan before its latch is set. -/
def orphanCounted (k : Nat) (r : Crossing) (s : State) : State :=
  ((((s.countFld WD_XCOUNT.ORPHANS 0 1).setFld WD_HCLM.CODE k 2).setFld WD_HCLM.RDIR k r.dir).setFld WD_HCLM.DUR k
    (min 0xFFFFFF (r.dur / 1250))).flag WD_STATUS.ORPHAN evWD

theorem orphan_eq (k : Nat) (r : Crossing) (s : State) : orphan k r s = setLatch BB_ORPHLAT.LAT k (orphanCounted k r s) := rfl

theorem orphan_kept (k : Nat) (r : Crossing) (s : State) : KeptBut orphanFields s (orphan k r s) := by
  rw [orphan_eq]
  refine KeptBut.trans ?_ ((setLatch_kept BB_ORPHLAT.LAT k _).mono (by decide))
  exact (((((KeptBut.refl _ s).countFld (by decide) 0 1).setFld (by decide) k 2).setFld (by decide) k _).setFld (by decide) k _).flag
    (by decide) evWD

/-! ### Crossings and the tally (R150, R153) -/

/-- The fields that the tally writes. -/
def tallyFields : List Field := claimFields ++ orphanFields ++ [WD_HST.FWD, WD_HST.REV]

theorem countCrossing_kept (k dir : Nat) (s : State) : KeptBut tallyFields s (countCrossing k dir s) := by
  unfold countCrossing
  split
  · exact (KeptBut.refl _ s).setFld (by decide) k _
  · split
    · exact (KeptBut.refl _ s).setFld (by decide) k _
    · exact KeptBut.refl _ s

theorem KeptBut.resolveClaim {s t : State} (h : KeptBut tallyFields s t) (k code dir dur : Nat) :
    KeptBut tallyFields s (Machine.resolveClaim k code dir dur t) := h.trans ((resolveClaim_kept k code dir dur t).mono (by decide))

theorem KeptBut.orphan {s t : State} (h : KeptBut tallyFields s t) (k : Nat) (r : Crossing) :
    KeptBut tallyFields s (Machine.orphan k r t) := h.trans ((orphan_kept k r t).mono (by decide))

/-- A crossing resolves a claim, is queued, or drives the oldest record out. -/
theorem addCrossing_kept (k : Nat) (r : Crossing) (s : State) : KeptBut tallyFields s (addCrossing k r s) := by
  have hcount := countCrossing_kept k r.dir s
  unfold addCrossing
  dsimp only
  split
  · split
    · split
      · exact (hcount.modHead k _).orphan k _
      · exact hcount.modHead k _
    · exact hcount.modHead k _
  · have hclaim := hcount.resolveClaim k 2 0 0
    split
    · exact hcount.resolveClaim k _ _ _
    · split
      · split
        · exact (hclaim.modHead k _).orphan k _
        · exact hclaim.modHead k _
      · exact hclaim.modHead k _

theorem tallyStep_kept (k : Nat) (s : State) : KeptBut tallyFields s (tallyStep k s) := by
  have hrefl := KeptBut.refl tallyFields s
  unfold tallyStep
  dsimp only
  split
  · exact hrefl
  · split
    · split
      · split
        · exact (hrefl.modHead k _).resolveClaim k 2 0 0
        · exact hrefl.modHead k _
      · exact (hrefl.modHead k _).trans (addCrossing_kept k _ _)
    · exact hrefl.modHead k _

theorem setLevel_kept (i : Nat) (p : Bool) (s : State) : KeptBut tallyFields s (setLevel i p s) := by
  unfold setLevel
  split
  · exact KeptBut.refl _ s
  · exact (((KeptBut.refl _ s).modSys i _).modHead (i / 2) _).trans (tallyStep_kept (i / 2) _)

/-! ### Comparator changes (R142, R149) -/

/-- The fields that an edge writes besides the comparator's own. -/
def edgeFields : List Field := WD_STATUS.EDGEOVF :: tallyFields

theorem pushEdge_kept (i r : Nat) (s : State) : KeptBut edgeFields s (pushEdge i r s) := by
  unfold pushEdge
  split
  · exact (KeptBut.refl _ s).flag (by decide) evWD
  · exact KeptBut.refl _ s

/-- A comparator's change writes its state and edge time; what follows leaves every comparator. -/
theorem setCmp_kept {i st : Nat} {s : State} (h : s.cmp i ≠ st) :
    KeptBut edgeFields ((s.setFld WD_CMPST.STATE i st).setFld WD_EDGET.TIME i s.nowLow) (setCmp i st s) := by
  generalize hu : (s.setFld WD_CMPST.STATE i st).setFld WD_EDGET.TIME i s.nowLow = u
  have hrecord : ∀ (l : List Nat) (n : Nat) (test c : Bool) (m : HeadSt → HeadSt),
      KeptBut edgeFields u (onlyIf c (State.modHead (i / 2) m) (forEach l (fun p => pushEdge (3 + p) (edgeRecord n i st test)) u)) :=
    fun l _ _ c m => onlyIf_keeps (P := KeptBut edgeFields u) c (fun _ ht => ht.modHead (i / 2) m)
      (forEach_keeps (P := KeptBut edgeFields u) l (fun _ _ t ht => ht.trans (pushEdge_kept _ _ t)) (KeptBut.refl _ u))
  unfold setCmp
  rw [if_neg h]
  dsimp only
  rw [hu]
  split
  · exact (hrecord _ _ _ _ _).modSys i _
  · split
    · exact hrecord _ _ _ _ _
    · exact (hrecord _ _ _ _ _).trans ((setLevel_kept i _ _).mono (by decide))

end Sys2Proof.Machine
end

section
/-! PROOFS. Comparator edges and baselines (03 R142 to R149). -/

namespace Sys2Proof.Machine

/-! ### Edges (R143, R149) -/

theorem State.cmpDev_eq (s : State) (i env : Nat) : s.cmpDev i env
    = if s.fld WD_CMPCFG.POL i = 1 then ((env * 65536 : Nat) : Int) - ((s.sys i).fine : Nat)
      else ((s.sys i).fine : Nat) - ((env * 65536 : Nat) : Int) := by simp [State.cmpDev, State.isSet]

/-- Present from PRES, absent below ABS, else as it was. -/
theorem State.cmpVerdict_eq (s : State) (i env : Nat) : s.cmpVerdict i env
    = if (s.fld WD_CMPCFG.PRES i : Int) * ((s.sys i).fine : Nat) ≤ 2000 * s.cmpDev i env then 1
      else if 2000 * s.cmpDev i env < (s.fld WD_CMPCFG.ABS i : Int) * ((s.sys i).fine : Nat) then 0 else s.cmp i := by
  simp only [State.cmpVerdict, Nat.cast_mul, mul_comm (s.cmpDev i env)]

/-- COMPARATOR_EDGE of a comparator that has acquired its baseline and is neither masked nor off. -/
theorem exec_comparatorEdge {s : State} {i : Fin 64} (hacq : s.fld WD_CMPST.ACQ i.val = 1) (hon : s.cmp i.val < 3) (env : BitVec 24) :
    exec (.comparatorEdge i env) s = .next (setCmp i.val (s.cmpVerdict i.val env.toNat) s) :=
  if_pos (by simp [State.isSet, hacq, hon])

theorem setCmp_same {i st : Nat} {s : State} (h : s.cmp i = st) : setCmp i st s = s := if_pos h

/-- A new state is shown with its time, and no other comparator's is changed. -/
theorem setCmp_changes {i st : Nat} {s : State} (hst : st < 8) (h : s.cmp i ≠ st) :
    (setCmp i st s).cmp i = st ∧ (setCmp i st s).fld WD_EDGET.TIME i = s.nowTu % 2 ^ 32
      ∧ ∀ j, j ≠ i → (setCmp i st s).cmp j = s.cmp j ∧ (setCmp i st s).fld WD_EDGET.TIME j = s.fld WD_EDGET.TIME j := by
  have hstate := setCmp_kept h WD_CMPST.STATE (by decide)
  have htime := setCmp_kept h WD_EDGET.TIME (by decide)
  have hother : ∀ (f : Field) {j : Nat}, f.addr < 65536 → f.lo < 32 → j ≠ i → f.key j ≠ f.key i := fun f j ha hl hj =>
    Field.key_ne ha ha hl hl (.inl (Ne.symm hj))
  refine ⟨?_, ?_, fun j hj => ⟨?_, ?_⟩⟩
  · refine (hstate i).trans ((State.fld_setFld_apart (by decide) _ _ _ _).trans ((State.fld_setFld_self _ _ _ _).trans ?_))
    exact Nat.mod_eq_of_lt hst
  · exact (htime i).trans ((State.fld_setFld_self _ _ _ _).trans (Nat.mod_mod _ _))
  · refine (hstate j).trans ((State.fld_setFld_apart (by decide) _ _ _ _).trans ?_)
    exact State.fld_setFld_ne s st (hother WD_CMPST.STATE (by decide) (by decide) hj)
  · refine (htime j).trans ((State.fld_setFld_ne _ _ (hother WD_EDGET.TIME (by decide) (by decide) hj)).trans ?_)
    exact State.fld_setFld_apart (by decide) _ _ _ s

/-! ### Baselines (R144, R145) -/

/-- The 50 ms of an acquisition end at `m` with the baseline `f`, in 2^-24 of a DATA step, taken. -/
def baselineTaken (i f m : Nat) (s : State) : State :=
  ((setBase i f (s.advanceTo m)).setFld WD_CMPST.ACQ i 1).modSys i (fun x => { x with acqAt := none })

/-- They end at `m` with the baseline discarded, to be tried again at `n`. -/
def baselineDiscarded (i m n : Nat) (s : State) : State :=
  ((s.advanceTo m).modSys i (fun x => { x with acqAt := none, retryAt := some n })).flag WD_STATUS.BASEERR evWD

theorem State.baseOk_advanceTo (s : State) (m i base : Nat) : (s.advanceTo m).baseOk i base = s.baseOk i base := rfl

/-- BASELINE_ACQUISITION, 50 ms after its start: within BASEREF ± BASETOL or not. -/
theorem exec_baselineAcquisition {s : State} {i : Fin 64} {n : Nat} (h : (s.sys i.val).acqAt = some n) (base : BitVec 16) :
    exec (.baselineAcquisition i base) s
      = .next (if s.baseOk i.val base.toNat then baselineTaken i.val (base.toNat * 2 ^ 24) (n + 6250000) s
          else baselineDiscarded i.val (n + 6250000) (n + 125000000) s) := by
  change execBaselineAcquisition i base s = _
  unfold execBaselineAcquisition
  dsimp only
  rw [h]
  dsimp only
  rw [State.baseOk_advanceTo]
  split
  · rfl
  · rfl

theorem baselineTaken_shows (i f m : Nat) (s : State) :
    let t := baselineTaken i f m s
    t.fld WD_CMPST.BASE i = f / 2 ^ 24 % 2 ^ 16 ∧ t.fld WD_CMPST.ACQ i = 1 ∧ (t.sys i).acqAt = none ∧ t.cmp i = s.cmp i ∧ m ≤ t.tb
      ∧ Kept [WD_CMPST.BASE.key i, WD_CMPST.ACQ.key i] s t := by
  let u : State := setBase i f (s.advanceTo m)
  have hshown : u.fld WD_CMPST.BASE i = f / 2 ^ 24 % 2 ^ 16 := State.fld_setFld_self (s.advanceTo m) WD_CMPST.BASE i _
  have hbase : Kept [WD_CMPST.BASE.key i] s u := Kept.setFld (s.advanceTo m) WD_CMPST.BASE i _
  have hkept : Kept [WD_CMPST.BASE.key i, WD_CMPST.ACQ.key i] s (u.setFld WD_CMPST.ACQ i 1) :=
    (hbase.mono (by simp)).trans ((Kept.setFld u WD_CMPST.ACQ i 1).mono (by simp))
  have hfld : ∀ g : Field, (baselineTaken i f m s).fld g i = (u.setFld WD_CMPST.ACQ i 1).fld g i := fun g => State.modSys_fld _ _ _ _ g
  refine ⟨?_, ?_, ?_, ?_, ?_, hkept.trans (Kept.modSys _ i _ _)⟩
  · exact (hfld _).trans ((State.fld_setFld_apart (by decide) _ 1 i u).trans hshown)
  · exact (hfld _).trans (State.fld_setFld_self u WD_CMPST.ACQ i 1)
  · exact congrArg SysSt.acqAt (State.modSys_sys_self _ i _)
  · exact (hfld _).trans (hkept WD_CMPST.STATE i (by simp +decide [Field.key_ne_of_apart]))
  · exact (le_max_right s.tb m).trans_eq (State.advanceTo_tb_eq s m).symm

theorem baselineDiscarded_shows (i m n : Nat) (s : State) :
    let t := baselineDiscarded i m n s
    t.fld WD_STATUS.BASEERR = 1 ∧ t.fld WD_CMPST.ACQ i = s.fld WD_CMPST.ACQ i ∧ (t.sys i).retryAt = some n ∧ t.cmp i = s.cmp i := by
  let u : State := (s.advanceTo m).modSys i (fun x => { x with acqAt := none, retryAt := some n })
  have hleft : ∀ f : Field, WD_STATUS.BASEERR.apart f = true → (u.flag WD_STATUS.BASEERR evWD).fld f i = s.fld f i :=
    fun f hf => State.fld_flag_apart hf evWD i u
  refine ⟨State.fld_flag_self u _ _, hleft _ (by decide), ?_, hleft _ (by decide)⟩
  refine congrArg SysSt.retryAt ((State.sys_of_systems (State.flag_systems u _ _) i).trans (State.modSys_sys_self _ i _))

theorem exec_baselineRetry {s : State} {i : Fin 64} {n : Nat} (h : (s.sys i.val).retryAt = some n) :
    ∃ t, exec (.baselineRetry i) s = .next t ∧ (t.sys i.val).acqAt = some (max s.tb n) ∧ (t.sys i.val).retryAt = none
      ∧ t.regs = s.regs := by
  have hexec : exec (.baselineRetry i) s = .next ((s.advanceTo n).modSys i.val
      (fun x => { x with acqAt := some (s.advanceTo n).tb, retryAt := none })) := by
    change execBaselineRetry i s = _
    unfold execBaselineRetry
    dsimp only
    rw [h]
  refine ⟨_, hexec, ?_, ?_, rfl⟩
  · rw [State.modSys_sys_self, State.advanceTo_tb_eq]
  · rw [State.modSys_sys_self]

/-- A baseline that tracks holds at the limit it reaches. -/
theorem exec_baselineLimit {s : State} {i : Fin 64} (hacq : s.fld WD_CMPST.ACQ i.val = 1) (habs : s.cmp i.val = 0)
    (hclosed : s.isOpen (i.val / 2) = false) (high : Bool) :
    exec (.baselineLimit i high) s = .next ((setBase i.val (s.baseLimit i.val high) s).flag WD_STATUS.BASEERR evWD) :=
  if_pos (by simp [State.tracks, State.isSet, hacq, habs, hclosed])

/-- Settles O12: an edge by the verdict on its envelope, baselines by their times. -/
theorem comparatorsAndBaselines : Obligations.ComparatorsAndBaselines := by
  unfold Obligations.ComparatorsAndBaselines
  intro s i high env base at_ b e d pres abs
  have hdev : s.cmpDev i.val env.toNat = d := State.cmpDev_eq s i.val env.toNat
  have hverdict : s.cmpVerdict i.val env.toNat = if pres then 1 else if abs then 0 else s.cmp i.val := by
    rw [State.cmpVerdict_eq, hdev]
  refine ⟨fun hacq hon => ⟨fun st hst hne => ?_, fun hp ha => ?_⟩, fun hacq hok => ?_, fun hacq hok => ?_, exec_baselineRetry,
    fun hacq habs hclosed => exec_baselineLimit hacq habs hclosed high⟩
  · obtain ⟨hlt, hst⟩ : st < 8 ∧ s.cmpVerdict i.val env.toNat = st := by
      rw [hverdict]
      obtain ⟨rfl, hp⟩ | ⟨rfl, hp, ha⟩ := hst
      · exact ⟨by decide, if_pos hp⟩
      · exact ⟨by decide, (if_neg hp).trans (if_pos ha)⟩
    obtain ⟨hstate, htime, hother⟩ := setCmp_changes hlt hne
    exact ⟨_, (exec_comparatorEdge hacq hon env).trans (by rw [hst]), hstate, htime, fun j _ hj => hother j hj⟩
  · rw [exec_comparatorEdge hacq hon, setCmp_same]
    rw [hverdict, if_neg hp, if_neg ha]
  · have hshown : base.toNat * 2 ^ 24 / 2 ^ 24 % 2 ^ 16 = base.toNat := by
      rw [Nat.mul_div_cancel _ (by decide), Nat.mod_eq_of_lt base.isLt]
    obtain ⟨hbase, hrest⟩ := baselineTaken_shows i.val (base.toNat * 2 ^ 24) (at_ + 6250000) s
    exact ⟨_, (exec_baselineAcquisition hacq base).trans (congrArg _ (if_pos hok)), hbase.trans hshown, hrest⟩
  · refine ⟨_, (exec_baselineAcquisition hacq base).trans (congrArg _ (if_neg ?_)), baselineDiscarded_shows i.val _ _ s⟩
    exact Bool.eq_false_iff.1 hok

end Sys2Proof.Machine
end

section
/-! PROOFS. Claims, their time-out, and orphans (03 R152 to R154, R156, Table WD-11). -/

namespace Sys2Proof.Machine

/-! ### What the ends of claims and records show -/

/-- A value within its field's width reads back. -/
theorem State.fld_setFld_lt {f : Field} {v : Nat} (h : v < 2 ^ f.w) (i : Nat) (s : State) : (s.setFld f i v).fld f i = v :=
  (State.fld_setFld_self s f i v).trans (Nat.mod_eq_of_lt h)

/-- A final result is a change of registers alone. -/
theorem finalClaim_frame (k code dir dur : Nat) (s : State) :
    finalClaim k code dir dur s = { s with regs := (finalClaim k code dir dur s).regs } := by
  unfold finalClaim
  dsimp only
  cases code == 2 || code == 3
  · rfl
  · rfl

/-- The result of a claim in its head's fields (Table WD-17), HELD as it was. -/
theorem finalClaim_shows {code dir : Nat} (hcode : code < 8) (hdir : dir < 4) (k dur : Nat) (s : State) :
    let t := finalClaim k code dir dur s
    t.fld WD_HCLM.CODE k = code ∧ t.fld WD_HCLM.RDIR k = dir ∧ t.fld WD_HCLM.DUR k = min 0xFFFFFF (dur / 1250) := by
  let u : State := (s.setFld WD_HCLM.CODE k code).setFld WD_HCLM.RDIR k dir
  have hleft : ∀ g : Field, WD_XCOUNT.FAILS.apart g = true →
      (finalClaim k code dir dur s).fld g k = (u.setFld WD_HCLM.DUR k (min 0xFFFFFF (dur / 1250))).fld g k := fun g hg =>
    onlyIf_frame (g := fun t => t.fld g k) _ (State.fld_countFld_apart hg 0 1 k) _
  have hdur : min 0xFFFFFF (dur / 1250) < 2 ^ 24 := by omega
  refine ⟨?_, ?_, ?_⟩
  · refine (hleft _ (by decide)).trans ((State.fld_setFld_apart (by decide) _ _ _ _).trans ?_)
    exact (State.fld_setFld_apart (by decide) _ _ _ _).trans (State.fld_setFld_lt hcode k s)
  · refine (hleft _ (by decide)).trans ((State.fld_setFld_apart (by decide) _ _ _ _).trans ?_)
    exact State.fld_setFld_lt hdir k _
  · exact (hleft _ (by decide)).trans (State.fld_setFld_lt hdur k u)

theorem resolveClaim_head (k code dir dur : Nat) (s : State) :
    (resolveClaim k code dir dur s).head k = { s.head k with claim := none, result := some code } := by
  let u : State := s.modHead k (fun h => { h with claim := none, result := some code })
  have hheads : (resolveClaim k code dir dur s).heads = u.heads := by
    refine (State.flag_heads _ _ _).trans ((State.setFld_heads _ _ _ _).trans ?_)
    rw [finalClaim_frame]
  exact (State.head_of_heads hheads k).trans (State.modHead_head_self s k _)

theorem resolveClaim_tb (k code dir dur : Nat) (s : State) : (resolveClaim k code dir dur s).tb = s.tb := by
  unfold resolveClaim
  dsimp only
  rw [State.flag_tb, State.setFld_tb, finalClaim_frame, State.modHead_tb]

/-- A pending claim ends with its result shown, HELD clear and CLAIMDONE set. -/
theorem resolveClaim_shows {code dir : Nat} (hcode : code < 8) (hdir : dir < 4) (k dur : Nat) (s : State) :
    let t := resolveClaim k code dir dur s
    t.fld WD_HCLM.CODE k = code ∧ t.fld WD_HCLM.HELD k = 0 ∧ t.fld WD_STATUS.CLAIMDONE = 1 := by
  let u : State := finalClaim k code dir dur (s.modHead k (fun h => { h with claim := none, result := some code }))
  obtain ⟨hshown, -, -⟩ := finalClaim_shows hcode hdir k dur (s.modHead k (fun h => { h with claim := none, result := some code }))
  refine ⟨?_, ?_, State.fld_flag_self (u.setFld WD_HCLM.HELD k 0) _ _⟩
  · exact (State.fld_flag_apart (by decide) _ _ _).trans ((State.fld_setFld_apart (by decide) _ _ _ u).trans hshown)
  · exact (State.fld_flag_apart (by decide) _ _ _).trans (State.fld_setFld_self u _ _ _)

theorem setLatch_frame (f : Field) (k : Nat) (s : State) :
    (setLatch f k s).heads = s.heads ∧ (setLatch f k s).tb = s.tb := by
  unfold setLatch
  split
  · exact ⟨rfl, rfl⟩
  · exact ⟨State.flag_heads _ _ _, State.flag_tb _ _ _⟩

theorem orphan_frame (k : Nat) (r : Crossing) (s : State) : (orphan k r s).heads = s.heads ∧ (orphan k r s).tb = s.tb := by
  obtain ⟨hheads, htb⟩ := setLatch_frame BB_ORPHLAT.LAT k (orphanCounted k r s)
  exact ⟨hheads.trans (State.flag_heads _ _ _), htb.trans (State.flag_tb _ _ _)⟩

/-- An orphan is counted and shown as NOMATCH of its head, with its direction. -/
theorem orphan_shows (k : Nat) (r : Crossing) (s : State) :
    let t := orphan k r s
    t.fld WD_XCOUNT.ORPHANS = min 0xFFFF (s.fld WD_XCOUNT.ORPHANS + 1) ∧ t.fld WD_STATUS.ORPHAN = 1
      ∧ t.fld WD_HCLM.CODE k = 2 ∧ t.fld WD_HCLM.RDIR k = r.dir % 4 := by
  have hlatch := setLatch_kept BB_ORPHLAT.LAT k (orphanCounted k r s)
  have hflag : ∀ (g : Field) (j : Nat), [BB_ORPHLAT.LAT, BB_STATUS.LATCH, WD_STATUS.ORPHAN, WD_HCLM.DUR].all (fun f => f.apart g) = true →
      (orphan k r s).fld g j = (((s.countFld WD_XCOUNT.ORPHANS 0 1).setFld WD_HCLM.CODE k 2).setFld WD_HCLM.RDIR k r.dir).fld g j := by
    intro g j hg
    simp only [List.all_cons, List.all_nil, Bool.and_true, Bool.and_eq_true] at hg
    obtain ⟨hl, hs, ho, hd⟩ := hg
    refine (hlatch g (by simp [hl, hs]) j).trans ((State.fld_flag_apart ho _ _ _).trans ?_)
    exact State.fld_setFld_apart hd _ _ _ _
  refine ⟨?_, ?_, ?_, ?_⟩
  · refine (hflag _ 0 (by decide)).trans ((State.fld_setFld_apart (by decide) _ _ _ _).trans ?_)
    exact (State.fld_setFld_apart (by decide) _ _ _ _).trans (State.fld_countFld_self s _ 0 1)
  · exact (hlatch _ (by decide) 0).trans (State.fld_flag_self _ _ _)
  · refine (hflag _ k (by decide)).trans ((State.fld_setFld_apart (by decide) _ _ _ _).trans ?_)
    exact State.fld_setFld_self _ _ _ _
  · exact (hflag _ k (by decide)).trans (State.fld_setFld_self _ _ _ _)

/-! ### WD_CLAIM (R152, Table WD-11) -/

/-- A claim's result in WD_CLAIMRES (Table WD-17). -/
theorem claimRes_shows {k code dir : Nat} (hk : k < 32) (hcode : code < 8) (hdir : dir < 4) (s : State) :
    let t := claimRes k code dir s
    t.fld WD_CLAIMRES.CODE = code ∧ t.fld WD_CLAIMRES.RDIR = dir ∧ t.fld WD_CLAIMRES.HEAD = k := by
  refine ⟨?_, ?_, State.fld_setFld_lt hk 0 _⟩
  · refine (State.fld_setFld_apart (by decide) _ _ _ _).trans ((State.fld_setFld_apart (by decide) _ _ _ _).trans ?_)
    exact State.fld_setFld_lt hcode 0 s
  · exact (State.fld_setFld_apart (by decide) _ _ _ _).trans (State.fld_setFld_lt hdir 0 _)

theorem claimRes_kept (k code dir : Nat) (s : State) :
    KeptBut [WD_CLAIMRES.CODE, WD_CLAIMRES.RDIR, WD_CLAIMRES.HEAD] s (claimRes k code dir s) :=
  (((KeptBut.refl _ s).setFld (by decide) 0 code).setFld (by decide) 0 dir).setFld (by decide) 0 k

theorem claimRes_heads (k code dir : Nat) (s : State) : (claimRes k code dir s).heads = s.heads := rfl

/-- A result given at once is shown in WD_CLAIMRES and in its head's fields, and leaves the tally. -/
theorem giveClaim_shows {k code dir : Nat} (hk : k < 32) (hcode : code < 8) (hdir : dir < 4) (dur : Nat) (s : State) :
    let t := giveClaim k code dir dur s
    (t.fld WD_CLAIMRES.CODE = code ∧ t.fld WD_CLAIMRES.RDIR = dir ∧ t.fld WD_CLAIMRES.HEAD = k)
      ∧ (t.fld WD_HCLM.CODE k = code ∧ t.fld WD_HCLM.RDIR k = dir ∧ t.fld WD_HCLM.DUR k = min 0xFFFFFF (dur / 1250))
      ∧ t.head k = s.head k := by
  obtain ⟨hc, hr, hd⟩ := finalClaim_shows hcode hdir k dur s
  have hkept := claimRes_kept k code dir (finalClaim k code dir dur s)
  have hheads : (giveClaim k code dir dur s).heads = s.heads :=
    (claimRes_heads k code dir _).trans (by rw [finalClaim_frame])
  refine ⟨claimRes_shows hk hcode hdir _, ⟨?_, ?_, ?_⟩, State.head_of_heads hheads k⟩
  · exact (hkept _ (by decide) k).trans hc
  · exact (hkept _ (by decide) k).trans hr
  · exact (hkept _ (by decide) k).trans hd

theorem claim_head_of (v : Nat) : WD_CLAIM.HEAD.of v = v % 32 := Field.of_low rfl v

theorem exec_claim_hw {s : State} (h : s.canVote = true) (v : Word) : exec (.claim .hw v) s = .next (wdClaim .hw v.toNat s) :=
  asReq_hw h _

theorem wdClaim_refused {v : Nat} {s : State} (h : v / 2 ^ 5 % 4 = 0 ∨ (s.head (v % 32)).claim.isSome = true) :
    wdClaim .hw v s = s.flag WD_STATUS.CLAIMERR evWD := by
  have hdir : WD_CLAIM.DIR.of v = v / 2 ^ 5 % 4 := rfl
  unfold wdClaim
  rw [if_neg (by decide), claim_head_of, hdir]
  exact if_pos (by simpa using h)

/-- A claim with a direction beside no pending one is answered by its head's use and queue. -/
theorem wdClaim_taken {v : Nat} {s : State} (hd : v / 2 ^ 5 % 4 ≠ 0) (hc : (s.head (v % 32)).claim = none) :
    (s.fld WD_HCFG.HEN (v % 32) = 0 → wdClaim .hw v s = giveClaim (v % 32) 5 0 0 s)
    ∧ (s.fld WD_HCFG.HEN (v % 32) = 1 → ∀ r, (s.head (v % 32)).queue.find? (fun x => s.inTolerance (s.fld WD_CLAIMT.TIME) x) = some r →
        wdClaim .hw v s = giveClaim (v % 32) (claimCode (v / 2 ^ 5 % 4) r) r.dir r.dur
          (s.modHead (v % 32) (fun x => { x with queue := x.queue.erase r })))
    ∧ (s.fld WD_HCFG.HEN (v % 32) = 1 → (s.head (v % 32)).queue.find? (fun x => s.inTolerance (s.fld WD_CLAIMT.TIME) x) = none →
        wdClaim .hw v s = if (s.head (v % 32)).phase = 0 then giveClaim (v % 32) 2 0 0 s
          else claimRes (v % 32) 4 0 ((s.modHead (v % 32) (fun x =>
            { x with claim := some { time := s.fld WD_CLAIMT.TIME, dir := v / 2 ^ 5 % 4, since := s.tb } })).setFld WD_HCLM.HELD (v % 32) 1)) := by
  have hdir : WD_CLAIM.DIR.of v = v / 2 ^ 5 % 4 := rfl
  have hopen : (decide (v / 2 ^ 5 % 4 = 0) || (s.head (v % 32)).claim.isSome) = false := by rw [hc, decide_eq_false hd]; rfl
  unfold wdClaim
  rw [if_neg (by decide), claim_head_of, hdir]
  dsimp only
  rw [if_neg (Bool.eq_false_iff.1 hopen)]
  refine ⟨fun hen => if_pos (by simp [State.isSet, hen]), fun hen r hfind => ?_, fun hen hfind => ?_⟩
  · rw [if_neg (by simp [State.isSet, hen]), hfind]
  · rw [if_neg (by simp [State.isSet, hen]), hfind]

theorem claimCode_eq (dir : Nat) (r : Crossing) :
    claimCode dir r = if r.part = true ∨ r.dir = 3 ∨ dir = 3 then 1 else if r.dir = dir then 0 else 3 := by
  simp [claimCode, or_assoc]

theorem claimCode_lt (dir : Nat) (r : Crossing) : claimCode dir r < 8 := by
  rw [claimCode_eq]
  (repeat' split) <;> omega

/-- A record in tolerance answers the claim and leaves the queue. -/
theorem claim_matched {s : State} {v : Word} {r : Crossing} (hv : s.canVote = true) (hd : v.toNat / 2 ^ 5 % 4 ≠ 0)
    (hc : (s.head (v.toNat % 32)).claim = none) (hen : s.fld WD_HCFG.HEN (v.toNat % 32) = 1)
    (hfind : (s.head (v.toNat % 32)).queue.find? (fun x => s.inTolerance (s.fld WD_CLAIMT.TIME) x) = some r) (hr : r.dir ≤ 3) :
    let k := v.toNat % 32
    ∃ t, exec (.claim .hw v) s = .next t
      ∧ t.fld WD_CLAIMRES.CODE = claimCode (v.toNat / 2 ^ 5 % 4) r
      ∧ t.fld WD_CLAIMRES.RDIR = r.dir ∧ t.fld WD_CLAIMRES.HEAD = k
      ∧ t.fld WD_HCLM.CODE k = t.fld WD_CLAIMRES.CODE ∧ t.fld WD_HCLM.RDIR k = r.dir
      ∧ t.fld WD_HCLM.DUR k = min 0xFFFFFF (r.dur / 1250) ∧ (t.head k).queue = (s.head k).queue.erase r := by
  intro k
  obtain ⟨⟨hcode, hdir, hhead⟩, ⟨hcode', hdir', hdur⟩, hleft⟩ := giveClaim_shows (k := k) (Nat.mod_lt _ (by decide))
    (claimCode_lt (v.toNat / 2 ^ 5 % 4) r) (Nat.lt_succ_of_le hr) r.dur (s.modHead k (fun x => { x with queue := x.queue.erase r }))
  obtain ⟨-, hgive, -⟩ := wdClaim_taken hd hc
  refine ⟨_, (exec_claim_hw hv v).trans (congrArg _ (hgive hen r hfind)), hcode, hdir, hhead, hcode'.trans hcode.symm, hdir', hdur, ?_⟩
  rw [hleft, State.modHead_head_self]

/-- With no record in tolerance the claim has no match, or waits while the head is occupied. -/
theorem claim_unmatched {s : State} {v : Word} (hv : s.canVote = true) (hd : v.toNat / 2 ^ 5 % 4 ≠ 0)
    (hc : (s.head (v.toNat % 32)).claim = none) (hen : s.fld WD_HCFG.HEN (v.toNat % 32) = 1)
    (hfind : (s.head (v.toNat % 32)).queue.find? (fun x => s.inTolerance (s.fld WD_CLAIMT.TIME) x) = none) :
    let k := v.toNat % 32
    ∃ t, exec (.claim .hw v) s = .next t ∧ t.fld WD_CLAIMRES.CODE = (if (s.head k).phase = 0 then 2 else 4)
      ∧ t.fld WD_CLAIMRES.HEAD = k ∧ (t.head k).queue = (s.head k).queue
      ∧ ((s.head k).phase ≠ 0 → t.fld WD_HCLM.HELD k = 1 ∧
          (t.head k).claim = some { time := s.fld WD_CLAIMT.TIME, dir := v.toNat / 2 ^ 5 % 4, since := s.tb }) := by
  intro k
  have hk : k < 32 := Nat.mod_lt _ (by decide)
  obtain ⟨-, -, hnone⟩ := wdClaim_taken hd hc
  have hexec := (exec_claim_hw hv v).trans (congrArg _ (hnone hen hfind))
  by_cases hphase : (s.head k).phase = 0
  · obtain ⟨⟨hcode, -, hhead⟩, -, hleft⟩ := giveClaim_shows hk (show 2 < 8 by decide) (show 0 < 4 by decide) 0 s
    exact ⟨_, hexec.trans (congrArg _ (if_pos hphase)), hcode.trans (if_pos hphase).symm, hhead, by rw [hleft], fun h => absurd hphase h⟩
  · let c : ClaimSt := { time := s.fld WD_CLAIMT.TIME, dir := v.toNat / 2 ^ 5 % 4, since := s.tb }
    let w : State := s.modHead k (fun x => { x with claim := some c })
    let u : State := w.setFld WD_HCLM.HELD k 1
    have hkept := claimRes_kept k 4 0 u
    have hleft : (claimRes k 4 0 u).head k = w.head k := State.head_of_heads (claimRes_heads k 4 0 u) k
    have hwait : w.head k = { s.head k with claim := some c } := State.modHead_head_self s k _
    obtain ⟨hcode, -, hhead⟩ := claimRes_shows hk (show 4 < 8 by decide) (show 0 < 4 by decide) u
    refine ⟨_, hexec.trans (congrArg _ (if_neg hphase)), hcode.trans (if_neg hphase).symm, hhead, ?_, fun _ => ⟨?_, ?_⟩⟩
    · exact (congrArg HeadSt.queue hleft).trans (by rw [hwait])
    · exact (hkept _ (by decide) k).trans (State.fld_setFld_self _ _ _ _)
    · exact (congrArg HeadSt.claim hleft).trans (by rw [hwait])

/-- A head that is not in use here answers NOTLOCAL. -/
theorem claim_notLocal {s : State} {v : Word} (hv : s.canVote = true) (hd : v.toNat / 2 ^ 5 % 4 ≠ 0)
    (hc : (s.head (v.toNat % 32)).claim = none) (hen : s.fld WD_HCFG.HEN (v.toNat % 32) = 0) :
    ∃ t, exec (.claim .hw v) s = .next t ∧ t.fld WD_CLAIMRES.CODE = 5 ∧ t.head (v.toNat % 32) = s.head (v.toNat % 32) := by
  obtain ⟨hgive, -, -⟩ := wdClaim_taken hd hc
  obtain ⟨⟨hcode, -, -⟩, -, hleft⟩ := giveClaim_shows (k := v.toNat % 32) (Nat.mod_lt _ (by decide)) (show 5 < 8 by decide)
    (show 0 < 4 by decide) 0 s
  exact ⟨_, (exec_claim_hw hv v).trans (congrArg _ (hgive hen)), hcode, hleft⟩

/-! ### AGE (R153, R154) -/

/-- CLAIM_TIMEOUT: after AGE a pending claim ends as NOMATCH. -/
theorem exec_claimTimeout {s : State} {k : Fin 32} {c : ClaimSt} (h : (s.head k.val).claim = some c) :
    ∃ t, exec (.claimTimeout k) s = .next t ∧ t.tb = max s.tb (c.since + s.fld WD_CTRL.AGE * 125000)
      ∧ t.fld WD_HCLM.CODE k.val = 2 ∧ t.fld WD_HCLM.HELD k.val = 0 ∧ t.fld WD_STATUS.CLAIMDONE = 1
      ∧ (t.head k.val).claim = none ∧ (t.head k.val).queue = (s.head k.val).queue := by
  have hexec : exec (.claimTimeout k) s = .next (resolveClaim k.val 2 0 0 (s.advanceTo (c.since + s.ageTu))) := by
    change execClaimTimeout k s = _
    unfold execClaimTimeout
    rw [h]
  obtain ⟨hcode, hheld, hdone⟩ := resolveClaim_shows (show 2 < 8 by decide) (show 0 < 4 by decide) k.val 0 (s.advanceTo (c.since + s.ageTu))
  refine ⟨_, hexec, ?_, hcode, hheld, hdone, ?_, ?_⟩
  · rw [resolveClaim_tb, State.advanceTo_tb_eq, State.ageTu]
  · rw [resolveClaim_head]
  · rw [resolveClaim_head, State.head_of_heads (State.advanceTo_heads s _)]

/-- ORPHAN: after AGE the oldest record leaves the queue and is counted; a pending claim stays. -/
theorem exec_orphan {s : State} {k : Fin 32} {r : Crossing} {rest : List Crossing} (h : (s.head k.val).queue = r :: rest) :
    ∃ t, exec (.orphan k) s = .next t ∧ t.tb = max s.tb (r.last + s.fld WD_CTRL.AGE * 125000)
      ∧ (t.head k.val).queue = rest ∧ (t.head k.val).claim = (s.head k.val).claim
      ∧ t.fld WD_XCOUNT.ORPHANS = min 0xFFFF (s.fld WD_XCOUNT.ORPHANS + 1)
      ∧ t.fld WD_STATUS.ORPHAN = 1 ∧ t.fld WD_HCLM.CODE k.val = 2 ∧ t.fld WD_HCLM.RDIR k.val = r.dir % 4
      ∧ t.fld WD_HCLM.HELD k.val = s.fld WD_HCLM.HELD k.val := by
  generalize hm : r.last + s.fld WD_CTRL.AGE * 125000 = m
  let u : State := (s.advanceTo m).modHead k.val (fun x => { x with queue := rest })
  have hexec : exec (.orphan k) s = .next (orphan k.val r u) := by
    change execOrphan k s = _
    unfold execOrphan
    rw [h]
    dsimp only
    rw [State.ageTu, hm]
  have hfld : ∀ f j, u.fld f j = s.fld f j := fun f j => (State.modHead_fld _ _ _ _ f).trans (State.advanceTo_fld _ _ _ f)
  obtain ⟨hheads, htb⟩ := orphan_frame k.val r u
  have hhead : (orphan k.val r u).head k.val = { s.head k.val with queue := rest } :=
    (State.head_of_heads hheads _).trans ((State.modHead_head_self _ _ _).trans (by
      rw [State.head_of_heads (State.advanceTo_heads s m)]))
  obtain ⟨hcount, hflag, hcode, hdir⟩ := orphan_shows k.val r u
  rw [hfld] at hcount
  refine ⟨_, hexec, htb.trans ((State.modHead_tb _ _ _).trans (State.advanceTo_tb_eq s m)), ?_, ?_, hcount, hflag, hcode, hdir, ?_⟩
  · rw [hhead]
  · rw [hhead]
  · exact (orphan_kept k.val r u _ (by decide) _).trans (hfld _ _)

/-- Settles O13: a claim by the head's state and queue, then the two time-outs. -/
theorem claimsAreResolvedAndAge : Obligations.ClaimsAreResolvedAndAge := by
  unfold Obligations.ClaimsAreResolvedAndAge
  refine ⟨?_, fun s k c r rest => ⟨exec_claimTimeout, exec_orphan⟩⟩
  intro s v r k d h hv
  refine ⟨fun hbad => ?_, fun hd hc hen hfind hr => ?_, claim_unmatched hv, claim_notLocal hv⟩
  · rw [exec_claim_hw hv, wdClaim_refused hbad]
  · rw [← claimCode_eq]
    exact claim_matched hv hd hc hen hfind hr

end Sys2Proof.Machine
end

section
/-! PROOFS. The proofs of heads (03 R157 to R160, R611). -/

namespace Sys2Proof.Machine

/-! ### The comparators' verdict (R157) -/

theorem bit_lt_two (b : Bool) : bit b < 2 ^ 1 := by cases b <;> decide

/-- A head's round of both systems with the verdicts `a` and `b`, before what follows from them. -/
def roundJudged (k : Nat) (q : Nat × List Nat) (a b : Bool) (s : State) : State :=
  ((((s.setFld WD_PROOF.PA k (bit a)).setFld WD_PROOF.PB k (bit b)).modSys (2 * k) (fun x => { x with inj := none })).modSys
    (2 * k + 1) (fun x => { x with inj := none })).modHead k (fun h => { h with rounds := h.rounds.erase q })

theorem roundJudged_kept (k : Nat) (q : Nat × List Nat) (a b : Bool) (s : State) :
    KeptBut [WD_PROOF.PA, WD_PROOF.PB] s (roundJudged k q a b s) :=
  (((((KeptBut.refl _ s).setFld (by decide) k (bit a)).setFld (by decide) k (bit b)).modSys _ _).modSys _ _).modHead k _

theorem roundJudged_shows (k : Nat) (q : Nat × List Nat) (a b : Bool) (s : State) :
    (roundJudged k q a b s).fld WD_PROOF.PA k = bit a ∧ (roundJudged k q a b s).fld WD_PROOF.PB k = bit b := by
  unfold roundJudged
  simp only [State.modHead_fld, State.modSys_fld]
  exact ⟨(State.fld_setFld_apart (by decide) _ _ _ _).trans (State.fld_setFld_lt (bit_lt_two a) k s),
    State.fld_setFld_lt (bit_lt_two b) k _⟩

/-- The verdict on a round of both systems of a head. -/
theorem judgeRound_pair {s : State} {k m : Nat} {ja jb : Injection} (ha : (s.sys (2 * k)).inj = some ja)
    (hb : (s.sys (2 * k + 1)).inj = some jb) :
    judgeRound k (m, [2 * k, 2 * k + 1]) s
      = if (s.injectionOk (2 * k) ja && s.injectionOk (2 * k + 1) jb) = true then
          (roundJudged k (m, [2 * k, 2 * k + 1]) (s.injectionOk (2 * k) ja) (s.injectionOk (2 * k + 1) jb) s).setFld WD_PROOF.CPEND k 1
        else proofFail k
          (roundJudged k (m, [2 * k, 2 * k + 1]) (s.injectionOk (2 * k) ja) (s.injectionOk (2 * k + 1) jb) s) := by
  have hpa : proofField (2 * k) = WD_PROOF.PA := if_pos (by omega)
  have hpb : proofField (2 * k + 1) = WD_PROOF.PB := if_neg (by omega)
  unfold judgeRound
  simp only [ha, hb, forEach_cons, forEach_nil, hpa, hpb, List.all_cons, List.all_nil, Bool.and_true, List.length_cons, List.length_nil]
  rfl

theorem proofFail_kept (k : Nat) (s : State) : KeptBut [WD_PROOF.FAIL, WD_STATUS.PROOFFAIL] s (proofFail k s) :=
  ((KeptBut.refl _ s).setFld (by decide) k 1).flag (by decide) evWD

theorem proofFail_shows (k : Nat) (s : State) :
    (proofFail k s).fld WD_PROOF.FAIL k = 1 ∧ (proofFail k s).fld WD_STATUS.PROOFFAIL = 1 :=
  ⟨(State.fld_flag_apart (by decide) _ _ _).trans (State.fld_setFld_self s _ _ _), State.fld_flag_self _ _ _⟩

/-- A round whose injections have run with their tails is over. -/
theorem State.roundOver_pair {s : State} {k m : Nat} {ja jb : Injection} (h : (s.head k).rounds = [(m, [2 * k, 2 * k + 1])])
    (ha : (s.sys (2 * k)).inj = some ja) (hb : (s.sys (2 * k + 1)).inj = some jb) (hja : ja.left + ja.tail = 0)
    (hjb : jb.left + jb.tail = 0) : s.roundOver k = some (m, [2 * k, 2 * k + 1]) := by
  have hra : (s.sys (2 * k)).inTest = false := by simp only [SysSt.inTest, ha, hja]; rfl
  have hrb : (s.sys (2 * k + 1)).inTest = false := by simp only [SysSt.inTest, hb, hjb]; rfl
  simp [State.roundOver, h, hra, hrb]

/-- COMPARATOR_PROOF: PA and PB by the verdict of each system; the round passes when both do. -/
theorem exec_comparatorProof {s : State} {k : Fin 32} {m : Nat} {ja jb : Injection}
    (h : (s.head k.val).rounds = [(m, [2 * k.val, 2 * k.val + 1])]) (ha : (s.sys (2 * k.val)).inj = some ja)
    (hb : (s.sys (2 * k.val + 1)).inj = some jb) (hja : ja.left + ja.tail = 0) (hjb : jb.left + jb.tail = 0) :
    ∃ t, exec (.comparatorProof k) s = .next t ∧ t.fld WD_PROOF.PA k.val = bit (s.injectionOk (2 * k.val) ja)
      ∧ t.fld WD_PROOF.PB k.val = bit (s.injectionOk (2 * k.val + 1) jb) ∧ t.fld WD_PROOF.AGE k.val = s.fld WD_PROOF.AGE k.val
      ∧ ((s.injectionOk (2 * k.val) ja && s.injectionOk (2 * k.val + 1) jb) = true →
          t.fld WD_PROOF.CPEND k.val = 1 ∧ t.fld WD_PROOF.FAIL k.val = s.fld WD_PROOF.FAIL k.val)
      ∧ ((s.injectionOk (2 * k.val) ja && s.injectionOk (2 * k.val + 1) jb) = false →
          t.fld WD_PROOF.FAIL k.val = 1 ∧ t.fld WD_STATUS.PROOFFAIL = 1 ∧ t.fld WD_PROOF.CPEND k.val = s.fld WD_PROOF.CPEND k.val) := by
  have hexec : exec (.comparatorProof k) s = .next (judgeRound k.val (m, [2 * k.val, 2 * k.val + 1]) s) := by
    change execComparatorProof k s = _
    unfold execComparatorProof
    rw [State.roundOver_pair h ha hb hja hjb]
  rw [judgeRound_pair ha hb] at hexec
  generalize s.injectionOk (2 * k.val) ja = a at hexec ⊢
  generalize s.injectionOk (2 * k.val + 1) jb = b at hexec ⊢
  have hkept := roundJudged_kept k.val (m, [2 * k.val, 2 * k.val + 1]) a b s
  obtain ⟨hpa, hpb⟩ := roundJudged_shows k.val (m, [2 * k.val, 2 * k.val + 1]) a b s
  generalize roundJudged k.val (m, [2 * k.val, 2 * k.val + 1]) a b s = u at hexec hkept hpa hpb
  cases hab : a && b with
  | true =>
    have hrest : KeptBut [WD_PROOF.CPEND] u (u.setFld WD_PROOF.CPEND k.val 1) := (KeptBut.refl _ u).setFld (by decide) k.val 1
    refine ⟨_, hexec.trans (congrArg _ (if_pos hab)), (hrest _ (by decide) _).trans hpa, (hrest _ (by decide) _).trans hpb, ?_,
      fun _ => ⟨State.fld_setFld_self u _ _ _, ?_⟩, fun h => absurd h (by decide)⟩
    · exact (hrest _ (by decide) _).trans (hkept _ (by decide) _)
    · exact (hrest _ (by decide) _).trans (hkept _ (by decide) _)
  | false =>
    have hrest := proofFail_kept k.val u
    obtain ⟨hfail, hflag⟩ := proofFail_shows k.val u
    refine ⟨_, hexec.trans (congrArg _ (if_neg (Bool.eq_false_iff.1 hab))), (hrest _ (by decide) _).trans hpa,
      (hrest _ (by decide) _).trans hpb, ?_, fun h => absurd h (by decide), fun _ => ⟨hfail, hflag, ?_⟩⟩
    · exact (hrest _ (by decide) _).trans (hkept _ (by decide) _)
    · exact (hrest _ (by decide) _).trans (hkept _ (by decide) _)

/-! ### The engine's verdict (R611) -/

theorem proofeng_head_of (v : Nat) : WD_PROOFENG.HEAD.of v = v % 32 := Field.of_low rfl v

theorem exec_proofeng_hw {s : State} (h : s.canVote = true) (v : Word) :
    exec (.proofeng .hw v) s = .next (wdProofEng .hw v.toNat s) := asReq_hw h _

/-- A passed proof: its age starts anew and its staleness ends. -/
def proofPassed (k : Nat) (s : State) : State :=
  ((((s.setFld WD_PROOF.AGE k 0).setFld WD_PROOF.EP k 1).setFld WD_PROOF.CPEND k 0).putFbit WD_PSTALE.STALE 0 k false).modHead k
    (fun h => { h with proofAt := s.tb })

theorem wdProofEng_pass {v : Nat} {s : State} (hp : v / 2 ^ 8 % 2 = 1) (hc : s.fld WD_PROOF.CPEND (v % 32) = 1) :
    wdProofEng .hw v s = proofPassed (v % 32) s := by
  have hpass : WD_PROOFENG.PASS.of v = v / 2 ^ 8 % 2 := rfl
  unfold wdProofEng
  rw [if_neg (by decide), proofeng_head_of, hpass]
  dsimp only
  rw [if_pos hp, if_pos (by simp [State.isSet, hc])]
  rfl

theorem wdProofEng_fail {v : Nat} {s : State} (hp : v / 2 ^ 8 % 2 = 0) :
    wdProofEng .hw v s = proofFail (v % 32) ((s.setFld WD_PROOF.EP (v % 32) 0).setFld WD_PROOF.CPEND (v % 32) 0) := by
  have hpass : WD_PROOFENG.PASS.of v = v / 2 ^ 8 % 2 := rfl
  unfold wdProofEng
  rw [if_neg (by decide), proofeng_head_of, hpass]
  exact if_neg (by omega)

theorem proofPassed_shows {k : Nat} (hk : k < 32) (s : State) :
    let t := proofPassed k s
    t.fld WD_PROOF.AGE k = 0 ∧ t.proofAge k = 0 ∧ t.fld WD_PROOF.EP k = 1 ∧ t.fld WD_PROOF.CPEND k = 0
      ∧ t.fbit WD_PSTALE.STALE k = false := by
  let u : State := ((s.setFld WD_PROOF.AGE k 0).setFld WD_PROOF.EP k 1).setFld WD_PROOF.CPEND k 0
  have hfld : ∀ (f : Field) (j : Nat), (proofPassed k s).fld f j = (u.putFbit WD_PSTALE.STALE 0 k false).fld f j := fun f j =>
    State.modHead_fld _ _ _ _ f
  have hage : (proofPassed k s).fld WD_PROOF.AGE k = 0 := by
    refine (hfld _ k).trans ((State.fld_putFbit_apart (by decide) _ _ _ _ u).trans ((State.fld_setFld_apart (by decide) _ _ _ _).trans ?_))
    exact (State.fld_setFld_apart (by decide) _ _ _ _).trans (State.fld_setFld_self s _ _ _)
  have hhead : ((proofPassed k s).head k).proofAt = s.tb := congrArg HeadSt.proofAt (State.modHead_head_self _ k _)
  refine ⟨hage, ?_, ?_, ?_, ?_⟩
  · have htb : (proofPassed k s).tb = s.tb := rfl
    unfold State.proofAge
    rw [hage, if_neg (by decide), hhead, htb, Nat.sub_self, Nat.zero_div, Nat.min_zero]
  · refine (hfld _ k).trans ((State.fld_putFbit_apart (by decide) _ _ _ _ u).trans ((State.fld_setFld_apart (by decide) _ _ _ _).trans ?_))
    exact State.fld_setFld_self _ _ _ _
  · exact (hfld _ k).trans ((State.fld_putFbit_apart (by decide) _ _ _ _ u).trans (State.fld_setFld_self _ _ _ _))
  · unfold State.fbit
    rw [hfld]
    exact (State.fbit_putFbit u WD_PSTALE.STALE 0 k false hk).trans (if_pos rfl)

theorem proofeng_passes {s : State} {v : Word} (hv : s.canVote = true) (hp : v.toNat / 2 ^ 8 % 2 = 1)
    (hc : s.fld WD_PROOF.CPEND (v.toNat % 32) = 1) :
    let h := v.toNat % 32
    ∃ t, exec (.proofeng .hw v) s = .next t ∧ t.fld WD_PROOF.AGE h = 0 ∧ t.proofAge h = 0 ∧ t.fld WD_PROOF.EP h = 1
      ∧ t.fld WD_PROOF.CPEND h = 0 ∧ t.fbit WD_PSTALE.STALE h = false :=
  ⟨_, (exec_proofeng_hw hv v).trans (congrArg _ (wdProofEng_pass hp hc)), proofPassed_shows (Nat.mod_lt _ (by decide)) s⟩

theorem proofeng_fails {s : State} {v : Word} (hv : s.canVote = true) (hp : v.toNat / 2 ^ 8 % 2 = 0) :
    let h := v.toNat % 32
    ∃ t, exec (.proofeng .hw v) s = .next t ∧ t.fld WD_PROOF.FAIL h = 1 ∧ t.fld WD_STATUS.PROOFFAIL = 1
      ∧ t.fld WD_PROOF.EP h = 0 ∧ t.fld WD_PROOF.CPEND h = 0 ∧ t.fld WD_PROOF.AGE h = s.fld WD_PROOF.AGE h := by
  intro h
  let u : State := (s.setFld WD_PROOF.EP h 0).setFld WD_PROOF.CPEND h 0
  have hrest := proofFail_kept h u
  obtain ⟨hfail, hflag⟩ := proofFail_shows h u
  refine ⟨_, (exec_proofeng_hw hv v).trans (congrArg _ (wdProofEng_fail hp)), hfail, hflag, ?_, ?_, ?_⟩
  · refine (hrest WD_PROOF.EP (by decide) h).trans ((State.fld_setFld_apart (by decide) _ _ _ _).trans ?_)
    exact State.fld_setFld_self s _ _ _
  · exact (hrest WD_PROOF.CPEND (by decide) h).trans (State.fld_setFld_self _ _ _ _)
  · refine (hrest WD_PROOF.AGE (by decide) h).trans ((State.fld_setFld_apart (by decide) _ _ _ _).trans ?_)
    exact State.fld_setFld_apart (by decide) _ _ _ s

/-! ### Staleness (R159) -/

/-- The state in which a head in use becomes stale: as it is where the head was never proved, else with the age at `lim` minutes. -/
def State.atStaleAge (k lim : Nat) (s : State) : State :=
  if s.fld WD_PROOF.AGE k = 0xFFFF then s
  else (s.advanceTo ((s.head k).proofAt + lim * 7500000000)).setFld WD_PROOF.AGE k lim

theorem exec_proofStale {s : State} {k : Fin 32} (hen : s.fld WD_HCFG.HEN k.val = 1) (hst : s.fbit WD_PSTALE.STALE k.val = false) :
    exec (.proofStale k) s = .next (((s.atStaleAge k.val (s.fld WD_CTRL.PROOFMAX * 60 + 1)).putFbit WD_PSTALE.STALE 0 k.val true).flag
      WD_STATUS.PROOFSTALE evWD) := by
  have hdue : (!s.isSet WD_HCFG.HEN k.val || s.fbit WD_PSTALE.STALE k.val) = false := by simp [State.isSet, hen, hst]
  exact if_neg (Bool.eq_false_iff.1 hdue)

theorem State.atStaleAge_tb {k : Nat} {s : State} (h : s.fld WD_PROOF.AGE k ≠ 0xFFFF) (lim : Nat) :
    (s.head k).proofAt + lim * 7500000000 ≤ (s.atStaleAge k lim).tb := by
  unfold State.atStaleAge
  rw [if_neg h, State.setFld_tb, State.advanceTo_tb_eq]
  exact le_max_right _ _

/-- Marking a head stale sets its bit, is shown, and takes no time. -/
theorem markStale_shows {k : Nat} (hk : k < 32) (s : State) :
    let t := (s.putFbit WD_PSTALE.STALE 0 k true).flag WD_STATUS.PROOFSTALE evWD
    t.fbit WD_PSTALE.STALE k = true ∧ t.fld WD_STATUS.PROOFSTALE = 1 ∧ t.tb = s.tb := by
  refine ⟨?_, State.fld_flag_self _ _ _, State.flag_tb _ _ _⟩
  unfold State.fbit
  rw [State.fld_flag_apart (by decide)]
  exact (State.fbit_putFbit s WD_PSTALE.STALE 0 k true hk).trans (if_pos rfl)

theorem proofStale_shows {s : State} {k : Fin 32} (hen : s.fld WD_HCFG.HEN k.val = 1) (hst : s.fbit WD_PSTALE.STALE k.val = false) :
    ∃ t, exec (.proofStale k) s = .next t ∧ t.fbit WD_PSTALE.STALE k.val = true ∧ t.fld WD_STATUS.PROOFSTALE = 1
      ∧ (s.fld WD_PROOF.AGE k.val ≠ 0xFFFF →
          (s.head k.val).proofAt + (s.fld WD_CTRL.PROOFMAX * 60 + 1) * 7500000000 ≤ t.tb) := by
  obtain ⟨hstale, hflag, htb⟩ := markStale_shows k.isLt (s.atStaleAge k.val (s.fld WD_CTRL.PROOFMAX * 60 + 1))
  exact ⟨_, exec_proofStale hen hst, hstale, hflag, fun h => (State.atStaleAge_tb h _).trans_eq htb.symm⟩

/-- Settles O14: a round by the verdict of each system, then the engine's verdict and staleness. -/
theorem proofsOfHeads : Obligations.ProofsOfHeads := by
  unfold Obligations.ProofsOfHeads
  refine ⟨fun s k m ja jb h ha hb hja hjb => ?_, fun s k v => ⟨proofeng_passes, proofeng_fails, proofStale_shows⟩⟩
  obtain ⟨t, hexec, hpa, hpb, hage, hpass, hfail⟩ := exec_comparatorProof h ha hb hja hjb
  refine ⟨fun hoka hokb => ?_, fun hoka hokb => ?_⟩
  · rw [hoka, hokb] at hpass
    rw [hoka] at hpa
    rw [hokb] at hpb
    obtain ⟨hcpend, hsame⟩ := hpass rfl
    exact ⟨t, hexec, hpa, hpb, hcpend, hsame, hage⟩
  · rw [hoka, hokb] at hfail
    rw [hoka] at hpa
    rw [hokb] at hpb
    obtain ⟨hset, hflag, hcpend⟩ := hfail rfl
    exact ⟨t, hexec, hpa, hpb, hset, hflag, hcpend⟩

end Sys2Proof.Machine
end

section
/-! PROOFS. Passage flags and the configuration of a head (03 R127, R161, R163). -/

namespace Sys2Proof.Machine

/-! ### Passage flags (R163) -/

/-- The heads whose bit stands in a word of one bit. -/
theorem heads_of_two_pow {k : Nat} (hk : k < 32) : (List.range 32).filter (fun h => (2 ^ k).testBit h) = [k] := by
  have hone : ∀ j < 32, (List.range 32).filter (fun h => (2 ^ j).testBit h) = [j] := by decide
  exact hone k hk

theorem State.primaryOf_contains (s : State) (e : Fin 6) {k : Nat} (hk : k < 32) :
    (s.primaryOf (.se e)).contains k = decide (s.fld GR_HPLACE.PRIM k = e.val) := by
  simp [State.primaryOf, hk, List.contains_eq_mem]

/-- A write of one head's bit takes effect for the head's primary engine alone. -/
theorem wdPass_two_pow (e : Fin 6) (set : Bool) {k : Nat} (hk : k < 32) (s : State) :
    wdPass (.se e) set (2 ^ k) s = if s.fld GR_HPLACE.PRIM k = e.val then s.putFbit WD_PASS.PASS 0 k set
      else (s.reject (.se e)).flag WD_STATUS.PASSREJ evWD := by
  have hmine := s.primaryOf_contains e hk
  unfold wdPass
  rw [heads_of_two_pow hk]
  by_cases h : s.fld GR_HPLACE.PRIM k = e.val
  · rw [decide_eq_true h] at hmine
    rw [if_pos h]
    simp only [List.filter_cons, List.filter_nil, List.all_cons, List.all_nil, hmine, forEach_cons, forEach_nil, Bool.and_true, if_true]
  · rw [decide_eq_false h] at hmine
    rw [if_neg h]
    simp only [List.filter_cons, List.filter_nil, List.all_cons, List.all_nil, hmine, forEach_nil, Bool.and_true, if_neg Bool.false_ne_true]

theorem toNat_two_pow {k : Nat} (hk : k < 32) : (BitVec.ofNat 32 (2 ^ k)).toNat = 2 ^ k := by
  rw [BitVec.toNat_ofNat]
  exact Nat.mod_eq_of_lt (Nat.pow_lt_pow_right (by decide) hk)

theorem exec_passset_se (e : Fin 6) {k : Nat} (hk : k < 32) (s : State) :
    exec (.passset (.se e) (BitVec.ofNat 32 (2 ^ k))) s = .next (wdPass (.se e) true (2 ^ k) s) := by
  have h : exec (.passset (.se e) (BitVec.ofNat 32 (2 ^ k))) s = .next (wdPass (.se e) true (BitVec.ofNat 32 (2 ^ k)).toNat s) :=
    asReq_of_present (s := s) (q := .se e) rfl _
  rwa [toNat_two_pow hk] at h

theorem exec_passclr_se (e : Fin 6) {k : Nat} (hk : k < 32) (s : State) :
    exec (.passclr (.se e) (BitVec.ofNat 32 (2 ^ k))) s = .next (wdPass (.se e) false (2 ^ k) s) := by
  have h : exec (.passclr (.se e) (BitVec.ofNat 32 (2 ^ k))) s = .next (wdPass (.se e) false (BitVec.ofNat 32 (2 ^ k)).toNat s) :=
    asReq_of_present (s := s) (q := .se e) rfl _
  rwa [toNat_two_pow hk] at h

/-- The primary engine's write changes its head's flag and nothing else. -/
theorem wdPass_primary {s : State} {e : Fin 6} {k : Nat} (hk : k < 32) (h : s.fld GR_HPLACE.PRIM k = e.val) (set : Bool) :
    let t := wdPass (.se e) set (2 ^ k) s
    t.passage k = set ∧ (∀ j, j < 32 → j ≠ k → t.passage j = s.passage j) ∧ Kept [WD_PASS.PASS.key 0] s t ∧ t = { s with regs := t.regs } := by
  have hbit : ∀ j, j < 32 → (s.putFbit WD_PASS.PASS 0 k set).passage j = if j = k then set else s.passage j :=
    fun j hj => State.fbit_putFbit s WD_PASS.PASS 0 k set hj
  intro t
  have ht : t = s.putFbit WD_PASS.PASS 0 k set := (wdPass_two_pow e set hk s).trans (if_pos h)
  rw [ht]
  exact ⟨(hbit k hk).trans (if_pos rfl), fun j hj hne => (hbit j hj).trans (if_neg hne), Kept.setFld s _ _ _, rfl⟩

/-! ### WD_HCFG (R161) -/

/-- A write that changes HEN is held. -/
theorem hcfgWrite_held {s : State} {k : Fin 32} {v : Word} (hv : s.canVote = true) (hhold : v.toNat / 2 ^ 12 % 16 ≤ 8)
    (hspace : 20 ≤ v.toNat / 2 ^ 16 % 256) (hhen : v.toNat / 2 ^ 11 % 2 ≠ s.fld WD_HCFG.HEN k.val) :
    exec (.hcfgWrite .hw k v) s = .next (s.modHead k.val (fun h => { h with cfg := some v.toNat })) := by
  have hw : WD_HCFG.HOLDW.of v.toNat = v.toNat / 2 ^ 12 % 16 := rfl
  have hs : WD_HCFG.SPACING.of v.toNat = v.toNat / 2 ^ 16 % 256 := rfl
  have hn : WD_HCFG.HEN.of v.toNat = v.toNat / 2 ^ 11 % 2 := rfl
  have hspan : ¬ (decide (8 < v.toNat / 2 ^ 12 % 16) || decide (v.toNat / 2 ^ 16 % 256 < 20)) = true := by
    rw [decide_eq_false (not_lt.2 hhold), decide_eq_false (not_lt.2 hspace)]
    decide
  have hheld : ¬ (decide (s.fld WD_HCFG.HEN k.val = v.toNat / 2 ^ 11 % 2) && s.fld WD_HCFG.POINT k.val == WD_HCFG.POINT.of v.toNat)
      = true := by
    rw [decide_eq_false (Ne.symm hhen), Bool.false_and]
    decide
  refine (asReq_hw hv _).trans (congrArg _ ?_)
  unfold wdHcfg
  rw [if_neg (by decide), hw, hs, hn, if_neg hspan, if_neg hheld]

/-- The registers and the hidden state of a head after the first step of a change of HEN: flags clear, the tally and the detection
program anew. -/
def headCleared (k : Nat) (s : State) : State :=
  forEach (List.range 6) (fun e => dropDet e k) (resetTally k ((s.putFbit WD_PASS.PASS 0 k false).putFbit WD_CLEAN.CLEAN 0 k false))

theorem resetHead_eq (k code : Nat) (s : State) :
    resetHead k code s = headCleared k s ∨ resetHead k code s = resolveClaim k code 0 0 (headCleared k s) := by
  unfold resetHead
  dsimp only
  split
  · exact .inr rfl
  · exact .inl rfl

theorem resetTally_head (k : Nat) (s : State) :
    (resetTally k s).head k = { s.head k with armed := false, phase := 0, first := 0, presA := 0, absA := 0, presB := 0, absB := 0,
                                              masked := false, queue := [] } := State.modHead_head_self s k _

theorem headCleared_fld (k : Nat) (s : State) (f : Field) (j : Nat) :
    (headCleared k s).fld f j = ((s.putFbit WD_PASS.PASS 0 k false).putFbit WD_CLEAN.CLEAN 0 k false).fld f j := by
  have hdrop : ∀ t : State, (forEach (List.range 6) (fun e => dropDet e k) t).fld f j = t.fld f j :=
    forEach_frame (g := fun t => t.fld f j) _ (fun _ _ _ => rfl)
  exact (hdrop _).trans (State.modHead_fld _ k j _ f)

theorem headCleared_head (k : Nat) (s : State) :
    (headCleared k s).head k = { s.head k with armed := false, phase := 0, first := 0, presA := 0, absA := 0, presB := 0, absB := 0,
                                               masked := false, queue := [] } := by
  have hdrop : ∀ t : State, (forEach (List.range 6) (fun e => dropDet e k) t).heads = t.heads :=
    forEach_frame (g := State.heads) _ (fun _ _ _ => rfl)
  exact (State.head_of_heads (hdrop _) k).trans (resetTally_head k _)

/-- The fields that a change of HEN writes beside the head's configuration. -/
def resetFields : List Field := [WD_PASS.PASS, WD_CLEAN.CLEAN] ++ claimFields

theorem resetHead_kept (k code : Nat) (s : State) : KeptBut resetFields s (resetHead k code s) := by
  have hcleared : KeptBut resetFields s (headCleared k s) := fun f hf j => (headCleared_fld k s f j).trans
    (((KeptBut.refl resetFields s).putFbit (by decide) 0 k false).putFbit (by decide) 0 k false f hf j)
  obtain h | h := resetHead_eq k code s
  · rw [h]
    exact hcleared
  · rw [h]
    exact hcleared.trans ((resolveClaim_kept k code 0 0 _).mono (by decide))

/-- A change of HEN clears the head's passage flag and its tally; a held write is not its concern. -/
theorem resetHead_shows {k : Nat} (hk : k < 32) (code : Nat) (s : State) :
    let t := resetHead k code s
    t.passage k = false ∧ (t.head k).phase = 0 ∧ (t.head k).queue = [] ∧ (t.head k).armed = false ∧ (t.head k).cfg = (s.head k).cfg := by
  have hpass : (headCleared k s).passage k = false := by
    unfold State.passage State.fbit
    rw [headCleared_fld, State.fld_putFbit_apart (by decide)]
    exact (State.fbit_putFbit s WD_PASS.PASS 0 k false hk).trans (if_pos rfl)
  have hhead := headCleared_head k s
  intro t
  obtain h | h := resetHead_eq k code s
  · rw [show t = headCleared k s from h, hhead]
    exact ⟨hpass, rfl, rfl, rfl, rfl⟩
  · rw [show t = resolveClaim k code 0 0 (headCleared k s) from h, resolveClaim_head, hhead]
    refine ⟨?_, rfl, rfl, rfl, rfl⟩
    unfold State.passage State.fbit
    rw [resolveClaim_kept k code 0 0 _ WD_PASS.PASS (by decide)]
    exact hpass

/-- The four fields of WD_HCFG take the value, and no write is held any more. -/
def hcfgTaken (k v : Nat) (s : State) : State :=
  ((((s.setFld WD_HCFG.POINT k (WD_HCFG.POINT.of v)).setFld WD_HCFG.HEN k (WD_HCFG.HEN.of v)).setFld WD_HCFG.HOLDW k
    (WD_HCFG.HOLDW.of v)).setFld WD_HCFG.SPACING k (WD_HCFG.SPACING.of v)).modHead k (fun h => { h with cfg := none })

theorem applyHcfg_eq (k v : Nat) (s : State) : applyHcfg k v s
    = onlyIf (s.fld WD_HCFG.HEN k != WD_HCFG.HEN.of v) (resetHead k (if WD_HCFG.HEN.of v = 0 then 5 else 2)) (hcfgTaken k v s) := rfl

theorem hcfgTaken_kept (k v : Nat) (s : State) : KeptBut WD_HCFG.fields s (hcfgTaken k v s) :=
  (((((KeptBut.refl _ s).setFld (by decide) k _).setFld (by decide) k _).setFld (by decide) k _).setFld (by decide) k _).modHead k _

theorem hcfgTaken_shows (k v : Nat) (s : State) :
    let t := hcfgTaken k v s
    t.fld WD_HCFG.HEN k = v / 2 ^ 11 % 2 ∧ t.fld WD_HCFG.POINT k = v % 2 ^ 11 ∧ (t.head k).cfg = none := by
  have hpoint : WD_HCFG.POINT.of v = v % 2 ^ 11 := Field.of_low rfl v
  refine ⟨?_, ?_, congrArg HeadSt.cfg (State.modHead_head_self _ k _)⟩
  · refine (State.modHead_fld _ _ _ _ _).trans ((State.fld_setFld_apart (by decide) _ _ _ _).trans ?_)
    exact (State.fld_setFld_apart (by decide) _ _ _ _).trans (State.fld_setFld_lt (Field.of_lt _ v) k _)
  · refine (State.modHead_fld _ _ _ _ _).trans ((State.fld_setFld_apart (by decide) _ _ _ _).trans ?_)
    refine (State.fld_setFld_apart (by decide) _ _ _ _).trans ((State.fld_setFld_apart (by decide) _ _ _ _).trans ?_)
    exact (State.fld_setFld_lt (Field.of_lt _ v) k s).trans hpoint

/-- A value that takes effect is shown; where it changes HEN, the head starts anew. -/
theorem applyHcfg_shows {k : Nat} (hk : k < 32) (v : Nat) (s : State) :
    let t := applyHcfg k v s
    t.fld WD_HCFG.HEN k = v / 2 ^ 11 % 2 ∧ t.fld WD_HCFG.POINT k = v % 2 ^ 11 ∧ (t.head k).cfg = none
      ∧ (s.fld WD_HCFG.HEN k ≠ v / 2 ^ 11 % 2 → (t.head k).phase = 0 ∧ (t.head k).queue = [] ∧ (t.head k).armed = false
          ∧ t.passage k = false ∧ t.fld WD_XCOUNT.ORPHANS = s.fld WD_XCOUNT.ORPHANS) := by
  have hof : WD_HCFG.HEN.of v = v / 2 ^ 11 % 2 := rfl
  have hkept := hcfgTaken_kept k v s
  obtain ⟨hhen, hpoint, hcfg⟩ := hcfgTaken_shows k v s
  rw [applyHcfg_eq, hof]
  generalize hcfgTaken k v s = u at *
  by_cases h : s.fld WD_HCFG.HEN k = v / 2 ^ 11 % 2
  · rw [bne_eq_false_iff_eq.2 h, onlyIf_false]
    exact ⟨hhen, hpoint, hcfg, fun hne => absurd h hne⟩
  · rw [bne_iff_ne.2 h, onlyIf_true]
    have hreset := resetHead_kept k (if v / 2 ^ 11 % 2 = 0 then 5 else 2) u
    obtain ⟨hpass, hphase, hqueue, harmed, hheld⟩ := resetHead_shows hk (if v / 2 ^ 11 % 2 = 0 then 5 else 2) u
    exact ⟨(hreset _ (by decide) k).trans hhen, (hreset _ (by decide) k).trans hpoint, hheld.trans hcfg,
      fun _ => ⟨hphase, hqueue, harmed, hpass, (hreset _ (by decide) 0).trans (hkept _ (by decide) 0)⟩⟩

theorem State.fld_atComing (s : State) (f : Field) (j : Nat) : s.atComing.fld f j = s.fld f j := State.advance_fld _ _ _ f

/-- HEN_CHANGE: with the window closed and no phase change due, the held value takes effect. -/
theorem exec_henChange {s : State} {k : Fin 32} {v : Nat} (hcfg : (s.head k.val).cfg = some v) (hopen : s.opens k.val = false)
    (hlast : (s.head k.val).closing ≤ 1) (hphase : s.phaseNext k.val = false) :
    exec (.henChange k) s = .next (applyHcfg k.val v s.atComing) := by
  have hwait : (s.opensNext k.val || s.phaseNext k.val) = false := by
    have : ¬ 1 < (s.head k.val).closing := by omega
    simp [State.opensNext, hopen, hphase, this]
  change execHenChange k s = _
  unfold execHenChange
  rw [hcfg]
  exact if_neg (Bool.eq_false_iff.1 hwait)

/-- Settles O15: passage flags by the primary of the head, its configuration by what a taken value shows. -/
theorem passageFlagsAndHeadConfiguration : Obligations.PassageFlagsAndHeadConfiguration := by
  unfold Obligations.PassageFlagsAndHeadConfiguration
  refine fun s e k v => ⟨fun hprim => ⟨⟨_, exec_passset_se e k.isLt s, wdPass_primary k.isLt hprim true⟩,
    ⟨_, exec_passclr_se e k.isLt s, wdPass_primary k.isLt hprim false⟩⟩, fun hprim => ?_, hcfgWrite_held,
    fun hcfg hopen hlast hphase => ⟨_, exec_henChange hcfg hopen hlast hphase, ?_⟩⟩
  · exact (exec_passset_se e k.isLt s).trans (congrArg _ ((wdPass_two_pow e true k.isLt s).trans (if_neg hprim)))
  · have hshown := applyHcfg_shows k.isLt v.toNat s.atComing
    simp only [State.fld_atComing] at hshown
    exact hshown

end Sys2Proof.Machine
end

section
/-! PROOFS. Pushes into the rings of the bobbins and their acknowledgements (04 R170, R171, R610, 08 R313). -/

namespace Sys2Proof.Machine

/-! ### A block stored, and an index moved behind it -/

/-- A whole block stands at key `k`, its check bits good. -/
def stored (k v : Nat) (s : State) : State := (s.wr k 16 v).setBad k 0

theorem stored_frame (k v : Nat) (s : State) : stored k v s = { s with mem := (stored k v s).mem, errs := (stored k v s).errs } := by
  have hbad : ∀ u : State, u = { s with mem := u.mem } →
      u.setBad k 0 = { s with mem := (u.setBad k 0).mem, errs := (u.setBad k 0).errs } := fun u h => by
    rw [h]
    rfl
  exact hbad _ (State.wr_frame 16 k v s)

theorem stored_heads (k v : Nat) (s : State) : (stored k v s).heads = s.heads := by rw [stored_frame]

theorem stored_fld (k v : Nat) (s : State) (f : Field) (i : Nat) : (stored k v s).fld f i = s.fld f i := by
  have hregs : (stored k v s).regs = s.regs := by rw [stored_frame]
  unfold State.fld
  rw [hregs]

/-- What a push of `v` at key `k` shows: its bytes alone, and the write index, field `f` at index `i`, one further. -/
def PushedAt (k v : Nat) (f : Field) (i : Nat) (s t : State) : Prop :=
  (∀ x, x < 16 → t.byte (k + x) = BitVec.ofNat 8 (v / 256 ^ x)) ∧ (∀ x, x < k ∨ k + 16 ≤ x → t.byte x = s.byte x)
    ∧ t.fld f i = (s.fld f i + 1) % 2 ^ f.w ∧ Kept [f.key i] s t

theorem pushedAt_stored (k v : Nat) (f : Field) (i : Nat) (s : State) :
    PushedAt k v f i s ((stored k v s).setFld f i (s.fld f i + 1)) :=
  ⟨fun x hx => State.byte_wr_of_in 16 k v x s hx, fun _ hx => State.byte_wr_of_out 16 k v s hx, State.fld_setFld_self _ _ _ _,
    fun g j hk => (Kept.setFld _ f i _ g j hk).trans (stored_fld k v s g j)⟩

theorem stored_setFld_frame (k v : Nat) (f : Field) (i n : Nat) (s : State) :
    let t := (stored k v s).setFld f i n
    t = { s with regs := t.regs, mem := t.mem, errs := t.errs } := by
  have h := stored_frame k v s
  generalize stored k v s = u at h ⊢
  rw [h]
  rfl

/-! ### The inbound rings (R170) -/

/-- The write index of a local or remote inbound ring. -/
def inbWi (remote : Bool) : Field := if remote then BB_INB.RWI else BB_INB.LWI
/-- Its read index. -/
def inbRi (remote : Bool) : Field := if remote then BB_INB.RRI else BB_INB.LRI
/-- Its offset in the bobbin. -/
def inbOff (remote : Bool) : Nat := if remote then 0x300 else 0x200

theorem pushRing_inactive {b : Nat} {s : State} (h : s.fld BB_CFG.ACTIVE b = 0) (remote : Bool) (v : Nat) :
    pushRing b remote v s = (s.countFld BB_DROP.INACT b 1).flag BB_STATUS.INACTIVE evBB :=
  if_pos (by simp [State.active, State.isSet, h])

theorem pushRing_active {b : Nat} {s : State} (h : s.fld BB_CFG.ACTIVE b = 1) (remote : Bool) (v : Nat) :
    pushRing b remote v s
      = if (s.fld (inbWi remote) b + 32 - s.fld (inbRi remote) b) % 32 = 16 then (s.countFld BB_DROP.FULL b 1).flag BB_STATUS.RINGFULL evBB
        else (stored (bobAddr b + inbOff remote + s.fld (inbWi remote) b % 16 * 16) v s).setFld (inbWi remote) b
          (s.fld (inbWi remote) b + 1) :=
  if_neg (by simp [State.active, State.isSet, h])

/-- Bobbin, offset in it and alignment of an offset in the bobbin store (01 R38). -/
theorem bobbinStore_place {a : Nat} (ha : a < 2 ^ 18) :
    (0x28000000 + a - 0x28000000) / 0x400 % 256 = a / 0x400 ∧ (0x28000000 + a) % 0x400 = a % 0x400
      ∧ (0x28000000 + a) % 16 = a % 0x400 % 16 := by omega

theorem bobbinPush_se {a : Nat} (ha : a < 2 ^ 18) (e : Fin 6) (n v : Nat) (s : State) :
    bobbinPush (.se e) (0x28000000 + a) n v s
      = if n = 16 ∧ a % 0x400 % 16 = 0 ∧ 0x200 ≤ a % 0x400 ∧ a % 0x400 < 0x300 ∧ v.testBit 127 = false then
          pushRing (a / 0x400) false v s else s.reject (.se e) := by
  obtain ⟨hb, ho, h16⟩ := bobbinStore_place ha
  unfold bobbinPush
  rw [hb, ho, h16]
  cases v.testBit 127 <;> simp [and_assoc]

theorem bobbinPush_dma {a : Nat} (ha : a < 2 ^ 18) (n v : Nat) (s : State) :
    bobbinPush .dma (0x28000000 + a) n v s
      = if n = 16 ∧ a % 0x400 % 16 = 0 ∧ 0x300 ≤ a % 0x400 ∧ v.testBit 127 = false then pushRing (a / 0x400) true v s
        else s.reject .dma := by
  obtain ⟨hb, ho, h16⟩ := bobbinStore_place ha
  unfold bobbinPush
  rw [hb, ho, h16]
  cases v.testBit 127 <;> simp [and_assoc]

/-- INBOUND_PUSH of a requester that is present. -/
theorem exec_inboundPush {q : Req} {s : State} (h : s.absent q = false) (a : BitVec 18) (n : Fin 17) (v : Block) :
    exec (.inboundPush q a n v) s = .next (bobbinPush q (0x28000000 + a.toNat) n.val v.toNat s) := asReq_of_present h _

/-- A command that comes to a push into an inbound ring, in the three cases that the ring's state makes. -/
theorem exec_pushRing {c : Instr} {b : Nat} {remote : Bool} {v : Nat} {s : State} (h : exec c s = .next (pushRing b remote v s)) :
    let wi := s.fld (inbWi remote) b
    let k := bobAddr b + inbOff remote + wi % 16 * 16
    (s.fld BB_CFG.ACTIVE b = 1 → ¬ (wi + 32 - s.fld (inbRi remote) b) % 32 = 16 →
      ∃ t, exec c s = .next t ∧ (∀ x, x < 16 → t.byte (k + x) = BitVec.ofNat 8 (v / 256 ^ x))
        ∧ (∀ x, x < k ∨ k + 16 ≤ x → t.byte x = s.byte x) ∧ t.fld (inbWi remote) b = (wi + 1) % 2 ^ (inbWi remote).w
        ∧ Kept [(inbWi remote).key b] s t ∧ t = { s with regs := t.regs, mem := t.mem, errs := t.errs })
    ∧ (s.fld BB_CFG.ACTIVE b = 0 → exec c s = .next ((s.countFld BB_DROP.INACT b 1).flag BB_STATUS.INACTIVE evBB))
    ∧ (s.fld BB_CFG.ACTIVE b = 1 → (wi + 32 - s.fld (inbRi remote) b) % 32 = 16 →
      exec c s = .next ((s.countFld BB_DROP.FULL b 1).flag BB_STATUS.RINGFULL evBB)) := by
  intro wi k
  refine ⟨fun hact hroom => ?_, fun hact => h.trans (congrArg _ (pushRing_inactive hact remote v)),
    fun hact hfull => h.trans (congrArg _ ((pushRing_active hact remote v).trans (if_pos hfull)))⟩
  obtain ⟨hin, hout, hidx, hkept⟩ := pushedAt_stored k v (inbWi remote) b s
  exact ⟨_, h.trans (congrArg _ ((pushRing_active hact remote v).trans (if_neg hroom))), hin, hout, hidx, hkept,
    stored_setFld_frame k v _ b _ s⟩

/-! ### The origin and shadow rings (R610, 08 R313) -/

theorem PushedAt.of_heads {k v : Nat} {f : Field} {i : Nat} {s t t' : State} (h : PushedAt k v f i s t)
    (ht : t' = { t with heads := t'.heads }) : PushedAt k v f i s t' := by
  rw [ht]
  exact h

theorem ringStore_of_shared {k : Nat} (hlo : 0x20000000 ≤ k) (hhi : k + 16 ≤ 0x20200000) (v : Nat) (s : State) :
    ringStore k v s = stored k v s := by
  unfold ringStore
  rw [decide_eq_true hlo, decide_eq_true hhi]
  rfl

theorem noteTest_frame (v : Nat) (s : State) : noteTest v s = { s with heads := (noteTest v s).heads } := by
  unfold noteTest
  split
  · rfl
  · split <;> rfl

/-- An event with a direction is no test event. -/
theorem noteTest_of_dir {v : Nat} (h : v / 2 ^ 11 % 4 ≠ 0) (s : State) : noteTest v s = s := by
  have ht : isTest v = false := by
    have : bitsOf v 11 2 ≠ 0 := h
    simp [isTest, this]
  unfold noteTest
  rw [ht]
  rfl

theorem noteEvent_frame (shadow : Bool) (v : Nat) (s : State) : noteEvent shadow v s = { s with heads := (noteEvent shadow v s).heads } := by
  unfold noteEvent
  split
  · rfl
  · split <;> rfl

/-- No head in use of point `p` is shadowed. -/
def State.alone (s : State) (p : Nat) : Prop :=
  ∀ k, k < 32 → s.fld WD_HCFG.HEN k = 1 → s.fld WD_HCFG.POINT k = p → s.fld GR_HPLACE.SHAD k = 7

theorem noteEvent_of_alone {v : Nat} {s : State} (h : s.alone (v % 2048)) (shadow : Bool) : noteEvent shadow v s = s := by
  unfold noteEvent
  split
  · rfl
  · rename_i k hk
    obtain ⟨hen, hpoint⟩ := Bool.and_eq_true_iff.1 (List.find?_some (p := fun k => s.isSet WD_HCFG.HEN k && s.fld WD_HCFG.POINT k == v % 2048) hk)
    exact if_pos (h k (List.mem_range.1 (List.mem_of_find?_eq_some hk)) (beq_iff_eq.1 hen) (beq_iff_eq.1 hpoint))

theorem State.alone_stored {p : Nat} {s : State} (h : s.alone p) (k v n : Nat) {f : Field}
    (hf : [WD_HCFG.HEN, WD_HCFG.POINT, GR_HPLACE.SHAD].all f.apart = true) : ((stored k v s).setFld f 0 n).alone p := by
  have hfld : ∀ g ∈ [WD_HCFG.HEN, WD_HCFG.POINT, GR_HPLACE.SHAD], ∀ j, ((stored k v s).setFld f 0 n).fld g j = s.fld g j := fun g hg j =>
    (State.fld_setFld_apart (List.all_eq_true.1 hf g hg) 0 n j _).trans (stored_fld k v s g j)
  intro j hj
  rw [hfld _ (by simp), hfld _ (by simp), hfld _ (by simp)]
  exact h j hj

/-- What an event's push leaves once the ring holds it: at most the matching of a shadowed head. -/
theorem push_then_heads {k v n : Nat} {f : Field} {s t : State}
    (ht : t = { (stored k v s).setFld f 0 n with heads := t.heads }) :
    t = { s with regs := t.regs, mem := t.mem, errs := t.errs, heads := t.heads } := by
  have h := stored_setFld_frame k v f 0 n s
  dsimp only at h
  generalize (stored k v s).setFld f 0 n = u at h ht
  rw [ht, h]

theorem originPush_room {s : State} {e : Fin 6} {v : Nat} :
    let wi := s.fld BB_ORIGIDX.WI
    let k := s.fld BB_ORIGBASE.BASE + wi % 64 * 16
    (wi + 128 - s.fld BB_ORIGIDX.RI) % 128 ≠ 64 → 0x20000000 ≤ k → k + 16 ≤ 0x20200000 →
      originPush (.se e) true v s = noteEvent false v (noteTest v ((stored k v s).setFld BB_ORIGIDX.WI 0 (wi + 1))) := by
  intro wi k hroom hlo hhi
  rw [← ringStore_of_shared hlo hhi v s]
  exact if_neg hroom

theorem originPush_full {s : State} (h : (s.fld BB_ORIGIDX.WI + 128 - s.fld BB_ORIGIDX.RI) % 128 = 64) (e : Fin 6) (v : Nat) :
    originPush (.se e) true v s = (s.countFld BB_ORIGIDX.DROP 0 1).flag BB_STATUS.ORIGFULL evBB := if_pos h

theorem shadowPush_room {s : State} {e : Fin 6} {v : Nat} :
    let wi := s.fld GR_SHIDX.WI
    let k := s.fld GR_SHBASE.BASE + wi % 32 * 16
    (wi + 64 - s.fld GR_SHIDX.RI) % 64 ≠ 32 → 0x20000000 ≤ k → k + 16 ≤ 0x20200000 →
      shadowPush (.se e) true v s = noteEvent true v ((stored k (putBit v 127 true) s).setFld GR_SHIDX.WI 0 (wi + 1)) := by
  intro wi k hroom hlo hhi
  rw [← ringStore_of_shared hlo hhi (putBit v 127 true) s]
  exact if_neg hroom

theorem shadowPush_full {s : State} (h : (s.fld GR_SHIDX.WI + 64 - s.fld GR_SHIDX.RI) % 64 = 32) (e : Fin 6) (v : Nat) :
    shadowPush (.se e) true v s = (s.countFld GR_SHIDX.DROP 0 1).flag GR_STATUS.SHDROP evGR := if_pos h

theorem getLsbD_byte (v x i : Nat) (hi : i < 8) : (BitVec.ofNat 8 (v / 256 ^ x)).getLsbD i = v.testBit (8 * x + i) := by
  rw [BitVec.getLsbD_ofNat, show 256 ^ x = 2 ^ (8 * x) from (Nat.pow_mul 2 8 x).symm, Nat.testBit_div_two_pow, Nat.add_comm i]
  simp [hi]

/-- SHADOW is bit 7 of byte 15 of a block. -/
theorem byte_shadow_ne (v : Nat) {x : Nat} (hx : x < 15) :
    BitVec.ofNat 8 (putBit v 127 true / 256 ^ x) = BitVec.ofNat 8 (v / 256 ^ x) := by
  refine BitVec.eq_of_getLsbD_eq fun i hi => ?_
  rw [getLsbD_byte _ _ _ hi, getLsbD_byte _ _ _ hi, testBit_putBit, if_neg (by omega)]

theorem byte_shadow_last (v : Nat) :
    BitVec.ofNat 8 (putBit v 127 true / 256 ^ 15) = BitVec.ofNat 8 (v / 256 ^ 15) ||| 0x80#8 := by
  have hbit : ∀ i < 8, (0x80#8).getLsbD i = decide (i = 7) := by decide
  refine BitVec.eq_of_getLsbD_eq fun i hi => ?_
  rw [BitVec.getLsbD_or, getLsbD_byte _ _ _ hi, getLsbD_byte _ _ _ hi, testBit_putBit, hbit i hi]
  by_cases h : i = 7
  · simp [h]
  · rw [if_neg (by omega)]
    simp [h]

/-! ### Acknowledgements (R171, R610, 08 R313) -/

theorem fld_onlyIf_setFld_self (c : Bool) (f : Field) (i v : Nat) (s : State) :
    (onlyIf c (State.setFld f i v) s).fld f i = if c then v % 2 ^ f.w else s.fld f i := by
  cases c
  · rfl
  · exact State.fld_setFld_self s f i v

theorem fld_onlyIf_setFld_apart {f g : Field} (h : f.apart g = true) (c : Bool) (i v j : Nat) (s : State) :
    (onlyIf c (State.setFld f i v) s).fld g j = s.fld g j :=
  onlyIf_frame (g := fun t => t.fld g j) c (fun t => State.fld_setFld_apart h i v j t) s

theorem Kept.onlyIf_setFld (c : Bool) (f : Field) (i v : Nat) (s : State) : Kept [f.key i] s (onlyIf c (State.setFld f i v) s) :=
  onlyIf_keeps (P := Kept [f.key i] s) c (fun t ht => ht.trans (Kept.setFld t f i v)) (Kept.refl _ s)

theorem ackOk_eq (m wi ri new : Nat) : ackOk m wi ri new = decide ((new + m - ri) % m ≤ (wi + m - ri) % m) := rfl

/-- The read indices that an accepted value of BB_INBACK sets. -/
def inbackTaken (b v : Nat) (s : State) : State :=
  onlyIf (BB_INBACK.RSET.of v == 1) (State.setFld BB_INB.RRI b (BB_INBACK.RRI.of v))
    (onlyIf (BB_INBACK.LSET.of v == 1) (State.setFld BB_INB.LRI b (BB_INBACK.LRI.of v)) s)

theorem inbackTaken_shows (b v : Nat) (s : State) :
    let t := inbackTaken b v s
    (v / 2 ^ 10 % 2 = 1 → t.fld BB_INB.LRI b = v % 32) ∧ (¬ v / 2 ^ 10 % 2 = 1 → t.fld BB_INB.LRI b = s.fld BB_INB.LRI b)
      ∧ (v / 2 ^ 11 % 2 = 1 → t.fld BB_INB.RRI b = v / 2 ^ 5 % 32) ∧ (¬ v / 2 ^ 11 % 2 = 1 → t.fld BB_INB.RRI b = s.fld BB_INB.RRI b)
      ∧ Kept [BB_INB.LRI.key b, BB_INB.RRI.key b] s t ∧ t = { s with regs := t.regs } := by
  have hl : BB_INBACK.LRI.of v = v % 32 := Field.of_low rfl v
  have hr : BB_INBACK.RRI.of v = v / 2 ^ 5 % 32 := rfl
  have hls : (BB_INBACK.LSET.of v == 1) = decide (v / 2 ^ 10 % 2 = 1) := rfl
  have hrs : (BB_INBACK.RSET.of v == 1) = decide (v / 2 ^ 11 % 2 = 1) := rfl
  have hlri : (inbackTaken b v s).fld BB_INB.LRI b = if v / 2 ^ 10 % 2 = 1 then v % 32 else s.fld BB_INB.LRI b := by
    refine (fld_onlyIf_setFld_apart (by decide) _ _ _ _ _).trans ((fld_onlyIf_setFld_self _ _ _ _ _).trans ?_)
    rw [hls, hl]
    simp [BB_INB.LRI]
  have hrri : (inbackTaken b v s).fld BB_INB.RRI b = if v / 2 ^ 11 % 2 = 1 then v / 2 ^ 5 % 32 else s.fld BB_INB.RRI b := by
    refine (fld_onlyIf_setFld_self _ _ _ _ _).trans ?_
    rw [hrs, hr, fld_onlyIf_setFld_apart (by decide)]
    simp [BB_INB.RRI]
  refine ⟨fun h => hlri.trans (if_pos h), fun h => hlri.trans (if_neg h), fun h => hrri.trans (if_pos h), fun h => hrri.trans (if_neg h),
    ?_, ?_⟩
  · exact ((Kept.onlyIf_setFld _ _ _ _ _).mono (by simp)).trans ((Kept.onlyIf_setFld _ _ _ _ _).mono (by simp))
  · unfold inbackTaken
    cases BB_INBACK.RSET.of v == 1 <;> cases BB_INBACK.LSET.of v == 1 <;> rfl

theorem bbInback_hw (b v : Nat) (s : State) :
    bbInback .hw b v s
      = if (v / 2 ^ 10 % 2 = 1 ∧ ¬ (v % 32 + 32 - s.fld BB_INB.LRI b) % 32 ≤ (s.fld BB_INB.LWI b + 32 - s.fld BB_INB.LRI b) % 32)
          ∨ (v / 2 ^ 11 % 2 = 1 ∧ ¬ (v / 2 ^ 5 % 32 + 32 - s.fld BB_INB.RRI b) % 32 ≤ (s.fld BB_INB.RWI b + 32 - s.fld BB_INB.RRI b) % 32) then
          s.flag BB_STATUS.CFGERR evBB
        else inbackTaken b v s := by
  have hl : BB_INBACK.LRI.of v = v % 32 := Field.of_low rfl v
  have hr : BB_INBACK.RRI.of v = v / 2 ^ 5 % 32 := rfl
  have hls : (BB_INBACK.LSET.of v == 1) = decide (v / 2 ^ 10 % 2 = 1) := rfl
  have hrs : (BB_INBACK.RSET.of v == 1) = decide (v / 2 ^ 11 % 2 = 1) := rfl
  refine (if_neg (by decide)).trans (if_congr ?_ rfl rfl)
  rw [hl, hr, hls, hrs, ackOk_eq, ackOk_eq]
  simp

theorem exec_inback_hw {s : State} (h : s.canVote = true) (v : Word) :
    exec (.inback .hw v) s = if s.lockedFor .hw (s.fld BB_BOBSEL.BOB 11) then .next s
      else .next (bbInback .hw (s.fld BB_BOBSEL.BOB 11) v.toNat s) := asReq_hw h _

theorem exec_originAck_hw {s : State} (h : s.canVote = true) (v : Word) :
    exec (.originAck .hw v) s = .next (bbOrigidx .hw v.toNat s) := asReq_hw h _

theorem exec_shadowAck_hw {s : State} (h : s.canVote = true) (v : Word) :
    exec (.shadowAck .hw v) s = .next (grShidx .hw v.toNat s) := asReq_hw h _

theorem bbOrigidx_hw (v : Nat) (s : State) :
    bbOrigidx .hw v s
      = if (v / 2 ^ 7 % 128 + 128 - s.fld BB_ORIGIDX.RI) % 128 ≤ (s.fld BB_ORIGIDX.WI + 128 - s.fld BB_ORIGIDX.RI) % 128 then
          writeFields .hw BB_ORIGIDX.fields 0 v s
        else s.flag BB_STATUS.CFGERR evBB := by
  have hof : BB_ORIGIDX.RI.of v = v / 2 ^ 7 % 128 := rfl
  unfold bbOrigidx
  dsimp only
  rw [hof, ackOk_eq, ← ite_not]
  exact if_congr (by simp [Req.voted]) rfl rfl

theorem grShidx_hw (v : Nat) (s : State) :
    grShidx .hw v s
      = if (GR_SHIDX.RI.of v + 64 - s.fld GR_SHIDX.RI) % 64 ≤ (s.fld GR_SHIDX.WI + 64 - s.fld GR_SHIDX.RI) % 64 then
          writeFields .hw GR_SHIDX.fields 0 v s
        else s.flag GR_STATUS.CFGERR evGR := by
  unfold grShidx
  dsimp only
  rw [ackOk_eq, ← ite_not]
  exact if_congr (by simp [Req.voted]) rfl rfl

/-- A voted write of a register of which one field alone takes writes. -/
theorem writeFields_hw_one {fs : List Field} {f : Field} (hnd : (fs.map (fun g => g.key 0)).Nodup) (hf : f ∈ fs) (ht : f.takes .hw = true)
    (hw : writable fs = [f]) (v : Nat) (s : State) :
    let t := writeFields .hw fs 0 v s
    t.fld f = f.of v ∧ Kept [f.key 0] s t ∧ t = { s with regs := t.regs } := by
  have hkept := Kept.writeFields_hw fs 0 v s
  rw [hw] at hkept
  exact ⟨fld_writeFields_hw hnd hf ht 0 v s, hkept, writeFields_frame .hw fs 0 v s⟩

/-! ### The rings together -/

/-- ORIGIN_PUSH into a ring with a free slot in shared RAM. -/
theorem originPush_shows {s : State} {e : Fin 6} {v : Block} :
    let wi := s.fld BB_ORIGIDX.WI
    let k := s.fld BB_ORIGBASE.BASE + wi % 64 * 16
    (wi + 128 - s.fld BB_ORIGIDX.RI) % 128 ≠ 64 → 0x20000000 ≤ k → k + 16 ≤ 0x20200000 →
      ∃ t, exec (.originPush e v) s = .next t ∧ PushedAt k v.toNat BB_ORIGIDX.WI 0 s t
        ∧ t = { s with regs := t.regs, mem := t.mem, errs := t.errs, heads := t.heads }
        ∧ (v.toNat / 2 ^ 11 % 4 ≠ 0 → s.alone (v.toNat % 2048) → t.heads = s.heads) := by
  intro wi k hroom hlo hhi
  let u : State := (stored k v.toNat s).setFld BB_ORIGIDX.WI 0 (wi + 1)
  let t : State := noteEvent false v.toNat (noteTest v.toNat u)
  have hheads : t = { u with heads := t.heads } :=
    (noteEvent_frame false v.toNat (noteTest v.toNat u)).trans
      (congrArg (fun x : State => { x with heads := t.heads }) (noteTest_frame v.toNat u))
  refine ⟨t, congrArg _ (originPush_room hroom hlo hhi), (pushedAt_stored k v.toNat BB_ORIGIDX.WI 0 s).of_heads hheads,
    push_then_heads hheads, fun hdir halone => ?_⟩
  have ht : t = u := by
    have hu : noteTest v.toNat u = u := noteTest_of_dir hdir u
    exact (congrArg (noteEvent false v.toNat) hu).trans (noteEvent_of_alone (State.alone_stored halone k _ _ (by decide)) false)
  rw [ht]
  exact stored_heads k v.toNat s

/-- SHADOW_PUSH into a ring with a free slot in shared RAM: the block stands there with SHADOW set. -/
theorem shadowPush_shows {s : State} {e : Fin 6} {v : Block} :
    let wi := s.fld GR_SHIDX.WI
    let k := s.fld GR_SHBASE.BASE + wi % 32 * 16
    (wi + 64 - s.fld GR_SHIDX.RI) % 64 ≠ 32 → 0x20000000 ≤ k → k + 16 ≤ 0x20200000 →
      ∃ t, exec (.shadowPush e v) s = .next t ∧ PushedAt k (putBit v.toNat 127 true) GR_SHIDX.WI 0 s t
        ∧ t = { s with regs := t.regs, mem := t.mem, errs := t.errs, heads := t.heads }
        ∧ (s.alone (v.toNat % 2048) → t.heads = s.heads) := by
  intro wi k hroom hlo hhi
  let u : State := (stored k (putBit v.toNat 127 true) s).setFld GR_SHIDX.WI 0 (wi + 1)
  have hheads := noteEvent_frame true v.toNat u
  refine ⟨noteEvent true v.toNat u, congrArg _ (shadowPush_room hroom hlo hhi), (pushedAt_stored k _ GR_SHIDX.WI 0 s).of_heads hheads,
    push_then_heads hheads, fun halone => ?_⟩
  rw [noteEvent_of_alone (State.alone_stored halone k _ _ (by decide)) true]
  exact stored_heads k (putBit v.toNat 127 true) s

/-- Settles O16: each push by the state of its ring, each acknowledgement by the entries present. -/
theorem ringsArePushedAndAcknowledged : Obligations.RingsArePushedAndAcknowledged := by
  unfold Obligations.RingsArePushedAndAcknowledged
  refine ⟨fun s e a n v => ?_, fun s e v => ?_, fun s v => ?_⟩
  · have hse : ∀ m, exec (.inboundPush (.se e) a m v) s = .next (bobbinPush (.se e) (0x28000000 + a.toNat) m.val v.toNat s) :=
      fun m => exec_inboundPush rfl a m v
    have hdma : ∀ m, exec (.inboundPush .dma a m v) s = .next (bobbinPush .dma (0x28000000 + a.toNat) m.val v.toNat s) :=
      fun m => exec_inboundPush rfl a m v
    have hn : n ≠ 16 → n.val ≠ 16 := fun h h16 => h (Fin.ext h16)
    have hbit : v.getLsbD 127 = v.toNat.testBit 127 := rfl
    intro b off wi full k wr rfull kr
    rw [hbit]
    refine ⟨fun halign hlo hhi hsh => exec_pushRing (b := b) (remote := false) ((hse 16).trans (congrArg _ ?_)), fun hbad => (hse n).trans (congrArg _ ?_),
      fun halign hlo hsh => exec_pushRing (b := b) (remote := true) ((hdma 16).trans (congrArg _ ?_)), fun hbad => (hdma n).trans (congrArg _ ?_)⟩
    · exact (bobbinPush_se a.isLt e _ _ s).trans (if_pos ⟨rfl, halign, hlo, hhi, hsh⟩)
    · refine (bobbinPush_se a.isLt e _ _ s).trans (if_neg fun ⟨h16, halign, hlo, hhi, hsh⟩ => ?_)
      obtain h | h | h | h | h := hbad
      · exact hn h h16
      · exact h halign
      · exact absurd hlo (by omega)
      · exact absurd hhi (by omega)
      · exact absurd h (by rw [hsh]; decide)
    · exact (bobbinPush_dma a.isLt _ _ s).trans (if_pos ⟨rfl, halign, hlo, hsh⟩)
    · refine (bobbinPush_dma a.isLt _ _ s).trans (if_neg fun ⟨h16, halign, hlo, hsh⟩ => ?_)
      obtain h | h | h | h := hbad
      · exact hn h h16
      · exact h halign
      · exact absurd hlo (by omega)
      · exact absurd h (by rw [hsh]; decide)
  · refine ⟨fun hroom hlo hhi => ?_, fun hfull => congrArg _ (originPush_full hfull e v.toNat), fun hroom hlo hhi => ?_,
      fun hfull => congrArg _ (shadowPush_full hfull e v.toNat)⟩
    · obtain ⟨t, hexec, ⟨hin, hout, hidx, hkept⟩, hframe, halone⟩ := originPush_shows (e := e) (v := v) hroom hlo hhi
      exact ⟨t, hexec, hidx, hin, hout, hkept, hframe, halone⟩
    · obtain ⟨t, hexec, ⟨hin, hout, hidx, hkept⟩, hframe, halone⟩ := shadowPush_shows (e := e) (v := v) hroom hlo hhi
      exact ⟨t, hexec, hidx, fun x hx => (hin x (by omega)).trans (byte_shadow_ne _ hx), (hin 15 (by decide)).trans (byte_shadow_last _),
        hout, hkept, hframe, halone⟩
  · intro b l r ls rs lok rok o h ook hok hv
    refine ⟨fun hfree => ⟨fun hl hr => ?_, fun hbad => ?_⟩, fun hlocked => ?_, fun hook => ?_, fun hook => ?_, fun hhok => ?_, fun hhok => ?_⟩
    · have hok : ¬ ((ls ∧ ¬ lok) ∨ (rs ∧ ¬ rok)) := by
        rintro (⟨hs, hn⟩ | ⟨hs, hn⟩)
        · exact hn (hl hs)
        · exact hn (hr hs)
      exact ⟨_, (exec_inback_hw hv v).trans ((if_neg (Bool.eq_false_iff.1 hfree)).trans
        (congrArg _ ((bbInback_hw b v.toNat s).trans (if_neg hok)))), inbackTaken_shows b v.toNat s⟩
    · exact (exec_inback_hw hv v).trans ((if_neg (Bool.eq_false_iff.1 hfree)).trans
        (congrArg _ ((bbInback_hw b v.toNat s).trans (if_pos hbad))))
    · exact (exec_inback_hw hv v).trans (if_pos hlocked)
    · exact ⟨_, (exec_originAck_hw hv v).trans (congrArg _ ((bbOrigidx_hw v.toNat s).trans (if_pos hook))),
        writeFields_hw_one (by decide) (by decide) rfl rfl v.toNat s⟩
    · exact (exec_originAck_hw hv v).trans (congrArg _ ((bbOrigidx_hw v.toNat s).trans (if_neg hook)))
    · exact ⟨_, (exec_shadowAck_hw hv v).trans (congrArg _ ((grShidx_hw v.toNat s).trans (if_pos hhok))),
        writeFields_hw_one (by decide) (by decide) rfl rfl v.toNat s⟩
    · exact (exec_shadowAck_hw hv v).trans (congrArg _ ((grShidx_hw v.toNat s).trans (if_neg hhok)))

end Sys2Proof.Machine
end

section
/-! PROOFS. Bobbin locks: granted, refused, released, handed on and broken (04 R204 to R208). -/

namespace Sys2Proof.Machine

/-! ### What an event and a failed access leave of the locks -/

@[simp] theorem State.flag_locks (s : State) (f : Field) (e : Nat) : (s.flag f e).locks = s.locks := by rw [State.flag_frame]

@[simp] theorem State.flag_lockWait (s : State) (f : Field) (e : Nat) : (s.flag f e).lockWait = s.lockWait := by rw [State.flag_frame]

@[simp] theorem State.flag_rxHeld (s : State) (f : Field) (e : Nat) : (s.flag f e).rxHeld = s.rxHeld := by rw [State.flag_frame]

@[simp] theorem State.flag_rxq (s : State) (f : Field) (e : Nat) : (s.flag f e).rxq = s.rxq := by rw [State.flag_frame]

theorem KeptBut.modPort {fs : List Field} {s t : State} (h : KeptBut fs s t) (p : Nat) (m : Port → Port) : KeptBut fs s (t.modPort p m) := h

/-- The fields that an error response writes. -/
def errorFields : List Field := [HP_PERR.ADDR, HP_PERR.CAUSE, HP_PERR.WRITE, HP_PSTATUS.ERR, HP_STATUS.ERRRESP]

/-- The error response before a read's value is delivered. -/
def errorShown (p : Fin 3) (cause addr : Nat) (write : Bool) (s : State) : State :=
  (((((s.setFld HP_PERR.ADDR p.val addr).setFld HP_PERR.CAUSE p.val cause).setFld HP_PERR.WRITE p.val (bit write)).setFld HP_PSTATUS.ERR
    p.val 1).modPort p.val (fun x => { x with acc := none })).flag HP_STATUS.ERRRESP evHP

theorem errorResponse_eq (p : Fin 3) (cause addr : Nat) (write : Bool) (s : State) :
    errorResponse p cause addr write s
      = if write then errorShown p cause addr write s else deliver (.host p) (0xFFFFFFFF, errorShown p cause addr write s) := rfl

/-- A failed access leaves locks and time base, and the fields of other registers. -/
theorem errorResponse_leaves (p : Fin 3) (cause addr : Nat) (write : Bool) (s : State) :
    let t := errorResponse p cause addr write s
    t.locks = s.locks ∧ t.tb = s.tb ∧ KeptBut errorFields s t := by
  have hkept : KeptBut errorFields s (errorShown p cause addr write s) :=
    (((((KeptBut.refl _ s).setFld (by decide) _ _).setFld (by decide) _ _).setFld (by decide) _ _).setFld (by decide) _ _).modPort _ _
      |>.flag (by decide) evHP
  have hlocks : (errorShown p cause addr write s).locks = s.locks := State.flag_locks _ _ _
  have htb : (errorShown p cause addr write s).tb = s.tb := State.flag_tb _ _ _
  rw [errorResponse_eq]
  generalize errorShown p cause addr write s = u at hkept hlocks htb ⊢
  cases write
  · exact ⟨hlocks, htb, hkept⟩
  · exact ⟨hlocks, htb, hkept⟩

theorem failAccess_leaves (p : Fin 3) (cause : Nat) (s : State) :
    let t := failAccess p cause s
    t.locks = s.locks ∧ t.tb = s.tb ∧ KeptBut errorFields s t := by
  unfold failAccess
  split
  · exact errorResponse_leaves p cause _ _ s
  · exact ⟨rfl, rfl, KeptBut.refl _ s⟩

/-! ### The map of the arbiter's inputs -/

/-- The fields that map requesters to inputs (11 R439). -/
def mapFields : List Field := MI_MAP0.fields ++ MI_MAP1.fields

theorem mapHost_mem (p : Nat) : mapHost p ∈ mapFields := by
  unfold mapHost
  split <;> decide

theorem mapSe_mem (k : Nat) : mapSe k ∈ mapFields := by
  unfold mapSe
  split <;> decide

/-- What leaves the map leaves every requester's input. -/
theorem State.input_of_keptBut {fs : List Field} {s t : State} (h : KeptBut fs s t)
    (hfs : mapFields.all (fun g => fs.all (fun f => f.apart g)) = true) (q : Req) : t.input q = s.input q := by
  have hmap : ∀ g ∈ mapFields, t.fld g = s.fld g := fun g hg => h g (List.all_eq_true.1 hfs g hg) 0
  cases q with
  | host p => exact hmap _ (mapHost_mem p.val)
  | se k => exact hmap _ (mapSe_mem k.val)
  | hw | splitA | splitB => rfl
  | dbg | trace | commit | root | dma => exact hmap _ (by decide)

/-! ### Grants and releases -/

theorem State.lockOf_of_locks {s t : State} (h : t.locks = s.locks) (b : Nat) : t.lockOf b = s.lockOf b := by
  unfold State.lockOf
  rw [h]

theorem State.lockOf_of_set {s t : State} {b : Nat} {v : Option LockSt} (h : t.locks = Tab.set none s.locks b v) :
    t.lockOf b = v ∧ ∀ x, x ≠ b → t.lockOf x = s.lockOf x := by
  unfold State.lockOf
  rw [h]
  exact ⟨Tab.get_set_self _ _ _ _, fun _ hx => Tab.get_set_ne _ _ _ _ hx⟩

/-- The lock of bobbin `b` is in the hand of `q` from now. -/
def locked (q : Req) (b : Nat) (s : State) : State :=
  { s with locks := Tab.set none s.locks b (some { who := q, since := s.tb }) }.setFld BB_LOCKOWN.OWNER b (s.input q)

theorem locked_shows (q : Req) (b : Nat) (s : State) :
    let t := locked q b s
    t.lockOf b = some { who := q, since := s.tb } ∧ (∀ x, x ≠ b → t.lockOf x = s.lockOf x)
      ∧ t.fld BB_LOCKOWN.OWNER b = s.input q % 2 ^ 4 ∧ Kept [BB_LOCKOWN.OWNER.key b] s t := by
  obtain ⟨hself, hother⟩ := State.lockOf_of_set (b := b) (s := s) (t := locked q b s) (v := some { who := q, since := s.tb }) rfl
  exact ⟨hself, hother, State.fld_setFld_self _ _ _ _, Kept.setFld _ BB_LOCKOWN.OWNER b _⟩

theorem freeLock_shows (b : Nat) (s : State) :
    let t := freeLock b s
    t.lockOf b = none ∧ t.fld BB_LOCKOWN.OWNER b = 15 ∧ (∀ x, x ≠ b → t.lockOf x = s.lockOf x) ∧ Kept [BB_LOCKOWN.OWNER.key b] s t := by
  obtain ⟨hself, hother⟩ := State.lockOf_of_set (b := b) (s := s) (t := freeLock b s) (v := none) rfl
  exact ⟨hself, State.fld_setFld_self _ _ _ _, hother, Kept.setFld _ BB_LOCKOWN.OWNER b _⟩

theorem freeLock_keptBut (b : Nat) (s : State) : KeptBut [BB_LOCKOWN.OWNER] s (freeLock b s) :=
  KeptBut.setFld (t := { s with locks := Tab.set none s.locks b none }) (fun _ _ _ => rfl) (by decide) b 0xF

theorem noteWait_kept (i n : Nat) (s : State) : Kept [MI_ILONG.LONG.key i] s (noteWait i n s) := by
  unfold noteWait
  split
  · exact Kept.setFld s _ _ _
  · exact Kept.refl _ s

theorem noteWait_keptBut (i n : Nat) (s : State) : KeptBut [MI_ILONG.LONG] s (noteWait i n s) := by
  unfold noteWait
  split
  · exact (KeptBut.refl _ s).setFld (by decide) i _
  · exact KeptBut.refl _ s

theorem grantLock_of_unwaited {q : Req} {b : Nat} {s : State} (h : ∀ w ∈ s.lockWait, w.bob ≠ b) : grantLock q b s = locked q b s := by
  have hnone : s.lockWait.find? (fun w => w.who == q && w.bob == b) = none :=
    List.find?_eq_none.2 fun w hw => by simp [h w hw]
  unfold grantLock
  rw [hnone]
  rfl

/-- A grant notes at most how long its requester has waited, and gives the lock. -/
theorem grantLock_shows (q : Req) (b : Nat) (s : State) :
    let t := grantLock q b s
    t.lockOf b = some { who := q, since := s.tb } ∧ t.fld BB_LOCKOWN.OWNER b = s.input q % 2 ^ 4
      ∧ Kept [BB_LOCKOWN.OWNER.key b, MI_ILONG.LONG.key (s.input q)] s t := by
  unfold grantLock
  split
  · rename_i w _
    have hinput := State.input_of_keptBut (noteWait_keptBut (s.input q) (s.tb - w.since) s) (by decide) q
    have htb : (noteWait (s.input q) (s.tb - w.since) s).tb = s.tb := by rw [noteWait_frame]
    obtain ⟨hlock, -, howner, hkept⟩ := locked_shows q b (noteWait (s.input q) (s.tb - w.since) s)
    rw [hinput] at howner
    rw [htb] at hlock
    exact ⟨hlock, howner, ((noteWait_kept _ _ s).mono (by simp)).trans (hkept.mono (by simp))⟩
  · obtain ⟨hlock, -, howner, hkept⟩ := locked_shows q b s
    exact ⟨hlock, howner, hkept.mono (by simp)⟩

/-! ### LOCK and UNLOCK (R204 to R206) -/

theorem lockBob_of (b : BitVec 8) : BB_LOCK.BOB.of b.toNat = b.toNat :=
  (Field.of_low rfl _).trans (Nat.mod_eq_of_lt b.isLt)

theorem exec_lock_hw {s : State} (h : s.canVote = true) (b : BitVec 8) : exec (.lock .hw b) s = .next (voteLock b.toNat s) := by
  have hreg : (findReg BB_LOCK.addr).isNone = false := by decide
  have hplain : plainWrite .hw BB_LOCK.addr b.toNat s = voteLock b.toNat s := by
    unfold plainWrite
    rw [if_neg (by decide), hreg, if_neg Bool.false_ne_true]
    dsimp only
    rw [writeWaits_of_ne s .hw (by decide), if_neg Bool.false_ne_true, if_pos rfl, lockBob_of]
  rw [← hplain]
  exact asReq_hw h _

theorem State.waitsLock_of_none {q : Req} {b : Nat} {s : State} (h : ∀ w ∈ s.lockWait, w.bob ≠ b) : s.waitsLock q b = false :=
  List.any_eq_false.2 fun w hw => by simp [h w hw]

theorem bbLock_granted {q : Req} {b : Nat} {s : State} (hfree : s.lockOf b = none) (hlen : (s.heldBy q).length < 8)
    (habove : ∀ x ∈ s.heldBy q, x < b) (hwait : ∀ w ∈ s.lockWait, w.bob ≠ b) :
    bbLock q b s = .granted (unwaitLock q b (locked q b s)) := by
  have hbad : s.lockBad q b = false := by
    simp only [State.lockBad, Bool.or_eq_false_iff, List.any_eq_false, decide_eq_true_eq, decide_eq_false_iff_not, not_le]
    exact ⟨habove, hlen⟩
  have hbusy : s.lockBusy q b = false := by
    unfold State.lockBusy
    rw [hfree]
    exact List.any_eq_false.2 fun w hw => by simp [hwait w hw]
  unfold bbLock
  rw [State.waitsLock_of_none hwait, hbad, hbusy, grantLock_of_unwaited hwait]
  rfl

theorem bbLock_refused {q : Req} {b : Nat} {s : State} (h : ∃ x ∈ s.heldBy q, b ≤ x) (hwait : s.waitsLock q b = false) :
    bbLock q b s = .refused (s.flag BB_STATUS.LOCKORD evBB) := by
  have hbad : s.lockBad q b = true := by
    simp only [State.lockBad, Bool.or_eq_true, List.any_eq_true, decide_eq_true_eq]
    exact .inl h
  unfold bbLock
  rw [hwait, hbad]
  rfl

theorem voteLock_granted {b : Nat} {s t : State} (h : bbLock .hw b s = .granted t) : voteLock b s = t := by
  unfold voteLock
  rw [h]

theorem voteLock_refused {b : Nat} {s t : State} (h : bbLock .hw b s = .refused t) :
    voteLock b s = writeFault .hw 4 (0x30000000 + BB_LOCK.addr) t := by
  unfold voteLock
  rw [h]

theorem exec_unlock_hw {s : State} (h : s.canVote = true) (b : BitVec 8) : exec (.unlock .hw b) s = .next (bbUnlock .hw b.toNat s) :=
  asReq_hw h _

theorem bbUnlock_of_locked {q : Req} {b : Nat} {l : LockSt} {s : State} (h : s.lockOf b = some l) :
    bbUnlock q b s = if l.who = q then freeLock b s else s.flag BB_STATUS.LOCKREL evBB := by
  unfold bbUnlock
  rw [h]

/-! ### LOCK_GRANT (R206) -/

theorem exec_lockGrant_host {b : BitVec 8} {p : Fin 3} {s : State} (hfree : s.lockOf b.toNat = none)
    (hnext : s.nextWaiter b.toNat = some (.host p)) :
    exec (.lockGrant b) s = .next ((unwaitLock (.host p) b.toNat (grantLock (.host p) b.toNat s)).modPort p.val
      (fun x => { x with acc := none })) := by
  change execLockGrant b s = _
  unfold execLockGrant
  dsimp only
  rw [hfree, hnext]

/-! ### LOCK_BREAK (R208, 11 R450) -/

/-- The watchdog's record of a broken lock of input `i` (11 R450). -/
def lockRecorded (i : Nat) (s : State) : State :=
  let u : State := ((s.flag BB_STATUS.LOCKBRK evBB).setFld MI_WDOG.INPUT 0 i).setFld MI_WDOG.CAUSE 0 2
  (u.setFld MI_WDOG.BLK 0 0).setFld MI_WDTIME.TIME 0 u.nowLow

/-- Input `i` is masked (R449). -/
def inputMasked (i : Nat) (s : State) : State := unchoose i (s.putFbit MI_MASK.MASK 0 i true)

/-- A requester whose lock is broken has lost every lock, the watchdog has recorded it, and its input is masked. -/
def lockBroken (q : Req) (s : State) : State :=
  (inputMasked (s.input q) (lockRecorded (s.input q) (dropLocks q s))).flag MI_STATUS.LOCKWD evMI

theorem heldBy_single {q : Req} {b : Nat} {l : LockSt} {s : State} (hheld : s.heldBy q = [b]) (hlock : s.lockOf b = some l) :
    ((s.heldBy q).filterMap (fun c => (s.lockOf c).map LockSt.since)).foldl min s.tb = min s.tb l.since := by
  simp [hheld, hlock]

theorem lockBreak_host {p : Fin 3} {b : Nat} {l : LockSt} {s : State} (hheld : s.heldBy (.host p) = [b]) (hlock : s.lockOf b = some l) :
    lockBreak (.host p) s = failAccess p 6 (lockBroken (.host p) (s.advanceTo (min s.tb l.since + s.fld BB_CTRL.LOCKMAX * 125))) := by
  unfold lockBreak
  dsimp only
  rw [heldBy_single hheld hlock, hheld, if_neg (by simp)]
  rfl

theorem lockBreak_dma {b : Nat} {l : LockSt} {s : State} (hheld : s.heldBy .dma = [b]) (hlock : s.lockOf b = some l) :
    lockBreak .dma s
      = if s.waitsForLock .dma then discardTransfer (lockBroken .dma (s.advanceTo (min s.tb l.since + s.fld BB_CTRL.LOCKMAX * 125)))
        else lockBroken .dma (s.advanceTo (min s.tb l.since + s.fld BB_CTRL.LOCKMAX * 125)) := by
  unfold lockBreak
  dsimp only
  rw [heldBy_single hheld hlock, hheld, if_neg (by simp)]
  rfl

/-- A requester that holds one lock loses it, and waits for none. -/
theorem dropLocks_single {q : Req} {b : Nat} {s : State} (hheld : s.heldBy q = [b]) :
    dropLocks q s = { freeLock b s with lockWait := s.lockWait.filter (fun w => w.who != q) } := by
  unfold dropLocks
  rw [hheld]
  rfl

/-- The fields that a broken lock writes. -/
def breakFields : List Field :=
  [BB_LOCKOWN.OWNER, BB_STATUS.LOCKBRK, MI_WDOG.INPUT, MI_WDOG.CAUSE, MI_WDOG.BLK, MI_WDTIME.TIME, MI_MASK.MASK, MI_STATUS.LOCKWD]

theorem KeptBut.modArb {fs : List Field} {s t : State} (h : KeptBut fs s t) (m : Arbiter → Arbiter) : KeptBut fs s (t.modArb m) := h

theorem lockRecorded_shows (i : Nat) (s : State) :
    let t := lockRecorded i s
    t.fld BB_STATUS.LOCKBRK = 1 ∧ t.locks = s.locks ∧ t.lockWait = s.lockWait ∧ t.tb = s.tb ∧ t.rxHeld = s.rxHeld ∧ t.rxq = s.rxq
      ∧ KeptBut breakFields s t := by
  refine ⟨?_, State.flag_locks _ _ _, State.flag_lockWait _ _ _, State.flag_tb _ _ _, State.flag_rxHeld _ _ _, State.flag_rxq _ _ _, ?_⟩
  · refine (State.fld_setFld_apart (by decide) _ _ _ _).trans ((State.fld_setFld_apart (by decide) _ _ _ _).trans ?_)
    refine (State.fld_setFld_apart (by decide) _ _ _ _).trans ((State.fld_setFld_apart (by decide) _ _ _ _).trans ?_)
    exact State.fld_flag_self s _ _
  · exact (((((KeptBut.refl _ s).flag (by decide) _).setFld (by decide) _ _).setFld (by decide) _ _).setFld (by decide) _ _).setFld
      (by decide) _ _

theorem inputMasked_shows (i : Nat) (s : State) :
    let t := inputMasked i s
    (i < 13 → t.fbit MI_MASK.MASK i = true) ∧ t.locks = s.locks ∧ t.lockWait = s.lockWait ∧ t.tb = s.tb ∧ t.rxHeld = s.rxHeld
      ∧ t.rxq = s.rxq ∧ KeptBut [MI_MASK.MASK] s t :=
  ⟨fun hi => (State.fbit_putFbit s MI_MASK.MASK 0 i true hi).trans (if_pos rfl), rfl, rfl, rfl, rfl, rfl,
    ((KeptBut.refl _ s).putFbit (by decide) 0 i true).modArb _⟩

theorem lockBroken_shows {q : Req} {b : Nat} {s : State} (hheld : s.heldBy q = [b]) :
    let t := lockBroken q s
    t.lockOf b = none ∧ t.tb = s.tb ∧ t.fld BB_STATUS.LOCKBRK = 1 ∧ t.fld MI_STATUS.LOCKWD = 1
      ∧ (s.input q < 13 → t.fbit MI_MASK.MASK (s.input q) = true) ∧ t.rxHeld = s.rxHeld ∧ t.rxq = s.rxq
      ∧ t.lockWait = s.lockWait.filter (fun w => w.who != q) ∧ KeptBut breakFields s t := by
  have hdrop : KeptBut breakFields s (dropLocks q s) := by
    rw [dropLocks_single hheld]
    exact (freeLock_keptBut b s).mono (by decide)
  have hfree : (dropLocks q s).lockOf b = none := by
    rw [dropLocks_single hheld]
    exact (freeLock_shows b s).1
  have hleft : (dropLocks q s).tb = s.tb ∧ (dropLocks q s).rxHeld = s.rxHeld ∧ (dropLocks q s).rxq = s.rxq
      ∧ (dropLocks q s).lockWait = s.lockWait.filter (fun w => w.who != q) := by
    rw [dropLocks_single hheld]
    exact ⟨rfl, rfl, rfl, rfl⟩
  obtain ⟨htb, hrxHeld, hrxq, hwait⟩ := hleft
  obtain ⟨hbrk, hlocks, hwaitR, htbR, hheldR, hrxqR, hkept⟩ := lockRecorded_shows (s.input q) (dropLocks q s)
  unfold lockBroken
  generalize lockRecorded (s.input q) (dropLocks q s) = u at hbrk hlocks hwaitR htbR hheldR hrxqR hkept ⊢
  obtain ⟨hmask, hlocksM, hwaitM, htbM, hheldM, hrxqM, hkeptM⟩ := inputMasked_shows (s.input q) u
  generalize inputMasked (s.input q) u = v at hmask hlocksM hwaitM htbM hheldM hrxqM hkeptM ⊢
  refine ⟨?_, ?_, ?_, State.fld_flag_self _ _ _, fun hi => ?_, ?_, ?_, ?_, ?_⟩
  · exact (State.lockOf_of_locks ((State.flag_locks v _ _).trans (hlocksM.trans hlocks)) b).trans hfree
  · exact (State.flag_tb v _ _).trans (htbM.trans (htbR.trans htb))
  · exact (State.fld_flag_apart (by decide) _ _ _).trans ((hkeptM _ (by decide) 0).trans hbrk)
  · unfold State.fbit
    rw [State.fld_flag_apart (by decide)]
    exact hmask hi
  · exact (State.flag_rxHeld v _ _).trans (hheldM.trans (hheldR.trans hrxHeld))
  · exact (State.flag_rxq v _ _).trans (hrxqM.trans (hrxqR.trans hrxq))
  · exact (State.flag_lockWait v _ _).trans (hwaitM.trans (hwaitR.trans hwait))
  · exact ((hdrop.trans hkept).trans (hkeptM.mono (by decide))).flag (by decide) evMI

/-- LOCK_BREAK of a host: it loses its lock at LOCKMAX, and its input is masked. -/
theorem lockBreak_host_shows {p : Fin 3} {b : Nat} {l : LockSt} {s : State} (hheld : s.heldBy (.host p) = [b])
    (hlock : s.lockOf b = some l) (hsince : l.since ≤ s.tb) (hmax : s.tb ≤ l.since + s.fld BB_CTRL.LOCKMAX * 125)
    (hinput : s.input (.host p) < 13) :
    let t := lockBreak (.host p) s
    t.lockOf b = none ∧ t.tb = l.since + s.fld BB_CTRL.LOCKMAX * 125 ∧ t.fld BB_STATUS.LOCKBRK = 1 ∧ t.fld MI_STATUS.LOCKWD = 1
      ∧ t.masked (.host p) = true := by
  rw [lockBreak_host hheld hlock, Nat.min_eq_right hsince]
  have htime := State.advanceTo_tb_eq s (l.since + s.fld BB_CTRL.LOCKMAX * 125)
  rw [Nat.max_eq_right hmax] at htime
  have hin : (s.advanceTo (l.since + s.fld BB_CTRL.LOCKMAX * 125)).input (.host p) = s.input (.host p) := rfl
  have hbroken := lockBroken_shows (q := .host p) (b := b) (s := s.advanceTo (l.since + s.fld BB_CTRL.LOCKMAX * 125)) hheld
  rw [hin, htime] at hbroken
  generalize lockBroken (.host p) (s.advanceTo (l.since + s.fld BB_CTRL.LOCKMAX * 125)) = u at hbroken ⊢
  obtain ⟨hfree, htb, hbrk, hwd, hmask, -, -, -, hkept⟩ := hbroken
  obtain ⟨hlocks, htb', hkept'⟩ := failAccess_leaves p 6 u
  refine ⟨(State.lockOf_of_locks hlocks b).trans hfree, htb'.trans htb, (hkept' _ (by decide) 0).trans hbrk,
    (hkept' _ (by decide) 0).trans hwd, ?_⟩
  have hinput' : (failAccess p 6 u).input (.host p) = s.input (.host p) :=
    (State.input_of_keptBut hkept' (by decide) _).trans (State.input_of_keptBut hkept (by decide) _)
  unfold State.masked State.fbit
  rw [hinput', hkept' _ (by decide) 0]
  exact hmask hinput

/-- LOCK_BREAK of the Carrik DMA while it waits for another lock: its lock and its wait are gone, and the frames it holds. -/
theorem lockBreak_dma_shows {b : Nat} {l : LockSt} {s : State} (hheld : s.heldBy .dma = [b]) (hlock : s.lockOf b = some l)
    (hwaits : s.waitsForLock .dma = true) (hrx : s.rxHeld ≠ []) :
    let t := lockBreak .dma s
    t.lockOf b = none ∧ t.rxHeld = [] ∧ t.rxq = s.rxq ∧ t.fld BB_STATUS.LOCKBRK = 1 ∧ ∀ w ∈ t.lockWait, w.who ≠ .dma := by
  rw [lockBreak_dma hheld hlock, if_pos hwaits]
  have hbroken := lockBroken_shows (q := .dma) (b := b) (s := s.advanceTo (min s.tb l.since + s.fld BB_CTRL.LOCKMAX * 125)) hheld
  generalize lockBroken .dma (s.advanceTo (min s.tb l.since + s.fld BB_CTRL.LOCKMAX * 125)) = u at hbroken ⊢
  obtain ⟨hfree, -, hbrk, -, -, hheldRx, hrxq, hwait, -⟩ := hbroken
  have hdiscard : discardTransfer u = { u with rxHeld := [] } := if_neg (by rw [hheldRx]; simpa using hrx)
  rw [hdiscard]
  refine ⟨hfree, rfl, hrxq, hbrk, fun w hw => ?_⟩
  have hmem : w ∈ s.lockWait.filter (fun w => w.who != .dma) := hwait ▸ hw
  exact bne_iff_ne.1 (List.mem_filter.1 hmem).2

/-! ### The locks together -/

/-- Settles O17, command by command. -/
theorem bobbinLocks : Obligations.BobbinLocks := by
  unfold Obligations.BobbinLocks
  refine fun s b p l => ⟨fun hv hfree hlen habove hwait => ?_, fun hv hbad hwait => ?_, fun hv hlock hwho => ?_, fun hv hlock hwho => ?_,
    fun hfree hnext hinput => ?_, fun hheld hlock _ hmax hsince hinput => ?_, fun c hheld hlock _ _ hwaits hrx => ?_⟩
  · obtain ⟨hself, hother, howner, hkept⟩ := locked_shows .hw b.toNat s
    exact ⟨_, (exec_lock_hw hv b).trans (congrArg _ (voteLock_granted (bbLock_granted hfree hlen habove hwait))), hself, howner, hother,
      hkept⟩
  · exact (exec_lock_hw hv b).trans (congrArg _ (voteLock_refused (bbLock_refused hbad hwait)))
  · exact ⟨_, (exec_unlock_hw hv b).trans (congrArg _ ((bbUnlock_of_locked hlock).trans (if_pos hwho))), freeLock_shows b.toNat s⟩
  · exact (exec_unlock_hw hv b).trans (congrArg _ ((bbUnlock_of_locked hlock).trans (if_neg hwho)))
  · obtain ⟨hself, howner, hkept⟩ := grantLock_shows (.host p) b.toNat s
    exact ⟨_, exec_lockGrant_host hfree hnext, hself, howner.trans (Nat.mod_eq_of_lt hinput),
      congrArg Port.acc (State.modPort_port_self _ p.val _), hkept⟩
  · exact ⟨_, rfl, lockBreak_host_shows hheld hlock hsince hmax hinput⟩
  · exact ⟨_, rfl, lockBreak_dma_shows hheld hlock hwaits hrx⟩

end Sys2Proof.Machine
end

section
/-! PROOFS. The queue of agreed bobbin commands and their results (04 R194, R195, Table BB-8). -/

namespace Sys2Proof.Machine

/-! ### What leaves the queue and the agreed values -/

/-- The queue of commands and the agreed values. -/
def State.commands (s : State) : List Cmd × List (Nat × Nat) := (s.cmds, s.agreed)

@[simp] theorem State.commands_setFld (f : Field) (i v : Nat) (s : State) : (s.setFld f i v).commands = s.commands := rfl

@[simp] theorem State.commands_putFbit (f : Field) (i b : Nat) (v : Bool) (s : State) : (s.putFbit f i b v).commands = s.commands := rfl

@[simp] theorem State.commands_modPort (p : Nat) (g : Port → Port) (s : State) : (s.modPort p g).commands = s.commands := rfl

@[simp] theorem State.commands_modMig (x : Nat) (g : MigSt → MigSt) (s : State) : (s.modMig x g).commands = s.commands := rfl

@[simp] theorem State.commands_modGraft (g : GraftSt → GraftSt) (s : State) : (s.modGraft g).commands = s.commands := rfl

@[simp] theorem State.commands_flag (f : Field) (e : Nat) (s : State) : (s.flag f e).commands = s.commands := by
  rw [State.flag_frame]
  rfl

@[simp] theorem State.commands_onlyIf {c : Bool} {g : State → State} (hg : ∀ t, (g t).commands = t.commands) (s : State) :
    (onlyIf c g s).commands = s.commands := onlyIf_frame c hg s

@[simp] theorem State.commands_forEach {α : Type} {l : List α} {g : α → State → State} (hg : ∀ x t, (g x t).commands = t.commands)
    (s : State) : (forEach l g s).commands = s.commands := forEach_frame l (fun x _ => hg x) s

@[simp] theorem queueMsg_commands (r ty : Nat) (m : GMsg) (s : State) : (queueMsg r ty m s).commands = s.commands := rfl

@[simp] theorem sendMsg_commands (ty : Nat) (dst : Option Nat) (seg sbob : Nat) (body : List Byte) (s : State) :
    (sendMsg ty dst seg sbob body s).commands = s.commands := by
  unfold sendMsg
  split
  · rfl
  · dsimp only
    split <;> simp

@[simp] theorem dropMsgs_commands (b : Nat) (s : State) : (dropMsgs b s).commands = s.commands := by
  unfold dropMsgs
  refine State.commands_forEach (fun _ _ => ?_) s
  rfl

@[simp] theorem setMode_commands (b mode x : Nat) (s : State) : (setMode b mode x s).commands = s.commands := rfl

@[simp] theorem clearSlot_commands (x : Nat) (s : State) : (clearSlot x s).commands = s.commands := rfl

/-! ### The COMMAND entry of the ports (12 R484, R486) -/

/-- The fields that a COMMAND entry writes. -/
def commandFields : List Field := [HP_PSTATUS.CMD, HP_DIRTY.D, HP_POV.CMDLOST]

theorem pushCommand_kept (e bob p : Nat) (s : State) : KeptBut commandFields s (pushCommand e bob p s) := by
  have hcmd : KeptBut commandFields s (s.setFld HP_PSTATUS.CMD p 1) := (KeptBut.refl _ s).setFld (by decide) p 1
  unfold pushCommand
  dsimp only
  split
  · exact fun g hg j => (State.modPort_fld _ _ _ _ g).trans (hcmd g hg j)
  · exact (hcmd.putFbit (by decide) _ _ true).setFld (by decide) p 1

@[simp] theorem pushCommand_commands (e bob p : Nat) (s : State) : (pushCommand e bob p s).commands = s.commands := by
  unfold pushCommand
  dsimp only
  split <;> rfl

theorem pushCommand_cmd (e bob p j : Nat) (s : State) :
    (pushCommand e bob p s).fld HP_PSTATUS.CMD j = if j = p then 1 else s.fld HP_PSTATUS.CMD j := by
  have hcmd : (s.setFld HP_PSTATUS.CMD p 1).fld HP_PSTATUS.CMD j = if j = p then 1 else s.fld HP_PSTATUS.CMD j := by
    split
    · rename_i h
      rw [h]
      exact State.fld_setFld_self s _ p 1
    · rename_i h
      exact State.fld_setFld_ne s 1 (Field.key_ne (by decide) (by decide) (by decide) (by decide) (.inl (Ne.symm h)))
  unfold pushCommand
  dsimp only
  split
  · exact (State.modPort_fld _ _ _ _ _).trans hcmd
  · exact (State.fld_setFld_apart (by decide) _ _ _ _).trans ((State.fld_putFbit_apart (by decide) _ _ _ _ _).trans hcmd)

theorem hostCommand_kept (sub bob result tag : Nat) (s : State) : KeptBut commandFields s (hostCommand sub bob result tag s) :=
  forEach_keeps (P := KeptBut commandFields s) _ (fun _ _ _ ht => ht.trans (pushCommand_kept _ _ _ _)) (KeptBut.refl _ s)

@[simp] theorem hostCommand_commands (sub bob result tag : Nat) (s : State) : (hostCommand sub bob result tag s).commands = s.commands :=
  State.commands_forEach (fun _ _ => pushCommand_commands _ _ _ _) s

/-- Every port signals the command. -/
theorem hostCommand_cmd (sub bob result tag : Nat) (s : State) (p : Fin 3) :
    (hostCommand sub bob result tag s).fld HP_PSTATUS.CMD p.val = 1 := by
  unfold hostCommand
  simp only [forEach_cons, forEach_nil, pushCommand_cmd]
  split_ifs <;> omega

/-! ### A command's result (R194) -/

/-- BB_CMDRES with a result. -/
def resultShown (c : Cmd) (result : Nat) (s : State) : State :=
  (((s.setFld BB_CMDRES.BOB 0 c.bob).setFld BB_CMDRES.CODE 0 c.code).setFld BB_CMDRES.RESULT 0 result).setFld BB_CMDRES.TAG 0 c.tag

theorem cmdResult_eq (c : Cmd) (result : Nat) (s : State) :
    cmdResult c result s
      = (hostCommand 0 c.bob result c.tag (resultShown c result s)).flag (if result = 1 then BB_STATUS.CMDQ else BB_STATUS.CMDDONE) evBB := by
  unfold cmdResult
  dsimp only
  split <;> rfl

/-- A command is within the fields of BB_CMDRES. -/
def Cmd.fits (c : Cmd) : Prop := c.bob < 2 ^ 8 ∧ c.code < 2 ^ 4 ∧ c.tag < 2 ^ 16

theorem resultShown_shows {c : Cmd} {result : Nat} (h : c.fits) (hresult : result < 2 ^ 4) (s : State) :
    let t := resultShown c result s
    t.fld BB_CMDRES.BOB = c.bob ∧ t.fld BB_CMDRES.CODE = c.code ∧ t.fld BB_CMDRES.RESULT = result ∧ t.fld BB_CMDRES.TAG = c.tag := by
  obtain ⟨hbob, hcode, htag⟩ := h
  refine ⟨?_, ?_, ?_, State.fld_setFld_lt htag 0 _⟩
  · refine (State.fld_setFld_apart (by decide) _ _ _ _).trans ((State.fld_setFld_apart (by decide) _ _ _ _).trans ?_)
    exact (State.fld_setFld_apart (by decide) _ _ _ _).trans (State.fld_setFld_lt hbob 0 s)
  · refine (State.fld_setFld_apart (by decide) _ _ _ _).trans ((State.fld_setFld_apart (by decide) _ _ _ _).trans ?_)
    exact State.fld_setFld_lt hcode 0 _
  · exact (State.fld_setFld_apart (by decide) _ _ _ _).trans (State.fld_setFld_lt hresult 0 _)

/-- A result shows in BB_CMDRES and at every port, and leaves the queue. -/
theorem cmdResult_shows {c : Cmd} {result : Nat} (h : c.fits) (hresult : result < 2 ^ 4) (s : State) :
    let t := cmdResult c result s
    t.fld BB_CMDRES.BOB = c.bob ∧ t.fld BB_CMDRES.CODE = c.code ∧ t.fld BB_CMDRES.RESULT = result ∧ t.fld BB_CMDRES.TAG = c.tag
      ∧ (∀ p : Fin 3, t.fld HP_PSTATUS.CMD p.val = 1) ∧ (result ≠ 1 → t.fld BB_STATUS.CMDDONE = 1) ∧ t.commands = s.commands := by
  obtain ⟨hbob, hcode, hres, htag⟩ := resultShown_shows h hresult s
  have hkept := hostCommand_kept 0 c.bob result c.tag (resultShown c result s)
  have hcmd := hostCommand_cmd 0 c.bob result c.tag (resultShown c result s)
  have hcommands : (hostCommand 0 c.bob result c.tag (resultShown c result s)).commands = s.commands := hostCommand_commands _ _ _ _ _
  have hstatus : ∀ g : Field, BB_STATUS.CMDQ.apart g = true → BB_STATUS.CMDDONE.apart g = true →
      (if result = 1 then BB_STATUS.CMDQ else BB_STATUS.CMDDONE).apart g = true := fun g hq hd => by split <;> assumption
  rw [cmdResult_eq]
  generalize hostCommand 0 c.bob result c.tag (resultShown c result s) = u at hkept hcmd hcommands ⊢
  have hleft : ∀ (g : Field) (j : Nat), BB_STATUS.CMDQ.apart g = true → BB_STATUS.CMDDONE.apart g = true →
      (u.flag (if result = 1 then BB_STATUS.CMDQ else BB_STATUS.CMDDONE) evBB).fld g j = u.fld g j :=
    fun g j hq hd => State.fld_flag_apart (hstatus g hq hd) _ j u
  refine ⟨?_, ?_, ?_, ?_, fun p => ?_, fun hne => ?_, (State.commands_flag _ _ u).trans hcommands⟩
  · exact (hleft _ 0 (by decide) (by decide)).trans ((hkept _ (by decide) 0).trans hbob)
  · exact (hleft _ 0 (by decide) (by decide)).trans ((hkept _ (by decide) 0).trans hcode)
  · exact (hleft _ 0 (by decide) (by decide)).trans ((hkept _ (by decide) 0).trans hres)
  · exact (hleft _ 0 (by decide) (by decide)).trans ((hkept _ (by decide) 0).trans htag)
  · exact (hleft _ p.val (by decide) (by decide)).trans (hcmd p)
  · rw [if_neg hne]
    exact State.fld_flag_self u _ _

/-! ### The end of a migration for a command (08 R328) -/

@[simp] theorem orderResult_commands (bob code result reason tag : Nat) (s : State) :
    (orderResult bob code result reason tag s).commands = s.commands := by
  unfold orderResult
  simp

/-- The source of a migration that ends keeps its queue. -/
theorem endMig_commands {x : Nat} {s : State} (h : s.fld GR_MIG.ROLE x = 0) (result reason : Nat) (tell : Bool) :
    (endMig x result reason tell s).commands = s.commands := by
  unfold endMig
  dsimp only
  rw [h, if_pos (by decide), State.commands_flag, clearSlot_commands, setMode_commands,
    State.commands_onlyIf (fun _ => State.commands_modGraft _ _), State.commands_onlyIf (fun _ => orderResult_commands _ _ _ _ _ _),
    State.commands_onlyIf (fun _ => sendMsg_commands _ _ _ _ _ _), dropMsgs_commands]

theorem abortForCommand_commands (b : Nat) (s : State) : (abortForCommand b s).commands = s.commands := by
  unfold abortForCommand
  split
  · rename_i x hx
    have hrole : s.fld GR_MIG.ROLE x = 0 := by
      have hfound := List.find?_some (p := fun x => s.migState x != 0 && s.fld GR_MIG.ROLE x == 0 && s.fld GR_MIG.BOB x == b) hx
      simp only [Bool.and_eq_true, beq_iff_eq] at hfound
      exact hfound.1.2
    split
    · rfl
    · exact endMig_commands hrole 3 9 true
  · rfl

/-! ### An agreed command (R194) -/

theorem cmdValid_iff (code : Nat) : cmdValid code = true ↔ (1 ≤ code ∧ code ≤ 5) ∨ (8 ≤ code ∧ code ≤ 11) := by
  simp [cmdValid]

/-- The command of the table that code `code` of BB_CMD calls for (Table BB-14). -/
def commandOf (code : Nat) : Instr :=
  if code = 1 then .preparatoryReset else if code = 2 then .conditionalReset else if code = 3 then .directReset
  else if code = 4 then .cancelResetProcedure else if code = 5 then .fingerprintClearance
  else if 8 ≤ code ∧ code ≤ 11 then .operatorCommand else .invalidCommand

theorem exec_commandOf (code : Nat) : ∃ ok : Nat → Bool, (∀ s, exec (commandOf code) s = .next (agreedCommand ok s)) ∧ ok code = true := by
  unfold commandOf
  split_ifs with h1 h2 h3 h4 h5 h8
  · exact ⟨fun c => c == 1, fun _ => rfl, beq_iff_eq.2 h1⟩
  · exact ⟨fun c => c == 2, fun _ => rfl, beq_iff_eq.2 h2⟩
  · exact ⟨fun c => c == 3, fun _ => rfl, beq_iff_eq.2 h3⟩
  · exact ⟨fun c => c == 4, fun _ => rfl, beq_iff_eq.2 h4⟩
  · exact ⟨fun c => c == 5, fun _ => rfl, beq_iff_eq.2 h5⟩
  · exact ⟨fun c => decide (8 ≤ c) && decide (c ≤ 11), fun _ => rfl, by simpa using h8⟩
  · refine ⟨fun c => !cmdValid c, fun _ => rfl, ?_⟩
    have hinvalid : ¬ cmdValid code = true := fun h => by
      rw [cmdValid_iff] at h
      omega
    simpa using hinvalid

theorem cmdOf_eq (v : Nat) : cmdOf v = { bob := v % 256, code := v / 2 ^ 8 % 16, tag := v / 2 ^ 16 % 2 ^ 16 } := by
  have hbob : BB_CMD.BOB.of v = v % 256 := Field.of_low rfl v
  have hcode : BB_CMD.CODE.of v = v / 2 ^ 8 % 16 := rfl
  have htag : BB_CMD.TAG.of v = v / 2 ^ 16 % 2 ^ 16 := rfl
  unfold cmdOf
  rw [hbob, hcode, htag]

/-- An agreed value of BB_CMD is taken once, by the command of its code. -/
theorem exec_agreed {v : Nat} {s : State} (h : s.agreed.find? (fun p => p.1 == BB_CMD.addr) = some (BB_CMD.addr, v)) :
    exec (commandOf (v / 2 ^ 8 % 16)) s
      = .next (takeCommand { bob := v % 256, code := v / 2 ^ 8 % 16, tag := v / 2 ^ 16 % 2 ^ 16 }
          { s with agreed := s.agreed.erase (BB_CMD.addr, v) }) := by
  obtain ⟨ok, hexec, hok⟩ := exec_commandOf (v / 2 ^ 8 % 16)
  have hfind : s.agreed.find? (fun p => p.1 == bbCmdOff) = some (BB_CMD.addr, v) := h
  refine (hexec s).trans (congrArg _ ?_)
  unfold agreedCommand
  rw [hfind]
  dsimp only
  rw [cmdOf_eq]
  exact if_pos hok

theorem takeCommand_invalid {c : Cmd} (h : ¬ cmdValid c.code = true) (s : State) : takeCommand c s = cmdResult c 7 s :=
  if_pos (by simpa using h)

theorem takeCommand_refused {c : Cmd} {s : State} (hvalid : cmdValid c.code = true) (h : s.takesCommands c.bob = false) :
    takeCommand c s = cmdResult c 6 s := by
  unfold takeCommand
  exact (if_neg (by simp [hvalid])).trans (if_pos (by simp [h]))

theorem takeCommand_busy {c : Cmd} {s : State} (hvalid : cmdValid c.code = true) (htakes : s.takesCommands c.bob = true)
    (h : 8 ≤ s.cmds.length ∨ ∃ x ∈ s.cmds, x.bob = c.bob) : takeCommand c s = cmdResult c 5 s := by
  unfold takeCommand
  exact (if_neg (by simp [hvalid])).trans ((if_neg (by simp [htakes])).trans (if_pos (by simpa using h)))

theorem takeCommand_queued {c : Cmd} {s : State} (hvalid : cmdValid c.code = true) (htakes : s.takesCommands c.bob = true)
    (hroom : s.cmds.length < 8) (hfree : ∀ x ∈ s.cmds, x.bob ≠ c.bob) :
    takeCommand c s
      = cmdResult c 1 { abortForCommand c.bob s with cmds := (abortForCommand c.bob s).cmds ++ [c] } := by
  unfold takeCommand
  exact (if_neg (by simp [hvalid])).trans ((if_neg (by simp [htakes])).trans (if_neg (by simpa using ⟨hroom, hfree⟩)))

/-- Whatever the answer, the command shows in BB_CMDRES, and no agreed value is lost. -/
theorem takeCommand_of_result {c : Cmd} {result : Nat} {s u : State} (hc : c.fits) (hresult : result < 2 ^ 4)
    (h : takeCommand c s = cmdResult c result u) (hagreed : u.agreed = s.agreed) :
    let t := takeCommand c s
    (t.agreed = s.agreed ∧ t.fld BB_CMDRES.BOB = c.bob ∧ t.fld BB_CMDRES.CODE = c.code ∧ t.fld BB_CMDRES.TAG = c.tag)
      ∧ t.fld BB_CMDRES.RESULT = result ∧ t.cmds = u.cmds := by
  obtain ⟨hbob, hcode, hres, htag, -, -, hcommands⟩ := cmdResult_shows hc hresult u
  rw [h]
  exact ⟨⟨(congrArg Prod.snd hcommands).trans hagreed, hbob, hcode, htag⟩, hres, congrArg Prod.fst hcommands⟩

/-- What taking an agreed command shows: its result in the order of R194. -/
theorem takeCommand_shows {c : Cmd} (hc : c.fits) (s : State) :
    let t := takeCommand c s
    (t.agreed = s.agreed ∧ t.fld BB_CMDRES.BOB = c.bob ∧ t.fld BB_CMDRES.CODE = c.code ∧ t.fld BB_CMDRES.TAG = c.tag)
      ∧ (¬ cmdValid c.code = true → t.fld BB_CMDRES.RESULT = 7 ∧ t.cmds = s.cmds)
      ∧ (cmdValid c.code = true → s.takesCommands c.bob = false → t.fld BB_CMDRES.RESULT = 6 ∧ t.cmds = s.cmds)
      ∧ (cmdValid c.code = true → s.takesCommands c.bob = true → (8 ≤ s.cmds.length ∨ ∃ x ∈ s.cmds, x.bob = c.bob) →
          t.fld BB_CMDRES.RESULT = 5 ∧ t.cmds = s.cmds)
      ∧ (cmdValid c.code = true → s.takesCommands c.bob = true → s.cmds.length < 8 → (∀ x ∈ s.cmds, x.bob ≠ c.bob) →
          t.fld BB_CMDRES.RESULT = 1 ∧ t.cmds = s.cmds ++ [c]) := by
  have hcommands := abortForCommand_commands c.bob s
  have hcmds : (abortForCommand c.bob s).cmds = s.cmds := congrArg Prod.fst hcommands
  have hagreed : (abortForCommand c.bob s).agreed = s.agreed := congrArg Prod.snd hcommands
  have h7 := fun h => takeCommand_of_result hc (by decide) (takeCommand_invalid (c := c) h s) rfl
  have h6 := fun hv h => takeCommand_of_result hc (by decide) (takeCommand_refused (c := c) (s := s) hv h) rfl
  have h5 := fun hv ht h => takeCommand_of_result hc (by decide) (takeCommand_busy (c := c) (s := s) hv ht h) rfl
  have h1 := fun hv ht hroom hfree => takeCommand_of_result hc (by decide) (takeCommand_queued (c := c) (s := s) hv ht hroom hfree) hagreed
  refine ⟨?_, fun h => (h7 h).2, fun hv h => (h6 hv h).2, fun hv ht h => (h5 hv ht h).2, fun hv ht hroom hfree => ?_⟩
  · by_cases hv : cmdValid c.code = true
    · by_cases ht : s.takesCommands c.bob = true
      · by_cases hb : 8 ≤ s.cmds.length ∨ ∃ x ∈ s.cmds, x.bob = c.bob
        · exact (h5 hv ht hb).1
        · obtain ⟨hroom, hfree⟩ := not_or.1 hb
          exact (h1 hv ht (not_le.1 hroom) (fun x hx he => hfree ⟨x, hx, he⟩)).1
      · exact (h6 hv (Bool.eq_false_iff.2 ht)).1
    · exact (h7 hv).1
  · obtain ⟨hres, hqueue⟩ := (h1 hv ht hroom hfree).2
    exact ⟨hres, hqueue.trans (congrArg (fun l => l ++ [c]) hcmds)⟩

/-! ### BB_CMDPOP and BB_CMDDONE (R195) -/

theorem exec_cmdpop_hw {s : State} (h : s.canVote = true) (v : Word) : exec (.cmdpop .hw v) s = .next { s with cmds := s.cmds.tail } :=
  asReq_hw h _

theorem exec_cmddone_hw {s : State} (h : s.canVote = true) (v : Word) : exec (.cmddone .hw v) s = .next (bbCmddone .hw v.toNat s) :=
  asReq_hw h _

theorem bbCmddone_hw {v : Nat} (hv : v < 2 ^ 32) (s : State) :
    bbCmddone .hw v s
      = if 2 ≤ v / 2 ^ 12 % 16 ∧ v / 2 ^ 12 % 16 ≤ 4 then
          cmdResult { bob := v % 2 ^ 8, code := v / 2 ^ 8 % 16, tag := v / 2 ^ 16 } (v / 2 ^ 12 % 16) s
        else s.flag BB_STATUS.CFGERR evBB := by
  have hbob : BB_CMDDONE.BOB.of v = v % 2 ^ 8 := Field.of_low rfl v
  have hcode : BB_CMDDONE.CODE.of v = v / 2 ^ 8 % 16 := rfl
  have hresult : BB_CMDDONE.RESULT.of v = v / 2 ^ 12 % 16 := rfl
  have htag : BB_CMDDONE.TAG.of v = v / 2 ^ 16 := Nat.mod_eq_of_lt (show v / 2 ^ 16 < 2 ^ 16 by omega)
  unfold bbCmddone
  dsimp only
  rw [hbob, hcode, hresult, htag]
  exact if_neg (by decide)

/-- Settles O18: an agreed value by the answer it gets, the queue's registers by the written result. -/
theorem agreedCommandsAreQueuedAndServed : Obligations.AgreedCommandsAreQueuedAndServed := by
  unfold Obligations.AgreedCommandsAreQueuedAndServed
  refine ⟨fun s v => ?_, fun s v hv => ⟨exec_cmdpop_hw hv v, fun hres => ?_, fun hres => ?_⟩⟩
  · intro b code tag c valid hagreed
    have hfits : ({ bob := b, code := code, tag := tag } : Cmd).fits :=
      ⟨Nat.mod_lt _ (by decide), Nat.mod_lt _ (by decide), Nat.mod_lt _ (by decide)⟩
    have hvalid : valid ↔ cmdValid code = true := (cmdValid_iff code).symm
    obtain ⟨⟨ha, hbob, hcode, htag⟩, h7, h6, h5, h1⟩ := takeCommand_shows hfits { s with agreed := s.agreed.erase (BB_CMD.addr, v) }
    rw [hvalid]
    exact ⟨_, exec_agreed hagreed, ha, hbob, hcode, htag, h7, h6, h5, h1⟩
  · have hfits : ({ bob := v.toNat % 2 ^ 8, code := v.toNat / 2 ^ 8 % 16, tag := v.toNat / 2 ^ 16 } : Cmd).fits :=
      ⟨Nat.mod_lt _ (by decide), Nat.mod_lt _ (by decide), by have := v.isLt; dsimp only; omega⟩
    obtain ⟨hbob, hcode, hresult, htag, hcmd, hdone, hcommands⟩ := cmdResult_shows hfits (Nat.mod_lt _ (by decide)) s
    exact ⟨_, (exec_cmddone_hw hv v).trans (congrArg _ ((bbCmddone_hw v.isLt s).trans (if_pos hres))), hbob, hcode, hresult, htag,
      hdone (by omega), hcmd, congrArg Prod.fst hcommands⟩
  · exact (exec_cmddone_hw hv v).trans (congrArg _ ((bbCmddone_hw v.isLt s).trans (if_neg hres)))

end Sys2Proof.Machine
end

section
/-! PROOFS. An evaluation from a read index beyond its seven bits does not end at the write index (04 R191, R610): in `(wi + 128 - ri) % 128`
the subtraction of the naturals stops at 0, so that a ring whose write index is 0 and whose read index is 129 holds no entry, and taking every
entry leaves the read index at 129 mod 128. -/

namespace Sys2Proof.Machine

/-- A state with bobbin 1 active as one that another node evaluates, no lock held and no evaluation left unfinished, whose origin ring has a
write index of 0 and a read index of 129. -/
def readIndexBeyond : State :=
  { State.reset with regs := [(BB_ORIGIDX.RI.key 0, 129), (BB_CFG.ACTIVE.key 1, 1), (GR_BMODE.MODE.key 1, 1)] }

/-- That state with its claims and its ring taken, before the first commit of an evaluation. -/
def readIndexBeyondTaken : State := takeOrigin (accumulate readIndexBeyond)

/-- An evaluation of bobbin 1 commits the record of that bobbin alone. -/
theorem exec_evaluation_readIndexBeyond :
    exec (.evaluation 1#8) readIndexBeyond = .next (runParts (94 + 2) [.whole [1]] readIndexBeyondTaken) := by
  let b : BitVec 8 := 1#8
  have hgo : ¬ (!readIndexBeyond.active b.toNat || !readIndexBeyond.canVote || readIndexBeyond.waitsForLock .hw) = true := by
    decide +kernel
  have hset : readIndexBeyond.evalSet b.toNat = [1] := by decide +kernel
  calc exec (.evaluation b) readIndexBeyond
    _ = execEvaluation b readIndexBeyond := rfl
    _ = .next (evaluate b.toNat readIndexBeyond) := by rw [execEvaluation, if_neg hgo]; rfl
    _ = .next (runParts (94 + 2) [.whole [1]] readIndexBeyondTaken) := by rw [evaluate, hset]; rfl

/-- Made in three parts, the evaluation of bobbin 1 leaves the read index at 1. -/
theorem readIndex_runParts_split :
    (runParts (94 + 1) [.before [1], .release [1], .after [1]] readIndexBeyondTaken).fld BB_ORIGIDX.RI = 1 := by
  have hfits : ¬ (EvalPart.before [1]).tooLarge readIndexBeyondTaken ((EvalPart.before [1]).run readIndexBeyondTaken).1 = true := by
    decide +kernel
  have hlock : ¬ (!(takeLocks [1] readIndexBeyondTaken).1) = true := by decide +kernel
  rw [runParts, if_neg hfits]
  dsimp only [EvalPart.bobs]
  rw [if_neg hlock]
  decide +kernel

/-- Whether its one commit is too large or not, the evaluation of bobbin 1 leaves the read index at 1. -/
theorem readIndex_runParts_whole : (runParts (94 + 2) [.whole [1]] readIndexBeyondTaken).fld BB_ORIGIDX.RI = 1 := by
  rw [runParts]
  split
  · exact readIndex_runParts_split
  · decide +kernel

/-- Refutes O19: from a write index of 0 and a read index of 129, beyond the seven bits of the field, an evaluation leaves the read index at
1 and not at the write index. -/
theorem not_fingerprintMatchesAndEvaluation : ¬ Obligations.FingerprintMatchesAndEvaluation := by
  unfold Obligations.FingerprintMatchesAndEvaluation
  intro h
  obtain ⟨t, hexec, hri, -, -⟩ := h.2 readIndexBeyond 1#8 (by decide +kernel) (by decide +kernel) rfl rfl rfl
  have hwi : readIndexBeyond.fld BB_ORIGIDX.WI = 0 := by decide +kernel
  rw [exec_evaluation_readIndexBeyond] at hexec
  obtain rfl := Host.Outcome.next.inj hexec
  rw [readIndex_runParts_whole, hwi] at hri
  exact absurd hri (by decide)

end Sys2Proof.Machine
end

section
/-! PROOFS. The time unit: what its updates leave, its states, masters, and the time that a reader latches (06 R233, R239, R245 to R253). -/

namespace Sys2Proof.Machine

/-! ### What an event and a DEVICE entry leave of the time unit -/

@[simp] theorem State.flag_time (s : State) (f : Field) (e : Nat) : (s.flag f e).time = s.time := by rw [State.flag_frame]

@[simp] theorem State.flag_now (s : State) (f : Field) (e : Nat) : (s.flag f e).now = s.now := by rw [State.flag_frame]

@[simp] theorem pushDevice_time (e cause p : Nat) (s : State) : (pushDevice e cause p s).time = s.time := by
  unfold pushDevice
  split <;> rfl

@[simp] theorem hostDevice_time (cause head : Nat) (s : State) : (hostDevice cause head s).time = s.time :=
  forEach_frame (g := State.time) _ (fun _ _ _ => pushDevice_time _ _ _ _) s

theorem pushDevice_kept (e cause p : Nat) (s : State) : KeptBut [HP_POV.DEV] s (pushDevice e cause p s) := by
  unfold pushDevice
  split
  · exact (KeptBut.refl _ s).modPort p _
  · exact (KeptBut.refl _ s).putFbit (by decide) p _ true

theorem hostDevice_kept (cause head : Nat) (s : State) : KeptBut [HP_POV.DEV] s (hostDevice cause head s) :=
  forEach_keeps (P := KeptBut [HP_POV.DEV] s) _ (fun _ _ _ ht => ht.trans (pushDevice_kept _ _ _ _)) (KeptBut.refl _ s)

theorem KeptBut.modTime {fs : List Field} {s t : State} (h : KeptBut fs s t) (f : TimeSt → TimeSt) : KeptBut fs s (t.modTime f) := h

/-! ### TQLOW and GRIDERR (R248, R265) -/

/-- The fields that follow the time quality. -/
def qualityFields : List Field := [TM_STATUS.GRIDERR, TM_STATUS.TQLOW, TM_STATUS.QLOW, TM_STATUS.QOK, HP_POV.DEV]

/-- The state with GRIDERR as `refreshTq` sets it. -/
def gridChecked (s : State) : State :=
  s.setFld TM_STATUS.GRIDERR 0 (bit (s.isSet TM_MASTER.VALID && s.fld TM_GRID.PHASEF != s.fld TM_MASTER.CPHASE))

/-- TQLOW becomes `low`, with its status bit and its device entry. -/
def qualityTold (low : Bool) (s : State) : State :=
  if low then hostDevice 2 0 ((s.setFld TM_STATUS.TQLOW 0 (bit low)).flag TM_STATUS.QLOW evTM)
  else hostDevice 3 0 ((s.setFld TM_STATUS.TQLOW 0 (bit low)).flag TM_STATUS.QOK evTM)

theorem refreshTq_eq (s : State) :
    refreshTq s = if (gridChecked s).belowLimit = (gridChecked s).isSet TM_STATUS.TQLOW then gridChecked s
      else qualityTold (gridChecked s).belowLimit (gridChecked s) := rfl

@[simp] theorem qualityTold_time (low : Bool) (s : State) : (qualityTold low s).time = s.time := by
  unfold qualityTold
  split <;> simp

@[simp] theorem refreshTq_time (s : State) : (refreshTq s).time = s.time := by
  rw [refreshTq_eq]
  split
  · rfl
  · exact qualityTold_time _ _

theorem qualityTold_kept (low : Bool) (s : State) : KeptBut qualityFields s (qualityTold low s) := by
  have hlow : KeptBut qualityFields s (s.setFld TM_STATUS.TQLOW 0 (bit low)) := (KeptBut.refl _ s).setFld (by decide) 0 _
  unfold qualityTold
  split
  · exact (hlow.flag (by decide) evTM).trans ((hostDevice_kept 2 0 _).mono (by decide))
  · exact (hlow.flag (by decide) evTM).trans ((hostDevice_kept 3 0 _).mono (by decide))

theorem qualityTold_tqlow (low : Bool) (s : State) : (qualityTold low s).fld TM_STATUS.TQLOW = bit low := by
  have hset : (s.setFld TM_STATUS.TQLOW 0 (bit low)).fld TM_STATUS.TQLOW = bit low := by
    rw [State.fld_setFld_self]
    cases low <;> rfl
  have hhost : ∀ (c : Nat) (t : State), (hostDevice c 0 t).fld TM_STATUS.TQLOW = t.fld TM_STATUS.TQLOW := fun c t =>
    hostDevice_kept c 0 t _ (by decide) 0
  unfold qualityTold
  split
  · rw [hhost, State.fld_flag_apart (by decide), hset]
  · rw [hhost, State.fld_flag_apart (by decide), hset]

theorem gridChecked_kept (s : State) : KeptBut qualityFields s (gridChecked s) := (KeptBut.refl _ s).setFld (by decide) 0 _

theorem refreshTq_kept (s : State) : KeptBut qualityFields s (refreshTq s) := by
  rw [refreshTq_eq]
  split
  · exact gridChecked_kept s
  · exact (gridChecked_kept s).trans (qualityTold_kept _ _)

/-- Low quality shows in TQLOW. -/
theorem refreshTq_tqlow {s : State} (h : (gridChecked s).belowLimit = true) : (refreshTq s).fld TM_STATUS.TQLOW = 1 := by
  rw [refreshTq_eq, h]
  split
  · rename_i hset
    exact beq_iff_eq.1 hset.symm
  · exact qualityTold_tqlow true _

/-! ### Launches dropped, states entered (R246, R251, R256, Table TM-2) -/

@[simp] theorem dropHeld_time (s : State) : (dropHeld s).time = s.time :=
  (onlyIf_frame (g := State.time) _ (fun t => State.flag_time t _ _) _).trans
    (forEach_frame (g := State.time) (f := fun c => setSt c 5) _ (fun _ _ _ => rfl) s)

/-- The fields that dropping the held launches writes. -/
def dropFields : List Field := [TM_LCFG.ST, TM_LCFG.ARM, TM_STATUS.LHELD]

theorem dropHeld_kept (s : State) : KeptBut dropFields s (dropHeld s) :=
  onlyIf_keeps (P := KeptBut dropFields s) _ (fun _ ht => ht.flag (by decide) evTM)
    (forEach_keeps (P := KeptBut dropFields s) _ (fun c _ _ ht => (ht.setFld (by decide) c 5).setFld (by decide) c _) (KeptBut.refl _ s))

/-- What the node shows and keeps on its entry to holdover (R251). -/
def holdoverShown (s : State) : State :=
  (((s.modTime (fun t => { t with holdAt := s.tb, holdEst := s.est })).setFld TM_OSC.RATE 0 (unsgn 24 s.time.integ)).countFld
    TM_HOLD.HOLDN 0 1).flag TM_STATUS.HOLDIN evTM

/-- The state `q` of Table TM-2 entered from another, before TQLOW follows it. -/
def tqEntered (q : Nat) (s : State) : State :=
  onlyIf (s.time.tq == 4) dropHeld (onlyIf (s.time.tq == 3) (State.flag TM_STATUS.HOLDOUT evTM)
    ((if q = 3 then holdoverShown s else s).modTime (fun t => { t with tq := q })))

theorem enterTq_eq (q : Nat) (s : State) : enterTq q s = if s.time.tq = q then s else refreshTq (tqEntered q s) := rfl

theorem tqEntered_time (q : Nat) (s : State) :
    (tqEntered q s).time = { (if q = 3 then { s.time with holdAt := s.tb, holdEst := s.est } else s.time) with tq := q } := by
  unfold tqEntered
  refine (onlyIf_frame (g := State.time) _ dropHeld_time _).trans ?_
  refine (onlyIf_frame (g := State.time) _ (fun t => State.flag_time t _ _) _).trans ?_
  rw [State.modTime_time]
  split
  · rw [holdoverShown, State.flag_time]
    rfl
  · rfl

/-- The node takes the state; the entry to holdover notes the time base and the estimated error. -/
theorem enterTq_time (q : Nat) (s : State) :
    (enterTq q s).time
      = { (if q = 3 ∧ s.time.tq ≠ 3 then { s.time with holdAt := s.tb, holdEst := s.est } else s.time) with tq := q } := by
  rw [enterTq_eq]
  split
  · rename_i h
    subst h
    rw [if_neg (fun h => h.2 h.1)]
  · rename_i h
    rw [refreshTq_time, tqEntered_time]
    by_cases hq : q = 3
    · rw [if_pos hq, if_pos ⟨hq, fun h3 => h (h3.trans hq.symm)⟩]
    · rw [if_neg hq, if_neg (fun h => hq h.1)]

@[simp] theorem enterTq_tq (q : Nat) (s : State) : (enterTq q s).time.tq = q := by rw [enterTq_time]

theorem enterTq_time_of_ne {q : Nat} (h : q ≠ 3) (s : State) : (enterTq q s).time = { s.time with tq := q } := by
  rw [enterTq_time, if_neg (fun hq => h hq.1)]

/-- The fields that a change of state writes. -/
def stateFields : List Field := [TM_OSC.RATE, TM_HOLD.HOLDN, TM_STATUS.HOLDIN, TM_STATUS.HOLDOUT] ++ dropFields ++ qualityFields

theorem holdoverShown_kept (s : State) : KeptBut stateFields s (holdoverShown s) := by
  have htime := (KeptBut.refl stateFields s).modTime (fun t => { t with holdAt := s.tb, holdEst := s.est })
  have hrate := htime.setFld (f := TM_OSC.RATE) (by decide) 0 (unsgn 24 s.time.integ)
  have hcount := hrate.countFld (f := TM_HOLD.HOLDN) (by decide) 0 1
  exact hcount.flag (f := TM_STATUS.HOLDIN) (by decide) evTM

theorem tqEntered_kept (q : Nat) (s : State) : KeptBut stateFields s (tqEntered q s) := by
  have hshown : KeptBut stateFields s (if q = 3 then holdoverShown s else s) := by
    split
    · exact holdoverShown_kept s
    · exact KeptBut.refl _ s
  unfold tqEntered
  refine onlyIf_keeps (P := KeptBut stateFields s) _ (fun t ht => ht.trans ((dropHeld_kept t).mono (by decide))) ?_
  refine onlyIf_keeps (P := KeptBut stateFields s) _ (fun t ht => ht.flag (by decide) evTM) ?_
  exact hshown.modTime _

theorem enterTq_kept (q : Nat) (s : State) : KeptBut stateFields s (enterTq q s) := by
  rw [enterTq_eq]
  split
  · exact KeptBut.refl _ s
  · exact (tqEntered_kept q s).trans ((refreshTq_kept _).mono (by decide))

end Sys2Proof.Machine
end

section
/-! PROOFS. Syncs, holdover, mastership (06 R239, R245 to R253). -/

namespace Sys2Proof.Machine

/-! ### What the servo takes from a Sync (R245, R251) -/

theorem freshWithin_natAbs (m : Nat) (s : State) : (s.freshWithin m).1.natAbs ≤ m := by
  have hlow : 0 ≤ (s.fresh.1 : Int) % (2 * m + 1) := Int.emod_nonneg _ (by omega)
  have hhigh : (s.fresh.1 : Int) % (2 * m + 1) < 2 * m + 1 := Int.emod_lt_of_pos _ (by omega)
  unfold State.freshWithin
  dsimp only
  omega

/-- The servo holds: in holdover, beyond STEPTHR or with the step due (R251, R253). -/
def State.held (s : State) (o : Int) : Prop := s.time.tq = 3 ∧ (s.stepThr < o.natAbs ∨ s.time.stepDue = true)

theorem servoSync_of_held {s : State} {o : Int} (h : s.held o) :
    servoSync o s = (s.modTime (fun t => { t with off := o })).setFld TM_QUAL.OFFSET 0 (satOffset 16 o) := if_pos h

theorem servoSync_of_not_held {s : State} {o : Int} (h : ¬ s.held o) : servoSync o s = servo o s := if_neg h

/-- The fields that the servo writes. -/
def servoFields : List Field := [TM_OSC.RATE, TM_QUAL.OFFSET]

/-- The servo's terms before it shows the offset. -/
def servoTerms (o : Int) (s : State) : State :=
  let i := s.freshWithin 200000
  let p := i.2.freshWithin (s.fld TM_SERVO.SLEWMAX * 1000)
  (p.2.modTime (fun t => { t with integ := i.1, off := o })).setFld TM_OSC.RATE 0 (unsgn 24 (i.1 + p.1))

theorem servo_eq (o : Int) (s : State) : servo o s = (servoTerms o s).setFld TM_QUAL.OFFSET 0 (satOffset 16 o) := rfl

theorem servoTerms_kept (o : Int) (s : State) : KeptBut servoFields s (servoTerms o s) :=
  KeptBut.setFld (t := State.modTime _ _) (fun _ _ _ => rfl) (by decide) 0 _

/-- A Sync sets the offset, and the integral term unless the servo holds; no other part of the time unit moves. -/
theorem servoSync_time (o : Int) (s : State) :
    (servoSync o s).time = { s.time with off := o, integ := (servoSync o s).time.integ } := by
  by_cases h : s.held o
  · rw [servoSync_of_held h]
    rfl
  · rw [servoSync_of_not_held h]
    rfl

theorem servoSync_integ_of_held {s : State} {o : Int} (h : s.held o) : (servoSync o s).time.integ = s.time.integ := by
  rw [servoSync_of_held h]
  rfl

theorem servoSync_integ_of_not_held {s : State} {o : Int} (h : ¬ s.held o) : (servoSync o s).time.integ.natAbs ≤ 200000 := by
  rw [servoSync_of_not_held h]
  exact freshWithin_natAbs 200000 s

theorem servoSync_rate_of_held {s : State} {o : Int} (h : s.held o) : (servoSync o s).fld TM_OSC.RATE = s.fld TM_OSC.RATE := by
  rw [servoSync_of_held h]
  exact State.fld_setFld_apart (by decide) 0 _ 0 _

theorem servoSync_kept (o : Int) (s : State) : KeptBut servoFields s (servoSync o s) := by
  by_cases h : s.held o
  · rw [servoSync_of_held h]
    exact ((KeptBut.refl _ s).modTime _).setFld (by decide) 0 _
  · rw [servoSync_of_not_held h, servo_eq]
    exact (servoTerms_kept o s).setFld (by decide) 0 _

theorem servoSync_steady (o : Int) (s : State) : (servoSync o s).steady = s.steady := by
  by_cases h : s.held o
  · rw [servoSync_of_held h]
    rfl
  · rw [servoSync_of_not_held h]
    rfl

/-- TM_QUAL shows the offset in 16 bits, saturating. -/
theorem servoSync_offset (o : Int) (s : State) :
    (servoSync o s).fld TM_QUAL.OFFSET = ((max (-32767) (min 32767 o)) % 65536).toNat := by
  have hshow : ∀ t : State, (t.setFld TM_QUAL.OFFSET 0 (satOffset 16 o)).fld TM_QUAL.OFFSET
      = ((max (-32767) (min 32767 o)) % 65536).toNat := fun t => by
    rw [State.fld_setFld_self]
    have hval : satOffset 16 o = ((max (-32767) (min 32767 o)) % 65536).toNat := rfl
    rw [hval, Nat.mod_eq_of_lt]
    have hw : TM_QUAL.OFFSET.w = 16 := rfl
    rw [hw]
    omega
  by_cases h : s.held o
  · rw [servoSync_of_held h, hshow]
  · rw [servoSync_of_not_held h, servo_eq, hshow]

/-! ### The state after a Sync (R246, R247, R252, R253) -/

/-- The time unit with the runs of a Sync counted. -/
theorem countRuns_time (o : Int) (s : State) :
    (countRuns o s).time = { s.time with
      lockRun := if o.natAbs ≤ s.fld TM_LIM.LOCKLIM then s.time.lockRun + 1 else 0,
      offRun := if s.fld TM_LIM.OFFLIM * 8 < o.natAbs ∧ o.natAbs ≤ s.stepThr then s.time.offRun + 1 else 0,
      stepRun := if s.stepThr < o.natAbs then s.time.stepRun + 1 else 0,
      lastSync := s.cycle } := rfl

/-- What a valid Sync leaves of its state to follow: it stays, TQLOW follows it, another is entered, or a step is due. -/
theorem syncState_cases (o : Int) (s : State) :
    syncState o s = s ∨ syncState o s = refreshTq s ∨ (∃ q, q ≠ 3 ∧ syncState o s = enterTq q s)
      ∨ syncState o s = (enterTq 6 s).flag TM_STATUS.OFFEXC evTM
      ∨ syncState o s = s.modTime (fun t => { t with stepDue := true }) := by
  unfold syncState
  dsimp only
  split
  · split
    · exact .inr (.inr (.inr (.inl rfl)))
    · exact .inr (.inl rfl)
  · exact .inl rfl
  · split
    · exact .inl rfl
    · split
      · exact .inr (.inr (.inl ⟨1, by decide, rfl⟩))
      · split
        · exact .inr (.inr (.inr (.inr rfl)))
        · exact .inl rfl
  · split
    · exact .inl rfl
    · split
      · exact .inr (.inr (.inl ⟨1, by decide, rfl⟩))
      · split
        · exact .inr (.inr (.inr (.inr rfl)))
        · exact .inl rfl
  · split
    · exact .inr (.inr (.inl ⟨2, by decide, rfl⟩))
    · exact .inr (.inl rfl)

/-- The offset and integral term of the latest Sync, and its cycle. -/
def TimeSt.latest (x : TimeSt) : Int × Int × Nat := (x.off, x.integ, x.lastSync)

theorem syncState_leaves (o : Int) (s : State) :
    let t := syncState o s
    t.time.latest = s.time.latest ∧ t.steady = s.steady ∧ KeptBut (TM_STATUS.OFFEXC :: stateFields) s t := by
  have hlatest : ∀ q, q ≠ 3 → (enterTq q s).time.latest = s.time.latest := fun q hq => by
    rw [enterTq_time_of_ne hq]
    rfl
  obtain h | h | ⟨q, hq, h⟩ | h | h := syncState_cases o s
  · rw [h]
    exact ⟨rfl, rfl, KeptBut.refl _ s⟩
  · rw [h]
    exact ⟨congrArg _ (refreshTq_time s), refreshTq_steady s, (refreshTq_kept s).mono (by decide)⟩
  · rw [h]
    exact ⟨hlatest q hq, enterTq_steady q s, (enterTq_kept q s).mono (by decide)⟩
  · rw [h]
    refine ⟨(congrArg _ (State.flag_time _ _ _)).trans (hlatest 6 (by decide)), ?_, ?_⟩
    · exact (State.flag_steady _ _ _).trans (enterTq_steady 6 s)
    · exact ((enterTq_kept 6 s).mono (by decide)).flag (by decide) evTM
  · rw [h]
    exact ⟨rfl, rfl, KeptBut.refl _ s⟩

/-- ACQUIRE, EPOCH and DEGRADED end in LOCKED once the node is settled (R246). -/
theorem syncState_tq_of_unlocked {s : State} (h : s.time.tq ∈ [1, 4, 6]) (o : Int) :
    (syncState o s).time.tq = if s.settled then 2 else s.time.tq := by
  have hsync : syncState o s = if s.settled then enterTq 2 s else refreshTq s := by
    simp only [List.mem_cons, List.not_mem_nil, or_false] at h
    unfold syncState
    obtain h | h | h := h
    all_goals
      rw [h]
      rfl
  rw [hsync]
  split
  · exact enterTq_tq 2 s
  · rw [refreshTq_time]

/-- LOCKED ends in DEGRADED after STEPCONF Syncs beyond OFFLIM (R247). -/
theorem syncState_of_locked {s : State} (h : s.time.tq = 2) (hrun : s.fld TM_CTRL.STEPCONF ≤ s.time.offRun) (o : Int) :
    syncState o s = (enterTq 6 s).flag TM_STATUS.OFFEXC evTM := by
  unfold syncState
  rw [h]
  exact if_pos hrun

theorem syncState_of_stepDue {s : State} (h : s.time.tq = 3) (hdue : s.time.stepDue = true) (o : Int) : syncState o s = s := by
  unfold syncState
  rw [h]
  exact if_pos hdue

/-- HOLDOVER ends within STEPTHR; beyond it a step falls due after STEPCONF Syncs (R252, R253). -/
theorem syncState_of_holdover {s : State} (h : s.time.tq = 3) (hdue : s.time.stepDue = false) (o : Int) :
    syncState o s = if o.natAbs ≤ s.stepThr then enterTq 1 s
      else if s.fld TM_CTRL.STEPCONF ≤ s.time.stepRun then s.modTime (fun t => { t with stepDue := true }) else s := by
  unfold syncState
  rw [h]
  exact if_neg (by rw [hdue]; decide)

/-! ### SYNC_RECEIVED (R245) -/

/-- A valid Sync taken, before the state follows it. -/
def syncTaken (o : Int) (s : State) : State := countRuns o (servoSync o s)

theorem exec_syncReceived (src : BitVec 10) (p : Fin 6) (dom : BitVec 8) (o : SyncIn) (s : State) :
    exec (.syncReceived src p dom o) s
      = if s.syncValid src.toNat p.val dom.toNat o.slot.toNat o.safe && s.time.tq != 5 then .next (syncState o.off (syncTaken o.off s))
        else .next s := rfl

/-- A Sync outside the safety code, the slot's owner, the domain or the master followed is not taken (R236, R238). -/
theorem State.syncValid_eq_false {s : State} {src p dom j : Nat} {safe : Bool}
    (h : safe = false ∨ s.ownsSlot j src = false ∨ dom ≠ s.fld TM_PROF.DOMAIN ∨ s.time.follow ≠ some src) :
    s.syncValid src p dom j safe = false := by
  unfold State.syncValid
  obtain h | h | h | h := h
  · simp [h]
  · simp [h]
  · simp [h]
  · simp [h]

/-- The fields that the runs are counted by are not the servo's. -/
theorem syncTaken_time (o : Int) (s : State) :
    (syncTaken o s).time = { s.time with
      off := o, integ := (servoSync o s).time.integ,
      lockRun := if o.natAbs ≤ s.fld TM_LIM.LOCKLIM then s.time.lockRun + 1 else 0,
      offRun := if s.fld TM_LIM.OFFLIM * 8 < o.natAbs ∧ o.natAbs ≤ s.stepThr then s.time.offRun + 1 else 0,
      stepRun := if s.stepThr < o.natAbs then s.time.stepRun + 1 else 0,
      lastSync := s.cycle } := by
  have hkept := servoSync_kept o s
  have hlock : (servoSync o s).fld TM_LIM.LOCKLIM = s.fld TM_LIM.LOCKLIM := hkept _ (by decide) 0
  have hoff : (servoSync o s).fld TM_LIM.OFFLIM = s.fld TM_LIM.OFFLIM := hkept _ (by decide) 0
  have hthr : (servoSync o s).stepThr = s.stepThr := congrArg (· * 125) (hkept TM_SERVO.STEPTHR (by decide) 0)
  have hcycle : (servoSync o s).cycle = s.cycle := congrArg (fun x => x.2.2.1) (servoSync_steady o s)
  rw [syncTaken, countRuns_time, hlock, hoff, hthr, hcycle, servoSync_time]

theorem syncTaken_kept (o : Int) (s : State) : KeptBut servoFields s (syncTaken o s) := servoSync_kept o s

theorem syncTaken_steady (o : Int) (s : State) : (syncTaken o s).steady = s.steady := servoSync_steady o s

theorem syncTaken_stepThr (o : Int) (s : State) : (syncTaken o s).stepThr = s.stepThr :=
  congrArg (· * 125) (syncTaken_kept o s TM_SERVO.STEPTHR (by decide) 0)

theorem syncTaken_held {s : State} {o : Int} (h : s.held o) : (syncTaken o s).held o := by
  unfold State.held
  rw [syncTaken_time, syncTaken_stepThr]
  exact h

/-- While the servo holds, no state is entered, and RATE stays. -/
theorem syncState_rate_of_held {s : State} {o : Int} (h : s.held o) : (syncState o s).fld TM_OSC.RATE = s.fld TM_OSC.RATE := by
  obtain ⟨htq, hthr⟩ := h
  cases hdue : s.time.stepDue with
  | true => rw [syncState_of_stepDue htq hdue]
  | false =>
    have hfar : s.stepThr < o.natAbs := hthr.resolve_right (by rw [hdue]; decide)
    rw [syncState_of_holdover htq hdue, if_neg (by omega)]
    split <;> rfl

/-- A valid Sync is recorded, whatever state follows (R245, R251). -/
theorem sync_records (o : Int) (s : State) :
    let t := syncState o (syncTaken o s)
    t.time.off = o ∧ t.now = s.now ∧ t.tb = s.tb ∧ (¬ s.held o → t.time.integ.natAbs ≤ 200000)
      ∧ (s.held o → t.time.integ = s.time.integ ∧ t.fld TM_OSC.RATE = s.fld TM_OSC.RATE) ∧ t.time.lastSync = s.cycle
      ∧ t.fld TM_QUAL.OFFSET = ((max (-32767) (min 32767 o)) % 65536).toNat := by
  intro t
  obtain ⟨hlatest, hsteady, hkept⟩ := syncState_leaves o (syncTaken o s)
  have htime := syncTaken_time o s
  have hclocks : t.steady = s.steady := hsteady.trans (syncTaken_steady o s)
  have hoff : t.time.off = o := (congrArg Prod.fst hlatest).trans (congrArg TimeSt.off htime)
  have hinteg : t.time.integ = (servoSync o s).time.integ := congrArg (fun x => x.2.1) hlatest
  have hcycle : t.time.lastSync = s.cycle := (congrArg (fun x => x.2.2) hlatest).trans (congrArg TimeSt.lastSync htime)
  have hrate : s.held o → t.fld TM_OSC.RATE = s.fld TM_OSC.RATE := fun h =>
    (syncState_rate_of_held (syncTaken_held h)).trans (servoSync_rate_of_held h)
  exact ⟨hoff, congrArg (fun x => x.2.1) hclocks, congrArg Prod.fst hclocks,
    fun h => hinteg ▸ servoSync_integ_of_not_held h, fun h => ⟨hinteg.trans (servoSync_integ_of_held h), hrate h⟩, hcycle,
    (hkept _ (by decide) 0).trans (servoSync_offset o s)⟩

/-- Within LOCKLIM the node is settled after LOCKN Syncs, beyond it by none (R246). -/
theorem sync_tq_of_unlocked {s : State} (h : s.time.tq ∈ [1, 4, 6]) (o : Int) :
    let t := syncState o (syncTaken o s)
    (o.natAbs ≤ s.fld TM_LIM.LOCKLIM → s.fld TM_CTRL.LOCKN ≤ s.time.lockRun + 1 → t.time.tq = 2)
      ∧ (s.fld TM_LIM.LOCKLIM < o.natAbs → 0 < s.fld TM_CTRL.LOCKN → t.time.tq = s.time.tq) := by
  intro t
  have htime := syncTaken_time o s
  have htq : (syncTaken o s).time.tq = s.time.tq := by rw [htime]
  have hrun : (syncTaken o s).time.lockRun = if o.natAbs ≤ s.fld TM_LIM.LOCKLIM then s.time.lockRun + 1 else 0 :=
    congrArg TimeSt.lockRun htime
  have hlockn : (syncTaken o s).fld TM_CTRL.LOCKN = s.fld TM_CTRL.LOCKN := syncTaken_kept o s _ (by decide) 0
  have hstate : t.time.tq = if (syncTaken o s).settled then 2 else s.time.tq :=
    htq ▸ syncState_tq_of_unlocked (htq.symm ▸ h) o
  have hsettled : (syncTaken o s).settled = decide (s.fld TM_CTRL.LOCKN ≤ (syncTaken o s).time.lockRun) := by
    rw [State.settled, hlockn]
  refine ⟨fun hnear hn => ?_, fun hfar hn => ?_⟩
  · rw [if_pos hnear] at hrun
    rw [hstate, hsettled, hrun, if_pos (decide_eq_true hn)]
  · rw [if_neg (by omega)] at hrun
    rw [hstate, hsettled, hrun, decide_eq_false (by omega)]
    rfl

/-- HOLDOVER ends within STEPTHR, and beyond it a step falls due after STEPCONF Syncs (R252, R253). -/
theorem sync_tq_of_holdover {s : State} (h : s.time.tq = 3) (hdue : s.time.stepDue = false) (o : Int) :
    let t := syncState o (syncTaken o s)
    (o.natAbs ≤ s.stepThr → t.time.tq = 1)
      ∧ (s.stepThr < o.natAbs → t.time.tq = 3 ∧ (t.time.stepDue = true ↔ s.fld TM_CTRL.STEPCONF ≤ s.time.stepRun + 1)) := by
  intro t
  have htime := syncTaken_time o s
  have htq : (syncTaken o s).time.tq = 3 := (congrArg TimeSt.tq htime).trans h
  have hnotDue : (syncTaken o s).time.stepDue = false := (congrArg TimeSt.stepDue htime).trans hdue
  have hrun : (syncTaken o s).time.stepRun = if s.stepThr < o.natAbs then s.time.stepRun + 1 else 0 := congrArg TimeSt.stepRun htime
  have hconf : (syncTaken o s).fld TM_CTRL.STEPCONF = s.fld TM_CTRL.STEPCONF := syncTaken_kept o s _ (by decide) 0
  have hstate := syncState_of_holdover htq hnotDue o
  rw [syncTaken_stepThr, hconf, hrun] at hstate
  refine ⟨fun hnear => ?_, fun hfar => ?_⟩
  · rw [if_pos hnear] at hstate
    exact (congrArg (fun u => u.time.tq) hstate).trans (enterTq_tq 1 _)
  · rw [if_neg (by omega), if_pos hfar] at hstate
    change syncState o (syncTaken o s) = _ at hstate
    change (syncState o (syncTaken o s)).time.tq = 3 ∧ ((syncState o (syncTaken o s)).time.stepDue = true ↔ _)
    rw [hstate]
    split
    · rename_i hc
      exact ⟨htq, ⟨fun _ => hc, fun _ => rfl⟩⟩
    · rename_i hc
      exact ⟨htq, ⟨fun hd => absurd (hnotDue.symm.trans hd) (by decide), fun hc' => absurd hc' hc⟩⟩

/-- LOCKED ends in DEGRADED after STEPCONF Syncs beyond OFFLIM (R247). -/
theorem sync_tq_of_locked {s : State} (h : s.time.tq = 2) {o : Int} (hfar : s.fld TM_LIM.OFFLIM * 8 < o.natAbs)
    (hnear : o.natAbs ≤ s.stepThr) (hrun : s.fld TM_CTRL.STEPCONF ≤ s.time.offRun + 1) :
    let t := syncState o (syncTaken o s)
    t.time.tq = 6 ∧ t.fld TM_STATUS.OFFEXC = 1 := by
  have htime := syncTaken_time o s
  have htq : (syncTaken o s).time.tq = 2 := (congrArg TimeSt.tq htime).trans h
  have hoffRun : (syncTaken o s).time.offRun = s.time.offRun + 1 := (congrArg TimeSt.offRun htime).trans (if_pos ⟨hfar, hnear⟩)
  have hconf : (syncTaken o s).fld TM_CTRL.STEPCONF = s.fld TM_CTRL.STEPCONF := syncTaken_kept o s _ (by decide) 0
  dsimp only
  rw [syncState_of_locked htq (by rw [hconf, hoffRun]; exact hrun)]
  exact ⟨(congrArg TimeSt.tq (State.flag_time _ _ _)).trans (enterTq_tq 6 _), State.fld_flag_self _ _ _⟩

/-! ### Holdover (R248, R251) -/

theorem exec_holdoverEntry {s : State} (h : s.time.tq ∈ [1, 2, 4, 6]) (hto : s.time.lastSync + s.fld TM_CTRL.HOLDTO ≤ s.cycle) :
    exec .holdoverEntry s = .next (enterTq 3 (s.modTime (fun t => { t with stepRun := 0, stepDue := false }))) := by
  change execHoldoverEntry s = _
  rw [execHoldoverEntry, if_pos]
  rw [Bool.and_eq_true, List.contains_iff_mem, decide_eq_true_eq]
  exact ⟨h, hto⟩

/-- The entry to holdover counts, and signals. -/
theorem holdoverShown_shows (s : State) :
    let t := holdoverShown s
    t.fld TM_STATUS.HOLDIN = 1 ∧ t.fld TM_HOLD.HOLDN = min 255 (s.fld TM_HOLD.HOLDN + 1) := by
  refine ⟨State.fld_flag_self _ _ _, ?_⟩
  refine (State.fld_flag_apart (by decide) evTM 0 _).trans ((State.fld_countFld_self _ _ _ _).trans ?_)
  rw [State.fld_setFld_apart (by decide)]
  rfl

theorem enterTq_holdover_shows {s : State} (h : s.time.tq ≠ 3) :
    let t := enterTq 3 s
    t.fld TM_STATUS.HOLDIN = 1 ∧ t.fld TM_HOLD.HOLDN = min 255 (s.fld TM_HOLD.HOLDN + 1) := by
  have hentered : tqEntered 3 s = onlyIf (s.time.tq == 4) dropHeld ((holdoverShown s).modTime (fun t => { t with tq := 3 })) := by
    unfold tqEntered
    rw [if_pos rfl, beq_eq_false_iff_ne.2 h, onlyIf_false]
  have hdrop : KeptBut dropFields (holdoverShown s) (tqEntered 3 s) := by
    rw [hentered]
    exact onlyIf_keeps (P := KeptBut dropFields (holdoverShown s)) _ (fun t ht => ht.trans (dropHeld_kept t))
      ((KeptBut.refl _ _).modTime _)
  have hkept : KeptBut (dropFields ++ qualityFields) (holdoverShown s) (enterTq 3 s) := by
    rw [enterTq_eq, if_neg h]
    exact (hdrop.mono (by decide)).trans ((refreshTq_kept _).mono (by decide))
  obtain ⟨hin, hcount⟩ := holdoverShown_shows s
  exact ⟨(hkept _ (by decide) 0).trans hin, (hkept _ (by decide) 0).trans hcount⟩

/-- The estimated error in holdover grows with the age by HOLDRATE (R251). -/
theorem State.est_of_holdover {s : State} (h : s.time.tq = 3) :
    s.est = min 0xFFFF (s.time.holdEst + (min 0xFFFFFF ((s.tb - s.time.holdAt) / 125000) * s.fld TM_OSC.HOLDRATE + 999) / 1000) := by
  unfold State.est State.holdAge
  rw [if_pos h]
  dsimp only
  rw [h]
  rfl

/-- A master's estimated error is 0. -/
theorem State.est_of_master {s : State} (h : s.time.tq = 5) : s.est = 0 := by
  unfold State.est
  dsimp only
  rw [h]
  exact Nat.min_zero _

/-- A limit below 12,500 is passed once the holdover is as old as the rate takes to get there. -/
theorem limit_passed {lim est rate age : Nat} (hrate : rate ≠ 0) (hage : (lim - est) * 1000 / rate + 1 ≤ age) :
    lim < est + (age * rate + 999) / 1000 := by
  have hlt : (lim - est) * 1000 < ((lim - est) * 1000 / rate + 1) * rate := by
    rw [Nat.mul_comm _ rate]
    exact Nat.lt_mul_div_succ _ (Nat.pos_of_ne_zero hrate)
  have hmul : ((lim - est) * 1000 / rate + 1) * rate ≤ age * rate := Nat.mul_le_mul_right rate hage
  omega

/-- The state in which the estimated error of a holdover has passed CORRLIM. -/
def limitPassed (s : State) : State :=
  if s.fld TM_LIM.CORRLIM < s.est then s
  else s.advanceTo (s.time.holdAt + ((s.fld TM_LIM.CORRLIM - s.time.holdEst) * 1000 / s.fld TM_OSC.HOLDRATE + 1) * 125000)

theorem limitPassed_time (s : State) : (limitPassed s).time = s.time := by
  unfold limitPassed
  split
  · rfl
  · exact State.advanceTo_time _ _

theorem limitPassed_fld (f : Field) (i : Nat) (s : State) : (limitPassed s).fld f i = s.fld f i := by
  unfold limitPassed
  split
  · rfl
  · exact State.advanceTo_fld _ _ _ _

theorem limitPassed_est {s : State} (h : s.time.tq = 3) (hrate : s.fld TM_OSC.HOLDRATE ≠ 0) (hlim : s.fld TM_LIM.CORRLIM ≤ 12500) :
    s.fld TM_LIM.CORRLIM < (limitPassed s).est := by
  unfold limitPassed
  split
  · assumption
  · generalize hms : (s.fld TM_LIM.CORRLIM - s.time.holdEst) * 1000 / s.fld TM_OSC.HOLDRATE + 1 = ms
    have hle : ms ≤ 12500001 := by
      have := Nat.div_le_self ((s.fld TM_LIM.CORRLIM - s.time.holdEst) * 1000) (s.fld TM_OSC.HOLDRATE)
      omega
    have hage : ms ≤ min 0xFFFFFF (((s.advanceTo (s.time.holdAt + ms * 125000)).tb - s.time.holdAt) / 125000) := by
      rw [State.advanceTo_tb_eq]
      omega
    have hpass := limit_passed (est := s.time.holdEst) hrate (hms.trans_le hage)
    rw [State.est_of_holdover (by rw [State.advanceTo_time]; exact h), State.advanceTo_time, State.advanceTo_fld]
    exact Nat.lt_min.2 ⟨by omega, hpass⟩

theorem exec_holdoverQualityLoss {s : State} (h : s.time.tq = 3) (hrate : s.fld TM_OSC.HOLDRATE ≠ 0) (hlim : s.fld TM_LIM.CORRLIM ≤ 12500) :
    exec .holdoverQualityLoss s = .next (refreshTq (limitPassed s)) := by
  change execHoldoverQualityLoss s = _
  unfold execHoldoverQualityLoss
  refine if_pos ?_
  rw [decide_eq_true h, decide_eq_true hrate, decide_eq_true (show s.fld TM_LIM.CORRLIM < 0xFFFF by omega)]
  rfl

/-- TQLOW follows an estimated error beyond CORRLIM (R248). -/
theorem holdoverQualityLoss_shows {s : State} (h : s.time.tq = 3) (hrate : s.fld TM_OSC.HOLDRATE ≠ 0) (hlim : s.fld TM_LIM.CORRLIM ≤ 12500) :
    let t := refreshTq (limitPassed s)
    t.fld TM_STATUS.TQLOW = 1 ∧ s.fld TM_LIM.CORRLIM < t.est ∧ t.time = s.time := by
  have hpass := limitPassed_est h hrate hlim
  have htime := limitPassed_time s
  have hcorr := limitPassed_fld TM_LIM.CORRLIM 0 s
  generalize limitPassed s = u at hpass htime hcorr ⊢
  have hest : ∀ v : State, v.time = u.time → v.tb = u.tb → v.fld TM_OSC.HOLDRATE = u.fld TM_OSC.HOLDRATE → v.est = u.est :=
    fun v ht hb hr => by
      have h3 : u.time.tq = 3 := htime ▸ h
      rw [State.est_of_holdover (s := v) (ht ▸ h3), State.est_of_holdover h3, ht, hb, hr]
  have hgrid : (gridChecked u).est = u.est := hest _ rfl rfl (gridChecked_kept u _ (by decide) 0)
  have hlow : (gridChecked u).belowLimit = true := by
    have hlim' : (gridChecked u).fld TM_LIM.CORRLIM < (gridChecked u).est := by
      rw [gridChecked_kept u _ (by decide) 0, hcorr, hgrid]
      exact hpass
    simp [State.belowLimit, hlim']
  refine ⟨refreshTq_tqlow hlow, ?_, (refreshTq_time u).trans htime⟩
  rw [hest _ (refreshTq_time u) (congrArg Prod.fst (refreshTq_steady u)) (refreshTq_kept u _ (by decide) 0)]
  exact hpass

/-! ### Masters (R239, R240) -/

theorem State.rank_lt {s : State} {r : Nat} (h : s.rank = some r) : r < 4 := by
  unfold State.rank at h
  dsimp only at h
  split_ifs at h <;> cases h <;> decide

@[simp] theorem setMaster_time (node rank epoch phase : Nat) (s : State) : (setMaster node rank epoch phase s).time = s.time :=
  onlyIf_frame (g := State.time) _ (fun t => State.flag_time t _ _) _

@[simp] theorem setMaster_steady (node rank epoch phase : Nat) (s : State) : (setMaster node rank epoch phase s).steady = s.steady :=
  onlyIf_frame (g := State.steady) _ (fun t => State.flag_steady _ _ t) _

/-- TM_MASTER names the master. -/
theorem setMaster_shows (node rank epoch phase : Nat) (s : State) :
    let t := setMaster node rank epoch phase s
    t.fld TM_MASTER.MNODE = node % 2 ^ 10 ∧ t.fld TM_MASTER.MRANK = rank % 2 ^ 2 ∧ t.fld TM_MASTER.VALID = 1 := by
  have hflag : ∀ (f : Field) (c : Bool) (t : State), TM_STATUS.MASTERCHG.apart f = true →
      (onlyIf c (State.flag TM_STATUS.MASTERCHG evTM) t).fld f = t.fld f := fun f c t hf =>
    onlyIf_frame (g := fun u => u.fld f) c (fun u => State.fld_flag_apart hf evTM 0 u) t
  unfold setMaster
  dsimp only
  rw [hflag _ _ _ (by decide), hflag _ _ _ (by decide), hflag _ _ _ (by decide)]
  simp +decide only [State.fld_setFld_apart, State.fld_setFld_self]
  exact ⟨rfl, rfl, trivial⟩

/-- A candidate about to take over: it follows no master, and sends from the next cycle boundary on (R239). -/
def takeoverBegun (s : State) : State :=
  s.modTime (fun t => { t with follow := none, stepDue := false, stepRun := 0, masterFrom := nextMultiple s.cycleLen (s.nowTu + 1) })

theorem exec_masterTakeover {s : State} {r : Nat} (hr : s.rank = some r) (h : s.time.tq ≠ 5)
    (hto : s.time.lastAnn + (r + 1) * s.fld TM_CTRL.ANNTO ≤ s.cycle) :
    exec .masterTakeover s
      = .next (enterTq 5 (setMaster (s.fld ID_NODE.NODE) r s.time.epoch (s.fld TM_GRID.PHASEF) (takeoverBegun s))) := by
  change execMasterTakeover s = _
  unfold execMasterTakeover
  rw [hr]
  refine (if_pos ?_).trans rfl
  rw [decide_eq_true h, decide_eq_true hto]
  rfl

/-- The coming boundary is a later multiple of the cycle length. -/
theorem State.nowTu_lt_nextBoundary (s : State) : s.nowTu < nextMultiple s.cycleLen (s.nowTu + 1) :=
  le_nextMultiple s.cycleLen_pos (s.nowTu + 1)

theorem takeover_shows {s : State} {r : Nat} (hr : r < 4) :
    let t := enterTq 5 (setMaster (s.fld ID_NODE.NODE) r s.time.epoch (s.fld TM_GRID.PHASEF) (takeoverBegun s))
    t.time = { (takeoverBegun s).time with tq := 5 } ∧ t.est = 0 ∧ t.now = s.now ∧ t.fld TM_MASTER.MNODE = s.fld ID_NODE.NODE % 2 ^ 10
      ∧ t.fld TM_MASTER.MRANK = r ∧ t.fld TM_MASTER.VALID = 1 := by
  obtain ⟨hnode, hrank, hvalid⟩ := setMaster_shows (s.fld ID_NODE.NODE) r s.time.epoch (s.fld TM_GRID.PHASEF) (takeoverBegun s)
  have htime := setMaster_time (s.fld ID_NODE.NODE) r s.time.epoch (s.fld TM_GRID.PHASEF) (takeoverBegun s)
  have hclocks := setMaster_steady (s.fld ID_NODE.NODE) r s.time.epoch (s.fld TM_GRID.PHASEF) (takeoverBegun s)
  dsimp only at hnode hrank hvalid ⊢
  generalize setMaster (s.fld ID_NODE.NODE) r s.time.epoch (s.fld TM_GRID.PHASEF) (takeoverBegun s) = u at hnode hrank hvalid htime hclocks ⊢
  have hkept := enterTq_kept 5 u
  refine ⟨?_, State.est_of_master (enterTq_tq 5 u), ?_, (hkept _ (by decide) 0).trans hnode, ?_, (hkept _ (by decide) 0).trans hvalid⟩
  · rw [enterTq_time_of_ne (by decide), htime]
  · exact congrArg (fun x => x.2.1) ((enterTq_steady 5 u).trans hclocks)
  · exact (hkept _ (by decide) 0).trans (hrank.trans (Nat.mod_eq_of_lt hr))

/-- Settles O20: a Sync by the states of Table TM-2, the entry to holdover, its loss of quality, and a takeover. -/
theorem syncsAndHoldover : Obligations.SyncsAndHoldover := by
  unfold Obligations.SyncsAndHoldover
  refine ⟨fun s src p dom j safe o => ⟨fun h => ?_, fun hvalid htq => ?_⟩, fun s r => ⟨fun h hto => ?_, fun h hrate hlim => ?_,
    fun hr h hto => ?_⟩⟩
  · rw [exec_syncReceived, State.syncValid_eq_false h]
    rfl
  · obtain ⟨hoff, hnow, htb, hinteg, hheld, hlast, hshown⟩ := sync_records o s
    refine ⟨syncState o (syncTaken o s), ?_, hoff, hnow, htb, hinteg, hheld, hlast, hshown, fun h => (sync_tq_of_unlocked h o).1,
      fun h => (sync_tq_of_unlocked h o).2, fun h hdue => (sync_tq_of_holdover h hdue o).1,
      fun h hdue => (sync_tq_of_holdover h hdue o).2, fun h => sync_tq_of_locked h⟩
    rw [exec_syncReceived, hvalid, Bool.true_and, if_pos (bne_iff_ne.2 htq)]
  · have hne : s.time.tq ≠ 3 := fun h3 => absurd (h3 ▸ h) (by decide)
    obtain ⟨hin, hcount⟩ := enterTq_holdover_shows (s := s.modTime (fun t => { t with stepRun := 0, stepDue := false })) hne
    have htime := enterTq_time 3 (s.modTime (fun t => { t with stepRun := 0, stepDue := false }))
    rw [if_pos ⟨rfl, hne⟩] at htime
    refine ⟨_, exec_holdoverEntry h hto, enterTq_tq 3 _, ?_, ?_, ?_, hin, hcount, ?_⟩
    · rw [htime]
      rfl
    · rw [htime]
      rfl
    · rw [htime]
      rfl
    · exact congrArg (fun x => x.2.1) (enterTq_steady 3 _)
  · exact ⟨_, exec_holdoverQualityLoss h hrate hlim, holdoverQualityLoss_shows h hrate hlim⟩
  · obtain ⟨htime, hest, hnow, hnode, hrank, hvalid⟩ := takeover_shows (s := s) (State.rank_lt hr)
    refine ⟨_, exec_masterTakeover hr h hto, enterTq_tq 5 _, hest, ?_, hnow, hnode, hrank, hvalid, ?_, ?_, ?_⟩
    · rw [htime]
      rfl
    · rw [htime]
      rfl
    · rw [htime]
      exact s.nowTu_lt_nextBoundary
    · rw [htime]
      exact ⟨_, rfl⟩

end Sys2Proof.Machine
end

section
/-! PROOFS. TM_NOWLO and the compares (06 R233, R263). -/

namespace Sys2Proof.Machine

/-! ### Events pending in an engine -/

/-- A signalled event is pending. -/
theorem State.pendEng_pends (s : State) (i : Nat) {e : Nat} (he : e < 16) : ((s.pendEng i e).eng i).pend.getLsbD e = true := by
  rw [State.pendEng_pend_self]
  simp [he]

/-- A signal leaves pending what was. -/
theorem State.pendEng_pending_mono {s : State} {j b : Nat} (h : (s.eng j).pend.getLsbD b = true) (i e : Nat) :
    ((s.pendEng i e).eng j).pend.getLsbD b = true := by
  by_cases hj : j = i
  · subst hj
    rw [State.pendEng_pend_self, BitVec.getLsbD_or, h, Bool.true_or]
  · rw [State.pendEng_eng_ne s e hj, h]

/-! ### NOW_READ (R233) -/

/-- A delivered value stands in the reader's place; no field moves. -/
theorem deliver_delivered (q : Req) (v : Nat) (s : State) : Tab.get 0 (deliver q (v, s)).delivered q.bank = v := Tab.get_set_self _ _ _ _

theorem deliver_fld (q : Req) (v : Nat) (s : State) (f : Field) (i : Nat) : (deliver q (v, s)).fld f i = s.fld f i := rfl

/-- The reader's copy of the rest of the time, latched. -/
def nowLatched (q : Req) (s : State) : State :=
  (((s.setFld TM_NOWHI.THI q.bank (s.nowTu / 2 ^ 32)).setFld TM_NOWX.EPOCH q.bank s.time.epoch).setFld TM_NOWX.STATE q.bank
    s.time.tq).setFld TM_NOWX.TQLOW q.bank (bit s.belowLimit)

theorem exec_nowRead {q : Req} {s : State} (h : s.absent q = false) :
    exec (.nowRead q) s = .next (deliver q (s.nowLow, nowLatched q s)) := asReq_of_present h _

theorem nowLatched_shows (q : Req) {s : State} (he : s.time.epoch < 16) (hq : s.time.tq < 8) :
    let t := nowLatched q s
    t.fld TM_NOWHI.THI q.bank = s.now.toNat / 2 ^ 32 ∧ t.fld TM_NOWX.EPOCH q.bank = s.time.epoch
      ∧ t.fld TM_NOWX.STATE q.bank = s.time.tq ∧ t.fld TM_NOWX.TQLOW q.bank = if s.belowLimit then 1 else 0 := by
  have hthi : s.now.toNat / 2 ^ 32 < 2 ^ 32 := by omega
  dsimp only [nowLatched]
  simp +decide only [State.fld_setFld_apart, State.fld_setFld_self]
  refine ⟨Nat.mod_eq_of_lt hthi, Nat.mod_eq_of_lt he, Nat.mod_eq_of_lt hq, ?_⟩
  cases s.belowLimit <;> rfl

theorem Kept.nowLatched (q : Req) (s : State) :
    Kept [TM_NOWHI.THI.key q.bank, TM_NOWX.EPOCH.key q.bank, TM_NOWX.STATE.key q.bank, TM_NOWX.TQLOW.key q.bank] s (nowLatched q s) :=
  (((Kept.setFld s _ _ _).mono (by simp)).trans ((Kept.setFld _ _ _ _).mono (by simp))).trans
    (((Kept.setFld _ _ _ _).mono (by simp)).trans ((Kept.setFld _ _ _ _).mono (by simp)))

/-! ### The clocks after time has passed -/

theorem State.advance_now_eq (s : State) (n : Nat) : (s.advance n).now = s.now + BitVec.ofNat 64 n := rfl

/-! ### COMPARE_ARM and COMPARE (R263) -/

/-- The Root engine's compare armed in epoch `e`. -/
def rootArmed (e : Nat) (s : State) : State := (s.setFld TM_CMPC.EPOCH 4 e).setFld TM_CMPC.ARM 4 1

/-- A write of TM_CMPC with ARM 1 takes the epoch and arms. -/
theorem writeFields_compareArm (v : Nat) (s : State) : writeFields .root TM_CMPC.fields 4 (putBit v 4 true) s = rootArmed (v % 16) s := by
  have hepoch : TM_CMPC.EPOCH.of (putBit v 4 true) = v % 16 := (Field.of_putBit (by decide) v true).trans (Field.of_low rfl v)
  have harm : TM_CMPC.ARM.of (putBit v 4 true) = 1 := Field.of_putBit_self (f := TM_CMPC.ARM) rfl v true
  rw [writeFields_of_accepted (by rfl)]
  change writeField .root 4 _ TM_CMPC.ARM (writeField .root 4 _ TM_CMPC.EPOCH s) = _
  rw [writeField_of_takes rfl, writeField_of_takes rfl, hepoch, harm, rootArmed]

theorem exec_compareArm_root (v : Word) (s : State) :
    exec (.compareArm .root v) s
      = .next (if (rootArmed (v.toNat % 16) s).compareDue .root then deliverCompare .root (rootArmed (v.toNat % 16) s)
          else rootArmed (v.toNat % 16) s) := by
  have hwrite : writeFields .root TM_CMPC.fields (Req.bank .root) (putBit v.toNat 4 true) s = rootArmed (v.toNat % 16) s :=
    writeFields_compareArm v.toNat s
  have harm : (rootArmed (v.toNat % 16) s).isSet TM_CMPC.ARM (Req.bank .root) = true := beq_iff_eq.2 (State.fld_setFld_self _ _ _ _)
  change Host.Outcome.next (tmCompare .root TM_CMPC.fields (putBit v.toNat 4 true) s) = _
  unfold tmCompare
  rw [if_neg (by decide)]
  dsimp only
  rw [hwrite, harm, Bool.true_and]

theorem rootArmed_shows {e : Nat} (he : e < 16) (s : State) :
    let t := rootArmed e s
    t.fld TM_CMPC.ARM 4 = 1 ∧ t.fld TM_CMPC.EPOCH 4 = e ∧ Kept [TM_CMPC.ARM.key 4, TM_CMPC.EPOCH.key 4] s t := by
  refine ⟨State.fld_setFld_self _ _ _ _, ?_, ?_⟩
  · exact (State.fld_setFld_apart (by decide) 4 1 4 _).trans (State.fld_setFld_lt he 4 s)
  · exact ((Kept.setFld s _ _ _).mono (by simp)).trans ((Kept.setFld _ _ _ _).mono (by simp))

/-- A compare armed in the epoch in force is due when its time is not to come. -/
theorem State.compareDue_of_epoch {s : State} {q : Req} (h : s.fld TM_CMPC.EPOCH q.bank = s.time.epoch) :
    s.compareDue q = decide (tdiff (s.fld TM_CMPT.TIME q.bank) s.nowTu ≤ 0) := by
  rw [State.compareDue, h, bne_self_eq_false, Bool.false_or]

theorem rootArmed_compareDue {e : Nat} {s : State} (he : e < 16) (h : e = s.time.epoch) :
    (rootArmed e s).compareDue .root = decide (tdiff (s.fld TM_CMPT.TIME 4) s.nowTu ≤ 0) := by
  obtain ⟨-, hepoch, -⟩ := rootArmed_shows he s
  have htime : (rootArmed e s).fld TM_CMPT.TIME 4 = s.fld TM_CMPT.TIME 4 :=
    (State.fld_setFld_apart (by decide) 4 1 4 _).trans (State.fld_setFld_apart (by decide) 4 e 4 s)
  rw [State.compareDue_of_epoch (q := .root) (hepoch.trans h)]
  exact congrArg (fun x => decide (tdiff x s.nowTu ≤ 0)) htime

/-- A delivered compare is no longer armed, and event 13 is pending in the Root engine. -/
theorem deliverCompare_root (s : State) :
    let t := deliverCompare .root s
    t.fld TM_CMPC.ARM 4 = 0 ∧ (t.eng 9).pend.getLsbD 13 = true :=
  ⟨State.fld_setFld_self s TM_CMPC.ARM 4 0, State.pendEng_pends (s.setFld TM_CMPC.ARM 4 0) 9 (by decide)⟩

theorem deliverCompare_root_clocks (s : State) :
    let t := deliverCompare .root s
    t.tb = s.tb ∧ t.now = s.now := ⟨rfl, rfl⟩

/-- Network time and time base at the compare's time, or now where it has passed. -/
theorem exec_compare_root {s : State} (harm : s.fld TM_CMPC.ARM 4 = 1) (he : s.fld TM_CMPC.EPOCH 4 = s.time.epoch) :
    exec (.compare .root) s = .next (deliverCompare .root (s.advance (tdiff (s.fld TM_CMPT.TIME 4) s.nowTu).toNat)) := by
  have hdue : s.compareDue .root = decide (tdiff (s.fld TM_CMPT.TIME 4) s.nowTu ≤ 0) := State.compareDue_of_epoch he
  have hset : (isEngine .root && s.isSet TM_CMPC.ARM (Req.bank .root)) = true := beq_iff_eq.2 harm
  have hadvance : (if s.compareDue .root then s else s.advance (tdiff (s.fld TM_CMPT.TIME 4) s.nowTu).toNat)
      = s.advance (tdiff (s.fld TM_CMPT.TIME 4) s.nowTu).toNat := by
    split
    · rename_i h
      rw [hdue, decide_eq_true_eq] at h
      rw [Int.toNat_of_nonpos h]
      simp [State.advance]
    · rfl
  refine (if_pos hset).trans ?_
  exact congrArg (fun u => Host.Outcome.next (deliverCompare .root u)) hadvance

/-- Settles O21: the four latched fields, and the compare of the Root engine armed, passed, due; the debugger's write is rejected. -/
theorem nowReadAndCompares : Obligations.NowReadAndCompares := by
  unfold Obligations.NowReadAndCompares
  refine ⟨fun s q h he hq => ?_, fun s v => ⟨fun hv hd => ?_, fun hv hd => ?_, fun harm he => ?_, rfl⟩⟩
  · obtain ⟨hthi, hepoch, hstate, hlow⟩ := nowLatched_shows q he hq
    refine ⟨_, exec_nowRead h, deliver_delivered q s.nowLow _, ?_, ?_, ?_, ?_, fun f i hk => ?_, rfl⟩
    · rw [deliver_fld, hthi]
    · rw [deliver_fld, hepoch]
    · rw [deliver_fld, hstate]
    · rw [deliver_fld, hlow]
    · rw [deliver_fld, Kept.nowLatched q s f i hk]
  · have hlt : v.toNat % 16 < 16 := by omega
    obtain ⟨harm, hepoch, hkept⟩ := rootArmed_shows hlt s
    refine ⟨rootArmed (v.toNat % 16) s, ?_, harm, hepoch.trans hv, hkept, rfl⟩
    rw [exec_compareArm_root, rootArmed_compareDue hlt hv, decide_eq_false (by omega)]
    rfl
  · have hlt : v.toNat % 16 < 16 := by omega
    refine ⟨_, ?_, deliverCompare_root (rootArmed (v.toNat % 16) s)⟩
    rw [exec_compareArm_root, rootArmed_compareDue hlt hv, decide_eq_true hd]
    rfl
  · obtain ⟨hclear, hpend⟩ := deliverCompare_root (s.advance (tdiff (s.fld TM_CMPT.TIME 4) s.nowTu).toNat)
    obtain ⟨htb, hnow⟩ := deliverCompare_root_clocks (s.advance (tdiff (s.fld TM_CMPT.TIME 4) s.nowTu).toNat)
    exact ⟨_, exec_compare_root harm he, hclear, hpend, htb.trans (State.advance_tb_eq s _), hnow.trans (State.advance_now_eq s _)⟩

end Sys2Proof.Machine
end

section
/-! PROOFS. Launch channels (06 R256 to R264, Table TM-4). -/

namespace Sys2Proof.Machine

/-! ### A channel's state (R256, R259) -/

theorem setSt_lst {v : Nat} (hv : v < 8) (c : Nat) (s : State) : (setSt c v s).lst c = v :=
  (State.fld_setFld_apart (by decide) c _ c _).trans (State.fld_setFld_lt hv c s)

theorem setSt_lst_ne {c d : Nat} (h : d ≠ c) (v : Nat) (s : State) : (setSt c v s).lst d = s.lst d :=
  (State.fld_setFld_apart (by decide) c _ d _).trans
    (State.fld_setFld_ne s v (Field.key_ne (by decide) (by decide) (by decide) (by decide) (.inl h.symm)))

/-- A channel is armed while its state is armed or held. -/
theorem setSt_arm (c v : Nat) (s : State) : (setSt c v s).fld TM_LCFG.ARM c = bit (v == 1 || v == 2) := by
  unfold setSt
  rw [State.fld_setFld_self]
  cases v == 1 || v == 2 <;> rfl

theorem setSt_kept (c v : Nat) (s : State) : KeptBut [TM_LCFG.ST, TM_LCFG.ARM] s (setSt c v s) :=
  ((KeptBut.refl _ s).setFld (by decide) c v).setFld (by decide) c _

/-- A change of state is one of register fields. -/
theorem setSt_frame (c v : Nat) (s : State) : setSt c v s = { s with regs := (setSt c v s).regs } := rfl

/-- A channel in state `v` with LREF set reads both. -/
theorem refused_shows (c : Nat) (s : State) :
    let t := (setSt c 4 s).flag TM_STATUS.LREF evTM
    t.lst c = 4 ∧ t.fld TM_LCFG.ARM c = 0 ∧ t.fld TM_STATUS.LREF = 1 ∧ KeptBut [TM_LCFG.ST, TM_LCFG.ARM, TM_STATUS.LREF] s t :=
  ⟨(State.fld_flag_apart (by decide) evTM c _).trans (setSt_lst (by decide) c s),
    (State.fld_flag_apart (by decide) evTM c _).trans (setSt_arm c 4 s), State.fld_flag_self _ _ _,
    ((setSt_kept c 4 s).mono (by decide)).flag (by decide) evTM⟩

/-! ### LAUNCH_ARM and LAUNCH_DISARM (R258, R259) -/

/-- The targets that an action admits (Table TM-4). -/
theorem targetsOk_iff (act lo hi : Nat) : targetsOk act lo hi = true ↔
    (act = 1 ∨ act = 2) ∨ (act = 3 ∧ lo = 0 ∧ hi = 0) ∨ (act = 4 ∧ lo < 2 ^ 16 ∧ hi = 0) ∨ (act = 5 ∧ lo < 2 ^ 8 ∧ hi = 0) := by
  unfold targetsOk
  split <;> simp_all

/-- The channel with the action and the epoch of a written value. -/
def lcfgWritten (c v : Nat) (s : State) : State :=
  (s.setFld TM_LCFG.ACTION c (TM_LCFG.ACTION.of v)).setFld TM_LCFG.EPOCH c (TM_LCFG.EPOCH.of v)

theorem lcfgWritten_shows (c v : Nat) (s : State) :
    let t := lcfgWritten c v s
    t.fld TM_LCFG.ACTION c = TM_LCFG.ACTION.of v ∧ t.fld TM_LCFG.EPOCH c = TM_LCFG.EPOCH.of v
      ∧ KeptBut [TM_LCFG.ACTION, TM_LCFG.EPOCH] s t :=
  ⟨(State.fld_setFld_apart (by decide) c _ c _).trans (State.fld_setFld_lt (Field.of_lt _ v) c s), State.fld_setFld_lt (Field.of_lt _ v) c _,
    ((KeptBut.refl _ s).setFld (by decide) c _).setFld (by decide) c _⟩

/-- A voted write of TM_LCFG of a channel that does not fall due in this TU. -/
theorem tmLcfg_of_later {c : Nat} {s : State} (h : s.lst c = 1 → 0 < s.dueIn c) (v : Nat) :
    tmLcfg .hw c v s
      = if TM_LCFG.ARM.of v = 1 then
          if (lcfgWritten c v s).armOk c then setSt c 1 (lcfgWritten c v s) else (setSt c 4 (lcfgWritten c v s)).flag TM_STATUS.LREF evTM
        else if s.lbusy c then setSt c 0 (lcfgWritten c v s)
        else lcfgWritten c v s := by
  have hwait : (s.lst c == 1 && decide (s.dueIn c ≤ 0)) = false := by
    by_cases h1 : s.lst c = 1
    · rw [decide_eq_false (by have := h h1; omega), Bool.and_false]
    · rw [beq_eq_false_iff_ne.2 h1, Bool.false_and]
  unfold tmLcfg
  rw [if_neg (by decide)]
  dsimp only
  rw [hwait, onlyIf_false]
  rfl

theorem of_launchArm (v : Nat) (arm : Bool) :
    TM_LCFG.ACTION.of (putBit v 8 arm) = v % 8 ∧ TM_LCFG.EPOCH.of (putBit v 8 arm) = v / 2 ^ 4 % 16 ∧ TM_LCFG.ARM.of (putBit v 8 arm) = bit arm :=
  ⟨(Field.of_putBit (by decide) v arm).trans (Field.of_low rfl v), Field.of_putBit (by decide) v arm,
    Field.of_putBit_self (f := TM_LCFG.ARM) rfl v arm⟩

/-- What arming asks of channel `c` with value `v`: a target that its action admits, the epoch in force, and the lead (R258). -/
def State.arms (s : State) (c v : Nat) : Prop :=
  targetsOk (v % 8) (s.fld TM_LTGTLO.TGT c) (s.fld TM_LTGTHI.TGT c) = true ∧ v / 2 ^ 4 % 16 = s.time.epoch
    ∧ ((s.fld TM_CTRL.LEAD * 1250 : Nat) : Int) ≤ tdiff (s.fld TM_LTIME.TIME c) s.nowTu

theorem armOk_lcfgWritten (c v : Nat) (s : State) : (lcfgWritten c (putBit v 8 true) s).armOk c = true ↔ s.arms c v := by
  obtain ⟨haction, hepoch, -⟩ := of_launchArm v true
  obtain ⟨hact, hep, hkept⟩ := lcfgWritten_shows c (putBit v 8 true) s
  have hlo := hkept TM_LTGTLO.TGT (by decide) c
  have hhi := hkept TM_LTGTHI.TGT (by decide) c
  have hlead := hkept TM_CTRL.LEAD (by decide) 0
  have htime := hkept TM_LTIME.TIME (by decide) c
  have hclock : (lcfgWritten c (putBit v 8 true) s).nowTu = s.nowTu ∧ (lcfgWritten c (putBit v 8 true) s).time = s.time := ⟨rfl, rfl⟩
  obtain ⟨hnow, hunit⟩ := hclock
  unfold State.armOk State.arms
  dsimp only
  rw [hact, hep, haction, hepoch, hlo, hhi, hlead, htime, hnow, hunit, Bool.and_eq_true, Bool.and_eq_true, beq_iff_eq, decide_eq_true_eq,
    and_assoc]

theorem exec_launchArm {s : State} (hv : s.canVote = true) {c : Fin 16} (h : s.lst c.val ≠ 1) (v : Word) :
    let u := lcfgWritten c.val (putBit v.toNat 8 true) s
    exec (.launchArm .hw c v) s = .next (if u.armOk c.val then setSt c.val 1 u else (setSt c.val 4 u).flag TM_STATUS.LREF evTM) := by
  obtain ⟨-, -, harm⟩ := of_launchArm v.toNat true
  have hwrite := tmLcfg_of_later (fun h1 => absurd h1 h) (putBit v.toNat 8 true)
  rw [harm, if_pos (show bit true = 1 from rfl)] at hwrite
  exact (asReq_hw hv _).trans (congrArg _ hwrite)

/-- A channel that is armed reads its action and epoch, and no refusal. -/
theorem launchArm_takes {s : State} (hv : s.canVote = true) {c : Fin 16} (h : s.lst c.val ≠ 1) (v : Word) :
    ∃ t, exec (.launchArm .hw c v) s = .next t ∧ t.fld TM_LCFG.ACTION c.val = v.toNat % 8
      ∧ t.fld TM_LCFG.EPOCH c.val = v.toNat / 2 ^ 4 % 16
      ∧ (s.arms c.val v.toNat → t.lst c.val = 1 ∧ t.fld TM_LCFG.ARM c.val = 1 ∧ t.fld TM_STATUS.LREF = s.fld TM_STATUS.LREF)
      ∧ (¬ s.arms c.val v.toNat → t.lst c.val = 4 ∧ t.fld TM_LCFG.ARM c.val = 0 ∧ t.fld TM_STATUS.LREF = 1) := by
  obtain ⟨haction, hepoch, -⟩ := of_launchArm v.toNat true
  obtain ⟨hact, hep, hkept⟩ := lcfgWritten_shows c.val (putBit v.toNat 8 true) s
  have hok := armOk_lcfgWritten c.val v.toNat s
  have hexec := exec_launchArm hv h v
  dsimp only at hexec hact hep hkept
  generalize lcfgWritten c.val (putBit v.toNat 8 true) s = u at hexec hok hact hep hkept
  by_cases hc : u.armOk c.val = true
  · have hset := setSt_kept c.val 1 u
    rw [if_pos hc] at hexec
    exact ⟨_, hexec, (hset _ (by decide) _).trans (hact.trans haction), (hset _ (by decide) _).trans (hep.trans hepoch),
      fun _ => ⟨setSt_lst (by decide) _ u, setSt_arm c.val 1 u, (hset _ (by decide) 0).trans (hkept _ (by decide) 0)⟩,
      fun hn => absurd (hok.1 hc) hn⟩
  · obtain ⟨hst, harm, href, hset⟩ := refused_shows c.val u
    rw [if_neg hc] at hexec
    exact ⟨_, hexec, (hset _ (by decide) _).trans (hact.trans haction), (hset _ (by decide) _).trans (hep.trans hepoch),
      fun hy => absurd (hok.2 hy) hc, fun _ => ⟨hst, harm, href⟩⟩

/-- A TIME to come is a due time to come, the boundary that GRID waits for among them. -/
theorem State.dueIn_pos {s : State} {c : Nat} (h : 0 < tdiff (s.fld TM_LTIME.TIME c) s.nowTu) : 0 < s.dueIn c := by
  unfold State.dueIn
  dsimp only
  split
  · have hle := le_nextMultiple s.cycleLen_pos ((s.nowTu : Int) + tdiff (s.fld TM_LTIME.TIME c) s.nowTu).toNat
    omega
  · exact h

/-- A channel held, or armed for a time to come, is freed. -/
theorem launchDisarm_frees {s : State} (hv : s.canVote = true) {c : Fin 16}
    (h : s.lst c.val = 2 ∨ (s.lst c.val = 1 ∧ 0 < tdiff (s.fld TM_LTIME.TIME c.val) s.nowTu)) (v : Word) :
    ∃ t, exec (.launchDisarm .hw c v) s = .next t ∧ t.lst c.val = 0 ∧ t.fld TM_LCFG.ARM c.val = 0
      ∧ ∀ d : Fin 16, d ≠ c → t.lst d.val = s.lst d.val := by
  obtain ⟨-, -, harm⟩ := of_launchArm v.toNat false
  obtain ⟨-, -, hkept⟩ := lcfgWritten_shows c.val (putBit v.toNat 8 false) s
  have hlater : s.lst c.val = 1 → 0 < s.dueIn c.val := fun h1 =>
    h.elim (fun h2 => absurd (h1.symm.trans h2) (by decide)) (fun h12 => State.dueIn_pos h12.2)
  have hbusy : s.lbusy c.val = true := by
    unfold State.lbusy
    obtain h | ⟨h, -⟩ := h
    · rw [h]
      rfl
    · rw [h]
      rfl
  have hwrite := tmLcfg_of_later hlater (putBit v.toNat 8 false)
  rw [harm, if_neg (by decide), if_pos hbusy] at hwrite
  refine ⟨_, (asReq_hw hv _).trans (congrArg _ hwrite), setSt_lst (by decide) _ _, setSt_arm _ 0 _, fun d hd => ?_⟩
  exact (setSt_lst_ne (fun he => hd (Fin.ext he)) 0 _).trans (hkept TM_LCFG.ST (by decide) d.val)

/-! ### LAUNCH_COPY_FAULT (R262) -/

theorem launchCopyFault_shows (c : Fin 16) (s : State) :
    let t := externalFault 1 c.val ((setSt c.val 6 s).flag TM_STATUS.LFAULT evTM)
    t.lst c.val = 6 ∧ t.fld TM_STATUS.LFAULT = 1 ∧ t.fld HW_EXTFLT.SRC = 1 ∧ t.fld HW_EXTFLT.INDEX = c.val
      ∧ t.fld HW_STATUS.EXTFLT = 1 := by
  have hlst : ((setSt c.val 6 s).flag TM_STATUS.LFAULT evTM).fld TM_LCFG.ST c.val = 6 :=
    (State.fld_flag_apart (by decide) evTM _ _).trans (setSt_lst (by decide) c.val s)
  have hfault := State.fld_flag_self (setSt c.val 6 s) TM_STATUS.LFAULT evTM
  generalize (setSt c.val 6 s).flag TM_STATUS.LFAULT evTM = u at hlst hfault ⊢
  have hkept : KeptBut [HW_EXTFLT.SRC, HW_EXTFLT.INDEX, HW_STATUS.EXTFLT] u (externalFault 1 c.val u) :=
    (((KeptBut.refl _ u).setFld (by decide) 0 1).setFld (by decide) 0 c.val).flag (by decide) evHW
  refine ⟨(hkept _ (by decide) _).trans hlst, (hkept _ (by decide) 0).trans hfault, ?_, ?_, State.fld_flag_self _ _ _⟩
  · exact (State.fld_flag_apart (by decide) evHW 0 _).trans
      ((State.fld_setFld_apart (by decide) 0 c.val 0 _).trans (State.fld_setFld_self u HW_EXTFLT.SRC 0 1))
  · exact (State.fld_flag_apart (by decide) evHW 0 _).trans (State.fld_setFld_lt (f := HW_EXTFLT.INDEX) c.isLt 0 _)

end Sys2Proof.Machine
end

section
/-! PROOFS. Launches that fall due (06 R256, R260, R264, Table TM-4). -/

namespace Sys2Proof.Machine

/-! ### What one element of an iteration establishes -/

/-- What one element's change establishes and every change keeps holds after the iteration. -/
theorem forEach_establishes {α : Type} {P : State → Prop} {f : α → State → State} {l : List α} {x : α} (hx : x ∈ l)
    (hest : ∀ t, P (f x t)) (hkeep : ∀ y t, P t → P (f y t)) (s : State) : P (forEach l f s) := by
  obtain ⟨l₁, l₂, rfl⟩ := List.append_of_mem hx
  rw [forEach_append, forEach_cons]
  exact forEach_keeps l₂ (fun y _ => hkeep y) (hest _)

/-! ### A channel falls due (R256, R260) -/

theorem State.action_of_fireable {s : State} {c act : Nat} (h : s.fireable c act = true) : s.fld TM_LCFG.ACTION c = act := by
  simp only [State.fireable, Bool.and_eq_true, beq_iff_eq] at h
  exact h.1.2

/-- The state at the instant that channel `c` falls due. -/
def State.atDue (s : State) (c : Nat) : State := s.advance (s.dueIn c).toNat

theorem launch_of_fireable {s : State} {c act : Nat} (h : s.fireable c act = true) : launch c act s = fire c (s.atDue c) := if_pos h

/-- In EPOCH a due channel is held (R256). -/
theorem launch_of_epoch {s : State} {c act : Nat} (h : s.fireable c act = true) (hq : s.time.tq = 4) :
    launch c act s = setSt c 2 (s.atDue c) := (launch_of_fireable h).trans (if_pos hq)

theorem launch_of_not_epoch {s : State} {c act : Nat} (h : s.fireable c act = true) (hq : s.time.tq ≠ 4) :
    launch c act s = fireEffect c (s.atDue c) := (launch_of_fireable h).trans (if_neg hq)

theorem State.atDue_fld (s : State) (c : Nat) (f : Field) (i : Nat) : (s.atDue c).fld f i = s.fld f i := State.advance_fld _ _ _ _

theorem State.atDue_sys (s : State) (c i : Nat) : (s.atDue c).sys i = s.sys i := State.sys_of_systems (State.advance_systems _ _) i

/-- A held launch has no effect but on its channel. -/
theorem held_shows (c : Nat) (s : State) :
    let t := setSt c 2 (s.atDue c)
    t.lst c = 2 ∧ t.systems = s.systems ∧ t.fld TM_GRID.PHASEF = s.fld TM_GRID.PHASEF ∧ t.vos = s.vos ∧ t.engines = s.engines := by
  have hphase : (s.atDue c).fld TM_GRID.PHASEF = s.fld TM_GRID.PHASEF := State.atDue_fld s c _ 0
  have hsystems : (s.atDue c).systems = s.systems := State.advance_systems _ _
  have hvos : (s.atDue c).vos = s.vos := State.advance_vos _ _
  have hengines : (s.atDue c).engines = s.engines := State.advance_engines _ _
  generalize s.atDue c = u at hphase hsystems hvos hengines ⊢
  exact ⟨setSt_lst (by decide) c u, hsystems, (setSt_kept c 2 u _ (by decide) 0).trans hphase, hvos, hengines⟩

/-! ### EXCITE (R65, R257) -/

theorem targetSystems_nodup (lo hi : Nat) : (targetSystems lo hi).Nodup := List.nodup_range.filter _

/-- The system with its staged excitation due. -/
def SysSt.excite (e : Exc) (x : SysSt) : SysSt := { x with staged := none, due := some e, dueCounted := false }

/-- An excitation staged for system `i` becomes due. -/
def exciteStaged (i : Nat) (s : State) : State :=
  match (s.sys i).staged with
  | some e => (showExc i e (s.modSys i (SysSt.excite e))).setFld FE_EXC.ARM i 0
  | none => s

theorem showExc_sys (i : Nat) (e : Exc) (j : Nat) (s : State) : ((showExc i e s).setFld FE_EXC.ARM i 0).sys j = s.sys j := rfl

theorem exciteStaged_sys_ne {i j : Nat} (h : j ≠ i) (s : State) : (exciteStaged i s).sys j = s.sys j := by
  unfold exciteStaged
  split
  · rw [showExc_sys, State.modSys_sys_ne _ _ _ _ h]
  · rfl

theorem exciteStaged_sys {i : Nat} {e : Exc} {s : State} (h : (s.sys i).staged = some e) :
    (exciteStaged i s).sys i = (s.sys i).excite e := by
  unfold exciteStaged
  rw [h]
  exact (showExc_sys i e i _).trans (State.modSys_sys_self _ _ _)

theorem fireEffect_excite {s : State} {c : Nat} (h : s.fld TM_LCFG.ACTION c = 1) :
    fireEffect c s = setSt c 3 (forEach (targetSystems (s.fld TM_LTGTLO.TGT c) (s.fld TM_LTGTHI.TGT c)) exciteStaged s) := by
  unfold fireEffect
  dsimp only
  rw [h]
  rfl

theorem forEach_exciteStaged {l : List Nat} (hl : l.Nodup) {i : Nat} (hi : i ∈ l) {e : Exc} {s : State} (h : (s.sys i).staged = some e) :
    ((forEach l exciteStaged s).sys i).due = some e ∧ ((forEach l exciteStaged s).sys i).staged = none := by
  obtain ⟨t, -, hsame, honce⟩ := forEach_once (P := fun _ => True) (g := fun u => u.sys i) hl hi (fun _ _ _ => trivial)
    (fun y hy t _ => exciteStaged_sys_ne hy.symm t) (s := s) trivial
  rw [honce, exciteStaged_sys (e := e) (by rw [hsame, h])]
  exact ⟨rfl, rfl⟩

/-- A due EXCITE makes the excitations staged for its systems due. -/
theorem fire_excite {s : State} {c : Nat} (h : s.fld TM_LCFG.ACTION c = 1) {i : Nat}
    (hi : (targetSystems (s.fld TM_LTGTLO.TGT c) (s.fld TM_LTGTHI.TGT c)).contains i = true) {e : Exc} (he : (s.sys i).staged = some e) :
    let t := fireEffect c s
    t.lst c = 3 ∧ (t.sys i).due = some e ∧ (t.sys i).staged = none := by
  dsimp only
  rw [fireEffect_excite h]
  exact ⟨setSt_lst (by decide) c _, forEach_exciteStaged (targetSystems_nodup _ _) (List.contains_iff_mem.1 hi) he⟩

/-! ### INJECT (R71, R257) -/

/-- An injection armed in system `i` becomes due, for the launch of channel `c` at time base `b`. -/
def injectArmed (b c i : Nat) (s : State) : State :=
  if s.isSet FE_TEST.ARM i then (s.setFld FE_TEST.ARM i 0).modSys i (fun x => { x with injDue := some (b * 16 + c) }) else s

/-- What an injection changes of system `i`. -/
def State.injection (s : State) (i : Nat) : SysSt × Nat := (s.sys i, s.fld FE_TEST.ARM i)

theorem injectArmed_injection_ne {i j : Nat} (h : j ≠ i) (b c : Nat) (s : State) : (injectArmed b c i s).injection j = s.injection j := by
  unfold injectArmed
  split
  · refine Prod.ext (State.modSys_sys_ne _ _ _ _ h) ?_
    exact State.fld_setFld_ne s 0 (f := FE_TEST.ARM) (g := FE_TEST.ARM)
      (Field.key_ne (by decide) (by decide) (by decide) (by decide) (.inl h.symm))
  · rfl

theorem injectArmed_injection {i : Nat} {s : State} (h : s.fld FE_TEST.ARM i = 1) (b c : Nat) :
    (injectArmed b c i s).injection i = ({ s.sys i with injDue := some (b * 16 + c) }, 0) := by
  have hset : s.isSet FE_TEST.ARM i = true := beq_iff_eq.2 h
  unfold injectArmed
  rw [if_pos hset]
  exact Prod.ext (State.modSys_sys_self _ _ _) (State.fld_setFld_self s FE_TEST.ARM i 0)

theorem fireEffect_inject {s : State} {c : Nat} (h : s.fld TM_LCFG.ACTION c = 2) :
    fireEffect c s = setSt c 3 (forEach (targetSystems (s.fld TM_LTGTLO.TGT c) (s.fld TM_LTGTHI.TGT c)) (injectArmed s.tb c) s) := by
  unfold fireEffect
  dsimp only
  rw [h]
  rfl

theorem forEach_injectArmed {l : List Nat} (hl : l.Nodup) {i : Nat} (hi : i ∈ l) {s : State} (h : s.fld FE_TEST.ARM i = 1) (b c : Nat) :
    (forEach l (injectArmed b c) s).injection i = ({ s.sys i with injDue := some (b * 16 + c) }, 0) := by
  obtain ⟨t, -, hsame, honce⟩ := forEach_once (P := fun _ => True) (g := fun u => u.injection i) hl hi (fun _ _ _ => trivial)
    (fun y hy t _ => injectArmed_injection_ne hy.symm b c t) (s := s) trivial
  obtain ⟨hsys, harm⟩ := Prod.mk.inj hsame
  rw [honce, injectArmed_injection (harm.trans h), hsys]

/-- A due INJECT makes the injections armed in its systems due. -/
theorem fire_inject {s : State} {c : Nat} (h : s.fld TM_LCFG.ACTION c = 2) {i : Nat}
    (hi : (targetSystems (s.fld TM_LTGTLO.TGT c) (s.fld TM_LTGTHI.TGT c)).contains i = true) (harm : s.fld FE_TEST.ARM i = 1) :
    let t := fireEffect c s
    t.lst c = 3 ∧ (t.sys i).injDue.isSome = true ∧ t.fld FE_TEST.ARM i = 0 := by
  obtain ⟨hsys, hclear⟩ := Prod.mk.inj
    (forEach_injectArmed (targetSystems_nodup _ _) (List.contains_iff_mem.1 hi) harm s.tb c)
  dsimp only
  rw [fireEffect_inject h]
  generalize forEach _ (injectArmed s.tb c) s = u at hsys hclear ⊢
  have hsame : (setSt c 3 u).sys i = u.sys i := rfl
  exact ⟨setSt_lst (by decide) c u, by rw [hsame, hsys]; rfl, (setSt_kept c 3 u _ (by decide) i).trans hclear⟩

/-! ### EVENT (R257) -/

theorem fireEffect_event {s : State} {c : Nat} (h : s.fld TM_LCFG.ACTION c = 5) :
    fireEffect c s = setSt c 3 (launchEvent (s.fld TM_LTGTLO.TGT c) s) := by
  unfold fireEffect
  dsimp only
  rw [h]
  rfl

/-- The Root engine and each Sapwood engine named have the event pending (Table TM-4). -/
theorem launchEvent_pends {lo : Nat} (hroot : lo.testBit 1 = true) {k : Fin 6} (hk : lo.testBit (k.val + 2) = true) (s : State) :
    ((launchEvent lo s).eng (3 + k.val)).pend.getLsbD 14 = true ∧ ((launchEvent lo s).eng 9).pend.getLsbD 14 = true := by
  have hmem : k.val ∈ (List.range 6).filter (fun k => lo.testBit (k + 2)) := List.mem_filter.2 ⟨List.mem_range.2 k.isLt, hk⟩
  unfold launchEvent
  dsimp only
  rw [hroot, onlyIf_true]
  refine ⟨?_, ?_⟩
  · exact forEach_establishes (P := fun t => (t.eng (3 + k.val)).pend.getLsbD 14 = true) hmem (fun t => State.pendEng_pends t _ (by decide))
      (fun y _ ht => State.pendEng_pending_mono ht (3 + y) evLAUNCH) _
  · exact forEach_keeps (P := fun t => (t.eng 9).pend.getLsbD 14 = true) _
      (fun y _ _ ht => State.pendEng_pending_mono ht (3 + y) evLAUNCH) (State.pendEng_pends _ 9 (by decide))

theorem fire_event {s : State} {c : Nat} (h : s.fld TM_LCFG.ACTION c = 5) {k : Fin 6}
    (hk : (s.fld TM_LTGTLO.TGT c).testBit (k.val + 2) = true) (hroot : (s.fld TM_LTGTLO.TGT c).testBit 1 = true) :
    let t := fireEffect c s
    t.lst c = 3 ∧ (t.eng (3 + k.val)).pend.getLsbD 14 = true ∧ (t.eng 9).pend.getLsbD 14 = true := by
  dsimp only
  rw [fireEffect_event h]
  exact ⟨setSt_lst (by decide) c _, launchEvent_pends hroot hk s⟩

/-! ### GRID (R264) -/

/-- The grid phase taken, and announced by a master. -/
def phaseTaken (s : State) : State :=
  let t := s.setFld TM_GRID.PHASEF 0 (s.fld TM_GRID.PHASE)
  onlyIf (t.time.tq == 5) (State.setFld TM_MASTER.CPHASE 0 (t.fld TM_GRID.PHASEF)) t

theorem phaseTaken_phasef (s : State) : (phaseTaken s).fld TM_GRID.PHASEF = s.fld TM_GRID.PHASE % 2 ^ 14 :=
  (fld_onlyIf_setFld_apart (by decide) _ _ _ _ _).trans (State.fld_setFld_self s TM_GRID.PHASEF 0 _)

theorem fireEffect_grid {s : State} {c : Nat} (h : s.fld TM_LCFG.ACTION c = 3) :
    fireEffect c s = if s.isSet FE_CTRL.RUN then (setSt c 4 s).flag TM_STATUS.LREF evTM else refreshTq (setSt c 3 (phaseTaken s)) := by
  unfold fireEffect
  dsimp only
  rw [h]
  rfl

theorem phase_moves (c : Nat) (s : State) :
    let t := refreshTq (setSt c 3 (phaseTaken s))
    t.lst c = 3 ∧ t.fld TM_GRID.PHASEF = s.fld TM_GRID.PHASE % 2 ^ 14 := by
  have hkept := refreshTq_kept (setSt c 3 (phaseTaken s))
  exact ⟨(hkept _ (by decide) c).trans (setSt_lst (by decide) c _),
    (hkept _ (by decide) 0).trans ((setSt_kept c 3 _ _ (by decide) 0).trans (phaseTaken_phasef s))⟩

/-- A due GRID moves the phase while RUN is 0, and is refused while it is 1. -/
theorem fire_grid {s : State} {c : Nat} (h : s.fld TM_LCFG.ACTION c = 3) :
    let t := fireEffect c s
    (s.fld FE_CTRL.RUN = 0 → t.lst c = 3 ∧ t.fld TM_GRID.PHASEF = s.fld TM_GRID.PHASE % 2 ^ 14)
      ∧ (s.fld FE_CTRL.RUN = 1 → t.lst c = 4 ∧ t.fld TM_STATUS.LREF = 1 ∧ t.fld TM_GRID.PHASEF = s.fld TM_GRID.PHASEF) := by
  dsimp only
  rw [fireEffect_grid h]
  refine ⟨fun hrun => ?_, fun hrun => ?_⟩
  · have hstop : ¬ s.isSet FE_CTRL.RUN = true := fun hset => absurd (hrun.symm.trans (beq_iff_eq.1 hset)) (by decide)
    rw [if_neg hstop]
    exact phase_moves c s
  · have hset : s.isSet FE_CTRL.RUN = true := beq_iff_eq.2 hrun
    obtain ⟨hst, -, href, hkept⟩ := refused_shows c s
    rw [if_pos hset]
    exact ⟨hst, href, hkept _ (by decide) 0⟩

/-! ### The launches together -/

/-- Settles O22: arming, disarming and copy fault; the effect of each due action, and in EPOCH none. -/
theorem launchesAreArmedAndFire : Obligations.LaunchesAreArmedAndFire := by
  unfold Obligations.LaunchesAreArmedAndFire
  refine ⟨fun s c v => ⟨fun hv h => ?_, fun hv h => launchDisarm_frees hv h v, ⟨_, rfl, launchCopyFault_shows c s⟩⟩,
    fun s c i k e hq => ⟨fun h hi hstaged => ?_, fun h hi harm => ?_, fun h hk hroot => ?_, fun h hrun => ?_, fun h hrun => ?_⟩,
    fun s c hq => ?_⟩
  · simpa only [State.arms, targetsOk_iff] using launchArm_takes hv h v
  · exact ⟨_, congrArg Host.Outcome.next (launch_of_not_epoch h hq), fire_excite ((s.atDue_fld _ _ _).trans (State.action_of_fireable h))
      (by rw [State.atDue_fld, State.atDue_fld]; exact hi) ((congrArg _ (s.atDue_sys _ _)).trans hstaged)⟩
  · exact ⟨_, congrArg Host.Outcome.next (launch_of_not_epoch h hq), fire_inject ((s.atDue_fld _ _ _).trans (State.action_of_fireable h))
      (by rw [State.atDue_fld, State.atDue_fld]; exact hi) ((s.atDue_fld _ _ _).trans harm)⟩
  · exact ⟨_, congrArg Host.Outcome.next (launch_of_not_epoch h hq), fire_event ((s.atDue_fld _ _ _).trans (State.action_of_fireable h))
      (by rw [State.atDue_fld]; exact hk) (by rw [State.atDue_fld]; exact hroot)⟩
  · have hfire := (fire_grid ((s.atDue_fld _ _ _).trans (State.action_of_fireable h))).1 ((s.atDue_fld c.val _ _).trans hrun)
    rw [State.atDue_fld] at hfire
    exact ⟨_, congrArg Host.Outcome.next (launch_of_not_epoch h hq), hfire⟩
  · have hfire := (fire_grid ((s.atDue_fld _ _ _).trans (State.action_of_fireable h))).2 ((s.atDue_fld c.val _ _).trans hrun)
    rw [State.atDue_fld] at hfire
    exact ⟨_, congrArg Host.Outcome.next (launch_of_not_epoch h hq), hfire⟩
  · obtain ⟨hst, hsystems, hphase, hvos, hengines⟩ := held_shows c.val s
    exact ⟨fun h => ⟨_, congrArg Host.Outcome.next (launch_of_epoch h hq), hst, hsystems⟩,
      fun h => ⟨_, congrArg Host.Outcome.next (launch_of_epoch h hq), hst, hsystems⟩,
      fun h => ⟨_, congrArg Host.Outcome.next (launch_of_epoch h hq), hst, hphase⟩,
      fun h => ⟨_, congrArg Host.Outcome.next (launch_of_epoch h hq), hst, hvos⟩,
      fun h => ⟨_, congrArg Host.Outcome.next (launch_of_epoch h hq), hst, hengines⟩⟩

end Sys2Proof.Machine
end

section
/-! PROOFS. The node in a ring: what sending leaves, its states and timers, and what an Announce does to a master (06 R240; 07 R294 to
R299). -/

namespace Sys2Proof.Machine

/-! ### The pricking -/

theorem State.rd_of_mem {s t : State} (h : t.mem = s.mem) (k n : Nat) : t.rd k n = s.rd k n :=
  State.rd_congr n k t s (fun i _ => by unfold State.byte; rw [h])

/-- The pricking of a ring is read from memory at a table's address. -/
theorem State.prick_congr {s t : State} (hm : t.mem = s.mem) (ht : t.tables = s.tables) (r : Nat) : t.prick r = s.prick r := by
  have hread : t.readPrick = s.readPrick := by
    funext a
    simp only [State.readPrick, State.rd_of_mem hm]
  have haddr : t.prickAddr r = s.prickAddr r := congrArg (fun l => Option.map ImgTable.addr (List.find? _ l)) ht
  unfold State.prick
  rw [hread, haddr]

@[simp] theorem State.prick_advanceTo (s : State) (n r : Nat) : (s.advanceTo n).prick r = s.prick r :=
  State.prick_congr (State.advanceTo_mem _ _) (State.advanceTo_tables _ _) r

/-! ### What sending leaves (R274, R281, R294) -/

/-- What sending a frame leaves: the registers, the time base and the time unit. -/
def State.shown (s : State) : Tab Nat × Nat × TimeSt := (s.regs, s.tb, s.time)

theorem State.fld_of_shown {s t : State} (h : t.shown = s.shown) (f : Field) (i : Nat) : t.fld f i = s.fld f i :=
  congrArg (fun x : Tab Nat × Nat × TimeSt => Tab.get f.rst x.1 (f.key i)) h

theorem State.tb_of_shown {s t : State} (h : t.shown = s.shown) : t.tb = s.tb := congrArg (fun x => x.2.1) h

theorem State.time_of_shown {s t : State} (h : t.shown = s.shown) : t.time = s.time := congrArg (fun x => x.2.2) h

@[simp] theorem State.modRing_shown (r : Nat) (f : RingSt → RingSt) (s : State) : (s.modRing r f).shown = s.shown := rfl

@[simp] theorem State.modLink_shown (p : Nat) (f : PortSt → PortSt) (s : State) : (s.modLink p f).shown = s.shown := rfl

theorem State.onlyIf_shown {c : Bool} {f : State → State} (hf : ∀ t, (f t).shown = t.shown) (s : State) :
    (onlyIf c f s).shown = s.shown := onlyIf_frame c hf s

@[simp] theorem answer_shown (p : Nat) (s : State) : (answer p s).shown = s.shown := rfl

/-- Fresh bytes take free values and nothing else. -/
theorem State.freshBytes_frame (n : Nat) (s : State) : (s.freshBytes n).2 = { s with free := (s.freshBytes n).2.free } := by
  induction n generalizing s with
  | zero => rfl
  | succ n ih => exact ih { s with free := s.free + 1 }

theorem ptpMsg_frame (ty n : Nat) (s : State) : (ptpMsg ty n s).2 = { s with free := (ptpMsg ty n s).2.free } := State.freshBytes_frame n s

@[simp] theorem ptpMsg_shown (ty n : Nat) (s : State) : (ptpMsg ty n s).2.shown = s.shown := by
  rw [ptpMsg_frame]
  rfl

@[simp] theorem syncElems_shown (s : State) : (syncElems s).2.shown = s.shown := by
  unfold syncElems
  dsimp only
  rw [ptpMsg_shown, ptpMsg_shown]

@[simp] theorem pdreqElem_shown (s : State) : (pdreqElem s).2.shown = s.shown := by
  unfold pdreqElem
  dsimp only
  rw [ptpMsg_shown]

@[simp] theorem pdrespElems_shown (ps : List Nat) (s : State) : (pdrespElems ps s).2.2.shown = s.shown := by
  have hfold : ∀ (l : List Nat) (acc : List Byte × List (Nat × Nat) × State),
      (l.foldl (fun acc p =>
        match (acc.2.2.link p).owed with
        | [] => acc
        | t :: _ =>
          let a := ptpMsg 3 54 acc.2.2
          (acc.1 ++ elemBytes 5 1 a.1, acc.2.1 ++ [(p, t)], answer p a.2)) acc).2.2.shown = acc.2.2.shown := by
    intro l
    induction l with
    | nil => exact fun _ => rfl
    | cons p l ih =>
      intro acc
      rw [List.foldl_cons, ih]
      split
      · rfl
      · dsimp only
        rw [answer_shown, ptpMsg_shown]
  exact hfold ps ([], [], s)

@[simp] theorem timeElems_shown (r b : Nat) (cold first : Bool) (s : State) : (timeElems r b cold first s).after.shown = s.shown := by
  unfold timeElems
  dsimp only
  rw [State.onlyIf_shown (fun t => State.modRing_shown r _ t)]
  have hsync : ∀ (c : Bool) (t : State), (if c then syncElems t else ([], t)).2.shown = t.shown := fun c t => by
    cases c
    · rfl
    · exact syncElems_shown t
  have hreq : ∀ (c : Bool) (t : State), (if c then pdreqElem t else ([], t)).2.shown = t.shown := fun c t => by
    cases c
    · rfl
    · exact pdreqElem_shown t
  cases first
  · exact (hreq _ _).trans (hsync _ _)
  · exact (pdrespElems_shown _ _).trans ((hreq _ _).trans (hsync _ _))

@[simp] theorem coldFrame_shown (r b : Nat) (k : Prick) (j cyc flen : Nat) (first : Bool) (s : State) :
    (coldFrame r b k j cyc flen first s).2.shown = s.shown := timeElems_shown r b true first s

@[simp] theorem egress_shown (p : Nat) (resps : List (Nat × Nat)) (l : List Byte) (s : State) : (egress p resps l s).2.shown = s.shown := by
  unfold egress
  split <;> rfl

@[simp] theorem sendOwn_shown (ports : List Nat) (resps : List (Nat × Nat)) (l : List Byte) (s : State) :
    (sendOwn ports resps l s).shown = s.shown := by
  unfold sendOwn
  refine forEach_frame (g := State.shown) ports (fun p _ t => ?_) s
  exact egress_shown p resps l t

@[simp] theorem transmit_shown (k : Prick) (f : TxFrame) (slotEnd : Option Nat) (s : State) : (transmit k f slotEnd s).shown = s.shown :=
  sendOwn_shown (s.joinedPorts f.ring) f.resps f.bytes s

/-! ### The node states (R294, R298, Table CK-13) -/

/-- The fields of a ring's node state that a change of state writes. -/
def nodeFields (r : Nat) : List Field := [nsState r, nsOpen r, CK_STATUS.STCHG]

theorem nsOpen_apart_nsState (r : Nat) : (nsOpen r).apart (nsState r) = true ∧ CK_STATUS.STCHG.apart (nsState r) = true
    ∧ (nsOpen r).apart CK_STATUS.STCHG = true := by
  unfold nsOpen nsState
  split
  · decide
  · decide

theorem nodeFields_apart (r : Nat) {g : Field} (hg : ∀ f ∈ [CK_NODEST.STATE, CK_NODEST.OPEN, CK_NODEST2.STATE, CK_NODEST2.OPEN, CK_STATUS.STCHG],
    f.apart g = true) : (nodeFields r).all (fun f => f.apart g) = true := by
  refine List.all_eq_true.2 (fun f hf => hg f ?_)
  simp only [nodeFields, nsState, nsOpen, List.mem_cons, List.not_mem_nil, or_false] at hf ⊢
  split at hf <;> tauto

/-- A change to another state than ACTIVE as the registers show it: OPEN reads 1. -/
def nodeTold (r v : Nat) (s : State) : State := ((s.setFld (nsState r) 0 v).flag CK_STATUS.STCHG evCK).setFld (nsOpen r) 0 1

/-- A node that leaves a state for another than ACTIVE expects no frame back. -/
def nodeLeft (r v : Nat) (s : State) : State :=
  (nodeTold r v s).modRing r (fun x => { x with retRun := 0, rets := [], late := x.late ++ x.rets, retFail := false })

theorem setNode_eq {r v : Nat} (hv : v ≠ 4) {s : State} (h : s.node r ≠ v) : setNode r v s = nodeLeft r v s := by
  unfold setNode
  rw [if_neg h]
  exact if_neg hv

theorem setNode_of_eq {r v : Nat} {s : State} (h : s.node r = v) : setNode r v s = s := if_pos h

theorem nodeTold_shows {v : Nat} (hv : v < 8) (r : Nat) (s : State) :
    let t := nodeTold r v s
    t.node r = v ∧ t.fld CK_STATUS.STCHG = 1 ∧ KeptBut (nodeFields r) s t ∧ t.time = s.time ∧ t.tb = s.tb := by
  obtain ⟨hopen, hflag, hstatus⟩ := nsOpen_apart_nsState r
  have hw : v < 2 ^ (nsState r).w := by
    unfold nsState
    split <;> exact hv
  unfold nodeTold State.node
  refine ⟨?_, ?_, ?_, State.flag_time _ _ _, State.flag_tb _ _ _⟩
  · rw [State.fld_setFld_apart hopen, State.fld_flag_apart hflag, State.fld_setFld_lt hw]
  · rw [State.fld_setFld_apart hstatus, State.fld_flag_self]
    rfl
  · exact (((KeptBut.refl _ s).setFld (by simp [nodeFields]) 0 v).flag (by simp [nodeFields]) evCK).setFld (by simp [nodeFields]) 0 1

theorem nodeLeft_shows {v : Nat} (hv : v < 8) (r : Nat) (s : State) :
    let t := nodeLeft r v s
    t.node r = v ∧ t.fld CK_STATUS.STCHG = 1 ∧ KeptBut (nodeFields r) s t ∧ t.time = s.time ∧ t.tb = s.tb := by
  have htold := nodeTold_shows hv r s
  unfold nodeLeft
  generalize nodeTold r v s = u at htold ⊢
  exact htold

/-- A node that enters COLD START counts the attempt (R294). -/
def coldEntered (r : Nat) (s : State) : State := (nodeLeft r 2 s).countFld CK_COLD.ATTEMPT 0 1

theorem startCold_shown {r : Nat} {s : State} (h : s.node r ≠ 2) : (startCold r s).shown = (coldEntered r s).shown := by
  unfold startCold
  rw [setNode_eq (by decide) h, ← coldEntered]
  dsimp only
  split
  · rfl
  · split
    · rfl
    · exact (transmit_shown _ _ _ _).trans (coldFrame_shown _ _ _ _ _ _ _ _)

/-- COLD START: the node state, STCHG and the count of attempts. -/
theorem startCold_shows {r : Nat} {s : State} (h : s.node r ≠ 2) :
    let t := startCold r s
    t.node r = 2 ∧ t.fld CK_STATUS.STCHG = 1 ∧ t.fld CK_COLD.ATTEMPT = min 255 (s.fld CK_COLD.ATTEMPT + 1) ∧ t.tb = s.tb
      ∧ t.time = s.time := by
  obtain ⟨hnode, hstchg, hkept, htime, htb⟩ := nodeLeft_shows (v := 2) (by decide) r s
  have hshown := startCold_shown h
  have hattempt := hkept CK_COLD.ATTEMPT (nodeFields_apart r (by decide)) 0
  have hcold : CK_COLD.ATTEMPT.apart (nsState r) = true := by
    unfold nsState
    split
    · decide
    · decide
  unfold coldEntered at hshown
  dsimp only at hnode hstchg htime htb ⊢
  generalize nodeLeft r 2 s = u at hshown hnode hstchg hattempt htime htb
  refine ⟨?_, ?_, ?_, (State.tb_of_shown hshown).trans htb, (State.time_of_shown hshown).trans htime⟩
  · rw [State.node, State.fld_of_shown hshown, State.fld_countFld_apart hcold]
    exact hnode
  · rw [State.fld_of_shown hshown, State.fld_countFld_apart (by decide), hstchg]
  · rw [State.fld_of_shown hshown, State.fld_countFld_self, hattempt]
    rfl

/-! ### Timers (R294, R299, Table CK-13) -/

/-- The listen time of a pricking (R294). -/
def State.listenTime (s : State) (k : Prick) : Nat := k.lbase * 125000 + s.fld ID_NODE.NODE * k.cslot

theorem enterListen_eq {r : Nat} {k : Prick} {s : State} (hk : s.prick r = some k) :
    enterListen r s = (setNode r 1 s).modRing r (fun x => { x with listenAt := some (s.tb + s.listenTime k), clean := 0 }) := by
  unfold enterListen
  rw [hk]
  rfl

theorem State.coldEligible_advance (s : State) (n r : Nat) (k : Prick) : (s.advance n).coldEligible r k = s.coldEligible r k := rfl

theorem exec_listenTimeout {r : Fin 2} {k : Prick} {u : Nat} {s : State} (hk : s.prick r.val = some k) (h : s.node r.val = 1)
    (hu : (s.ring r.val).listenAt = some u) :
    exec (.listenTimeout r) s
      = if s.coldEligible r.val k then .next (startCold r.val ((s.advanceTo u).modRing r.val (fun x => { x with listenAt := none })))
        else .next (enterListen r.val (s.advanceTo u)) := by
  change execListenTimeout r s = _
  unfold execListenTimeout
  dsimp only
  rw [hu, hk]
  dsimp only
  rw [if_neg (fun hne => hne h), State.advanceTo, State.coldEligible_advance]

theorem exec_integrateTimeout {r : Fin 2} {k : Prick} {s : State} (hk : s.prick r.val = some k) (h : s.node r.val = 3) :
    exec (.integrateTimeout r) s = .next (enterListen r.val (s.advanceTo ((s.ring r.val).heardAt + k.lbase * 125000))) := by
  change execIntegrateTimeout r s = _
  unfold execIntegrateTimeout
  dsimp only
  rw [hk]
  exact if_pos h

/-- The oldest frame expected back has not returned (R299). -/
def returnFailed (x : Ret) (rest : List Ret) (y : RingSt) : RingSt :=
  { y with rets := rest, late := y.late ++ [x], retFail := y.retFail || x.active }

theorem exec_returnTimeout {r : Fin 2} {x : Ret} {rest : List Ret} {s : State} (h : (s.ring r.val).rets = x :: rest) :
    exec (.returnTimeout r) s = .next ((s.advanceTo x.due).modRing r.val (returnFailed x rest)) := by
  change execReturnTimeout r s = _
  unfold execReturnTimeout
  dsimp only
  rw [h]
  rfl

/-- The timer of a node already in LISTEN starts again. -/
theorem enterListen_again {r : Nat} {k : Prick} {s : State} (hk : s.prick r = some k) (h : s.node r = 1) :
    let t := enterListen r s
    t.node r = 1 ∧ t.tb = s.tb ∧ (t.ring r).listenAt = some (t.tb + s.listenTime k) ∧ t.regs = s.regs := by
  rw [enterListen_eq hk, setNode_of_eq h]
  exact ⟨h, rfl, congrArg RingSt.listenAt (State.modRing_ring_self _ _ _), rfl⟩

/-- Another state ends in LISTEN, with its timer started. -/
theorem enterListen_shows {r : Nat} {k : Prick} {s : State} (hk : s.prick r = some k) (h : s.node r ≠ 1) :
    let t := enterListen r s
    t.node r = 1 ∧ t.fld CK_STATUS.STCHG = 1 ∧ t.tb = s.tb ∧ (t.ring r).listenAt = some (t.tb + s.listenTime k) := by
  obtain ⟨hnode, hstchg, -, -, htb⟩ := nodeLeft_shows (v := 1) (by decide) r s
  rw [enterListen_eq hk, setNode_eq (by decide) h]
  generalize nodeLeft r 1 s = u at hnode hstchg htb ⊢
  refine ⟨hnode, hstchg, htb, ?_⟩
  rw [State.modRing_ring_self, State.modRing_tb, htb]

/-! ### Announces (06 R240, R296) -/

theorem followMaster_shows (src node rank epoch phase est : Nat) (s : State) :
    let t := followMaster src node rank epoch phase est s
    t.time = { s.time with follow := some src, annEst := est } ∧ t.fld TM_MASTER.MNODE = node % 2 ^ 10
      ∧ t.fld TM_MASTER.MRANK = rank % 2 ^ 2 := by
  obtain ⟨hnode, hrank, -⟩ := setMaster_shows node rank epoch phase s
  have htime := setMaster_time node rank epoch phase s
  unfold followMaster
  generalize setMaster node rank epoch phase s = u at hnode hrank htime ⊢
  have hkept := refreshTq_kept (u.modTime (fun t => { t with follow := some src, annEst := est }))
  refine ⟨?_, (hkept _ (by decide) 0).trans hnode, (hkept _ (by decide) 0).trans hrank⟩
  rw [refreshTq_time, State.modTime_time, htime]

/-- A master in LISTEN, INTEGRATE or PASSIVE starts cold on an Announce of a worse rank, and yields to one of a better. -/
theorem exec_announceReceived_master {s : State} {dom : BitVec 8} (hdom : dom.toNat = s.fld TM_PROF.DOMAIN) (h : s.time.tq = 5)
    (src node : BitVec 10) (rank : Fin 4) (epoch : BitVec 4) (phase : BitVec 14) (est : BitVec 16) :
    exec (.announceReceived src node dom rank epoch phase est) s
      = if rank.val < s.fld TM_MASTER.MRANK then
          if s.node 0 = 4 then
            .next (s.modTime (fun t =>
              { t with yields := some [src.toNat, node.toNat, rank.val, epoch.toNat, phase.toNat, est.toNat] }))
          else .next (followMaster src.toNat node.toNat rank.val epoch.toNat phase.toNat est.toNat
            (enterTq 0 (s.modTime (fun t => { t with lastAnn := s.cycle, lockRun := 0, offRun := 0, stepRun := 0 }))))
        else if s.fld TM_MASTER.MRANK < rank.val && (s.node 0 == 1 || s.node 0 == 3 || s.node 0 == 5) then .next (startCold 0 s)
        else .next s := by
  change execAnnounceReceived src node dom rank epoch phase est s = _
  unfold execAnnounceReceived
  rw [if_neg (fun hne => hne hdom), if_pos h]

/-- A master that is not ACTIVE follows a better one at once (R296). -/
theorem yieldsAtOnce_shows (src node : BitVec 10) (rank : Fin 4) (epoch phase est : Nat) (s : State) :
    let t := followMaster src.toNat node.toNat rank.val epoch phase est (enterTq 0 s)
    t.time.tq = 0 ∧ t.time.follow = some src.toNat ∧ t.fld TM_MASTER.MNODE = node.toNat ∧ t.fld TM_MASTER.MRANK = rank.val := by
  obtain ⟨htime, hnode, hrank⟩ := followMaster_shows src.toNat node.toNat rank.val epoch phase est (enterTq 0 s)
  refine ⟨?_, ?_, hnode.trans (Nat.mod_eq_of_lt node.isLt), hrank.trans (Nat.mod_eq_of_lt rank.isLt)⟩
  · rw [htime]
    exact enterTq_tq 0 s
  · rw [htime]

/-- Settles O27: the three timers, and a master's three answers to an Announce. -/
theorem nodeStatesFollowTheirTimers : Obligations.NodeStatesFollowTheirTimers := by
  unfold Obligations.NodeStatesFollowTheirTimers
  intro s r k u x rest src nd dom rank ep ph est wait
  have hfld : ∀ (n : Nat) (f : Field) (i : Nat), (s.advanceTo n).fld f i = s.fld f i := fun n f i => State.advanceTo_fld _ _ _ _
  have hwait : ∀ n, (s.advanceTo n).listenTime k = wait := fun n => by rw [State.listenTime, hfld]
  refine ⟨fun hk h hu => ⟨fun hcold => ?_, fun hcold => ?_⟩, fun hk h => ?_, fun h => ?_, fun hdom h hrank hnode => ?_,
    fun hdom h hrank hnode => ?_, fun hdom h hrank hnode => ?_⟩
  · have hne : (s.advanceTo u).node r.val ≠ 2 := fun h2 => absurd ((hfld u _ 0).symm.trans h2) (by rw [← State.node, h]; decide)
    obtain ⟨hnode, hstchg, hattempt, htb, -⟩ := startCold_shows (s := (s.advanceTo u).modRing r.val (fun x => { x with listenAt := none })) hne
    rw [State.modRing_fld, hfld] at hattempt
    refine ⟨_, (exec_listenTimeout hk h hu).trans (if_pos hcold), hnode, htb.trans (s.advanceTo_tb_eq u), hstchg, hattempt⟩
  · obtain ⟨hnode, htb, hlisten, hregs⟩ := enterListen_again ((s.prick_advanceTo u r.val).trans hk) ((hfld u _ 0).trans h)
    rw [hwait] at hlisten
    have hstay : ¬ s.coldEligible r.val k = true := by rw [hcold]; decide
    exact ⟨_, (exec_listenTimeout hk h hu).trans (if_neg hstay), hnode, htb.trans (s.advanceTo_tb_eq u), hlisten,
      hregs.trans (State.advanceTo_regs _ _)⟩
  · have hne : ∀ n, (s.advanceTo n).node r.val ≠ 1 := fun n h1 => absurd ((hfld n _ 0).symm.trans h1) (by rw [← State.node, h]; decide)
    obtain ⟨hnode, hstchg, htb, hlisten⟩ := enterListen_shows ((s.prick_advanceTo _ r.val).trans hk) (hne _)
    rw [hwait] at hlisten
    exact ⟨_, exec_integrateTimeout hk h, hnode, hstchg, htb.trans (s.advanceTo_tb_eq _), hlisten⟩
  · have hring : ((s.advanceTo x.due).modRing r.val (returnFailed x rest)).ring r.val = returnFailed x rest (s.ring r.val) :=
      State.modRing_ring_self _ _ _
    refine ⟨_, exec_returnTimeout h, s.advanceTo_tb_eq x.due, ?_, ?_, ?_, State.advanceTo_regs s x.due⟩
    · rw [hring]
      rfl
    · rw [hring]
      rfl
    · rw [hring]
      rfl
  · refine ⟨_, (exec_announceReceived_master hdom h src nd rank ep ph est).trans ((if_pos hrank).trans (if_pos hnode)), h, rfl, rfl⟩
  · exact ⟨_, (exec_announceReceived_master hdom h src nd rank ep ph est).trans ((if_pos hrank).trans (if_neg hnode)),
      yieldsAtOnce_shows src nd rank _ _ _ _⟩
  · have hne : s.node 0 ≠ 2 := by omega
    have hcold : (decide (s.fld TM_MASTER.MRANK < rank.val) && (s.node 0 == 1 || s.node 0 == 3 || s.node 0 == 5)) = true := by
      simpa [or_assoc] using And.intro hrank hnode
    obtain ⟨hnode2, -, -, -, htime⟩ := startCold_shows hne
    exact ⟨_, (exec_announceReceived_master hdom h src nd rank ep ph est).trans ((if_neg (by omega)).trans (if_pos hcold)), hnode2,
      (congrArg TimeSt.tq htime).trans h⟩

end Sys2Proof.Machine
end

section
/-! PROOFS. Carrik ports: link training, delay measurement, joining and retraining (06 R242; 07 R274, R293). -/

namespace Sys2Proof.Machine

/-! ### Lengths of what a frame is made of (R272, R276) -/

@[simp] theorem length_leBytes (n v : Nat) : (leBytes n v).length = n := by
  induction n generalizing v with
  | zero => rfl
  | succ n ih => exact congrArg (· + 1) (ih _)

@[simp] theorem length_beBytes (n v : Nat) : (beBytes n v).length = n := by rw [beBytes, List.length_reverse, length_leBytes]

@[simp] theorem length_elemBytes (ty count : Nat) (body : List Byte) : (elemBytes ty count body).length = 4 + body.length := by
  simp [elemBytes]
  omega

/-- Replaced bytes that lie in the list leave its length. -/
theorem length_putBytes {l b : List Byte} {i : Nat} (h : i + b.length ≤ l.length) : (putBytes l i b).length = l.length := by
  simp [putBytes]
  omega

theorem length_withFcs (v : Nat) {l : List Byte} (h : 4 ≤ l.length) : (withFcs v l).length = l.length :=
  length_putBytes (by rw [length_leBytes]; omega)

theorem length_sealFrame (seed : Nat) {l : List Byte} (h : 8 ≤ l.length) : (sealFrame seed l).length = l.length := by
  have hcode : (putBytes l (l.length - 8) (leBytes 4 (scodeOf seed l))).length = l.length :=
    length_putBytes (by rw [length_leBytes]; omega)
  unfold sealFrame
  dsimp only
  rw [length_withFcs _ (by omega), hcode]

/-- A frame whose elements fit has the length asked for. -/
theorem State.length_frameBytes (s : State) (ring pid seed ty slot cyc : Nat) {flen : Nat} {elems : List Byte} (h : elems.length + 38 ≤ flen) :
    (s.frameBytes ring pid seed ty slot cyc flen elems).length = flen := by
  unfold State.frameBytes
  dsimp only
  rw [length_sealFrame]
  · simp
    omega
  · simp

theorem State.length_frameOf (s : State) (r : Nat) (k : Prick) (ty slot cyc : Nat) {flen : Nat} {elems : List Byte} (h : elems.length + 38 ≤ flen) :
    (s.frameOf r k ty slot cyc flen elems).length = flen := by
  unfold State.frameOf
  exact s.length_frameBytes _ _ _ _ _ _ h

theorem State.length_freshBytes (n : Nat) (s : State) : (s.freshBytes n).1.length = n := by
  induction n generalizing s with
  | zero => rfl
  | succ n ih => exact congrArg (· + 1) (ih _)

theorem length_ptpMsg (ty : Nat) {n : Nat} (h : 34 ≤ n) (s : State) : (ptpMsg ty n s).1.length = n := by
  have hput : ∀ {l b : List Byte} {i : Nat}, l.length = n → i + b.length ≤ n → (putBytes l i b).length = n := fun hl hb =>
    (length_putBytes (hl.symm ▸ hb)).trans hl
  unfold ptpMsg
  dsimp only
  refine hput (hput (hput (hput (State.length_freshBytes n s) ?_) ?_) ?_) ?_ <;> simp <;> omega

/-! ### What the fields of a frame and of TSTAT go by (R272, Table CK-6) -/

/-- A frame goes by the registers and the time unit. -/
theorem State.frameOf_congr {s t : State} (hfld : ∀ (f : Field) (i : Nat), t.fld f i = s.fld f i) (htime : t.time = s.time) (r : Nat) (k : Prick)
    (ty slot cyc flen : Nat) (elems : List Byte) : t.frameOf r k ty slot cyc flen elems = s.frameOf r k ty slot cyc flen elems := by
  simp only [State.frameOf, State.frameBytes, State.mySeed, State.myPos, hfld, htime]

/-- TSTAT goes by the registers, the time base and the time unit. -/
theorem State.tstat_congr {s t : State} (h : t.shown = s.shown) (r : Nat) : t.tstat r = s.tstat r := by
  obtain ⟨hregs, hrest⟩ := Prod.mk.inj h
  obtain ⟨htb, htime⟩ := Prod.mk.inj hrest
  calc t.tstat r
    _ = ({ s with regs := t.regs, tb := t.tb, time := t.time } : State).tstat r := rfl
    _ = s.tstat r := by rw [hregs, htb, htime]

/-- The ring that a port carries goes by the rings joined. -/
theorem State.portRing_congr {s t : State} (h : ∀ f ∈ [CK_RING.VALID, CK_RING.FIELD, CK_RING2.VALID], t.fld f = s.fld f) (p : Nat) :
    t.portRing p = s.portRing p := by
  have hhome : t.joined 0 = s.joined 0 := congrArg (· == 1) (h CK_RING.VALID (by decide))
  have hbridged : t.joined 1 = s.joined 1 := congrArg (· == 1) (h CK_RING2.VALID (by decide))
  have hports : t.ringPorts 0 = s.ringPorts 0 := congrArg (fun v => if (v == 1) = true then (4, 5) else (0, 1)) (h CK_RING.FIELD (by decide))
  unfold State.portRing
  rw [hhome, hbridged, hports]

theorem State.portRing_free (s : State) (n p : Nat) : ({ s with free := n } : State).portRing p = s.portRing p := rfl

theorem State.prick_free (s : State) (n r : Nat) : ({ s with free := n } : State).prick r = s.prick r := State.prick_congr rfl rfl r

/-! ### LINK_UP, LINK_DOWN and RETRAIN (R242, R293) -/

theorem enterTrain_shows (p : Nat) (s : State) :
    let t := enterTrain p s
    t.fld CK_PST.PSTATE p = 1 ∧ t.fld TM_PDELAY.VALID p = 0 ∧ t.fld TM_PDELAY.NMEAS p = 0 ∧ t.tb = s.tb
      ∧ Kept [CK_PST.PSTATE.key p, TM_PDELAY.VALID.key p, TM_PDELAY.NMEAS.key p] s t := by
  have hlink : Kept [CK_PST.PSTATE.key p] s ((s.setFld CK_PST.PSTATE p 1).modLink p (fun _ => PortSt.reset)) := Kept.setFld s _ p 1
  refine ⟨?_, ?_, State.fld_setFld_self _ TM_PDELAY.NMEAS p 0, rfl, ?_⟩
  · exact (State.fld_setFld_apart (by decide) p 0 p _).trans ((State.fld_setFld_apart (by decide) p 0 p _).trans
      (State.fld_setFld_self s CK_PST.PSTATE p 1))
  · exact (State.fld_setFld_apart (by decide) p 0 p _).trans (State.fld_setFld_self _ TM_PDELAY.VALID p 0)
  · exact ((hlink.mono (by simp)).trans ((Kept.setFld _ TM_PDELAY.VALID p 0).mono (by simp))).trans
      ((Kept.setFld _ TM_PDELAY.NMEAS p 0).mono (by simp))

theorem exec_linkUp {p : Fin 6} {s : State} (hen : s.fld CK_PCTRL.EN p.val = 1) (h : s.fld CK_PST.PSTATE p.val = 0) :
    exec (.linkUp p) s = .next (enterTrain p.val (s.setFld CK_PST.SYNC p.val 1)) := by
  have hen' : (s.setFld CK_PST.SYNC p.val 1).isSet CK_PCTRL.EN p.val = true :=
    beq_iff_eq.2 ((State.fld_setFld_apart (by decide) _ _ _ s).trans hen)
  have hdown : ((s.setFld CK_PST.SYNC p.val 1).fld CK_PST.PSTATE p.val == 0) = true :=
    beq_iff_eq.2 ((State.fld_setFld_apart (by decide) _ _ _ s).trans h)
  change execLinkUp p s = _
  unfold execLinkUp
  exact if_pos (by rw [hen', hdown]; rfl)

/-- A port that comes up is in TRAIN. -/
theorem linkUp_shows (p : Nat) (s : State) :
    let t := enterTrain p (s.setFld CK_PST.SYNC p 1)
    t.fld CK_PST.SYNC p = 1 ∧ t.fld CK_PST.PSTATE p = 1 ∧ t.fld TM_PDELAY.VALID p = 0 ∧ t.fld TM_PDELAY.NMEAS p = 0
      ∧ Kept [CK_PST.SYNC.key p, CK_PST.PSTATE.key p, TM_PDELAY.VALID.key p, TM_PDELAY.NMEAS.key p] s t := by
  obtain ⟨hstate, hvalid, hcount, -, hkept⟩ := enterTrain_shows p (s.setFld CK_PST.SYNC p 1)
  refine ⟨?_, hstate, hvalid, hcount, ((Kept.setFld s _ p 1).mono (by simp)).trans (hkept.mono (by simp))⟩
  have hsync : CK_PST.SYNC.key p ∉ [CK_PST.PSTATE.key p, TM_PDELAY.VALID.key p, TM_PDELAY.NMEAS.key p] := by
    simp only [List.mem_cons, List.not_mem_nil, or_false, not_or]
    exact ⟨Field.key_ne_of_apart (by decide) p p, Field.key_ne_of_apart (by decide) p p, Field.key_ne_of_apart (by decide) p p⟩
  exact (hkept _ p hsync).trans (State.fld_setFld_self s CK_PST.SYNC p 1)

/-- From `s` to `t` only register fields and ports have changed. -/
def PortsOnly (s t : State) : Prop := t = { s with regs := t.regs, links := t.links }

theorem PortsOnly.refl (s : State) : PortsOnly s s := rfl

theorem PortsOnly.trans {s t u : State} (h : PortsOnly s t) (h' : PortsOnly t u) : PortsOnly s u := by
  have hsame : ({ t with regs := u.regs, links := u.links } : State) = { s with regs := u.regs, links := u.links } := by rw [h]
  exact Eq.trans h' hsame

theorem PortsOnly.setFld {s t : State} (h : PortsOnly s t) (f : Field) (i v : Nat) : PortsOnly s (t.setFld f i v) :=
  h.trans (u := t.setFld f i v) rfl

theorem PortsOnly.modLink {s t : State} (h : PortsOnly s t) (p : Nat) (f : PortSt → PortSt) : PortsOnly s (t.modLink p f) :=
  h.trans (u := t.modLink p f) rfl

theorem enterDown_portsOnly (p : Nat) {s t : State} (h : PortsOnly s t) : PortsOnly s (enterDown p t) :=
  ((((h.setFld _ p 0).modLink p _).setFld _ p 0).setFld _ p 0).setFld _ p 0

theorem enterDown_shows (p : Nat) (s : State) :
    let t := enterDown p s
    t.fld CK_PST.PSTATE p = 0 ∧ t.fld TM_PDELAY.VALID p = 0 ∧ t.fld TM_PDELAY.NMEAS p = 0 ∧ t.fld TM_PDELAY.DELAY p = 0
      ∧ t.fld CK_PST.SYNC p = s.fld CK_PST.SYNC p := by
  unfold enterDown
  dsimp only
  simp +decide only [State.fld_setFld_apart, State.fld_setFld_self, State.modLink_fld]

theorem linkDown_shows (p : Nat) (s : State) :
    let t := enterDown p (s.setFld CK_PST.SYNC p 0)
    t.fld CK_PST.SYNC p = 0 ∧ t.fld CK_PST.PSTATE p = 0 ∧ t.fld TM_PDELAY.VALID p = 0 ∧ t.fld TM_PDELAY.NMEAS p = 0
      ∧ t.fld TM_PDELAY.DELAY p = 0 ∧ t = { s with regs := t.regs, links := t.links } := by
  obtain ⟨hstate, hvalid, hcount, hdelay, hsync⟩ := enterDown_shows p (s.setFld CK_PST.SYNC p 0)
  exact ⟨hsync.trans (State.fld_setFld_self s CK_PST.SYNC p 0), hstate, hvalid, hcount, hdelay,
    enterDown_portsOnly p ((PortsOnly.refl s).setFld _ p 0)⟩

theorem exec_retrain {p : Fin 6} {s : State} (h : s.fld CK_PST.PSTATE p.val = 3) :
    exec (.retrain p) s = .next (enterTrain p.val (s.advanceTo (s.link p.val).retrainAt)) := if_pos h

/-! ### LINK_TRAINING (R274, R293) -/

/-- A port that has sent a training frame waits until a ms has passed since. -/
def paced (p : Nat) (s : State) : State :=
  match (s.link p).trainedAt with
  | some t => s.advanceTo (t + 125000)
  | none => s

/-- The port notes when it trains. -/
def trainStarted (p : Nat) (s : State) : State := (paced p s).modLink p (fun x => { x with trainedAt := some (paced p s).tb })

theorem paced_shows (p : Nat) (s : State) :
    let t := paced p s
    (∀ u, (s.link p).trainedAt = some u → u + 125000 ≤ t.tb) ∧ t.regs = s.regs ∧ t.time = s.time ∧ t.links = s.links ∧ t.mem = s.mem
      ∧ t.tables = s.tables := by
  unfold paced
  split
  · rename_i v hv
    refine ⟨fun u hu => ?_, State.advanceTo_regs _ _, State.advanceTo_time _ _, State.advanceTo_links _ _, State.advanceTo_mem _ _,
      State.advanceTo_tables _ _⟩
    obtain rfl := Option.some.inj (hv.symm.trans hu)
    rw [State.advanceTo_tb_eq]
    omega
  · rename_i hv
    exact ⟨fun u hu => absurd (hv.symm.trans hu) (by simp), rfl, rfl, rfl, rfl, rfl⟩

/-- The elements of a training frame: TSTAT, and ten bytes of the message due. -/
theorem trainingElems_fst (p : Nat) (s : State) :
    ∃ x : List Byte, x.length = 10 ∧ (trainingElems p s).1
      = elemBytes 1 1 (s.tstat ((s.portRing p).getD 0)) ++ elemBytes (if (s.link p).owed = [] then 4 else 5) 1 x := by
  refine ⟨(ptpMsg (if !(s.link p).owed.isEmpty then 3 else 2) 54 s).1.take 10, ?_, ?_⟩
  · rw [List.length_take, length_ptpMsg _ (by decide)]
    rfl
  · unfold trainingElems
    dsimp only
    cases (s.link p).owed <;> rfl

theorem length_trainingElems (p : Nat) (s : State) : (trainingElems p s).1.length = 26 := by
  obtain ⟨x, hx, heq⟩ := trainingElems_fst p s
  rw [heq, List.length_append, length_elemBytes, length_elemBytes, hx, State.tstat, length_leBytes]

/-- The response owed is answered, and free values are taken. -/
theorem trainingElems_snd (p : Nat) (s : State) : ∃ n, (trainingElems p s).2 = { answer p s with free := n } := by
  have hsnd : (trainingElems p s).2 = answer p (ptpMsg (if !(s.link p).owed.isEmpty then 3 else 2) 54 s).2 := rfl
  have hfree : ∀ n, answer p { s with free := n } = { answer p s with free := n } := fun _ => rfl
  exact ⟨_, by rw [hsnd, ptpMsg_frame, hfree]⟩

/-- The training frame of a port's elements: of its ring, or with free ring, PID and seed where it carries none. -/
def trainingSent (p : Nat) (e : List Byte × State) : State :=
  match (e.2.portRing p).bind (fun r => (e.2.prick r).map (fun k => (r, k))) with
  | some (r, k) => sendOn [p] (e.2.frameOf r k 4 0 0 64 e.1) e.2
  | none =>
    let a := e.2.fresh
    let b := a.2.fresh
    let c := b.2.fresh
    sendOn [p] (c.2.frameBytes (a.1 % 8) b.1 c.1 4 0 0 64 e.1) c.2

theorem exec_linkTraining {p : Fin 6} {s : State} (h : s.fld CK_PST.PSTATE p.val = 1) (hm : s.masked .dma = false) :
    exec (.linkTraining p) s = .next (trainingSent p.val (trainingElems p.val (trainStarted p.val s))) := by
  have hgo : ¬ (s.fld CK_PST.PSTATE p.val ≠ 1 || s.masked .dma) = true := by rw [hm, h]; decide
  have hsent : ∀ e : List Byte × State, (match (e.2.portRing p.val).bind (fun r => (e.2.prick r).map (fun k => (r, k))) with
      | some (r, k) => Host.Outcome.next (sendOn [p.val] (e.2.frameOf r k 4 0 0 64 e.1) e.2)
      | none =>
        let a := e.2.fresh
        let b := a.2.fresh
        let c := b.2.fresh
        .next (sendOn [p.val] (c.2.frameBytes (a.1 % 8) b.1 c.1 4 0 0 64 e.1) c.2) : Host.Outcome State Fault Refusal)
      = .next (trainingSent p.val e) := fun e => by
    unfold trainingSent
    split <;> rfl
  change execLinkTraining p s = _
  unfold execLinkTraining
  exact (if_neg hgo).trans (hsent _)

theorem trainingSent_of_ring {p r : Nat} {k : Prick} {e : List Byte × State} (hr : e.2.portRing p = some r) (hk : e.2.prick r = some k) :
    trainingSent p e = sendOn [p] (e.2.frameOf r k 4 0 0 64 e.1) e.2 := by
  unfold trainingSent
  rw [hr, Option.bind_some, hk]
  rfl

theorem trainingSent_of_none {p n : Nat} {l : List Byte} {t : State}
    (h : (State.portRing { t with free := n } p).bind (fun r => (State.prick { t with free := n } r).map (fun k => (r, k))) = none) :
    ∃ ring pid seed, trainingSent p (l, { t with free := n })
      = sendOn [p] (State.frameBytes { t with free := n + 3 } ring pid seed 4 0 0 64 l) { t with free := n + 3 } := by
  unfold trainingSent
  dsimp only
  rw [h]
  exact ⟨_, _, _, rfl⟩

/-- The state after a training frame `l` on port `p`, with free values taken up to `n`. -/
def trained (p n : Nat) (l : List Byte) (s : State) : State := sendOn [p] l { answer p s with free := n }

/-- A training frame of 64 bytes goes out on the port. -/
theorem trainingSent_cases (p : Nat) (s : State) :
    ∃ n l, trainingSent p (trainingElems p s) = trained p n l s ∧ l.length = 64
      ∧ ∀ r k, s.portRing p = some r → s.prick r = some k → l = s.frameOf r k 4 0 0 64 (trainingElems p s).1 := by
  have hlen := length_trainingElems p s
  obtain ⟨n, hn⟩ := trainingElems_snd p s
  generalize trainingElems p s = e at hlen hn
  obtain ⟨l, t⟩ := e
  dsimp only at hlen hn
  subst hn
  have hport : ∀ m, ({ answer p s with free := m } : State).portRing p = s.portRing p := fun m =>
    (State.portRing_free _ m p).trans (State.portRing_congr (fun _ _ => rfl) p)
  have hprick : ∀ m r, ({ answer p s with free := m } : State).prick r = s.prick r := fun m r =>
    (State.prick_free _ m r).trans (State.prick_congr (State.modLink_mem ..) (State.modLink_tables ..) r)
  cases hfind : (({ answer p s with free := n } : State).portRing p).bind (fun r =>
      (({ answer p s with free := n } : State).prick r).map (fun k => (r, k))) with
  | some rk =>
    obtain ⟨r, k⟩ := rk
    obtain ⟨r', hr, hmap⟩ := Option.bind_eq_some_iff.1 hfind
    obtain ⟨k', hk, hpair⟩ := Option.map_eq_some_iff.1 hmap
    obtain ⟨rfl, rfl⟩ := Prod.mk.inj hpair
    refine ⟨n, _, trainingSent_of_ring hr hk, State.length_frameOf _ _ _ _ _ _ (by rw [hlen]), fun r k hr' hk' => ?_⟩
    obtain rfl := Option.some.inj (hr.symm.trans ((hport n).trans hr'))
    obtain rfl := Option.some.inj (hk.symm.trans ((hprick n _).trans hk'))
    exact State.frameOf_congr (fun _ _ => rfl) rfl _ _ _ _ _ _ _
  | none =>
    obtain ⟨ring, pid, seed, hsent⟩ := trainingSent_of_none (l := l) hfind
    refine ⟨n + 3, _, hsent, State.length_frameBytes _ _ _ _ _ _ _ (by omega), fun r k hr hk => ?_⟩
    rw [hport, hr, Option.bind_some, hprick, hk] at hfind
    cases hfind

theorem trained_shows (p n : Nat) (l : List Byte) (s : State) :
    let t := trained p n l s
    t.shown = s.shown ∧ t.link p = { s.link p with owed := (s.link p).owed.drop 1 } ∧ Tab.get [] t.lines p = l :=
  ⟨rfl, (show (trained p n l s).link p = (answer p s).link p from rfl).trans (State.modLink_link_self s p _), Tab.get_set_self _ _ _ _⟩

/-- LINK_TRAINING: one training frame of 64 bytes, a ms after the last at the earliest (R293). -/
theorem linkTraining_sends {p : Fin 6} {s : State} (h : s.fld CK_PST.PSTATE p.val = 1) (hm : s.masked .dma = false) (r : Nat) (k : Prick) :
    ∃ t, exec (.linkTraining p) s = .next t
      ∧ (t.link p.val).trainedAt = some t.tb ∧ (t.link p.val).owed = (s.link p.val).owed.drop 1
      ∧ (∀ u, (s.link p.val).trainedAt = some u → u + 125000 ≤ t.tb)
      ∧ (s.portRing p.val = some r → s.prick r = some k →
        ∃ x, x.length = 10 ∧ Tab.get [] t.lines p.val = s.frameOf r k 4 0 0 64
          (elemBytes 1 1 (t.tstat r) ++ elemBytes (if (s.link p.val).owed = [] then 4 else 5) 1 x))
      ∧ (s.portRing p.val = none → (Tab.get [] t.lines p.val).length = 64) := by
  obtain ⟨hpace, hregs, htime, hlinks, hmem, htables⟩ := paced_shows p.val s
  have hlink : (trainStarted p.val s).link p.val = { s.link p.val with trainedAt := some (paced p.val s).tb } := by
    refine (State.modLink_link_self _ _ _).trans ?_
    rw [State.link, hlinks]
    rfl
  have hfld : ∀ (f : Field) (i : Nat), (trainStarted p.val s).fld f i = s.fld f i := fun f i =>
    congrArg (fun l : Tab Nat => Tab.get f.rst l (f.key i)) hregs
  have htb : (trainStarted p.val s).tb = (paced p.val s).tb := rfl
  have hport : (trainStarted p.val s).portRing p.val = s.portRing p.val := State.portRing_congr (fun f _ => hfld f 0) p.val
  have hprick : (trainStarted p.val s).prick r = s.prick r := State.prick_congr hmem htables r
  have hunit : (trainStarted p.val s).time = s.time := htime
  have hexec := exec_linkTraining h hm
  generalize trainStarted p.val s = u at hlink hfld htb hport hprick hunit hexec
  obtain ⟨n, l, hsent, hlen, hframe⟩ := trainingSent_cases p.val u
  obtain ⟨hshown, hlink', hline⟩ := trained_shows p.val n l u
  rw [hsent] at hexec
  generalize trained p.val n l u = t at hexec hshown hlink' hline
  have htb' : t.tb = (paced p.val s).tb := (State.tb_of_shown hshown).trans htb
  rw [hlink] at hlink'
  refine ⟨t, hexec, by rw [hlink', htb'], by rw [hlink'], fun v hv => htb' ▸ hpace v hv, fun hr hk => ?_, fun _ => by rw [hline, hlen]⟩
  obtain ⟨x, hx, helems⟩ := trainingElems_fst p.val u
  refine ⟨x, hx, ?_⟩
  rw [hline, hframe r k (hport.trans hr) (hprick.trans hk), helems, State.frameOf_congr hfld hunit, hport, hr, hlink, State.tstat_congr hshown]
  rfl

/-! ### PDELAY_REQ and PDELAY_RESP (R236, R242, R274) -/

theorem State.takesMsg_eq_true {s : State} {p dom : Nat} (h : s.fld CK_PST.PSTATE p ≠ 0) (hdom : dom = s.fld TM_PROF.DOMAIN) :
    s.takesMsg p dom = true := by
  rw [State.takesMsg, bne_iff_ne.2 h, beq_iff_eq.2 hdom]
  rfl

theorem State.takesMsg_eq_false {s : State} {dom : Nat} (hdom : dom ≠ s.fld TM_PROF.DOMAIN) (p : Nat) : s.takesMsg p dom = false := by
  rw [State.takesMsg, beq_eq_false_iff_ne.2 hdom, Bool.and_false]

theorem exec_pdelayReq (p : DelayIn) (s : State) :
    exec (.pdelayReq p) s = if s.takesMsg p.port.val p.dom.toNat then
      .next (s.modLink p.port.val (fun x => { x with owed := x.owed ++ [s.tb] })) else .next s := rfl

theorem exec_pdelayResp (p : DelayIn) (d : BitVec 16) (s : State) :
    exec (.pdelayResp p d) s = if s.takesMsg p.port.val p.dom.toNat then .next (pdMeasure p.port.val d.toNat s) else .next s := rfl

/-- The distance of a delay from the link's, as the port computes it. -/
theorem dist_eq_natAbs (d n : Nat) : (if d < n then n - d else d - n) = ((d : Int) - n).natAbs := by
  split <;> omega

theorem settlePort_of_near {p : Nat} {s : State} (h : s.fld CK_PST.PSTATE p = 1) (hv : s.fld TM_PDELAY.VALID p = 1)
    (hnear : ((s.fld TM_PDELAY.DELAY p : Int) - (s.fld CK_PST.LINKD p * 16 : Nat)).natAbs ≤ s.linkTol p) :
    settlePort p s = s.setFld CK_PST.PSTATE p 2 := by
  have hgo : (s.fld CK_PST.PSTATE p = 1 && s.isSet TM_PDELAY.VALID p) = true := by
    rw [State.isSet, h, hv]
    rfl
  unfold settlePort
  rw [if_pos hgo]
  exact if_pos ((dist_eq_natAbs _ _).trans_le hnear)

/-- The port enters ERROR, and retrains 1 s later (R293). -/
def linkFailed (p : Nat) (s : State) : State :=
  ((s.setFld CK_PST.PSTATE p 3).modLink p (fun x => { x with retrainAt := s.tb + 125000000 })).flag CK_STATUS.LINKERR evCK

theorem settlePort_of_far {p : Nat} {s : State} (h : s.fld CK_PST.PSTATE p = 1) (hv : s.fld TM_PDELAY.VALID p = 1)
    (hfar : s.linkTol p < ((s.fld TM_PDELAY.DELAY p : Int) - (s.fld CK_PST.LINKD p * 16 : Nat)).natAbs) :
    settlePort p s = linkFailed p s := by
  have hgo : (s.fld CK_PST.PSTATE p = 1 && s.isSet TM_PDELAY.VALID p) = true := by
    rw [State.isSet, h, hv]
    rfl
  unfold settlePort
  rw [if_pos hgo]
  exact if_neg (by rw [dist_eq_natAbs]; omega)

@[simp] theorem State.flag_links (s : State) (f : Field) (e : Nat) : (s.flag f e).links = s.links := by rw [State.flag_frame]

theorem KeptBut.modLink {fs : List Field} {s t : State} (h : KeptBut fs s t) (p : Nat) (f : PortSt → PortSt) : KeptBut fs s (t.modLink p f) := h

theorem linkFailed_shows (p : Nat) (s : State) :
    let t := linkFailed p s
    t.fld CK_PST.PSTATE p = 3 ∧ t.fld CK_STATUS.LINKERR = 1 ∧ (t.link p).retrainAt = t.tb + 125000000
      ∧ KeptBut [CK_PST.PSTATE, CK_STATUS.LINKERR] s t := by
  have hlink : (linkFailed p s).link p = { s.link p with retrainAt := s.tb + 125000000 } :=
    Eq.trans (by rw [State.link, linkFailed, State.flag_links]; rfl)
      (State.modLink_link_self (s.setFld CK_PST.PSTATE p 3) p (fun x => { x with retrainAt := s.tb + 125000000 }))
  have htb : (linkFailed p s).tb = s.tb := State.flag_tb _ _ _
  refine ⟨?_, State.fld_flag_self _ CK_STATUS.LINKERR evCK, by rw [hlink, htb], ?_⟩
  · exact (State.fld_flag_apart (by decide) evCK p _).trans (State.fld_setFld_self s CK_PST.PSTATE p 3)
  · exact (((KeptBut.refl _ s).setFld (f := CK_PST.PSTATE) (by decide) p 3).modLink p _).flag (f := CK_STATUS.LINKERR) (by decide) evCK

/-- The tolerance of a port goes by its ring and that ring's table. -/
theorem State.linkTol_congr {s t : State} (h : ∀ f ∈ [CK_RING.VALID, CK_RING.FIELD, CK_RING2.VALID], t.fld f = s.fld f) (hm : t.mem = s.mem)
    (ht : t.tables = s.tables) (p : Nat) : t.linkTol p = s.linkTol p := by
  have hprick : t.prick = s.prick := funext (State.prick_congr hm ht)
  rw [State.linkTol, State.linkTol, State.portRing_congr h, hprick]

/-- The port's record of one more measurement `d`, whose mean over the last four is `m` (R242). -/
def delayNoted (p d m : Nat) (s : State) : State :=
  let t := s.modLink p (fun x => { x with meas := (d :: x.meas).take 4 })
  ((t.setFld TM_PDELAY.NMEAS p (min 7 (s.fld TM_PDELAY.NMEAS p + 1))).setFld TM_PDELAY.DELAY p m).setFld TM_PDELAY.VALID p 1

/-- With three measurements before it, a measurement gives the mean of four. -/
theorem pdMeasure_of_four {p d b c e : Nat} {more : List Nat} {s : State} (h : (s.link p).meas = b :: c :: e :: more)
    (hn : 3 ≤ s.fld TM_PDELAY.NMEAS p) :
    ∃ all, pdMeasure p d s
      = settlePort p (onlyIf all (State.modTime (fun t => { t with remeasure := false })) (delayNoted p d ((d + b + c + e) / 4) s)) := by
  have hmeas : ((s.modLink p (fun x => { x with meas := (d :: x.meas).take 4 })).link p).meas = [d, b, c, e] := by
    rw [State.modLink_link_self, h]
    rfl
  have hmean : [d, b, c, e].foldl (· + ·) 0 / 4 = (d + b + c + e) / 4 := by simp
  have hcount : ∀ t : State, decide (4 ≤ ((t.setFld TM_PDELAY.NMEAS p (min 7 (s.fld TM_PDELAY.NMEAS p + 1))).setFld TM_PDELAY.DELAY p
      ((d + b + c + e) / 4)).fld TM_PDELAY.NMEAS p) = true := fun t => decide_eq_true (by
    rw [State.fld_setFld_apart (by decide), State.fld_setFld_lt (by rw [show TM_PDELAY.NMEAS.w = 3 from rfl]; omega)]
    omega)
  unfold pdMeasure
  dsimp only
  rw [hmeas, State.modLink_fld, if_pos (show [d, b, c, e].length = 4 from rfl), hmean, hcount, onlyIf_true]
  exact ⟨_, rfl⟩

/-- In `t` port `p` has `s`'s registers and tables but for the valid delay `m`. -/
structure Measured (p m : Nat) (s t : State) : Prop where
  delay : t.fld TM_PDELAY.DELAY p = m
  valid : t.fld TM_PDELAY.VALID p = 1
  kept : KeptBut [TM_PDELAY.NMEAS, TM_PDELAY.DELAY, TM_PDELAY.VALID] s t
  mem : t.mem = s.mem
  tables : t.tables = s.tables

theorem Measured.modTime {p m : Nat} {s t : State} (h : Measured p m s t) (f : TimeSt → TimeSt) : Measured p m s (t.modTime f) :=
  ⟨h.delay, h.valid, h.kept.modTime f, h.mem, h.tables⟩

theorem Measured.linkTol {p m : Nat} {s t : State} (h : Measured p m s t) : t.linkTol p = s.linkTol p := by
  have hring : [CK_RING.VALID, CK_RING.FIELD, CK_RING2.VALID].all (fun f =>
      [TM_PDELAY.NMEAS, TM_PDELAY.DELAY, TM_PDELAY.VALID].all (fun g => g.apart f)) = true := by decide
  exact State.linkTol_congr (fun f hf => h.kept f (List.all_eq_true.1 hring f hf) 0) h.mem h.tables p

theorem delayNoted_measured {m : Nat} (hm : m < 2 ^ 16) (p d : Nat) (s : State) : Measured p m s (delayNoted p d m s) where
  delay := (State.fld_setFld_apart (by decide) _ _ _ _).trans (State.fld_setFld_lt (f := TM_PDELAY.DELAY) hm p _)
  valid := State.fld_setFld_self _ TM_PDELAY.VALID p 1
  kept := (((((KeptBut.refl _ s).modLink p _).setFld (f := TM_PDELAY.NMEAS) (by decide) _ _).setFld (f := TM_PDELAY.DELAY) (by decide) _ _).setFld
      (f := TM_PDELAY.VALID) (by decide) _ _)
  mem := rfl
  tables := rfl

/-- A port that is not in TRAIN keeps its state. -/
theorem settlePort_of_settled {p : Nat} {s : State} (h : s.fld CK_PST.PSTATE p ≠ 1) : settlePort p s = s := by
  unfold settlePort
  rw [decide_eq_false h, Bool.false_and]
  rfl

/-- A training port whose delay is valid joins or fails by its distance from the link's; either way the measurement stands. -/
theorem settlePort_shows {p m : Nat} {s : State} (hd : s.fld TM_PDELAY.DELAY p = m) (hv : s.fld TM_PDELAY.VALID p = 1) :
    let t := settlePort p s
    let dist := ((m : Int) - (s.fld CK_PST.LINKD p * 16 : Nat)).natAbs
    t.fld TM_PDELAY.DELAY p = m ∧ t.fld TM_PDELAY.VALID p = 1
      ∧ (s.fld CK_PST.PSTATE p = 1 → dist ≤ s.linkTol p → t.fld CK_PST.PSTATE p = 2)
      ∧ (s.fld CK_PST.PSTATE p = 1 → s.linkTol p < dist →
          t.fld CK_PST.PSTATE p = 3 ∧ t.fld CK_STATUS.LINKERR = 1 ∧ (t.link p).retrainAt = t.tb + 125000000) := by
  subst hd
  by_cases h : s.fld CK_PST.PSTATE p = 1
  · rcases Nat.lt_or_ge (s.linkTol p) ((s.fld TM_PDELAY.DELAY p : Int) - (s.fld CK_PST.LINKD p * 16 : Nat)).natAbs with hfar | hnear
    · obtain ⟨hstate, herr, hretrain, hkept⟩ := linkFailed_shows p s
      rw [settlePort_of_far h hv hfar]
      exact ⟨hkept TM_PDELAY.DELAY (by decide) p, (hkept TM_PDELAY.VALID (by decide) p).trans hv,
        fun _ hnear => absurd hfar (Nat.not_lt.2 hnear), fun _ _ => ⟨hstate, herr, hretrain⟩⟩
    · rw [settlePort_of_near h hv hnear]
      exact ⟨State.fld_setFld_apart (by decide) _ _ _ _, (State.fld_setFld_apart (by decide) _ _ _ _).trans hv,
        fun _ _ => State.fld_setFld_self s CK_PST.PSTATE p 2, fun _ hfar => absurd hfar (Nat.not_lt.2 hnear)⟩
  · rw [settlePort_of_settled h]
    exact ⟨rfl, hv, fun h' => absurd h' h, fun h' => absurd h' h⟩

/-- PDELAY_RESP after three measurements: the mean of four stands, and a training port joins or fails by it (R242, R293). -/
theorem pdMeasure_shows {p d b c e : Nat} {more : List Nat} {s : State} (h : (s.link p).meas = b :: c :: e :: more)
    (hn : 3 ≤ s.fld TM_PDELAY.NMEAS p) (hm : (d + b + c + e) / 4 < 2 ^ 16) :
    let t := pdMeasure p d s
    let dist := ((((d + b + c + e) / 4 : Nat) : Int) - (s.fld CK_PST.LINKD p * 16 : Nat)).natAbs
    t.fld TM_PDELAY.DELAY p = (d + b + c + e) / 4 ∧ t.fld TM_PDELAY.VALID p = 1
      ∧ (s.fld CK_PST.PSTATE p = 1 → dist ≤ s.linkTol p → t.fld CK_PST.PSTATE p = 2)
      ∧ (s.fld CK_PST.PSTATE p = 1 → s.linkTol p < dist →
          t.fld CK_PST.PSTATE p = 3 ∧ t.fld CK_STATUS.LINKERR = 1 ∧ (t.link p).retrainAt = t.tb + 125000000) := by
  obtain ⟨all, heq⟩ := pdMeasure_of_four (d := d) h hn
  have hw := onlyIf_keeps (P := Measured p _ s) (f := State.modTime (fun t => { t with remeasure := false })) all (fun _ ht => ht.modTime _)
    (delayNoted_measured hm p d s)
  generalize onlyIf all (State.modTime (fun t => { t with remeasure := false })) (delayNoted p d ((d + b + c + e) / 4) s) = w at heq hw
  rw [heq, ← hw.kept CK_PST.LINKD (by decide) p, ← hw.kept CK_PST.PSTATE (by decide) p, ← hw.linkTol]
  exact settlePort_shows hw.delay hw.valid

/-- Settles O26, clause by clause from what each command leaves on its port. -/
theorem portsTrainAndJoin : Obligations.PortsTrainAndJoin := by
  unfold Obligations.PortsTrainAndJoin
  intro s p dom d r k b c e more
  refine ⟨fun hen h => ⟨_, exec_linkUp hen h, linkUp_shows p.val s⟩, ⟨_, rfl, linkDown_shows p.val s⟩,
    fun h hm => linkTraining_sends h hm r k, fun h => ?retrain, fun h hdom => ?req, fun hdom => ⟨?reqOther, ?respOther⟩,
    fun h hdom hmeas hb hc he hn => ?resp⟩
  case retrain =>
    obtain ⟨hstate, hvalid, -, htb, -⟩ := enterTrain_shows p.val (s.advanceTo (s.link p.val).retrainAt)
    exact ⟨_, exec_retrain h, hstate, hvalid, htb.trans (State.advanceTo_tb_eq _ _)⟩
  case req => exact (exec_pdelayReq _ s).trans (if_pos (State.takesMsg_eq_true h hdom))
  case reqOther => rw [exec_pdelayReq, State.takesMsg_eq_false hdom]; rfl
  case respOther => rw [exec_pdelayResp, State.takesMsg_eq_false hdom]; rfl
  case resp =>
    have hd := d.isLt
    exact ⟨_, (exec_pdelayResp _ d s).trans (if_pos (State.takesMsg_eq_true h hdom)), pdMeasure_shows hmeas hn (by omega)⟩

end Sys2Proof.Machine
end

section
/-! PROOFS. Schedules and ready buffers (07 R279, R280, R285, R303). -/

namespace Sys2Proof.Machine

/-! ### A write of CK_CTRL (Table CK-17) -/

theorem of_ckCtrl (v : Word) (run : Bool) :
    CK_CTRL.ETYPE.of (putBit v.toNat 0 run) = v.toNat / 2 ^ 16 ∧ CK_CTRL.RUN.of (putBit v.toNat 0 run) = bit run := by
  have hv := v.isLt
  have hetype : CK_CTRL.ETYPE.of v.toNat = v.toNat / 2 ^ 16 :=
    Nat.mod_eq_of_lt (show v.toNat / 2 ^ 16 < 2 ^ 16 by omega)
  exact ⟨(Field.of_putBit (f := CK_CTRL.ETYPE) (by decide) v.toNat run).trans hetype,
    Field.of_putBit_self (f := CK_CTRL.RUN) rfl v.toNat run⟩

/-- A voted write of CK_CTRL is refused for its ETYPE, or the schedule starts or stops under it. -/
theorem ckCtrl_hw (v : Word) (run : Bool) (s : State) :
    ckCtrl .hw (putBit v.toNat 0 run) s
      = if v.toNat / 2 ^ 16 < 0x600 ∨ (s.fld CK_CTRL.RUN = 1 ∧ v.toNat / 2 ^ 16 ≠ s.fld CK_CTRL.ETYPE) then s.flag CK_STATUS.CFGERR evCK
        else if run then if s.fld CK_CTRL.RUN = 1 then s.setFld CK_CTRL.ETYPE 0 (v.toNat / 2 ^ 16)
          else scheduleStart (s.setFld CK_CTRL.ETYPE 0 (v.toNat / 2 ^ 16))
        else if s.fld CK_CTRL.RUN = 1 then scheduleStop (s.setFld CK_CTRL.ETYPE 0 (v.toNat / 2 ^ 16))
          else s.setFld CK_CTRL.ETYPE 0 (v.toNat / 2 ^ 16) := by
  obtain ⟨hetype, hrun⟩ := of_ckCtrl v run
  unfold ckCtrl
  rw [hetype, hrun]
  cases run <;> simp [Req.voted, State.isSet, bit]

theorem exec_scheduleStart_hw {s : State} (h : s.canVote = true) (v : Word) :
    exec (.scheduleStart .hw v) s = .next (ckCtrl .hw (putBit v.toNat 0 true) s) := asReq_hw h _

theorem exec_scheduleStop_hw {s : State} (h : s.canVote = true) (v : Word) :
    exec (.scheduleStop .hw v) s = .next (ckCtrl .hw (putBit v.toNat 0 false) s) := asReq_hw h _

/-! ### The node states of both rings -/

/-- The fields that a change of the node states writes. -/
def nodesFields : List Field := [CK_NODEST.STATE, CK_NODEST.OPEN, CK_NODEST2.STATE, CK_NODEST2.OPEN, CK_STATUS.STCHG]

theorem nodeFields_subset (r : Nat) : nodeFields r ⊆ nodesFields := by
  unfold nodeFields nsState nsOpen
  split <;> decide

theorem nodeFields_apart_nsState {r j : Nat} (h : nsState j ≠ nsState r) : (nodeFields r).all (fun f => f.apart (nsState j)) = true := by
  unfold nodeFields nsOpen
  unfold nsState at h ⊢
  by_cases hj : j = 0
  · rw [if_pos hj] at h ⊢
    by_cases hr : r = 0
    · exact absurd (if_pos hr).symm h
    · rw [if_neg hr, if_neg hr]
      decide
  · rw [if_neg hj] at h ⊢
    by_cases hr : r = 0
    · rw [if_pos hr, if_pos hr]
      decide
    · exact absurd (if_neg hr).symm h

theorem nodeTold_frame (r v : Nat) (s : State) :
    let t := nodeTold r v s
    t = { s with regs := t.regs, engines := t.engines, cores := t.cores } := by
  unfold nodeTold
  dsimp only
  rw [State.flag_frame]
  rfl

/-- A node that enters another state than ACTIVE. -/
theorem setNode_shows {v : Nat} (hv : v < 8) (h4 : v ≠ 4) (r : Nat) (s : State) :
    let t := setNode r v s
    t.node r = v ∧ KeptBut (nodeFields r) s t ∧ t.frames = s.frames ∧ ∀ j, j ≠ r → t.ring j = s.ring j := by
  by_cases h : s.node r = v
  · rw [setNode_of_eq h]
    exact ⟨h, KeptBut.refl _ s, rfl, fun _ _ => rfl⟩
  · obtain ⟨hnode, -, hkept, -, -⟩ := nodeLeft_shows hv r s
    have hframes : (nodeTold r v s).frames = s.frames := by rw [nodeTold_frame]
    have hrings : (nodeTold r v s).rings = s.rings := by rw [nodeTold_frame]
    rw [setNode_eq h4 h]
    exact ⟨hnode, hkept, hframes, fun j hj => (State.modRing_ring_ne _ _ _ _ hj).trans (congrArg (Tab.get RingSt.reset · j) hrings)⟩

/-- What an iteration over the rings sets in one ring's node state, as long as it sets every other's alike. -/
theorem forEach_node {f : Nat → State → State} {v : Nat} (hf : ∀ r s, (f r s).node r = v ∧ KeptBut (nodeFields r) s (f r s))
    {l : List Nat} {r : Nat} (hr : r ∈ l) (s : State) : (forEach l f s).node r = v := by
  refine forEach_establishes (P := fun t => t.node r = v) hr (fun t => (hf r t).1) (fun y t ht => ?_) s
  by_cases h : nsState r = nsState y
  · rw [State.node, h]
    exact (hf y t).1
  · exact ((hf y t).2 _ (nodeFields_apart_nsState h) 0).trans ht

theorem forEach_nodesKept {f : Nat → State → State} (hf : ∀ r s, KeptBut (nodeFields r) s (f r s)) (l : List Nat) (s : State) :
    KeptBut nodesFields s (forEach l f s) :=
  forEach_keeps (P := KeptBut nodesFields s) l (fun r _ t ht => ht.trans ((hf r t).mono (nodeFields_subset r))) (KeptBut.refl _ s)

/-! ### SCHEDULE_START (R279) -/

/-- The Footside has its copy of a ring's slots, and the node listens there. -/
def ringStarted (r : Nat) (s : State) : State := enterListen r (loadCopy r s)

theorem loadCopy_fld (r : Nat) (s : State) (f : Field) (i : Nat) : (loadCopy r s).fld f i = s.fld f i := by
  unfold loadCopy
  split <;> rfl

theorem ringStarted_shows (r : Nat) (s : State) : (ringStarted r s).node r = 1 ∧ KeptBut (nodeFields r) s (ringStarted r s) := by
  obtain ⟨hnode, hkept, -, -⟩ := setNode_shows (v := 1) (by decide) (by decide) r (loadCopy r s)
  have hcopy : KeptBut (nodeFields r) s (loadCopy r s) := fun g _ j => loadCopy_fld r s g j
  exact ⟨hnode, hcopy.trans hkept⟩

/-- RUN is set, and the check-value units CV0 to CV5 belong to Carrik (11 R457). -/
def unitsTaken (s : State) : State :=
  onlyIf (!((List.range 6).filter (fun u => (s.cv u).owner.isSome)).isEmpty) (State.setFld CV_STATUS.OWNBRK 0 1)
    (forEach (List.range 6) (fun u => State.modCv u (fun _ => CvUnit.reset)) (s.setFld CK_CTRL.RUN 0 1))

/-- The checks that a schedule passes before it starts (R279). -/
def State.fitsSchedule (s : State) : Bool := s.myRings.all (fun r => s.prickOk r) && s.txOk && s.rxOk

theorem scheduleStart_fits {s : State} (h : s.fitsSchedule = true) :
    scheduleStart s = forEach (unitsTaken s).myRings ringStarted ((unitsTaken s).setFld CK_COLD.ATTEMPT 0 0) := by
  obtain ⟨hfirst, hrx⟩ := Bool.and_eq_true_iff.1 h
  unfold scheduleStart
  rw [if_neg (by rw [hfirst]; decide), if_neg (by rw [hrx]; decide)]
  rfl

/-- A schedule that fails a check is recorded at stage 2, under FITERR. -/
theorem scheduleStart_fails {s : State} (h : s.fitsSchedule = false) :
    ∃ code item kind, scheduleStart s = recordFit code 2 item kind (s.flag CK_STATUS.FITERR evCK) := by
  unfold State.fitsSchedule at h
  unfold scheduleStart
  cases hfirst : s.myRings.all (fun r => s.prickOk r) && s.txOk
  · exact ⟨11, _, 7, rfl⟩
  · rw [hfirst, Bool.true_and] at h
    rw [h]
    exact ⟨12, 0, 0, rfl⟩

theorem unitsTaken_shows (s : State) :
    (unitsTaken s).fld CK_CTRL.RUN = 1 ∧ KeptBut [CK_CTRL.RUN, CV_STATUS.OWNBRK] s (unitsTaken s) := by
  have hcv : ∀ (f : Field) (i : Nat) (t : State), (forEach (List.range 6) (fun u => State.modCv u (fun _ => CvUnit.reset)) t).fld f i = t.fld f i :=
    fun f i => forEach_frame (g := fun t => t.fld f i) _ (fun _ _ _ => State.modCv_fld _ _ _ _ _)
  have hunits : KeptBut [CK_CTRL.RUN, CV_STATUS.OWNBRK] s
      (forEach (List.range 6) (fun u => State.modCv u (fun _ => CvUnit.reset)) (s.setFld CK_CTRL.RUN 0 1)) :=
    fun g hg j => (hcv g j _).trans ((KeptBut.refl _ s).setFld (by decide) 0 1 g hg j)
  refine ⟨?_, onlyIf_keeps (P := KeptBut _ s) _ (fun t ht => ht.setFld (by decide) 0 1) hunits⟩
  exact (fld_onlyIf_setFld_apart (by decide) _ 0 1 0 _).trans ((hcv _ 0 _).trans (State.fld_setFld_self s CK_CTRL.RUN 0 1))

theorem State.joined_of_kept {fs : List Field} {s t : State} (h : KeptBut fs s t)
    (hfs : [CK_RING.VALID, CK_RING2.VALID].all (fun g => fs.all (fun f => f.apart g)) = true) (r : Nat) : t.joined r = s.joined r := by
  obtain ⟨hhome, hsecond⟩ := Bool.and_eq_true_iff.1 hfs
  unfold State.joined State.isSet
  rw [h _ hhome 0, h _ (Bool.and_eq_true_iff.1 hsecond).1 0]

theorem State.mem_myRings {s : State} {r : Nat} (hr : r < 2) (h : s.joined r = true) : r ∈ s.myRings :=
  List.mem_filter.2 ⟨by interval_cases r <;> decide, h⟩

/-- A schedule that passes its checks runs, its attempts counted anew, and the node listens in every joined ring. -/
theorem scheduleStart_runs {s : State} (h : s.fitsSchedule = true) :
    let t := scheduleStart s
    t.fld CK_CTRL.RUN = 1 ∧ t.fld CK_CTRL.ETYPE = s.fld CK_CTRL.ETYPE ∧ t.fld CK_COLD.ATTEMPT = 0
      ∧ ∀ r, r < 2 → s.joined r = true → t.node r = 1 := by
  obtain ⟨hrun, hunits⟩ := unitsTaken_shows s
  have hjoined := State.joined_of_kept hunits (by decide)
  rw [scheduleStart_fits h]
  generalize unitsTaken s = u at hrun hunits hjoined
  have hrings := forEach_nodesKept (fun r t => (ringStarted_shows r t).2) u.myRings (u.setFld CK_COLD.ATTEMPT 0 0)
  refine ⟨?_, ?_, ?_, fun r hr hj => forEach_node ringStarted_shows (State.mem_myRings hr ((hjoined r).trans hj)) _⟩
  · exact (hrings _ (by decide) 0).trans ((State.fld_setFld_apart (by decide) _ _ _ _).trans hrun)
  · exact (hrings _ (by decide) 0).trans ((State.fld_setFld_apart (by decide) _ _ _ _).trans (hunits _ (by decide) 0))
  · exact (hrings _ (by decide) 0).trans (State.fld_setFld_self u CK_COLD.ATTEMPT 0 0)

/-- The fields that a failed fit check writes (16 R571). -/
def fitFields : List Field := [RB_FIT.CODE, RB_FIT.STAGE, RB_FIT.ITEM, RB_STATUS.FITREF]

theorem appendLog_fld (n base size word detail : Nat) (s : State) (f : Field) (i : Nat) :
    (appendLog n base size word detail s).fld f i = s.fld f i := by
  have hwr : ∀ (k v : Nat) (t : State), (t.wrW k v).regs = t.regs := fun k v t => by rw [State.wrW, State.wr_frame]
  have hregs : (appendLog n base size word detail s).regs = s.regs := by
    unfold appendLog
    dsimp only
    rw [hwr, hwr, hwr, hwr]
  unfold State.fld
  rw [hregs]

theorem recordFit_kept (code stage item kind : Nat) (s : State) : KeptBut fitFields s (recordFit code stage item kind s) := by
  have hfit : KeptBut fitFields s (((s.setFld RB_FIT.CODE 0 code).setFld RB_FIT.STAGE 0 stage).setFld RB_FIT.ITEM 0 item) :=
    (((KeptBut.refl _ s).setFld (by decide) 0 code).setFld (by decide) 0 stage).setFld (by decide) 0 item
  unfold recordFit
  refine onlyIf_keeps (P := KeptBut fitFields s) _ (fun t ht => ht.flag (by decide) evRB) ?_
  exact hfit.trans (fun g _ j => appendLog_fld _ _ _ _ _ _ g j)

theorem scheduleStart_stays {s : State} (h : s.fitsSchedule = false) :
    let t := scheduleStart s
    t.fld CK_STATUS.FITERR = 1 ∧ KeptBut (CK_STATUS.FITERR :: fitFields) s t := by
  obtain ⟨code, item, kind, heq⟩ := scheduleStart_fails h
  have hkept := recordFit_kept code 2 item kind (s.flag CK_STATUS.FITERR evCK)
  rw [heq]
  exact ⟨(hkept _ (by decide) 0).trans (State.fld_flag_self _ _ _),
    ((KeptBut.refl _ s).flag (by decide) evCK).trans (hkept.mono (List.subset_cons_self _ _))⟩

/-! ### SCHEDULE_STOP (R285) -/

/-- Transmissions cut off, what the frames carry given back, RUN cleared. -/
def scheduleCut (s : State) : State :=
  let t := forEach [0, 1] (fun r t => if (t.ring r).tx.any (fun x => decide (t.tb < x.ends)) then cutOff r t else t) s
  { (forEach t.frames giveBack t).setFld CK_CTRL.RUN 0 0 with frames := [] }

/-- The node is OFF in a ring, with no timer and no transmission. -/
def ringStopped (r : Nat) (s : State) : State := (setNode r 0 s).modRing r (fun x => { x with listenAt := none, tx := none })

theorem scheduleStop_eq (s : State) : scheduleStop s = ringStopped 1 (ringStopped 0 (scheduleCut s)) := rfl

theorem ringStopped_shows (r : Nat) (s : State) :
    let t := ringStopped r s
    t.node r = 0 ∧ (t.ring r).tx = none ∧ KeptBut (nodeFields r) s t ∧ t.frames = s.frames ∧ ∀ j, j ≠ r → t.ring j = s.ring j := by
  obtain ⟨hnode, hkept, hframes, hrings⟩ := setNode_shows (v := 0) (by decide) (by decide) r s
  unfold ringStopped
  refine ⟨hnode, ?_, hkept, hframes, fun j hj => (State.modRing_ring_ne _ _ _ _ hj).trans (hrings j hj)⟩
  rw [State.modRing_ring_self]

theorem scheduleStop_shows (s : State) :
    let t := scheduleStop s
    t.fld CK_CTRL.RUN = 0 ∧ t.node 0 = 0 ∧ t.node 1 = 0 ∧ t.frames = [] ∧ (t.ring 0).tx = none ∧ (t.ring 1).tx = none := by
  have hrun : (scheduleCut s).fld CK_CTRL.RUN = 0 := State.fld_setFld_self _ CK_CTRL.RUN 0 0
  have hnone : (scheduleCut s).frames = [] := rfl
  rw [scheduleStop_eq]
  generalize scheduleCut s = u at hrun hnone
  obtain ⟨hnode0, htx0, hkept0, hframes0, -⟩ := ringStopped_shows 0 u
  obtain ⟨hnode1, htx1, hkept1, hframes1, hrings1⟩ := ringStopped_shows 1 (ringStopped 0 u)
  refine ⟨?_, ?_, hnode1, hframes1.trans (hframes0.trans hnone), ?_, htx1⟩
  · exact (hkept1 _ (by decide) 0).trans ((hkept0 _ (by decide) 0).trans hrun)
  · exact (hkept1 _ (by decide) 0).trans hnode0
  · rw [hrings1 0 (by decide)]
    exact htx0

/-! ### TX_READY and SUMMARY_READY (R280, R303) -/

/-- The ready bits that a written value marks: those of own slots and trains. -/
def State.marks (s : State) (v : Nat) : List Nat :=
  (List.range 18).filter (fun i => v.testBit i && (if i < 8 then decide (i < s.homeSlots) else if i < 16 then decide (i - 8 < s.bridgedSlots)
    else s.hasTrain (i - 16)))

theorem ckTxrdy_hw (v : Nat) (s : State) : ckTxrdy .hw v s = forEach (s.marks v) markReady s := rfl

theorem State.nodup_marks (s : State) (v : Nat) : (s.marks v).Nodup := List.nodup_range.filter _

theorem State.mem_marks_slot (s : State) (v : Nat) {j : Nat} (hj : j < 8) : j ∈ s.marks v ↔ v.testBit j = true ∧ j < s.homeSlots := by
  simp [State.marks, hj, show j < 18 by omega]

theorem exec_txReady_hw {s : State} (h : s.canVote = true) (v : Word) :
    exec (.txReady .hw v) s = .next (forEach (s.marks (v.toNat % 65536)) markReady s) :=
  (asReq_hw h _).trans (congrArg Host.Outcome.next (ckTxrdy_hw _ s))

theorem exec_summaryReady_hw {s : State} (h : s.canVote = true) (v : Word) :
    exec (.summaryReady .hw v) s = .next (forEach (s.marks (v.toNat / 65536 % 4 * 65536)) markReady s) :=
  (asReq_hw h _).trans (congrArg Host.Outcome.next (ckTxrdy_hw _ s))

/-- A mark changes the ready buffers and the registers. -/
theorem markReady_frame (i : Nat) (s : State) :
    let t := markReady i s
    t = { s with regs := t.regs, ready := t.ready } := by
  unfold markReady
  dsimp only
  (repeat' split) <;> rfl

/-- The NEXT buffer is marked before the marks of a close in this TU. -/
theorem markReady_ready (i : Nat) (s : State) :
    (markReady i s).ready = Tab.set [] s.ready i
      ((s.txNext i, s.tb) :: ((Tab.get [] s.ready i).filter (fun x => decide (x.2 < s.tb))).take 1) := by
  unfold markReady
  dsimp only
  (repeat' split) <;> rfl

/-- The buffers marked ready under bit `j`, and the buffer of own slot `j` that is next. -/
def State.slotMarks (j : Nat) (s : State) : List (Nat × Nat) × Bool := (Tab.get [] s.ready j, s.fbit CK_TXST.NEXT j)

/-- A mark of another slot or train leaves a slot of the home ring. -/
theorem markReady_slotMarks_ne {i j : Nat} (hj : j < 8) (h : i ≠ j) (s : State) : (markReady i s).slotMarks j = s.slotMarks j := by
  have hready : Tab.get [] (markReady i s).ready j = Tab.get [] s.ready j := by
    rw [markReady_ready]
    exact Tab.get_set_ne _ _ _ _ (Ne.symm h)
  have hnext : (markReady i s).fbit CK_TXST.NEXT j = s.fbit CK_TXST.NEXT j := by
    unfold markReady
    dsimp only
    split
    · exact (State.fbit_putFbit _ CK_TXST.NEXT 0 i _ (show j < 8 from hj)).trans (if_neg (Ne.symm h))
    · (repeat' split) <;> exact congrArg (Nat.testBit · j) (State.fld_setFld_apart (by decide) _ _ _ _)
  exact Prod.ext hready hnext

/-- A mark of an own slot of the home ring hands over its NEXT buffer and moves NEXT to the other. -/
theorem markReady_slotMarks {j : Nat} (hj : j < 8) (s : State) :
    (markReady j s).slotMarks j
      = ((bit (s.fbit CK_TXST.NEXT j), s.tb) :: ((Tab.get [] s.ready j).filter (fun x => decide (x.2 < s.tb))).take 1,
         !s.fbit CK_TXST.NEXT j) := by
  have htx : s.txNext j = bit (s.fbit CK_TXST.NEXT j) := if_pos hj
  have hready : Tab.get [] (markReady j s).ready j
      = (bit (s.fbit CK_TXST.NEXT j), s.tb) :: ((Tab.get [] s.ready j).filter (fun x => decide (x.2 < s.tb))).take 1 := by
    rw [markReady_ready, Tab.get_set_self, htx]
  have hnext : (markReady j s).fbit CK_TXST.NEXT j = !s.fbit CK_TXST.NEXT j := by
    unfold markReady
    dsimp only
    rw [if_pos hj, State.fbit_putFbit _ _ _ _ _ (show j < 8 from hj), if_pos rfl, htx]
    cases s.fbit CK_TXST.NEXT j <;> rfl
  exact Prod.ext hready hnext

/-- TX_READY changes the marks and the NEXT bits alone: for each slot written, the buffer handed over and the other one next. -/
theorem markSlots_shows (v : Nat) (s : State) :
    let t := forEach (s.marks (v % 65536)) markReady s
    t = { s with regs := t.regs, ready := t.ready } ∧ Kept [CK_TXST.NEXT.key 0, CK_TXST.NEXT2.key 0] s t
      ∧ ∀ j, j < 8 → t.slotMarks j = if v.testBit j = true ∧ j < s.homeSlots then (markReady j s).slotMarks j else s.slotMarks j := by
  have hlow : ∀ i ∈ s.marks (v % 65536), i < 16 := fun i hi => by
    have hbit := (List.mem_filter.1 hi).2
    rw [show v % 65536 = v % 2 ^ 16 from rfl, Nat.testBit_mod_two_pow] at hbit
    by_contra h
    simp [h] at hbit
  refine ⟨?_, ?_, fun j hj => ?_⟩
  · refine forEach_keeps (P := fun t => t = { s with regs := t.regs, ready := t.ready }) _ (fun i _ t ht => ?_) rfl
    have hmark := markReady_frame i t
    generalize markReady i t = u at hmark ⊢
    rw [hmark, ht]
  · refine forEach_keeps (P := Kept _ s) _ (fun i hi t ht => ht.trans ?_) (Kept.refl _ s)
    unfold markReady
    dsimp only
    split
    · exact (Kept.setFld _ CK_TXST.NEXT 0 _).mono (by decide)
    · rw [if_pos (hlow i hi)]
      exact (Kept.setFld _ CK_TXST.NEXT2 0 _).mono (by decide)
  · have hmem : j ∈ s.marks (v % 65536) ↔ v.testBit j = true ∧ j < s.homeSlots := by
      rw [State.mem_marks_slot _ _ hj, show v % 65536 = v % 2 ^ 16 from rfl, Nat.testBit_mod_two_pow, decide_eq_true (show j < 16 by omega), Bool.true_and]
    split
    · rename_i h
      obtain ⟨t, htb, ht, hlast⟩ := forEach_once (P := fun t => t.tb = s.tb) (g := State.slotMarks j) (s.nodup_marks _) (hmem.2 h)
        (fun i t ht => (congrArg State.tb (markReady_frame i t)).trans ht) (fun i hi t _ => markReady_slotMarks_ne hj hi t) (s := s) rfl
      obtain ⟨hready, hnext⟩ := Prod.ext_iff.1 ht
      rw [hlast, markReady_slotMarks hj, markReady_slotMarks hj, htb]
      exact Prod.ext (by rw [show Tab.get [] t.ready j = Tab.get [] s.ready j from hready, show t.fbit CK_TXST.NEXT j = s.fbit CK_TXST.NEXT j from hnext])
        (congrArg not hnext)
    · rename_i h
      exact forEach_frame (g := State.slotMarks j) _ (fun i hi t => markReady_slotMarks_ne hj (fun hij => h (hmem.1 (hij ▸ hi))) t) s

/-- The buffers marked ready for the train of the home ring, and the next one. -/
def State.trainMarks (s : State) : List (Nat × Nat) × Nat := (Tab.get [] s.ready 16, s.fld CK_TXST2.SNEXT)

theorem markReady_trainMarks_ne {i : Nat} (h : i ≠ 16) (s : State) : (markReady i s).trainMarks = s.trainMarks := by
  have hready : Tab.get [] (markReady i s).ready 16 = Tab.get [] s.ready 16 := by
    rw [markReady_ready]
    exact Tab.get_set_ne _ _ _ _ (Ne.symm h)
  have hnext : (markReady i s).fld CK_TXST2.SNEXT = s.fld CK_TXST2.SNEXT := by
    unfold markReady
    dsimp only
    rw [if_neg h]
    (repeat' split) <;> exact State.fld_setFld_apart (by decide) _ _ _ _
  exact Prod.ext hready hnext

theorem markReady_trainMarks {s : State} (h : s.fld CK_TXST2.SNEXT ≤ 1) :
    (markReady 16 s).trainMarks
      = ((s.fld CK_TXST2.SNEXT, s.tb) :: ((Tab.get [] s.ready 16).filter (fun x => decide (x.2 < s.tb))).take 1,
         1 - s.fld CK_TXST2.SNEXT) :=
  Prod.ext ((congrArg (Tab.get [] · 16) (markReady_ready 16 s)).trans (Tab.get_set_self _ _ _ _))
    (State.fld_setFld_lt (f := CK_TXST2.SNEXT) (show 1 - s.fld CK_TXST2.SNEXT < 2 by omega) 0 _)

/-- SUMMARY_READY with SUMH hands over the train's next buffer and moves on to the other. -/
theorem markTrain_shows {v : Nat} {s : State} (hv : v.testBit 16 = true) (htrain : s.hasTrain 0 = true) (hnext : s.fld CK_TXST2.SNEXT ≤ 1) :
    let t := forEach (s.marks (v / 65536 % 4 * 65536)) markReady s
    (Tab.get [] t.ready 16).head? = some (s.fld CK_TXST2.SNEXT, s.tb) ∧ t.fld CK_TXST2.SNEXT = 1 - s.fld CK_TXST2.SNEXT := by
  have hbit : (v / 65536 % 4 * 65536).testBit 16 = true := by
    rw [Nat.testBit_eq_decide_div_mod_eq] at hv ⊢
    simp only [decide_eq_true_eq] at hv ⊢
    omega
  have hmem : 16 ∈ s.marks (v / 65536 % 4 * 65536) := List.mem_filter.2 ⟨by decide, by rw [hbit]; exact htrain⟩
  obtain ⟨t, htb, ht, hlast⟩ := forEach_once (P := fun t => t.tb = s.tb) (g := State.trainMarks) (s.nodup_marks _) hmem
    (fun i t ht => (congrArg State.tb (markReady_frame i t)).trans ht) (fun i hi t _ => markReady_trainMarks_ne hi t) (s := s) rfl
  have hsnext : t.fld CK_TXST2.SNEXT = s.fld CK_TXST2.SNEXT := congrArg Prod.snd ht
  rw [markReady_trainMarks (by rw [hsnext]; exact hnext), htb, hsnext] at hlast
  exact ⟨congrArg (fun x : List (Nat × Nat) × Nat => x.1.head?) hlast, congrArg Prod.snd hlast⟩

/-- Settles O28: the writes of CK_CTRL by the check that decides them, those of CK_TXRDY mark by mark. -/
theorem schedulesAndBuffers : Obligations.SchedulesAndBuffers := by
  unfold Obligations.SchedulesAndBuffers
  intro s v e u hv
  have hstart := exec_scheduleStart_hw hv v
  have hstop := exec_scheduleStop_hw hv v
  rw [ckCtrl_hw] at hstart hstop
  refine ⟨fun he hrun => ?start, fun he => hstart.trans (congrArg _ (if_pos (.inl he))), fun he hetype hrun => ?stop, ?ready,
    fun hbit htrain hnext => ⟨_, exec_summaryReady_hw hv v, markTrain_shows hbit htrain hnext⟩⟩
  case start =>
    have htaken : exec (.scheduleStart .hw v) s = .next (scheduleStart u) := by
      refine hstart.trans (congrArg _ ((if_neg ?_).trans ((if_pos rfl).trans (if_neg ?_))))
      · omega
      · omega
    have hetype : u.fld CK_CTRL.ETYPE = e :=
      State.fld_setFld_lt (f := CK_CTRL.ETYPE) (show e < 2 ^ 16 by have := v.isLt; omega) 0 s
    have hset : KeptBut [CK_CTRL.ETYPE] s u := (KeptBut.refl _ s).setFld (by decide) 0 e
    refine ⟨fun hprick htx hrx => ?_, fun hbad => ?_⟩
    · obtain ⟨h1, h2, h3, hnode⟩ := scheduleStart_runs (s := u) (by rw [State.fitsSchedule, hprick, htx, hrx]; rfl)
      exact ⟨_, htaken, h1, h2.trans hetype, h3, fun r hr hj => hnode r hr ((State.joined_of_kept hset (by decide) r).trans hj)⟩
    · have hfits : u.fitsSchedule = false := by
        unfold State.fitsSchedule
        rcases hbad with h | h | h <;> simp [h]
      obtain ⟨herr, hkept⟩ := scheduleStart_stays hfits
      exact ⟨_, htaken, (hkept _ (by decide) 0).trans ((hset _ (by decide) 0).trans hrun), herr,
        (hkept _ (by decide) 0).trans (hset _ (by decide) 0)⟩
  case stop =>
    refine ⟨_, hstop.trans (congrArg _ ((if_neg ?_).trans ((if_neg (by decide)).trans (if_pos hrun)))), scheduleStop_shows u⟩
    rintro (h | ⟨-, h⟩)
    · omega
    · exact h hetype
  case ready =>
    obtain ⟨hframe, hkept, hslots⟩ := markSlots_shows v.toNat s
    refine ⟨_, exec_txReady_hw hv v, hframe, hkept, fun j hj => ⟨fun hbit hhome => ?_, fun hnot => ?_⟩⟩
    · exact Prod.ext_iff.1 ((hslots j hj).trans ((if_pos ⟨hbit, hhome⟩).trans (markReady_slotMarks hj s)))
    · refine Prod.ext_iff.1 ((hslots j hj).trans (if_neg ?_))
      rintro ⟨hbit, hhome⟩
      rcases hnot with h | h
      · rw [hbit] at h
        cases h
      · omega

end Sys2Proof.Machine
end

section
/-! PROOFS. Frames at their close, their release and their window's end (07 R274, R280 to R286; 04 R178). -/

namespace Sys2Proof.Machine

/-! ### What the parts of a transmission change (R274, R281) -/

/-- Assembling time elements takes free values, answers requests and clears the request that is due; nothing else. -/
def Assembles (s t : State) : Prop := t = { s with free := t.free, links := t.links, rings := t.rings }

theorem Assembles.refl (s : State) : Assembles s s := rfl

theorem Assembles.trans {s t u : State} (h : Assembles s t) (h' : Assembles t u) : Assembles s u := by
  unfold Assembles at *
  rw [h', h]

theorem Assembles.regs {s t : State} (h : Assembles s t) : t.regs = s.regs := by rw [h]

theorem Assembles.now {s t : State} (h : Assembles s t) : t.now = s.now := by rw [h]

theorem ptpMsg_assembles (ty n : Nat) (s : State) : Assembles s (ptpMsg ty n s).2 := by
  unfold Assembles
  rw [ptpMsg_frame]

theorem syncElems_assembles (s : State) : Assembles s (syncElems s).2 := by
  unfold syncElems
  dsimp only
  exact (ptpMsg_assembles 0 44 s).trans (ptpMsg_assembles 0xB 64 _)

theorem pdreqElem_assembles (s : State) : Assembles s (pdreqElem s).2 := by
  unfold pdreqElem
  dsimp only
  exact ptpMsg_assembles 2 54 s

theorem answer_assembles (p : Nat) (s : State) : Assembles s (answer p s) := rfl

theorem pdrespElems_assembles (ps : List Nat) (s : State) : Assembles s (pdrespElems ps s).2.2 := by
  unfold pdrespElems
  refine List.foldlRecOn ps _ (motive := fun acc : List Byte × List (Nat × Nat) × State => Assembles s acc.2.2) (Assembles.refl s) (fun acc hacc p _ => ?_)
  split
  · exact hacc
  · exact hacc.trans ((ptpMsg_assembles 3 54 acc.2.2).trans (answer_assembles p _))

theorem timeElems_assembles (r b : Nat) (cold first : Bool) (s : State) : Assembles s (timeElems r b cold first s).after := by
  have hsync : ∀ (c : Bool) (t : State), Assembles t (if c then syncElems t else ([], t)).2 := fun c t => by
    cases c
    · exact Assembles.refl t
    · exact syncElems_assembles t
  have hreq : ∀ (c : Bool) (t : State), Assembles t (if c then pdreqElem t else ([], t)).2 := fun c t => by
    cases c
    · exact Assembles.refl t
    · exact pdreqElem_assembles t
  unfold timeElems
  refine onlyIf_keeps (P := Assembles s) first (fun t ht => ht.trans (show Assembles t (t.modRing r _) from rfl)) ?_
  cases first
  · exact (hsync _ _).trans (hreq _ _)
  · exact ((hsync _ _).trans (hreq _ _)).trans (pdrespElems_assembles _ _)

/-- What a frame carries goes back to the events, facts and messages that wait (04 R178). -/
theorem giveBack_frame (f : TxFrame) (s : State) :
    let t := giveBack f s
    t = { s with txEvents := f.events ++ s.txEvents, accum := t.accum, gmsgs := t.gmsgs } := by
  have hfacts : ∀ u : State, u = { s with accum := u.accum } →
      let t : State := { u with txEvents := f.events ++ u.txEvents, gmsgs := Tab.set [] u.gmsgs f.ring (f.msgs ++ Tab.get [] u.gmsgs f.ring) }
      t = { s with txEvents := f.events ++ s.txEvents, accum := t.accum, gmsgs := t.gmsgs } := fun u h => by
    rw [h]
  exact hfacts _ (forEach_keeps (P := fun u => u = { s with accum := u.accum }) f.facts (fun x _ u h => by rw [h]) rfl)

/-- The same frame given to each of some ports. -/
theorem sendOn_frame (ps : List Nat) (l : List Byte) (s : State) : sendOn ps l s = { s with lines := (sendOn ps l s).lines } :=
  forEach_keeps (P := fun t => t = { s with lines := t.lines }) ps (fun p _ t ht => by rw [ht]) rfl

theorem sendOn_lines (ps : List Nat) (l : List Byte) (s : State) (p : Nat) :
    Tab.get [] (sendOn ps l s).lines p = if p ∈ ps then l else Tab.get [] s.lines p := by
  have hset : ∀ (q : Nat) (t : State), Tab.get [] (Tab.set [] t.lines q l) p = if p = q then l else Tab.get [] t.lines p := fun q t => by
    split
    · rename_i h
      rw [h, Tab.get_set_self]
    · exact Tab.get_set_ne _ _ _ _ ‹_›
  split
  · rename_i h
    refine forEach_establishes (P := fun t => Tab.get [] t.lines p = l) h (fun t => Tab.get_set_self _ _ _ _) (fun q t ht => ?_) s
    rw [hset, ht, ite_self]
  · rename_i h
    refine forEach_frame (g := fun t : State => Tab.get [] t.lines p) ps (fun q hq t => ?_) s
    refine (hset q t).trans (if_neg (fun hpq : p = q => h ?_))
    rw [hpq]
    exact hq

/-- A frame that answers no request goes out alike on every port. -/
theorem sendOwn_nil (ps : List Nat) (l : List Byte) (s : State) : sendOwn ps [] l s = sendOn ps l s := rfl

/-- A frame that answers no request is put on the joined ports, and its ring notes the transmission. -/
theorem transmit_frame (k : Prick) {f : TxFrame} (h : f.resps = []) (slotEnd : Option Nat) (s : State) :
    let t := transmit k f slotEnd s
    t = { s with lines := (sendOn (s.joinedPorts f.ring) f.bytes s).lines, rings := t.rings } := by
  unfold transmit
  dsimp only
  rw [h, sendOwn_nil, sendOn_frame]
  rfl

/-- With no joined port nothing goes out. -/
theorem transmit_unjoined (k : Prick) {f : TxFrame} {s : State} (h : s.joinedPorts f.ring = []) (slotEnd : Option Nat) :
    let t := transmit k f slotEnd s
    t = { s with rings := t.rings } := by
  unfold transmit
  dsimp only
  rw [h]
  rfl

/-- Messages sent, or not sent after all, are noted by the migrations and the Graft program. -/
def GraftOnly (s t : State) : Prop := t = { s with migs := t.migs, graft := t.graft }

theorem GraftOnly.trans {s t u : State} (h : GraftOnly s t) (h' : GraftOnly t u) : GraftOnly s u := by
  unfold GraftOnly at *
  rw [h', h]

theorem msgsSent_graftOnly (c : Nat) (f : TxFrame) (s : State) : GraftOnly s (msgsSent c f s) := by
  refine forEach_keeps (P := GraftOnly s) _ (fun x _ t ht => ht.trans ?_) rfl
  dsimp only
  (repeat' split) <;> rfl

theorem msgsUnsent_graftOnly (f : TxFrame) (s : State) : GraftOnly s (msgsUnsent f s) := by
  refine forEach_keeps (P := GraftOnly s) _ (fun x _ t ht => ht.trans ?_) rfl
  dsimp only
  (repeat' split) <;> rfl

/-! ### BUFFER_CLOSE (R280) -/

/-- The cycle of ring `r` whose close of the slot with entry `x` comes next. -/
def State.closeCycle (s : State) (r j : Nat) (k : Prick) (x : Nat) : Nat :=
  let off : Int := (slotStart x + k.grel : Nat) - 2000
  let l : Int := s.ringLen r
  let last : Nat := Tab.get 0 s.closes (r * 1024 + j)
  let from_ : Int := max s.nowTu last
  ((from_ - off + l - 1) / l).toNat

/-- The network time of that close. -/
def State.closeTime (s : State) (r j : Nat) (k : Prick) (x : Nat) : Nat :=
  let off : Int := (slotStart x + k.grel : Nat) - 2000
  let l : Int := s.ringLen r
  (s.closeCycle r j k x * l + off).toNat

/-- The first multiple of `l` beyond `a`, offset by `off`, is not before `a`. -/
theorem le_mul_toNat_add {l a off : Int} (hl : 0 < l) : a ≤ (((a - off + l - 1) / l).toNat * l + off).toNat := by
  have hmod := Int.emod_lt_of_pos (a - off + l - 1) hl
  have hdiv := Int.emod_add_mul_ediv (a - off + l - 1) l
  have hle : l * ((a - off + l - 1) / l) ≤ ((a - off + l - 1) / l).toNat * l := by
    rw [mul_comm l]
    exact mul_le_mul_of_nonneg_right (Int.self_le_toNat _) hl.le
  omega

theorem State.ringLen_pos (s : State) (r : Nat) : 0 < s.ringLen r := Nat.mul_pos (by decide) (Nat.two_pow_pos _)

theorem State.nowTu_le_closeTime (s : State) (r j : Nat) (k : Prick) (x : Nat) : s.nowTu ≤ s.closeTime r j k x := by
  have hl : (0 : Int) < s.ringLen r := Int.natCast_pos.2 (s.ringLen_pos r)
  have hle := le_mul_toNat_add (a := max (s.nowTu : Int) (Tab.get 0 s.closes (r * 1024 + j) : Nat))
    (off := (slotStart x + k.grel : Nat) - 2000) hl
  unfold closeTime closeCycle
  dsimp only at hle ⊢
  omega

theorem State.nowTu_advanceNow_mod {s : State} {b : Nat} (h : s.nowTu ≤ b) : (s.advanceNow b).nowTu = b % 2 ^ 64 := by
  have hadd : (s.advanceNow b).nowTu = (s.nowTu + (b - s.nowTu)) % 2 ^ 64 := by
    simp [State.advanceNow, State.advance, State.nowTu, BitVec.toNat_add]
  rw [hadd, Nat.add_sub_cancel' h]

/-- The buffer of slot `j` closes at network time `close`. -/
def bufferClosed (r j close : Nat) (s : State) : State :=
  { s.advanceNow close with closes := Tab.set 0 (s.advanceNow close).closes (r * 1024 + j) (close + 1) }

/-- The frame assembled at a close waits for its release, 2,000 TU later; one of the slot that still waits gives back what it carries. -/
def framePlaced (r j close : Nat) (p : TxFrame × State) : State :=
  let old (f : TxFrame) : Bool := f.ring == r && f.slot == j
  let s := forEach (p.2.frames.filter old) giveBack p.2
  { s with frames := s.frames.filter (fun f => !old f) ++ [{ p.1 with rel := close + 2000 }] }

/-- What becomes of own slot `j`, with entry `x`, when its buffer has closed at `close` for cycle `n`. -/
def slotClosed (r j : Nat) (k : Prick) (x n close : Nat) (s : State) : State :=
  let mine := k.own (s.myPos r) (slotKind x)
  let num := (mine.takeWhile (fun y => y != j)).length
  let unused := if slotKind x = 0 then (closeMark (readyBit r num) s).2 else if num = 0 then (closeMark (trainBit r) s).2 else s
  if s.arbHolds .dma then unused
  else if s.node r = 4 then
    if slotKind x = 0 then framePlaced r j close (dataFrame r k j num n s)
    else framePlaced r j close (trainFrame r k j n (num == 0) (num + 1 == mine.length) s)
  else if s.node r = 2 && slotKind x == 0 then
    framePlaced r j close (coldFrame r (s.boundaryOf r n) k j (n % 65536) (slotFlen x) (s.firstOwn r k j) unused)
  else unused

theorem bufferClose_eq {r j : Nat} {k : Prick} {x : Nat} {s : State} (hk : s.prick r = some k) (hx : k.slot j = some x)
    (hrun : s.fld CK_CTRL.RUN = 1) (hjoined : s.joined r = true) (howner : slotOwner x = s.myPos r) :
    bufferClose r j s
      = slotClosed r j k x (s.closeCycle r j k x) (s.closeTime r j k x) (bufferClosed r j (s.closeTime r j k x) s) := by
  unfold bufferClose
  simp -zeta only [hk, hx]
  exact if_neg (by simp [State.isSet, hrun, hjoined, howner])

theorem slotClosed_data {r : Nat} {x : Nat} {s : State} (hkind : slotKind x = 0) (harb : s.arbHolds .dma = false)
    (hnode : s.node r = 4) (j : Nat) (k : Prick) (n close : Nat) :
    slotClosed r j k x n close s
      = framePlaced r j close (dataFrame r k j ((k.own (s.myPos r) 0).takeWhile (fun y => y != j)).length n s) := by
  unfold slotClosed
  rw [harb, hkind]
  exact (if_neg (by decide)).trans (if_pos hnode)

/-- A close with no buffer ready: NULLTX, and the null frame counted. -/
def nullClosed (r num : Nat) (s : State) : State :=
  (setNull r num true (s.flag CK_STATUS.NULLTX evCK)).countFld CK_NODECNT.NULLN 0 1

theorem nullClosed_shows (r num : Nat) (s : State) :
    let t := nullClosed r num s
    t.fld CK_STATUS.NULLTX = 1 ∧ t.fld CK_NODECNT.NULLN = min 65535 (s.fld CK_NODECNT.NULLN + 1) ∧ t.now = s.now := by
  have hnull : KeptBut [CK_TXST.NULL, CK_TXST.NULL2] (s.flag CK_STATUS.NULLTX evCK) (setNull r num true (s.flag CK_STATUS.NULLTX evCK)) :=
    (KeptBut.refl _ _).putFbit (by split <;> decide) 0 num true
  refine ⟨?_, ?_, ?_⟩
  · exact (State.fld_countFld_apart (by decide) _ _ _ _).trans ((hnull _ (by decide) 0).trans (State.fld_flag_self _ _ _))
  · unfold nullClosed
    rw [State.fld_countFld_self, hnull _ (by decide) 0, State.fld_flag_apart (by decide)]
    rfl
  · exact State.flag_now s CK_STATUS.NULLTX evCK

theorem dataFrame_null {r num : Nat} {s : State} (h : Tab.get [] s.ready (readyBit r num) = []) (k : Prick) (j n : Nat) :
    ∃ f u, dataFrame r k j num n s = (f, nullClosed r num u) ∧ f.ring = r ∧ f.slot = j ∧ u.regs = s.regs ∧ u.now = s.now := by
  have hmark : (closeMark (readyBit r num) s).1 = none := by
    unfold closeMark
    rw [h]
    rfl
  have ha := timeElems_assembles r (s.boundaryOf r n) false (s.firstOwn r k j) (closeMark (readyBit r num) s).2
  unfold dataFrame
  dsimp only
  rw [hmark]
  generalize timeElems r (s.boundaryOf r n) false (s.firstOwn r k j) (closeMark (readyBit r num) s).2 = a at ha
  exact ⟨_, a.after, rfl, rfl, rfl, ha.regs, ha.now⟩

theorem framePlaced_shows (r j close : Nat) (p : TxFrame × State) :
    let t := framePlaced r j close p
    t.regs = p.2.regs ∧ t.now = p.2.now ∧ { p.1 with rel := close + 2000 } ∈ t.frames := by
  have hback : ∀ l : List TxFrame, (forEach l giveBack p.2).regs = p.2.regs ∧ (forEach l giveBack p.2).now = p.2.now := fun l =>
    forEach_keeps (P := fun t => t.regs = p.2.regs ∧ t.now = p.2.now) l
      (fun f _ t ht => ⟨(congrArg State.regs (giveBack_frame f t)).trans ht.1, (congrArg State.now (giveBack_frame f t)).trans ht.2⟩) ⟨rfl, rfl⟩
  exact ⟨(hback _).1, (hback _).2, List.mem_append_right _ (List.mem_singleton_self _)⟩

/-- An ACTIVE node with no buffer ready at the close of an own data slot sends a null frame there. -/
theorem slotClosed_null {r j : Nat} {k : Prick} {x : Nat} {s : State} (hkind : slotKind x = 0) (harb : s.arbHolds .dma = false)
    (hnode : s.node r = 4)
    (hready : Tab.get [] s.ready (readyBit r ((k.own (s.myPos r) 0).takeWhile (fun y => y != j)).length) = []) (n close : Nat) :
    let t := slotClosed r j k x n close s
    t.fld CK_STATUS.NULLTX = 1 ∧ t.fld CK_NODECNT.NULLN = min 65535 (s.fld CK_NODECNT.NULLN + 1) ∧ t.now = s.now
      ∧ ∃ g ∈ t.frames, g.ring = r ∧ g.slot = j ∧ g.rel = close + 2000 := by
  obtain ⟨f, u, hframe, hring, hslot, hregs, hu⟩ := dataFrame_null hready k j n
  rw [slotClosed_data hkind harb hnode, hframe]
  generalize ((k.own (s.myPos r) 0).takeWhile (fun y => y != j)).length = num
  obtain ⟨htx, hcount, hnow⟩ := nullClosed_shows r num u
  obtain ⟨hpregs, hpnow, hmem⟩ := framePlaced_shows r j close (f, nullClosed r num u)
  have hu' : u.fld CK_NODECNT.NULLN = s.fld CK_NODECNT.NULLN := congrArg (fun g => Tab.get _ g _) hregs
  refine ⟨?_, ?_, hpnow.trans (hnow.trans hu), _, hmem, hring, hslot, rfl⟩
  · exact (congrArg (fun g => Tab.get _ g _) hpregs).trans htx
  · exact (congrArg (fun g => Tab.get _ g _) hpregs).trans (hcount.trans (by rw [hu']))

theorem exec_bufferClose (r : Fin 2) (j : BitVec 10) (s : State) : exec (.bufferClose r j) s = .next (bufferClose r.val j.toNat s) := rfl

/-! ### FRAME_RELEASE (R281, R284, R286) -/

/-- The DMA releases frame `f` at its instant. -/
def released (f : TxFrame) (s : State) : State := { s.advanceNow f.rel with frames := s.frames.erase f }

/-- What the Footside does with a released frame of slot entry `o`, none where its copy does not agree. -/
def footside (k : Prick) (f : TxFrame) (r : Nat) (o : Option Nat) (s : State) : State :=
  match o with
  | none => externalFault 2 (s.ringPorts r).1 ((giveBack f s).flag CK_STATUS.FOOTCUT evCK)
  | some x =>
    if !(s.node r == 2) && !({ k with grel := (s.ring r).copyRel } : Prick).fits x s.eff then
      ((giveBack f s).countFld CK_NODECNT.SKIPN 0 1).flag CK_STATUS.GUARDSHUT evCK
    else if (s.joinedPorts r).isEmpty then transmit k { f with events := [], facts := [], msgs := [] } none (giveBack f s)
    else msgsSent (f.rel / s.ringLen r) f
      (transmit k f (if s.node r == 2 then none else some (f.rel - (s.ring r).copyRel + slotLen x)) s)

/-- The frame of slot `j` waits for its release in ring `r`, and the node may send it. -/
structure Releasable (r j : Nat) (k : Prick) (f : TxFrame) (s : State) : Prop where
  found : s.frames.find? (fun g => g.ring == r && g.slot == j) = some f
  prick : s.prick r = some k
  node : s.node r = 4 ∨ s.node r = 2
  free : s.masked .dma = false

theorem Releasable.ring {r j : Nat} {k : Prick} {f : TxFrame} {s : State} (h : Releasable r j k f s) : f.ring = r := by
  have hmatch := List.find?_some h.found
  exact beq_iff_eq.1 (Bool.and_eq_true_iff.1 hmatch).1

theorem frameRelease_eq {r j : Nat} {k : Prick} {f : TxFrame} {s : State} (h : Releasable r j k f s) (bad : Bool) :
    frameRelease r j bad s = footside k f r ((s.copied r j).filter (fun x => !bad && s.footAgrees f x)) (released f s) := by
  have hmay : ¬ (!((released f s).node r == 4 || (released f s).node r == 2) || (released f s).masked .dma) = true := by
    rw [show (released f s).node r = s.node r from rfl, show (released f s).masked .dma = s.masked .dma from rfl, h.free]
    rcases h.node with hn | hn <;> rw [hn] <;> decide
  unfold frameRelease
  simp -zeta only [h.found, h.prick]
  exact if_neg hmay

theorem State.footAgrees_iff {r : Nat} {f : TxFrame} (h : f.ring = r) (s : State) (x : Nat) :
    s.footAgrees f x = true ↔ f.rel % s.ringLen r = (slotStart x + (s.ring r).copyRel) % s.ringLen r := by
  rw [State.footAgrees, h]
  exact beq_iff_eq

/-- The copy does not agree: no frame goes out, FOOTCUT is set, and the Heartwood hears of the fault. -/
theorem footside_differs (k : Prick) (f : TxFrame) (r : Nat) (s : State) :
    let t := footside k f r none s
    t.fld CK_STATUS.FOOTCUT = 1 ∧ t.lines = s.lines ∧ t.fld HW_EXTFLT.SRC = 2 ∧ t.fld HW_STATUS.EXTFLT = 1 := by
  have hback := giveBack_frame f s
  have hlines : ((giveBack f s).flag CK_STATUS.FOOTCUT evCK).lines = s.lines := by rw [State.flag_frame, hback]
  unfold footside
  have hcut := State.fld_flag_self (giveBack f s) CK_STATUS.FOOTCUT evCK
  generalize (giveBack f s).flag CK_STATUS.FOOTCUT evCK = u at hcut hlines
  generalize (s.ringPorts r).1 = i
  have hkept : KeptBut [HW_EXTFLT.SRC, HW_EXTFLT.INDEX, HW_STATUS.EXTFLT] u (externalFault 2 i u) :=
    (((KeptBut.refl _ u).setFld (by decide) 0 2).setFld (by decide) 0 i).flag (by decide) evHW
  refine ⟨(hkept _ (by decide) 0).trans hcut, ?_, ?_, State.fld_flag_self _ _ _⟩
  · dsimp only [externalFault]
    rw [State.flag_frame]
    exact hlines
  · exact (State.fld_flag_apart (by decide) evHW 0 _).trans
      ((State.fld_setFld_apart (by decide) 0 i 0 _).trans (State.fld_setFld_self u HW_EXTFLT.SRC 0 2))

/-- The frame starts, by its window or without one in COLD START (R284, R285). -/
def State.starts (s : State) (r : Nat) (k : Prick) (x : Nat) : Prop :=
  s.node r = 2 ∨ ({ k with grel := (s.ring r).copyRel } : Prick).fits x s.eff = true

theorem footside_shut {k : Prick} {f : TxFrame} {r x : Nat} {s : State} (h : ¬ s.starts r k x) :
    let t := footside k f r (some x) s
    t.fld CK_STATUS.GUARDSHUT = 1 ∧ t.lines = s.lines ∧ t.fld CK_NODECNT.SKIPN = min 65535 (s.fld CK_NODECNT.SKIPN + 1)
      ∧ t.txEvents = f.events ++ s.txEvents := by
  obtain ⟨hcold, hfits⟩ := not_or.1 h
  have hback := giveBack_frame f s
  have hskip : (giveBack f s).fld CK_NODECNT.SKIPN = s.fld CK_NODECNT.SKIPN := by
    rw [hback]
    rfl
  unfold footside
  dsimp only
  rw [if_pos (by simp [hcold, hfits])]
  generalize giveBack f s = u at hback hskip
  refine ⟨State.fld_flag_self _ _ _, ?_, ?_, ?_⟩
  · rw [State.flag_frame, State.countFld_lines, hback]
  · rw [State.fld_flag_apart (by decide), State.fld_countFld_self, hskip]
    rfl
  · rw [State.flag_frame, State.countFld_txEvents, hback]

theorem footside_unjoined {k : Prick} {f : TxFrame} {r x : Nat} {s : State} (h : s.starts r k x) (hring : f.ring = r)
    (hports : s.joinedPorts r = []) :
    let t := footside k f r (some x) s
    t.frames = s.frames ∧ t.lines = s.lines ∧ t.txEvents = f.events ++ s.txEvents := by
  have hback := giveBack_frame f s
  have hnone : (giveBack f s).joinedPorts f.ring = [] := by
    rw [hring, hback]
    exact hports
  have hsent := transmit_unjoined k (f := { f with events := [], facts := [], msgs := [] }) hnone none
  unfold footside
  dsimp only
  rw [if_neg (by rcases h with h | h <;> simp [h]), hports, List.isEmpty_nil, if_pos rfl]
  generalize giveBack f s = u at hback hsent
  dsimp only at hsent
  rw [hsent, hback]
  exact ⟨rfl, rfl, rfl⟩

theorem footside_sent {k : Prick} {f : TxFrame} {r x : Nat} {s : State} (h : s.starts r k x) (hring : f.ring = r)
    (hports : s.joinedPorts r ≠ []) (hresps : f.resps = []) :
    let t := footside k f r (some x) s
    t.now = s.now ∧ t.frames = s.frames ∧ t.regs = s.regs ∧ t.lines = (sendOn (s.joinedPorts r) f.bytes s).lines := by
  have hempty : (s.joinedPorts r).isEmpty = false := by simpa using hports
  have hsent := transmit_frame k hresps
  unfold footside
  dsimp only at hsent ⊢
  rw [if_neg (by rcases h with h | h <;> simp [h]), hempty, if_neg (by decide)]
  generalize (if (s.node r == 2) = true then none else some _) = e
  have hsent := hsent e s
  have hmsgs := msgsSent_graftOnly (f.rel / s.ringLen r) f (transmit k f e s)
  generalize transmit k f e s = u at hsent hmsgs
  rw [GraftOnly] at hmsgs
  rw [hmsgs, hsent, hring]
  exact ⟨rfl, rfl, rfl, rfl⟩

/-! ### FOOTSIDE_CUTOFF (R284) -/

theorem State.nodup_joinedPorts (s : State) (r : Nat) : (s.joinedPorts r).Nodup := by
  refine List.Nodup.filter _ ?_
  unfold State.ringPorts
  split
  · decide
  · split <;> decide

/-- The frame on the line of port `p` ends without its FCS. -/
def lineCut (p : Nat) (s : State) : State :=
  { s with lines := Tab.set [] s.lines p ((Tab.get [] s.lines p).take ((Tab.get [] s.lines p).length - 4)) }

/-- A transmission cut off ends on every joined port, which counts it. -/
def portsCut (ps : List Nat) (s : State) : State :=
  forEach ps lineCut (forEach ps (fun p t => t.countFld CK_PCNT2.FOOTCUT p 1) s)

/-- What it carried waits for the next frame. -/
def contentBack (r : Nat) (s : State) : State :=
  match (s.ring r).tx.bind TxRun.frame with
  | some f => giveBack f (msgsUnsent f s)
  | none => s

theorem cutOff_eq (r : Nat) (s : State) :
    cutOff r s = ((contentBack r (portsCut (s.joinedPorts r) s)).modRing r (fun x => { x with tx := none })).flag CK_STATUS.FOOTCUT evCK := rfl

theorem portsCut_shows {ps : List Nat} (hps : ps.Nodup) (s : State) :
    let t := portsCut ps s
    t.tb = s.tb ∧ ∀ p, p ∈ ps → t.fld CK_PCNT2.FOOTCUT p = min 65535 (s.fld CK_PCNT2.FOOTCUT p + 1) := by
  have hlines : ∀ u : State, ((forEach ps lineCut u).tb, (forEach ps lineCut u).regs) = (u.tb, u.regs) :=
    forEach_frame (g := fun t : State => (t.tb, t.regs)) ps (fun _ _ _ => rfl)
  have htb : (forEach ps (fun p t => t.countFld CK_PCNT2.FOOTCUT p 1) s).tb = s.tb :=
    forEach_frame (g := State.tb) (f := fun p t => t.countFld CK_PCNT2.FOOTCUT p 1) ps (fun _ _ _ => rfl) s
  refine ⟨(congrArg Prod.fst (hlines _)).trans htb, fun p hp => ?_⟩
  obtain ⟨t, -, ht, hcount⟩ := forEach_once (P := fun _ => True) (g := fun t => t.fld CK_PCNT2.FOOTCUT p)
    (f := fun p t => t.countFld CK_PCNT2.FOOTCUT p 1) hps hp (fun _ _ _ => trivial)
    (fun q hq t _ => State.fld_countFld_ne t 1 (Field.key_ne (by decide) (by decide) (by decide) (by decide) (.inl hq))) (s := s) trivial
  refine (congrArg (fun x : Nat × Tab Nat => Tab.get _ x.2 _) (hlines _)).trans (hcount.trans ?_)
  rw [State.fld_countFld_self, ht]
  rfl

theorem contentBack_shows (r : Nat) (s : State) : (contentBack r s).tb = s.tb ∧ (contentBack r s).regs = s.regs := by
  unfold contentBack
  split
  · rename_i f _
    have hback := giveBack_frame f (msgsUnsent f s)
    have hmsgs := msgsUnsent_graftOnly f s
    rw [GraftOnly] at hmsgs
    rw [hback, hmsgs]
    exact ⟨rfl, rfl⟩
  · exact ⟨rfl, rfl⟩

theorem cutOff_shows (r : Nat) (s : State) :
    let t := cutOff r s
    t.tb = s.tb ∧ t.fld CK_STATUS.FOOTCUT = 1 ∧ (t.ring r).tx = none
      ∧ ∀ p, p ∈ s.joinedPorts r → t.fld CK_PCNT2.FOOTCUT p = min 65535 (s.fld CK_PCNT2.FOOTCUT p + 1) := by
  obtain ⟨htb, hcount⟩ := portsCut_shows (s.nodup_joinedPorts r) s
  rw [cutOff_eq]
  generalize portsCut (s.joinedPorts r) s = u at htb hcount
  obtain ⟨hbtb, hbregs⟩ := contentBack_shows r u
  generalize contentBack r u = w at hbtb hbregs
  refine ⟨(State.flag_tb _ _ _).trans (hbtb.trans htb), State.fld_flag_self _ _ _, ?_, fun p hp => ?_⟩
  · have hrings : ((w.modRing r (fun x => { x with tx := none })).flag CK_STATUS.FOOTCUT evCK).rings
        = (w.modRing r (fun x => { x with tx := none })).rings := by rw [State.flag_frame]
    refine (congrArg (fun l => (Tab.get RingSt.reset l r).tx) hrings).trans ?_
    exact congrArg RingSt.tx (State.modRing_ring_self _ _ _)
  · exact (State.fld_flag_apart (by decide) _ _ _).trans ((congrArg (fun l => Tab.get _ l _) hbregs).trans (hcount p hp))

theorem exec_footsideCutoff {r : Fin 2} {w : TxRun} {e : Nat} {s : State} (h : (s.ring r.val).tx = some w) (he : w.slotEnd = some e) :
    exec (.footsideCutoff r) s
      = .next (if (s.advanceNow (e - s.eff)).tb < w.ends then cutOff r.val (s.advanceNow (e - s.eff))
          else (s.advanceNow (e - s.eff)).modRing r.val (fun x => { x with tx := none })) := by
  change execFootsideCutoff r s = _
  unfold execFootsideCutoff
  simp -zeta only [h, he]
  exact (apply_ite Host.Outcome.next _ _ _).symm

/-- Settles O29: the close, the Footside's answer to a release, and the cut-off. -/
theorem framesAreSentInTheirWindows : Obligations.FramesAreSentInTheirWindows := by
  unfold Obligations.FramesAreSentInTheirWindows
  intro s r j k x f w num rel kc
  refine ⟨fun hk hx hrun hjoined howner hkind harb hnode hready => ?close, fun hfound hk hnode hfree hnow hrel => ?release,
    fun e hw he => ?cutoff⟩
  case close =>
    have hnow := State.nowTu_advanceNow_mod (s.nowTu_le_closeTime r.val j.toNat k x)
    have hexec := (exec_bufferClose r j s).trans (congrArg _ (bufferClose_eq hk hx hrun hjoined howner))
    generalize s.closeTime r.val j.toNat k x = close at hexec hnow
    obtain ⟨htx, hcount, ht, g, hg, hring, hslot, hgrel⟩ := slotClosed_null (s := bufferClosed r.val j.toNat close s) hkind harb hnode
      hready (s.closeCycle r.val j.toNat k x) close
    refine ⟨_, hexec, htx, hcount, g, hg, hring, hslot, ?_⟩
    rw [hgrel, State.nowTu, ht, show (bufferClosed r.val j.toNat close s).now.toNat = close % 2 ^ 64 from hnow]
    omega
  case release =>
    have hr : Releasable r.val j.toNat k f s := ⟨hfound, hk, hnode, hfree⟩
    have hexec : ∀ bad, exec (.frameRelease r j bad) s = .next (footside k f r.val
        ((s.copied r.val j.toNat).filter (fun x => !bad && s.footAgrees f x)) (released f s)) :=
      fun bad => congrArg _ (frameRelease_eq hr bad)
    refine ⟨fun hcopied hagrees => ?_, fun bad hbad => ?_⟩
    · have hsome : (s.copied r.val j.toNat).filter (fun x => !false && s.footAgrees f x) = some x := by
        rw [hcopied]
        exact Option.filter_some_pos ((State.footAgrees_iff hr.ring s x).2 hagrees)
      have hexec := hexec false
      rw [hsome] at hexec
      refine ⟨fun hports hstarts hresps => ?_, fun hports hstarts => ?_, fun hactive hshut => ?_⟩
      · obtain ⟨ht, hframes, hregs, hlines⟩ := footside_sent (s := released f s) hstarts hr.ring hports hresps
        refine ⟨_, hexec, (congrArg BitVec.toNat ht).trans (State.nowTu_advanceNow hnow hrel), hframes, hregs, fun p hp => ?_, fun p hp => ?_⟩
        · rw [hlines, sendOn_lines]
          exact if_pos hp
        · rw [hlines, sendOn_lines]
          exact if_neg hp
      · obtain ⟨hframes, hlines, hevents⟩ := footside_unjoined (s := released f s) hstarts hr.ring hports
        exact ⟨_, hexec, hframes, hlines, hevents⟩
      · have hnot : ¬ (released f s).starts r.val k x := by
          rintro (h | h)
          · exact absurd (hactive.symm.trans h) (by decide)
          · exact absurd (hshut.symm.trans h) (by decide)
        obtain ⟨hguard, hlines, hskip, hevents⟩ := footside_shut (f := f) hnot
        exact ⟨_, hexec, hguard, hlines, hskip, hevents⟩
    · have hnone : (s.copied r.val j.toNat).filter (fun x => !bad && s.footAgrees f x) = none := by
        rcases hbad with h | h | ⟨h, hne⟩
        · simp [h]
        · simp [h]
        · rw [h]
          simp [(State.footAgrees_iff hr.ring s x).not.2 hne]
      obtain ⟨hcut, hlines, hsrc, hext⟩ := footside_differs k f r.val (released f s)
      refine ⟨_, (hexec bad).trans (by rw [hnone]), hcut, hlines, hsrc, hext⟩
  case cutoff =>
    intro at_
    have hexec := exec_footsideCutoff hw he
    refine ⟨fun hlate => ?_, fun hin => ?_⟩
    · obtain ⟨htb, hcut, htx, hcount⟩ := cutOff_shows r.val (s.advanceNow (e - s.eff))
      exact ⟨_, hexec.trans (congrArg _ (if_pos hlate)), htb, hcut, htx, hcount⟩
    · exact ⟨_, hexec.trans (congrArg _ (if_neg (Nat.not_lt.2 hin))), rfl, congrArg RingSt.tx (State.modRing_ring_self _ _ _), rfl⟩

end Sys2Proof.Machine
end

section
/-! PROOFS. What the network's work on a frame leaves of the receive ring and of memory (06 R244, 07 R287 to R299). -/

namespace Sys2Proof.Machine

/-! ### Work that leaves the memory and the receive ring -/

/-- Memory, its marks, the frames stored and held, the locks with their waiters, and network time. -/
def State.store (s : State) :
    Tab Byte × Tab Nat × List (Nat × Nat) × List (Nat × Bool × Nat × List Byte) × Nat × List LockReq × Tab (Option LockSt) × BitVec 64 :=
  (s.mem, s.errs, s.rxq, s.rxHeld, s.rxNext, s.lockWait, s.locks, s.now)

/-- Work that writes no field but those of `fs` and leaves the memory and the receive ring. -/
def Aside (fs : List Field) (s t : State) : Prop := KeptBut fs s t ∧ t.store = s.store

theorem State.flag_store (s : State) (f : Field) (e : Nat) : (s.flag f e).store = s.store := by
  rw [State.flag_frame]
  rfl

namespace Aside

variable {fs : List Field} {s t : State}

theorem refl (fs : List Field) (s : State) : Aside fs s s := ⟨KeptBut.refl fs s, rfl⟩

theorem trans {u : State} (h : Aside fs s t) (h' : Aside fs t u) : Aside fs s u := ⟨h.1.trans h'.1, h'.2.trans h.2⟩

theorem mono {gs : List Field} (hs : fs ⊆ gs) (h : Aside fs s t) : Aside gs s t := ⟨h.1.mono hs, h.2⟩

theorem kept (h : Aside fs s t) {g : Field} (hg : fs.all (fun f => f.apart g) = true) (j : Nat) : t.fld g j = s.fld g j := h.1 g hg j

theorem setFld (h : Aside fs s t) {f : Field} (hf : f ∈ fs) (i v : Nat) : Aside fs s (t.setFld f i v) := ⟨h.1.setFld hf i v, h.2⟩

theorem countFld (h : Aside fs s t) {f : Field} (hf : f ∈ fs) (i n : Nat) : Aside fs s (t.countFld f i n) := ⟨h.1.countFld hf i n, h.2⟩

theorem flag (h : Aside fs s t) {f : Field} (hf : f ∈ fs) (e : Nat) : Aside fs s (t.flag f e) :=
  ⟨h.1.flag hf e, (t.flag_store f e).trans h.2⟩

theorem modRing (h : Aside fs s t) (r : Nat) (f : RingSt → RingSt) : Aside fs s (t.modRing r f) := h

theorem modTime (h : Aside fs s t) (f : TimeSt → TimeSt) : Aside fs s (t.modTime f) := h

theorem mem (h : Aside fs s t) : t.mem = s.mem := congrArg (fun x => x.1) h.2
theorem errs (h : Aside fs s t) : t.errs = s.errs := congrArg (fun x => x.2.1) h.2
theorem rxq (h : Aside fs s t) : t.rxq = s.rxq := congrArg (fun x => x.2.2.1) h.2
theorem rxHeld (h : Aside fs s t) : t.rxHeld = s.rxHeld := congrArg (fun x => x.2.2.2.1) h.2
theorem rxNext (h : Aside fs s t) : t.rxNext = s.rxNext := congrArg (fun x => x.2.2.2.2.1) h.2
theorem lockWait (h : Aside fs s t) : t.lockWait = s.lockWait := congrArg (fun x => x.2.2.2.2.2.1) h.2
theorem locks (h : Aside fs s t) : t.locks = s.locks := congrArg (fun x => x.2.2.2.2.2.2.1) h.2
theorem now (h : Aside fs s t) : t.now = s.now := congrArg (fun x => x.2.2.2.2.2.2.2) h.2

end Aside

theorem State.byte_of_mem {s t : State} (h : t.mem = s.mem) (y : Nat) : t.byte y = s.byte y := by
  unfold State.byte
  rw [h]

/-! ### A change of the time quality (R246 to R251) -/

theorem pushDevice_store (e cause p : Nat) (s : State) : (pushDevice e cause p s).store = s.store := by
  unfold pushDevice
  split <;> rfl

theorem hostDevice_store (cause head : Nat) (s : State) : (hostDevice cause head s).store = s.store :=
  forEach_frame (g := State.store) _ (fun _ _ _ => pushDevice_store _ _ _ _) s

theorem qualityTold_store (low : Bool) (s : State) : (qualityTold low s).store = s.store := by
  unfold qualityTold
  split
  · exact (hostDevice_store _ _ _).trans (State.flag_store _ _ _)
  · exact (hostDevice_store _ _ _).trans (State.flag_store _ _ _)

theorem refreshTq_store (s : State) : (refreshTq s).store = s.store := by
  rw [refreshTq_eq]
  split
  · rfl
  · exact qualityTold_store _ _

theorem dropHeld_store (s : State) : (dropHeld s).store = s.store :=
  (onlyIf_frame (g := State.store) _ (fun t => t.flag_store _ _) _).trans
    (forEach_frame (g := State.store) (f := fun c => setSt c 5) _ (fun _ _ _ => rfl) s)

theorem tqEntered_store (q : Nat) (s : State) : (tqEntered q s).store = s.store := by
  have hshown : (if q = 3 then holdoverShown s else s).store = s.store := by
    split
    · exact State.flag_store _ _ _
    · rfl
  unfold tqEntered
  exact (onlyIf_frame (g := State.store) _ dropHeld_store _).trans
    ((onlyIf_frame (g := State.store) _ (fun t => t.flag_store _ _) _).trans hshown)

theorem enterTq_aside (q : Nat) (s : State) : Aside stateFields s (enterTq q s) := by
  refine ⟨enterTq_kept q s, ?_⟩
  rw [enterTq_eq]
  split
  · rfl
  · exact (refreshTq_store _).trans (tqEntered_store q s)

/-! ### Re-routes and the node state (R244, R294, R295, R299) -/

/-- The fields that a frame's effect on the time unit and on the node state writes. -/
def sideFields : List Field :=
  [CK_EVDROP.UNKEL, CK_STATUS.REROUTE, TM_STATUS.REROUTE, TM_PDELAY.VALID, TM_PDELAY.NMEAS, CK_NODEST.PREF, CK_NODEST.HOPM, CK_NODEST2.PREF,
    CK_NODEST2.HOPM, CK_COLD.COLLN, CK_STATUS.COLL, GR_STATUS.LEARN] ++ nodesFields ++ stateFields

theorem remeasure_aside (s : State) : Aside sideFields s (remeasure s) :=
  ((forEach_keeps (P := Aside sideFields s) (f := fun p t => (t.setFld TM_PDELAY.VALID p 0).setFld TM_PDELAY.NMEAS p 0) _
    (fun p _ _ ht => (ht.setFld (by decide) p 0).setFld (by decide) p 0) (Aside.refl _ s)).modTime _).flag (by decide) evTM

theorem reroute_aside (s : State) : Aside sideFields s (reroute s) := by
  have hmeas := ((Aside.refl sideFields s).flag (f := CK_STATUS.REROUTE) (by decide) evCK).trans (remeasure_aside _)
  unfold reroute
  dsimp only
  split
  · exact hmeas.trans ((enterTq_aside 1 _).mono (by decide))
  · exact hmeas

theorem nsFields_mem (r : Nat) : nsState r ∈ sideFields ∧ nsOpen r ∈ sideFields ∧ nsPref r ∈ sideFields ∧ nsHopm r ∈ sideFields := by
  unfold nsState nsOpen nsPref nsHopm
  split <;> decide

theorem noteHop_aside (r : Nat) (odd : Bool) (h : Nat) (first : Bool) (s : State) : Aside sideFields s (noteHop r odd h first s) := by
  obtain ⟨-, -, hpref, hhopm⟩ := nsFields_mem r
  have hnoted := fun m v c => onlyIf_keeps (P := Aside sideFields s) c (f := State.setFld (nsHopm r) 0 h) (fun _ ht => ht.setFld hhopm 0 h)
    (((Aside.refl sideFields s).modRing r m).setFld hpref 0 v)
  unfold noteHop
  extract_lets heard ring fresh pref new preferred told
  have htold : Aside sideFields s told := hnoted _ _ _
  split
  · exact htold.trans (reroute_aside _)
  · exact htold

theorem setNode_aside (r v : Nat) (s : State) : Aside sideFields s (setNode r v s) := by
  obtain ⟨hstate, hopen, -, -⟩ := nsFields_mem r
  have hset := ((Aside.refl sideFields s).setFld hstate 0 v).flag (f := CK_STATUS.STCHG) (by decide) evCK
  unfold setNode
  split
  · exact Aside.refl _ s
  · dsimp only
    split
    · split
      · exact hset.setFld (f := GR_STATUS.LEARN) (by decide) 0 1
      · exact hset
    · exact (hset.setFld hopen 0 1).modRing r _

theorem enterListen_aside (r : Nat) (s : State) : Aside sideFields s (enterListen r s) := (setNode_aside r 1 s).modRing r _

theorem nodeOnFrame_aside (r ty : Nat) (s : State) : Aside sideFields s (nodeOnFrame r ty s) := by
  have hheard := (Aside.refl sideFields s).modRing r (fun x => { x with heardAt := s.tb })
  unfold nodeOnFrame
  dsimp only
  split
  · exact hheard.trans (enterListen_aside r _)
  · exact (hheard.trans (setNode_aside r 3 _)).modRing r _
  · exact hheard.trans (setNode_aside r 4 _)
  · exact ((hheard.countFld (f := CK_COLD.COLLN) (by decide) 0 1).flag (f := CK_STATUS.COLL) (by decide) evCK).trans (enterListen_aside r _)
  · exact hheard

theorem takeTstat_aside (r : Nat) (l : List Byte) (s : State) : Aside sideFields s (takeTstat r l s) := by
  have hseen := fun g c => onlyIf_keeps (P := Aside sideFields s) (f := State.modTime (fun t => { t with pubSeen := true })) c (fun _ ht => ht.modTime _)
    (show Aside sideFields s { s with graft := g } from Aside.refl sideFields s)
  unfold takeTstat
  split
  · exact Aside.refl _ s
  · extract_lets v graft noted seen told isOpen old opened
    have htold : Aside sideFields s told := hseen _ _
    clear_value old
    split
    · split
      · split
        · exact htold.modRing 0 _
        · exact (htold.modRing 0 _).trans (reroute_aside _)
      · exact htold.modRing 0 _
    · exact htold

theorem countUnknown_aside (l : List Byte) (s : State) : Aside sideFields s (countUnknown l s) := (Aside.refl _ s).countFld (by decide) 0 _

/-! ### Relaying and rejecting (R287 to R291) -/

/-- The fields that a relayed or rejected frame counts in. -/
def relayFields : List Field := [CK_PCNT1.ACCREJ, CK_STATUS.ACCREJ, CK_PCNT1.RLYDROP, CK_STATUS.RLYDROP]

/-- Relaying keeps the rings and the time unit: a frame is on a line, or counted. -/
def RelayOnly (s t : State) : Prop :=
  t = { s with regs := t.regs, engines := t.engines, cores := t.cores, lines := t.lines, free := t.free }

theorem flag_relayOnly (f : Field) (e : Nat) {s u : State} (h : u = { s with regs := u.regs }) : RelayOnly s (u.flag f e) := by
  rw [RelayOnly, State.flag_frame, h]

theorem accReject_shows (p : Nat) (s : State) : RelayOnly s (accReject p s) ∧ Aside relayFields s (accReject p s) :=
  ⟨flag_relayOnly _ _ rfl, ((Aside.refl _ s).countFld (by decide) p 1).flag (by decide) evCK⟩

theorem relay_shows (r p : Nat) (k : Prick) (l : List Byte) (s : State) : RelayOnly s (relay r p k l s) ∧ Aside relayFields s (relay r p k l s) := by
  unfold relay
  extract_lets ports out
  split
  · exact ⟨flag_relayOnly _ _ rfl, ((Aside.refl _ s).countFld (by decide) p 1).flag (by decide) evCK⟩
  · split
    · exact ⟨rfl, Aside.refl _ s⟩
    · exact ⟨rfl, Aside.refl _ s⟩

end Sys2Proof.Machine
end

section
/-! PROOFS. The spans of memory that the DMA reads and writes (11 R432 to R437; 07 R304 to R306). -/

namespace Sys2Proof.Machine

/-! ### What the DMA looks at before it stores a frame -/

/-- The fields by which the DMA judges a frame: the receive ring's, the mask, the quiesce and the input map. -/
def dmaFields : List Field :=
  [MI_MASK.MASK, MI_QUIESCE.REQ, CK_RXGEOM.NRXB, CK_RXGEOM.RXBLEN, CK_RXWI.WI, CK_RXRI.RI, CK_RXBASE.BASE] ++ mapFields

/-- The DMA finds in `t` the ring, the mask, the locks and the time that it finds in `s`. -/
structure SameDma (s t : State) : Prop where
  masked : t.masked .dma = s.masked .dma
  holds : t.dmaHolds = s.dmaHolds
  full : t.rxFull = s.rxFull
  fits : ∀ n, t.rxFits n = s.rxFits n
  addr : t.rxAddr = s.rxAddr
  held : t.rxHeld = s.rxHeld
  nowLow : t.nowLow = s.nowLow

theorem State.waitsForLock_of_locks {s t : State} (hw : t.lockWait = s.lockWait) (hl : t.locks = s.locks) (q : Req) :
    t.waitsForLock q = s.waitsForLock q := by
  unfold State.waitsForLock State.lockOf
  rw [hw, hl]

/-- Work aside of the fields that the DMA looks at leaves its judgement. -/
theorem Aside.sameDma {fs : List Field} {s t : State} (h : Aside fs s t)
    (hfs : dmaFields.all (fun g => fs.all (fun f => f.apart g)) = true) : SameDma s t := by
  have hfld : ∀ g ∈ dmaFields, t.fld g = s.fld g := fun g hg => h.kept (List.all_eq_true.1 hfs g hg) 0
  have hmap : mapFields.all (fun g => fs.all (fun f => f.apart g)) = true :=
    List.all_eq_true.2 (fun g hg => List.all_eq_true.1 hfs g (List.mem_append_right _ hg))
  have hmasked : t.masked .dma = s.masked .dma := by
    unfold State.masked State.fbit
    rw [State.input_of_keptBut h.1 hmap, hfld MI_MASK.MASK (by decide)]
  have haddr : t.rxAddr = s.rxAddr := by
    unfold State.rxAddr
    rw [hfld CK_RXBASE.BASE (by decide), hfld CK_RXGEOM.RXBLEN (by decide), h.rxNext]
  refine ⟨hmasked, ?_, ?_, fun n => ?_, haddr, h.rxHeld, ?_⟩
  · unfold State.dmaHolds State.arbHolds State.quiesced State.isSet
    rw [hmasked, State.waitsForLock_of_locks h.lockWait h.locks, State.input_of_keptBut h.1 hmap, hfld MI_QUIESCE.REQ (by decide)]
  · unfold State.rxFull
    rw [hfld CK_RXGEOM.NRXB (by decide), hfld CK_RXWI.WI (by decide), hfld CK_RXRI.RI (by decide)]
  · unfold State.rxFits
    rw [haddr, hfld CK_RXGEOM.RXBLEN (by decide)]
  · unfold State.nowLow
    rw [h.now]

theorem State.violates_eq (s : State) (n : Nat) : s.violates n = (!s.dmaHolds && !s.rxFull && !s.rxFits n) := by
  unfold State.violates State.dmaHolds
  cases s.arbHolds .dma <;> cases s.waitsForLock .dma <;> rfl

theorem State.masked_of_not_holds {s : State} (h : s.dmaHolds = false) : s.masked .dma = false := by
  unfold State.dmaHolds State.arbHolds at h
  simp only [Bool.or_eq_false_iff] at h
  exact h.2.1

theorem State.holds_of_masked {s : State} (h : s.masked .dma = true) : s.dmaHolds = true := by
  unfold State.dmaHolds State.arbHolds
  simp [h]

/-! ### Coded blocks: what a correction and a record leave (R434 to R436) -/

/-- The fields that a wrong block's correction or record writes. -/
def coded : List Field :=
  [MI_UEADDR.ADDR, MI_UEINFO.KIND, MI_UEINFO.INPUT, MI_UEINFO.WRITE, MI_UE.UE, MI_STATUS.UE, MI_STATUS.UEW, MI_STATUS.CE, MI_CE.CE1, MI_CE.CE2]

/-- Work of the memory system on blocks: the frames stored stay as they are, and every field that is not its own. -/
def BlockWork (s t : State) : Prop := KeptBut coded s t ∧ t.rxq = s.rxq

theorem BlockWork.refl (s : State) : BlockWork s s := ⟨KeptBut.refl _ s, rfl⟩

theorem BlockWork.trans {s t u : State} (h : BlockWork s t) (h' : BlockWork t u) : BlockWork s u := ⟨h.1.trans h'.1, h'.2.trans h.2⟩

/-- The fields that a correction writes. -/
def correctFields : List Field := [MI_STATUS.CE, MI_CE.CE1, MI_CE.CE2]

theorem State.correct_kept (k : Nat) (s : State) : KeptBut correctFields s (s.correct k) := by
  have hcount : (if s.badBits k = 1 then MI_CE.CE1 else MI_CE.CE2) ∈ correctFields := by split <;> decide
  have hflag := ((KeptBut.refl correctFields s).countFld hcount (kindOfKey k) 1).flag (f := MI_STATUS.CE) (by decide) evMI
  unfold State.correct
  exact onlyIf_keeps (P := KeptBut correctFields s) (f := State.setBad k 0) _ (fun _ ht => ht) hflag

theorem State.correct_blockWork (k : Nat) (s : State) : BlockWork s (s.correct k) :=
  ⟨(s.correct_kept k).mono (by decide), by rw [State.correct_frame]⟩

theorem State.badBits_correct {j k : Nat} (h : j / 16 ≠ k / 16) (s : State) : (s.correct k).badBits j = s.badBits j := by
  have herrs : ∀ c : State, (c.flag MI_STATUS.CE evMI).badBits j = c.badBits j := fun c => by rw [State.flag_frame]; rfl
  unfold State.correct
  dsimp only
  refine (onlyIf_frame (g := fun t => t.badBits j) _ (fun t => t.badBits_setBad_ne 0 h) _).trans ?_
  exact herrs _

theorem State.recordUe_blockWork (inp k : Nat) (write : Bool) (s : State) : BlockWork s (s.recordUe inp k write) := by
  refine ⟨?_, by rw [State.recordUe_frame]⟩
  unfold State.recordUe
  refine onlyIf_keeps (P := KeptBut coded s) write (fun _ ht => ht.flag (by decide) evMI) ?_
  exact ((((((KeptBut.refl coded s).setFld (by decide) 0 _).setFld (by decide) 0 _).setFld (by decide) 0 _).setFld (by decide) 0 _).countFld
    (by decide) _ 1).flag (by decide) evMI

theorem State.recordUe_read_ue (inp k : Nat) (s : State) : (s.recordUe inp k false).fld MI_STATUS.UE = 1 := State.fld_flag_self _ _ _

theorem State.badBits_recordUe (inp k : Nat) (write : Bool) (j : Nat) (s : State) : (s.recordUe inp k write).badBits j = s.badBits j := by
  rw [State.recordUe_frame]
  rfl

/-! ### Reading a span (R434, R436) -/

/-- The first `m` blocks of a span from key `k` are read. -/
def blocksRead (inp k m : Nat) (s : State) : Bool × State :=
  (List.range m).foldl (fun r j =>
    let x := r.2.readBlock inp (k / 16 * 16 + 16 * j)
    (r.1 && x.1, x.2)) (true, s)

theorem readSpan_eq (inp k n : Nat) (s : State) : readSpan inp k n s = blocksRead inp k ((k % 16 + n + 15) / 16) s := rfl

theorem blocksRead_succ (inp k m : Nat) (s : State) :
    blocksRead inp k (m + 1) s
      = ((blocksRead inp k m s).1 && ((blocksRead inp k m s).2.readBlock inp (k / 16 * 16 + 16 * m)).1,
        ((blocksRead inp k m s).2.readBlock inp (k / 16 * 16 + 16 * m)).2) := by
  unfold blocksRead
  rw [List.range_succ, List.foldl_append]
  rfl

theorem blocksRead_clean {inp k m : Nat} {s : State} (h : ∀ i, i < m → s.badBits (k / 16 * 16 + 16 * i) ≤ 0) :
    blocksRead inp k m s = (true, s) := by
  induction m with
  | zero => rfl
  | succ m ih =>
    have hread : s.readBlock inp (k / 16 * 16 + 16 * m) = (true, s) := by
      unfold State.readBlock
      rw [Nat.le_zero.1 (h m (Nat.lt_succ_self m))]
      rfl
    rw [blocksRead_succ, ih (fun i hi => h i (Nat.lt_succ_of_lt hi)), hread]
    rfl

theorem State.readBlock_blockWork (inp k : Nat) (s : State) : BlockWork s (s.readBlock inp k).2 := by
  rcases s.readBlock_cases inp k with ⟨-, h⟩ | ⟨-, h⟩ | ⟨-, h⟩ <;> rw [h]
  · exact BlockWork.refl s
  · exact s.correct_blockWork k
  · exact s.recordUe_blockWork inp k false

theorem State.badBits_readBlock {inp j k : Nat} (h : j / 16 ≠ k / 16) (s : State) : (s.readBlock inp k).2.badBits j = s.badBits j := by
  rcases s.readBlock_cases inp k with ⟨-, h'⟩ | ⟨-, h'⟩ | ⟨-, h'⟩ <;> rw [h']
  · exact State.badBits_correct h s
  · exact State.badBits_recordUe inp k false j s

/-- An uncorrectable block shows in MI_STATUS.UE, and no later block takes that back. -/
theorem State.readBlock_ue {inp k : Nat} {s : State} (h : 3 ≤ s.badBits k ∨ s.fld MI_STATUS.UE = 1) :
    (s.readBlock inp k).2.fld MI_STATUS.UE = 1 := by
  rcases s.readBlock_cases inp k with ⟨hb, h'⟩ | ⟨hb, h'⟩ | ⟨-, h'⟩ <;> rw [h']
  · exact h.resolve_left (by omega)
  · exact (s.correct_kept k _ (by decide) 0).trans (h.resolve_left (by omega))
  · exact s.recordUe_read_ue inp k

theorem State.readBlock_of_bad {inp k : Nat} {s : State} (h : 3 ≤ s.badBits k) : (s.readBlock inp k).1 = false := by
  rcases s.readBlock_cases inp k with ⟨hb, -⟩ | ⟨hb, -⟩ | ⟨-, h'⟩
  · omega
  · omega
  · rw [h']

theorem blocksRead_blockWork (inp k m : Nat) (s : State) : BlockWork s (blocksRead inp k m s).2 := by
  induction m with
  | zero => exact BlockWork.refl s
  | succ m ih =>
    rw [blocksRead_succ]
    exact ih.trans (State.readBlock_blockWork _ _ _)

theorem badBits_blocksRead {inp k m j : Nat} (h : m ≤ j) (s : State) :
    (blocksRead inp k m s).2.badBits (k / 16 * 16 + 16 * j) = s.badBits (k / 16 * 16 + 16 * j) := by
  induction m with
  | zero => rfl
  | succ m ih =>
    rw [blocksRead_succ]
    exact (State.badBits_readBlock (by omega) _).trans (ih (by omega))

theorem blocksRead_of_bad {inp k m : Nat} {s : State} (h : ∃ i, i < m ∧ 3 ≤ s.badBits (k / 16 * 16 + 16 * i)) :
    (blocksRead inp k m s).1 = false ∧ (blocksRead inp k m s).2.fld MI_STATUS.UE = 1 := by
  induction m with
  | zero =>
    obtain ⟨i, hi, -⟩ := h
    exact absurd hi (Nat.not_lt_zero i)
  | succ m ih =>
    rw [blocksRead_succ]
    by_cases hlast : 3 ≤ s.badBits (k / 16 * 16 + 16 * m)
    · rw [← badBits_blocksRead (inp := inp) (Nat.le_refl m)] at hlast
      exact ⟨by rw [State.readBlock_of_bad hlast, Bool.and_false], State.readBlock_ue (.inl hlast)⟩
    · obtain ⟨i, hi, hbad⟩ := h
      have him : i ≠ m := fun h => hlast (h ▸ hbad)
      obtain ⟨hfirst, hue⟩ := ih ⟨i, by omega, hbad⟩
      exact ⟨by rw [hfirst, Bool.false_and], State.readBlock_ue (.inr hue)⟩

/-! ### Writing a span (R435) -/

/-- The part of a write from key `k` that falls into the block at `a`. -/
def partOf (k : Nat) (l : List Byte) (a : Nat) : List Byte := (l.drop (max k a - k)).take (a + 16 - max k a)

theorem State.wrL_blockWork (k : Nat) (l : List Byte) (s : State) : BlockWork s (s.wrL k l) := by
  rw [State.wrL_frame]
  exact BlockWork.refl s

theorem State.mergeBlock_blockWork (inp k : Nat) (s : State) : BlockWork s (s.mergeBlock inp k).2 := by
  rcases s.mergeBlock_cases inp k with ⟨-, h⟩ | ⟨-, h⟩ | ⟨-, h⟩ <;> rw [h]
  · exact BlockWork.refl s
  · exact s.correct_blockWork k
  · exact s.recordUe_blockWork inp k true

theorem State.mergeBlock_of_good {inp k : Nat} {s : State} (h : s.badBits k ≤ 2) :
    (s.mergeBlock inp k).1 = true ∧ ∀ y, (s.mergeBlock inp k).2.byte y = s.byte y := by
  rcases s.mergeBlock_cases inp k with ⟨-, h'⟩ | ⟨-, h'⟩ | ⟨hb, -⟩
  · rw [h']
    exact ⟨rfl, fun _ => rfl⟩
  · rw [h']
    exact ⟨rfl, fun y => by rw [State.correct_frame]; rfl⟩
  · omega

theorem State.badBits_mergeBlock {inp j k : Nat} (h : j / 16 ≠ k / 16) (s : State) : (s.mergeBlock inp k).2.badBits j = s.badBits j := by
  rcases s.mergeBlock_cases inp k with ⟨-, h'⟩ | ⟨-, h'⟩ | ⟨-, h'⟩ <;> rw [h']
  · exact State.badBits_correct h s
  · exact State.badBits_recordUe inp k true j s

theorem State.badBits_wrL (k : Nat) (l : List Byte) (j : Nat) (s : State) : (s.wrL k l).badBits j = s.badBits j := by
  rw [State.wrL_frame]
  rfl

/-- A write of a list of bytes, byte by byte. -/
theorem State.byte_wrL (k : Nat) (l : List Byte) (y : Nat) (s : State) :
    (s.wrL k l).byte y = if k ≤ y ∧ y < k + l.length then l[y - k]?.getD 0 else s.byte y := by
  split
  · rename_i h
    have hlt : y - k < l.length := by omega
    have hin := State.byte_wrL_of_in l k (y - k) s hlt
    rw [Nat.add_sub_of_le h.1] at hin
    rw [hin, List.getElem?_eq_getElem hlt]
    rfl
  · exact State.byte_wrL_of_out l k s (by omega)

theorem byte_partOf {k a y : Nat} (l : List Byte) (s : State) :
    (s.wrL (max k a) (partOf k l a)).byte y = if k ≤ y ∧ a ≤ y ∧ y < a + 16 ∧ y < k + l.length then l[y - k]?.getD 0 else s.byte y := by
  have hlen : (partOf k l a).length = min (a + 16 - max k a) (l.length - (max k a - k)) := by
    rw [partOf, List.length_take, List.length_drop]
  rw [State.byte_wrL, hlen]
  by_cases h : k ≤ y ∧ a ≤ y ∧ y < a + 16 ∧ y < k + l.length
  · rw [if_pos h, if_pos (by omega), partOf, List.getElem?_take_of_lt (by omega), List.getElem?_drop,
      show max k a - k + (y - max k a) = y - k by omega]
  · rw [if_neg h, if_neg (by omega)]

theorem writePart_eq (inp k : Nat) (l : List Byte) (a : Nat) (s : State) :
    writePart inp k l a s
      = if (partOf k l a).length = 16 then (true, (s.wrL (max k a) (partOf k l a)).setBad a 0)
        else ((s.mergeBlock inp a).1,
          if (s.mergeBlock inp a).1 then (s.mergeBlock inp a).2.wrL (max k a) (partOf k l a) else (s.mergeBlock inp a).2) := rfl

theorem writePart_blockWork (inp k : Nat) (l : List Byte) (a : Nat) (s : State) : BlockWork s (writePart inp k l a s).2 := by
  have hmerge := s.mergeBlock_blockWork inp a
  rw [writePart_eq]
  split
  · exact s.wrL_blockWork _ _
  · dsimp only
    split
    · exact hmerge.trans (State.wrL_blockWork _ _ _)
    · exact hmerge

theorem badBits_writePart {inp k a j : Nat} (l : List Byte) (h : j / 16 ≠ a / 16) (s : State) :
    (writePart inp k l a s).2.badBits j = s.badBits j := by
  have hmerge := State.badBits_mergeBlock (inp := inp) h s
  rw [writePart_eq]
  split
  · exact (State.badBits_setBad_ne _ 0 h).trans (State.badBits_wrL _ _ _ _)
  · dsimp only
    split
    · exact (State.badBits_wrL _ _ _ _).trans hmerge
    · exact hmerge

theorem byte_writePart {inp k a : Nat} (l : List Byte) {s : State} (h : s.badBits a ≤ 2) (y : Nat) :
    (writePart inp k l a s).2.byte y = if k ≤ y ∧ a ≤ y ∧ y < a + 16 ∧ y < k + l.length then l[y - k]?.getD 0 else s.byte y := by
  obtain ⟨hdone, hbyte⟩ := State.mergeBlock_of_good (inp := inp) h
  rw [writePart_eq]
  split
  · exact byte_partOf l s
  · dsimp only
    rw [byte_partOf, hbyte]

/-- The first `m` blocks of a write of `l` from key `k` are written. -/
def blocksWritten (inp k : Nat) (l : List Byte) (m : Nat) (s : State) : Bool × State :=
  (List.range m).foldl (fun r j =>
    let x := writePart inp k l (k / 16 * 16 + 16 * j) r.2
    (r.1 && x.1, x.2)) (true, s)

theorem blocksWritten_succ (inp k : Nat) (l : List Byte) (m : Nat) (s : State) :
    (blocksWritten inp k l (m + 1) s).2 = (writePart inp k l (k / 16 * 16 + 16 * m) (blocksWritten inp k l m s).2).2 := by
  unfold blocksWritten
  rw [List.range_succ, List.foldl_append]
  rfl

theorem badBits_blocksWritten {inp k m j : Nat} (l : List Byte) (h : m ≤ j) (s : State) :
    (blocksWritten inp k l m s).2.badBits (k / 16 * 16 + 16 * j) = s.badBits (k / 16 * 16 + 16 * j) := by
  induction m with
  | zero => rfl
  | succ m ih =>
    rw [blocksWritten_succ]
    exact (badBits_writePart l (by omega) _).trans (ih (by omega))

theorem byte_blocksWritten {inp k m : Nat} (l : List Byte) {s : State} (h : ∀ i, i < m → s.badBits (k / 16 * 16 + 16 * i) ≤ 2) (y : Nat) :
    (blocksWritten inp k l m s).2.byte y
      = if k ≤ y ∧ y < k / 16 * 16 + 16 * m ∧ y < k + l.length then l[y - k]?.getD 0 else s.byte y := by
  induction m with
  | zero => exact (if_neg (by omega)).symm
  | succ m ih =>
    have hlast := h m (Nat.lt_succ_self m)
    rw [← badBits_blocksWritten (inp := inp) l (Nat.le_refl m)] at hlast
    rw [blocksWritten_succ, byte_writePart l hlast, ih (fun i hi => h i (Nat.lt_succ_of_lt hi))]
    split
    · exact (if_pos (by omega)).symm
    · split
      · exact (if_pos (by omega)).symm
      · exact (if_neg (by omega)).symm

/-- A write over blocks with at most two wrong bits each: its bytes stand in memory, and no other byte changes. -/
theorem byte_writeSpan {inp k : Nat} {l : List Byte} {s : State}
    (h : ∀ i, i < (k % 16 + l.length + 15) / 16 → s.badBits (k / 16 * 16 + 16 * i) ≤ 2) (y : Nat) :
    (writeSpan inp k l s).2.byte y = if k ≤ y ∧ y < k + l.length then l[y - k]?.getD 0 else s.byte y := by
  refine (byte_blocksWritten l h y).trans ?_
  by_cases hy : k ≤ y ∧ y < k + l.length
  · rw [if_pos hy, if_pos (by omega)]
  · rw [if_neg hy, if_neg (by omega)]

theorem writeSpan_blockWork (inp k : Nat) (l : List Byte) (s : State) : BlockWork s (writeSpan inp k l s).2 := by
  change BlockWork s (blocksWritten inp k l ((k % 16 + l.length + 15) / 16) s).2
  generalize (k % 16 + l.length + 15) / 16 = m
  induction m with
  | zero => exact BlockWork.refl s
  | succ m ih =>
    rw [blocksWritten_succ]
    exact ih.trans (writePart_blockWork _ _ _ _ _)

end Sys2Proof.Machine
end

section
/-! PROOFS. Reception (07 R269, R277, R290 to R292, R304). -/

namespace Sys2Proof.Machine

/-! ### Storing a frame (R302, R304) -/

/-- The fields of the receive ring and of the blocks that a store touches. -/
def storeFields : List Field := CK_RXWI.WI :: coded

/-- The sixteen bytes before a stored frame (Table CK-10). -/
def rxHead (p : Nat) (bridged : Bool) (t : Nat) (l : List Byte) : List Byte :=
  leBytes 4 t ++ [BitVec.ofNat 8 p, BitVec.ofNat 8 (bit bridged)] ++ leBytes 2 l.length ++ leBytes 8 0

theorem length_rxHead (p : Nat) (bridged : Bool) (t : Nat) (l : List Byte) : (rxHead p bridged t l).length = 16 := by
  simp [rxHead]

/-- The frame of `n` bytes in the buffer at `a` reads as `l`, in `t`, and nothing else has changed since `s`. -/
def Written (a : Nat) (l : List Byte) (s t : State) : Prop :=
  (∀ i, i < (a % 16 + 16 + l.length + 15) / 16 → s.badBits (a / 16 * 16 + 16 * i) ≤ 2) →
    (∀ i, i < l.length → t.byte (a + 16 + i) = l[i]?.getD 0) ∧ ∀ y, y < a ∨ a + 16 + l.length ≤ y → t.byte y = s.byte y

theorem storeFrame_shows (p : Nat) (bridged : Bool) (at_ : Nat) (l : List Byte) (s : State) :
    let t := storeFrame p bridged at_ l s
    t.rxq = s.rxq ++ [(s.rxAddr, l.length)] ∧ t.fld CK_RXWI.WI = (s.fld CK_RXWI.WI + 1) % 2048 ∧ KeptBut storeFields s t
      ∧ Written s.rxAddr l s t := by
  have hlen : (rxHead p bridged at_ l ++ l).length = 16 + l.length := by rw [List.length_append, length_rxHead]
  obtain ⟨hkept, hrxq⟩ := writeSpan_blockWork (s.input .dma) s.rxAddr (rxHead p bridged at_ l ++ l) s
  refine ⟨congrArg (· ++ [(s.rxAddr, l.length)]) hrxq, State.fld_setFld_self _ CK_RXWI.WI 0 _, ?_, fun hbad => ?_⟩
  · exact (hkept.mono (List.subset_cons_self _ _)).setFld (f := CK_RXWI.WI) (by decide) 0 _
  · have hbyte := fun y => byte_writeSpan (inp := s.input .dma) (k := s.rxAddr) (l := rxHead p bridged at_ l ++ l) (s := s)
      (fun i hi => hbad i (by rw [hlen, ← Nat.add_assoc] at hi; exact hi)) y
    refine ⟨fun i hi => (hbyte _).trans ?_, fun y hy => (hbyte y).trans (if_neg (by omega))⟩
    rw [if_pos (by omega), Nat.add_assoc, Nat.add_sub_cancel_left, List.getElem?_append_right (by rw [length_rxHead]; omega), length_rxHead,
      Nat.add_sub_cancel_left]

theorem storeState_blockWork (cyc n : Nat) (b : List Byte) (s : State) : BlockWork s (storeState cyc n b s) := by
  unfold storeState
  dsimp only
  split
  · exact BlockWork.refl s
  · exact writeSpan_blockWork _ _ _ s

theorem storeStates_of_unset {s : State} (h : s.fld CK_SSBASE.BASE = 0) (r : Nat) (k : Prick) (l : List Byte) : storeStates r k l s = s := by
  unfold storeStates
  rw [h]
  rfl

theorem storeStates_blockWork (r : Nat) (k : Prick) (l : List Byte) (s : State) : BlockWork s (storeStates r k l s) := by
  have hentry : ∀ c n m b t, BlockWork s t → BlockWork s (storeState c n b (noteVia r m t)) :=
    fun c n m b t ht => ht.trans (storeState_blockWork c n b (noteVia r m t))
  unfold storeStates
  split
  · exact BlockWork.refl s
  · refine forEach_keeps (P := BlockWork s) _ (fun e _ t ht => ?_) (BlockWork.refl s)
    split
    · exact hentry _ _ _ _ t ht
    · split
      · refine forEach_keeps (P := BlockWork s) _ (fun i _ u hu => ?_) ht
        dsimp only
        split
        · exact hu
        · exact hentry _ _ _ _ u hu
      · exact ht

/-- What a frame's way into the receive ring leaves: the queue one longer, the write index one further. -/
structure Stores (l : List Byte) (s t : State) : Prop where
  rxq : t.rxq = s.rxq ++ [(s.rxAddr, l.length)]
  wi : t.fld CK_RXWI.WI = (s.fld CK_RXWI.WI + 1) % 2048
  kept : KeptBut storeFields s t
  bytes : s.fld CK_SSBASE.BASE = 0 → Written s.rxAddr l s t

theorem storeWhole_of_full {p r at_ : Nat} {l : List Byte} {s : State} (h : s.rxFull = true) :
    storeWhole p r at_ l s = s.flag CK_STATUS.RXOVF evCK := if_pos h

theorem storeWhole_stores {l : List Byte} {s : State} (hroom : s.rxFull = false) (hfits : s.rxFits l.length = true) (p r at_ : Nat) :
    Stores l s (storeWhole p r at_ l s) := by
  obtain ⟨hrxq, hwi, hkept, hbytes⟩ := storeFrame_shows p (r == 1) at_ l s
  unfold storeWhole
  rw [if_neg (by simp [hroom]), if_neg (by simp [hfits])]
  generalize storeFrame p (r == 1) at_ l s = t at hrxq hwi hkept hbytes
  dsimp only
  split
  · rename_i k _
    obtain ⟨hstates, hqueue⟩ := storeStates_blockWork r k l t
    refine ⟨hqueue.trans hrxq, (hstates _ (by decide) 0).trans hwi, hkept.trans (hstates.mono (List.subset_cons_self _ _)), fun hbase => ?_⟩
    rw [storeStates_of_unset ((hkept _ (by decide) 0).trans hbase)]
    exact hbytes
  · exact ⟨hrxq, hwi, hkept, fun _ => hbytes⟩

theorem flushHeld_of_none {s : State} (h : s.rxHeld = []) : flushHeld s = s := by
  unfold flushHeld
  rw [h]
  split
  · rfl
  · rw [forEach_nil, ← h]

/-! ### The acceptance of a first copy (R290, R304) -/

/-- A first valid copy is noted and counted. -/
def copyCounted (r p : Nat) (l : List Byte) (s : State) : State :=
  (s.modRing r (fun x => { x with seen := x.seen ++ [(fSrc l, fSlot l, fCyc l, s.cycle)] })).countFld CK_PCNT0.RXOK p 1

/-- A frame of the master, heard in ACQUIRE or later. -/
def masterHeard (r : Nat) (l : List Byte) (s : State) : State :=
  onlyIf (s.windowed && s.time.follow == some (fSrc l)) (State.modRing r (fun x => { x with seenMaster := true })) s

/-- What the node takes from a first copy before the DMA stores it. -/
def copyNoted (r p : Nat) (l : List Byte) (s : State) : State :=
  takeTstat r l (countUnknown l (masterHeard r l (copyCounted r p l s)))

/-- The DMA stores a frame, holds it, or drops it (R304; 04 R206, 11 R447). -/
def dmaTaken (p r : Nat) (l : List Byte) (s : State) : State :=
  if s.masked .dma then s
  else if s.dmaHolds then { s with rxHeld := s.rxHeld ++ [(p, r == 1, s.nowLow, l)] } else storeWhole p r s.nowLow l (flushHeld s)

theorem acceptFrame_eq (r p : Nat) (l : List Byte) (s : State) :
    acceptFrame r p l s = nodeOnFrame r (fType l) (dmaTaken p r l (copyNoted r p l s)) := rfl

/-- The fields written before the DMA looks at a frame. -/
def notedFields : List Field := CK_PCNT0.RXOK :: sideFields

theorem copyNoted_shows (r p : Nat) (l : List Byte) (s : State) :
    let t := copyNoted r p l s
    Aside notedFields s t ∧ t.fld CK_PCNT0.RXOK p = min 65535 (s.fld CK_PCNT0.RXOK p + 1) := by
  have hcounted : Aside notedFields s (copyCounted r p l s) := ((Aside.refl notedFields s).modRing r _).countFld (by decide) p 1
  have hheard : Aside sideFields (copyCounted r p l s) (masterHeard r l (copyCounted r p l s)) :=
    onlyIf_keeps (P := Aside sideFields _) _ (fun _ ht => ht.modRing r _) (Aside.refl _ _)
  have hside := (hheard.trans (countUnknown_aside l _)).trans (takeTstat_aside r l _)
  exact ⟨hcounted.trans (hside.mono (List.subset_cons_self _ _)), (hside.kept (by decide) p).trans (State.fld_countFld_self _ _ _ _)⟩

theorem dmaTaken_of_masked {p r : Nat} {l : List Byte} {s : State} (h : s.masked .dma = true) : dmaTaken p r l s = s := if_pos h

theorem dmaTaken_of_holds {p r : Nat} {l : List Byte} {s : State} (hm : s.masked .dma = false) (h : s.dmaHolds = true) :
    dmaTaken p r l s = { s with rxHeld := s.rxHeld ++ [(p, r == 1, s.nowLow, l)] } :=
  (if_neg (by simp [hm])).trans (if_pos h)

theorem dmaTaken_of_free {p r : Nat} {l : List Byte} {s : State} (h : s.dmaHolds = false) (hheld : s.rxHeld = []) :
    dmaTaken p r l s = storeWhole p r s.nowLow l s := by
  unfold dmaTaken
  rw [if_neg (by simp [State.masked_of_not_holds h]), if_neg (by simp [h]), flushHeld_of_none hheld]

end Sys2Proof.Machine
end

section
/-! PROOFS. The checks that a received frame meets, one after another (07 R269, R277, R290 to R292). -/

namespace Sys2Proof.Machine

/-! ### The order of the checks -/

/-- Port `p` of ring `r` is joined and started, and the frame on it is the ring's own kind (R269, R277). -/
structure Arrives (s : State) (p r : Nat) (k : Prick) (l : List Byte) : Prop where
  ring : s.portRing p = some r
  prick : s.prick r = some k
  joined : s.portJoined p = true
  node : s.node r ≠ 0
  type : fType l ≠ 4
  taken : s.discards l = false

/-- What the FCS and the header show is counted (R277). -/
def headNoted (r p : Nat) (head : HeadCheck) (fcs : Bool) (s : State) : State :=
  onlyIf (head == .timing) (State.modRing r (fun x => { x with badFrame := true }))
    (onlyIf (head == .pid) (State.flag CK_STATUS.PIDERR evCK) (onlyIf (!fcs) (State.countFld CK_PCNT2.FCSERR p 1) s))

/-- A frame with a right header goes on, as far as HOP and TYPE let it (R287). -/
def passedOn (r p : Nat) (k : Prick) (l : List Byte) (s : State) : State :=
  if decide (fHop l < k.npos - 1) && decide (fType l ≤ 3) then relay r p k l s else accReject p s

/-- The HOP of the master's frame is noted (R299). -/
def hopNoted (r : Nat) (odd : Bool) (l : List Byte) (first : Bool) (s : State) : State :=
  if s.time.follow == some (fSrc l) && r == 0 then noteHop r odd (fHop l) first s else s

/-- This copy is not the first (R290). -/
def State.hasSeen (s : State) (r : Nat) (l : List Byte) : Bool :=
  (s.ring r).seen.any (fun x => x.1 == fSrc l && x.2.1 == fSlot l && x.2.2.1 == fCyc l)

/-- A frame with a right FCS and header: the safety code, a copy already seen, the receive ring (R290, R291, R306). -/
def safeTaken (r p : Nat) (k : Prick) (odd : Bool) (l : List Byte) (s : State) : State :=
  if !safeOk k l then (s.countFld CK_PCNT0.SCERR p 1).flag CK_STATUS.SCERR evCK
  else if !s.hasSeen r l && s.violates l.length then s.flag CK_STATUS.BUFVIOL evCK
  else hopNoted r odd l (!s.hasSeen r l) (if s.hasSeen r l then s else acceptFrame r p l s)

theorem frameReceived_of_ring {s : State} {p r : Nat} {k : Prick} (hr : s.portRing p = some r) (hk : s.prick r = some k) (l : List Byte) :
    frameReceived p l s
      = if !s.portJoined p || s.node r == 0 || s.discards l || fType l == 4 then s
        else if fSrc l == s.fld ID_NODE.NODE then
          (if fcsOk l then ownReturn r ((s.ringPorts r).2 == p) l (headNoted r p (s.headCheck r p k l) (fcsOk l) s)
            else headNoted r p (s.headCheck r p k l) (fcsOk l) s)
        else if s.headCheck r p k l ≠ .ok then
          (if fcsOk l then accReject p (headNoted r p (s.headCheck r p k l) (fcsOk l) s)
            else headNoted r p (s.headCheck r p k l) (fcsOk l) s)
        else if !fcsOk l then passedOn r p k l (headNoted r p (s.headCheck r p k l) (fcsOk l) s)
        else safeTaken r p k ((s.ringPorts r).2 == p) l (passedOn r p k l (headNoted r p (s.headCheck r p k l) (fcsOk l) s)) := by
  unfold frameReceived
  simp -zeta only [hr, hk]
  rfl

theorem frameReceived_of_arrives {s : State} {p r : Nat} {k : Prick} {l : List Byte} (h : Arrives s p r k l) :
    frameReceived p l s
      = if fSrc l == s.fld ID_NODE.NODE then
          (if fcsOk l then ownReturn r ((s.ringPorts r).2 == p) l (headNoted r p (s.headCheck r p k l) (fcsOk l) s)
            else headNoted r p (s.headCheck r p k l) (fcsOk l) s)
        else if s.headCheck r p k l ≠ .ok then
          (if fcsOk l then accReject p (headNoted r p (s.headCheck r p k l) (fcsOk l) s)
            else headNoted r p (s.headCheck r p k l) (fcsOk l) s)
        else if !fcsOk l then passedOn r p k l (headNoted r p (s.headCheck r p k l) (fcsOk l) s)
        else safeTaken r p k ((s.ringPorts r).2 == p) l (passedOn r p k l (headNoted r p (s.headCheck r p k l) (fcsOk l) s)) := by
  rw [frameReceived_of_ring h.ring h.prick]
  exact if_neg (by simp [h.joined, h.node, h.taken, h.type])

/-! ### What each check leaves -/

/-- The fields that the first checks write. -/
def headFields : List Field := [CK_PCNT2.FCSERR, CK_STATUS.PIDERR]

theorem headNoted_ok (r p : Nat) (s : State) : headNoted r p .ok true s = s := rfl

theorem headNoted_aside (r p : Nat) (head : HeadCheck) (fcs : Bool) (s : State) : Aside headFields s (headNoted r p head fcs s) :=
  onlyIf_keeps (P := Aside headFields s) _ (fun _ ht => ht.modRing r _) (onlyIf_keeps (P := Aside headFields s) _ (fun _ ht => ht.flag (by decide) evCK)
    (onlyIf_keeps (P := Aside headFields s) _ (fun _ ht => ht.countFld (by decide) p 1) (Aside.refl _ s)))

/-- The lines, and what the node expects back in ring `r`. -/
def State.returns (s : State) (r : Nat) : Tab (List Byte) × List Ret × List Ret := (s.lines, (s.ring r).rets, (s.ring r).late)

theorem State.flag_returns (s : State) (f : Field) (e r : Nat) : (s.flag f e).returns r = s.returns r := by
  rw [State.flag_frame]
  rfl

theorem headNoted_returns (r p : Nat) (head : HeadCheck) (fcs : Bool) (s : State) : (headNoted r p head fcs s).returns r = s.returns r := by
  have hmod : ∀ t : State, (State.modRing r (fun x => { x with badFrame := true }) t).returns r = t.returns r := fun t => by
    unfold State.returns
    rw [State.modRing_ring_self]
    rfl
  exact (onlyIf_frame (g := fun t => t.returns r) _ hmod _).trans
    ((onlyIf_frame (g := fun t => t.returns r) _ (fun t => t.flag_returns _ _ r) _).trans
      (onlyIf_frame (g := fun t => t.returns r) (f := State.countFld CK_PCNT2.FCSERR p 1) _ (fun _ => rfl) s))

theorem headNoted_fcserr (r p : Nat) (head : HeadCheck) (s : State) :
    (headNoted r p head false s).fld CK_PCNT2.FCSERR p = min 65535 (s.fld CK_PCNT2.FCSERR p + 1) := by
  have hpid : ∀ t : State, (t.flag CK_STATUS.PIDERR evCK).fld CK_PCNT2.FCSERR p = t.fld CK_PCNT2.FCSERR p :=
    fun t => State.fld_flag_apart (by decide) evCK p t
  exact (onlyIf_frame (g := fun t => t.fld CK_PCNT2.FCSERR p) (f := State.modRing r (fun x => { x with badFrame := true })) _ (fun _ => rfl) _).trans
    ((onlyIf_frame (g := fun t => t.fld CK_PCNT2.FCSERR p) _ hpid _).trans (State.fld_countFld_self s CK_PCNT2.FCSERR p 1))

theorem headNoted_piderr (r p : Nat) (fcs : Bool) (s : State) : (headNoted r p .pid fcs s).fld CK_STATUS.PIDERR = 1 := State.fld_flag_self _ _ _

theorem passedOn_shows (r p : Nat) (k : Prick) (l : List Byte) (s : State) :
    RelayOnly s (passedOn r p k l s) ∧ Aside relayFields s (passedOn r p k l s) := by
  unfold passedOn
  split
  · exact relay_shows r p k l s
  · exact accReject_shows p s

theorem RelayOnly.ring {s t : State} (h : RelayOnly s t) (r : Nat) : t.ring r = s.ring r := by
  rw [h]
  rfl

theorem hopNoted_aside (r : Nat) (odd : Bool) (l : List Byte) (first : Bool) (s : State) : Aside sideFields s (hopNoted r odd l first s) := by
  unfold hopNoted
  split
  · exact noteHop_aside r odd (fHop l) first s
  · exact Aside.refl _ s

theorem nsState_apart (r : Nat) :
    headFields.all (fun f => f.apart (nsState r)) = true ∧ relayFields.all (fun f => f.apart (nsState r)) = true := by
  unfold nsState
  split <;> decide

/-- A frame with a wrong FCS is counted and goes on at most; it stores nothing (R291). -/
theorem frameReceived_badFcs {s : State} {p r : Nat} {k : Prick} {l : List Byte} (h : Arrives s p r k l) (hfcs : fcsOk l = false) :
    let t := frameReceived p l s
    t.rxq = s.rxq ∧ t.mem = s.mem ∧ t.node r = s.node r ∧ t.fld CK_PCNT2.FCSERR p = min 65535 (s.fld CK_PCNT2.FCSERR p + 1) := by
  obtain ⟨hnode, hnode'⟩ := nsState_apart r
  have hcount := headNoted_fcserr r p (s.headCheck r p k l) s
  have hhead := headNoted_aside r p (s.headCheck r p k l) false s
  have hstay : ∀ t, Aside relayFields (headNoted r p (s.headCheck r p k l) false s) t →
      t.rxq = s.rxq ∧ t.mem = s.mem ∧ t.node r = s.node r ∧ t.fld CK_PCNT2.FCSERR p = min 65535 (s.fld CK_PCNT2.FCSERR p + 1) :=
    fun t ht => ⟨ht.rxq.trans hhead.rxq, ht.mem.trans hhead.mem, (ht.kept hnode' 0).trans (hhead.kept hnode 0), (ht.kept (by decide) p).trans hcount⟩
  rw [frameReceived_of_arrives h, hfcs]
  split
  · exact hstay _ (Aside.refl _ _)
  · split
    · exact hstay _ (Aside.refl _ _)
    · exact hstay _ (passedOn_shows r p k l _).2

/-- A frame with a wrong header is rejected (R277, R291). -/
theorem frameReceived_badHead {s : State} {p r : Nat} {k : Prick} {l : List Byte} (h : Arrives s p r k l) (hfcs : fcsOk l = true)
    (hsrc : fSrc l ≠ s.fld ID_NODE.NODE) (hhead : s.headCheck r p k l ≠ .ok) :
    let t := frameReceived p l s
    t.rxq = s.rxq ∧ t.lines = s.lines ∧ t.mem = s.mem ∧ t.fld CK_PCNT1.ACCREJ p = min 65535 (s.fld CK_PCNT1.ACCREJ p + 1)
      ∧ t.fld CK_STATUS.ACCREJ = 1 ∧ (s.headCheck r p k l = .pid → t.fld CK_STATUS.PIDERR = 1) := by
  have hnoted := headNoted_aside r p (s.headCheck r p k l) true s
  have hlines := congrArg Prod.fst (headNoted_returns r p (s.headCheck r p k l) true s)
  have hpid : s.headCheck r p k l = .pid → (headNoted r p (s.headCheck r p k l) true s).fld CK_STATUS.PIDERR = 1 := fun hp => by
    rw [hp]
    exact headNoted_piderr r p true s
  rw [frameReceived_of_arrives h, if_neg (by simp [hsrc]), if_pos hhead, hfcs, if_pos rfl]
  generalize headNoted r p (s.headCheck r p k l) true s = u at hnoted hlines hpid
  obtain ⟨hrelay, haside⟩ := accReject_shows p u
  refine ⟨haside.rxq.trans hnoted.rxq, ?_, haside.mem.trans hnoted.mem, ?_, State.fld_flag_self _ _ _, fun hp => (haside.kept (by decide) 0).trans (hpid hp)⟩
  · exact (by unfold accReject; rw [State.flag_frame]; rfl : (accReject p u).lines = u.lines).trans hlines
  · rw [← hnoted.kept (g := CK_PCNT1.ACCREJ) (by decide) p]
    exact (State.fld_flag_apart (by decide) _ _ _).trans (State.fld_countFld_self _ _ _ _)

/-! ### A returned frame (R292) -/

theorem ownReturn_of_none {s : State} {r : Nat} {l : List Byte} (h : s.returned r l = none) (odd : Bool) : ownReturn r odd l s = s := by
  unfold ownReturn
  rw [h]

/-- What a returned frame sets: nothing but RETERR, and that when the safety code is another than the frame's it is matched with. -/
theorem ownReturn_of_some {s : State} {r : Nat} {l : List Byte} {x : Ret} (h : s.returned r l = some x) (odd : Bool) :
    let t := ownReturn r odd l s
    Aside [CK_STATUS.RETERR] s t ∧ t.lines = s.lines
      ∧ t.fld CK_STATUS.RETERR = if fle l (l.length - 8) 4 = x.scode then s.fld CK_STATUS.RETERR else 1 := by
  unfold ownReturn
  rw [h]
  dsimp only
  split
  · exact ⟨(Aside.refl _ s).modRing r _, rfl, rfl⟩
  · exact ⟨((Aside.refl _ s).modRing r _).flag (by decide) evCK, by rw [State.flag_frame]; rfl, State.fld_flag_self _ _ _⟩

/-- The frames of this node that a returned copy can be: of its slot and CYC. -/
def State.sentAs (s : State) (r : Nat) (l : List Byte) : List Ret :=
  ((s.ring r).rets ++ (s.ring r).late).filter (fun x => x.slot == fSlot l && x.cyc == fCyc l)

theorem State.returned_eq (s : State) (r : Nat) (l : List Byte) :
    s.returned r l = ((s.sentAs r l).find? (fun x => x.scode == fle l (l.length - 8) 4)).or (s.sentAs r l).head? := rfl

theorem State.mem_sentAs {s : State} {r : Nat} {l : List Byte} {x : Ret} :
    x ∈ s.sentAs r l ↔ x ∈ (s.ring r).rets ++ (s.ring r).late ∧ x.slot = fSlot l ∧ x.cyc = fCyc l := by
  rw [State.sentAs, List.mem_filter, Bool.and_eq_true, beq_iff_eq, beq_iff_eq]

theorem State.returned_congr {s t : State} {r : Nat} (h : t.returns r = s.returns r) (l : List Byte) : t.returned r l = s.returned r l := by
  have hrets : (t.ring r).rets = (s.ring r).rets := congrArg (fun x => x.2.1) h
  have hlate : (t.ring r).late = (s.ring r).late := congrArg (fun x => x.2.2) h
  unfold State.returned
  rw [hrets, hlate]

theorem State.returned_of_empty {s : State} {r : Nat} {l : List Byte} (h : ∀ x, x ∉ s.sentAs r l) : s.returned r l = none := by
  rw [State.returned_eq, List.eq_nil_iff_forall_not_mem.2 h]
  rfl

/-- Where a frame was sent with the safety code, the returned copy is matched with one of that code. -/
theorem State.returned_of_match {s : State} {r : Nat} {l : List Byte} {x : Ret} (h : x ∈ s.sentAs r l) (hc : x.scode = fle l (l.length - 8) 4) :
    ∃ y, s.returned r l = some y ∧ y.scode = fle l (l.length - 8) 4 := by
  rw [State.returned_eq]
  cases hfind : (s.sentAs r l).find? (fun x => x.scode == fle l (l.length - 8) 4) with
  | none => exact absurd (List.find?_eq_none.1 hfind x h) (by simp [hc])
  | some y =>
    have hy := List.find?_some hfind
    exact ⟨y, rfl, beq_iff_eq.1 hy⟩

/-- Where frames were sent, but none with the safety code, the returned copy is matched with one of another code. -/
theorem State.returned_of_differ {s : State} {r : Nat} {l : List Byte} {x : Ret} (h : x ∈ s.sentAs r l)
    (hne : ∀ y ∈ s.sentAs r l, y.scode ≠ fle l (l.length - 8) 4) : ∃ y, s.returned r l = some y ∧ y.scode ≠ fle l (l.length - 8) 4 := by
  have hfind : (s.sentAs r l).find? (fun x => x.scode == fle l (l.length - 8) 4) = none :=
    List.find?_eq_none.2 (fun y hy => by simp [hne y hy])
  obtain ⟨y, ys, hys⟩ := List.exists_cons_of_ne_nil (List.ne_nil_of_mem h)
  refine ⟨y, ?_, hne y (by rw [hys]; exact List.mem_cons_self)⟩
  rw [State.returned_eq, hfind, hys]
  rfl

theorem frameReceived_own {s : State} {p r : Nat} {k : Prick} {l : List Byte} (h : Arrives s p r k l) (hfcs : fcsOk l = true)
    (hsrc : fSrc l = s.fld ID_NODE.NODE) :
    let t := frameReceived p l s
    t.rxq = s.rxq ∧ t.rxHeld = s.rxHeld ∧ t.mem = s.mem ∧ t.lines = s.lines
      ∧ (s.returned r l = none → t.fld CK_STATUS.RETERR = s.fld CK_STATUS.RETERR)
      ∧ ∀ x, s.returned r l = some x → t.fld CK_STATUS.RETERR = if fle l (l.length - 8) 4 = x.scode then s.fld CK_STATUS.RETERR else 1 := by
  have hnoted := headNoted_aside r p (s.headCheck r p k l) true s
  have hreturns := headNoted_returns r p (s.headCheck r p k l) true s
  have hsame := State.returned_congr hreturns l
  rw [frameReceived_of_arrives h, if_pos (by simp [hsrc]), hfcs, if_pos rfl]
  generalize headNoted r p (s.headCheck r p k l) true s = u at hnoted hreturns hsame
  have hflag : u.fld CK_STATUS.RETERR = s.fld CK_STATUS.RETERR := hnoted.kept (by decide) 0
  have hlines : u.lines = s.lines := congrArg Prod.fst hreturns
  cases hret : s.returned r l with
  | none =>
    rw [ownReturn_of_none (hsame.trans hret)]
    exact ⟨hnoted.rxq, hnoted.rxHeld, hnoted.mem, hlines, fun _ => hflag, fun _ hx => absurd hx (by simp)⟩
  | some x =>
    obtain ⟨haside, hkept, hreterr⟩ := ownReturn_of_some (hsame.trans hret) ((s.ringPorts r).2 == p)
    refine ⟨haside.rxq.trans hnoted.rxq, haside.rxHeld.trans hnoted.rxHeld, haside.mem.trans hnoted.mem, hkept.trans hlines, fun hx => absurd hx (by simp),
      fun y hy => ?_⟩
    obtain rfl := Option.some.inj hy
    rw [hreterr, hflag]

end Sys2Proof.Machine
end

section
/-! PROOFS. A valid frame on its way to the receive ring (07 R290, R304, R306). -/

namespace Sys2Proof.Machine

/-! ### A frame with a right FCS and header -/

/-- The frame is another node's, with a right FCS and header. -/
structure Valid (s : State) (p r : Nat) (k : Prick) (l : List Byte) : Prop extends Arrives s p r k l where
  fcs : fcsOk l = true
  other : fSrc l ≠ s.fld ID_NODE.NODE
  head : s.headCheck r p k l = .ok

theorem frameReceived_of_valid {s : State} {p r : Nat} {k : Prick} {l : List Byte} (h : Valid s p r k l) :
    frameReceived p l s = safeTaken r p k ((s.ringPorts r).2 == p) l (passedOn r p k l s) := by
  rw [frameReceived_of_arrives h.toArrives, if_neg (by simp [h.other]), if_neg (by simp [h.head]), h.fcs, if_neg (by simp), h.head, headNoted_ok]

theorem hasSeen_of_ring {s t : State} {r : Nat} (h : t.ring r = s.ring r) (l : List Byte) : t.hasSeen r l = s.hasSeen r l := by
  unfold State.hasSeen
  rw [h]

/-- A wrong safety code is counted, and the frame goes no further (R290). -/
theorem frameReceived_unsafe {s : State} {p r : Nat} {k : Prick} {l : List Byte} (h : Valid s p r k l) (hsafe : safeOk k l = false) :
    let t := frameReceived p l s
    t.rxq = s.rxq ∧ t.mem = s.mem ∧ t.fld CK_STATUS.SCERR = 1 ∧ t.fld CK_PCNT0.SCERR p = min 65535 (s.fld CK_PCNT0.SCERR p + 1) := by
  obtain ⟨-, hpassed⟩ := passedOn_shows r p k l s
  rw [frameReceived_of_valid h, safeTaken, if_pos (by simp [hsafe])]
  generalize passedOn r p k l s = u at hpassed
  have hcount : Aside [CK_PCNT0.SCERR, CK_STATUS.SCERR] u ((u.countFld CK_PCNT0.SCERR p 1).flag CK_STATUS.SCERR evCK) :=
    ((Aside.refl _ u).countFld (by decide) p 1).flag (by decide) evCK
  refine ⟨hcount.rxq.trans hpassed.rxq, hcount.mem.trans hpassed.mem, State.fld_flag_self _ _ _, ?_⟩
  rw [← hpassed.kept (g := CK_PCNT0.SCERR) (by decide) p]
  exact (State.fld_flag_apart (by decide) _ _ _).trans (State.fld_countFld_self _ _ _ _)

/-- A copy already seen is neither stored nor counted (R290). -/
theorem frameReceived_again {s : State} {p r : Nat} {k : Prick} {l : List Byte} (h : Valid s p r k l) (hsafe : safeOk k l = true)
    (hseen : s.hasSeen r l = true) :
    let t := frameReceived p l s
    t.rxq = s.rxq ∧ t.mem = s.mem ∧ t.fld CK_PCNT0.RXOK p = s.fld CK_PCNT0.RXOK p := by
  obtain ⟨hrelay, hpassed⟩ := passedOn_shows r p k l s
  rw [frameReceived_of_valid h, safeTaken, if_neg (by simp [hsafe]), hasSeen_of_ring (hrelay.ring r), hseen, if_neg (by simp), if_pos rfl]
  have hhop := hopNoted_aside r ((s.ringPorts r).2 == p) l (!true) (passedOn r p k l s)
  exact ⟨hhop.rxq.trans hpassed.rxq, hhop.mem.trans hpassed.mem, (hhop.kept (by decide) p).trans (hpassed.kept (by decide) p)⟩

/-! ### A first copy -/

/-- The frame is valid and safe, and no copy of it has come before. -/
structure FirstCopy (s : State) (p r : Nat) (k : Prick) (l : List Byte) : Prop extends Valid s p r k l where
  safe : safeOk k l = true
  unseen : s.hasSeen r l = false

theorem SameDma.violates {s t : State} (h : SameDma s t) (n : Nat) : t.violates n = s.violates n := by
  rw [State.violates_eq, State.violates_eq, h.holds, h.full, h.fits]

/-- A frame for which the receive ring has room, but no place, is not accepted (R306). -/
theorem frameReceived_violating {s : State} {p r : Nat} {k : Prick} {l : List Byte} (h : FirstCopy s p r k l)
    (hv : s.violates l.length = true) :
    ∃ u, Aside relayFields s u ∧ frameReceived p l s = u.flag CK_STATUS.BUFVIOL evCK := by
  obtain ⟨hrelay, hpassed⟩ := passedOn_shows r p k l s
  refine ⟨_, hpassed, ?_⟩
  rw [frameReceived_of_valid h.toValid, safeTaken, if_neg (by simp [h.safe]), hasSeen_of_ring (hrelay.ring r), h.unseen,
    (hpassed.sameDma (by decide)).violates, hv]
  rfl

/-- The fields written before the DMA looks at a valid frame. -/
def receiptFields : List Field := relayFields ++ notedFields

/-- An accepted frame: counted, then taken by the DMA, then told to the node state and the re-routing. -/
theorem frameReceived_accepted {s : State} {p r : Nat} {k : Prick} {l : List Byte} (h : FirstCopy s p r k l)
    (hv : s.violates l.length = false) :
    ∃ n, Aside receiptFields s n ∧ SameDma s n ∧ n.fld CK_PCNT0.RXOK p = min 65535 (s.fld CK_PCNT0.RXOK p + 1)
      ∧ Aside sideFields (dmaTaken p r l n) (frameReceived p l s) := by
  obtain ⟨hrelay, hpassed⟩ := passedOn_shows r p k l s
  have hsame := (hpassed.sameDma (by decide)).violates l.length
  rw [frameReceived_of_valid h.toValid, safeTaken, if_neg (by simp [h.safe]), hasSeen_of_ring (hrelay.ring r), h.unseen, hsame, hv,
    if_neg (by simp), if_neg (by simp), acceptFrame_eq]
  generalize passedOn r p k l s = u at hpassed
  obtain ⟨hnoted, hcount⟩ := copyNoted_shows r p l u
  have hboth := (hpassed.mono (List.subset_append_left _ _)).trans (hnoted.mono (List.subset_append_right relayFields notedFields))
  refine ⟨copyNoted r p l u, hboth, hboth.sameDma (by decide), ?_, (nodeOnFrame_aside r (fType l) _).trans (hopNoted_aside _ _ _ _ _)⟩
  rw [hcount, hpassed.kept (by decide) p]

theorem Written.of_aside {a : Nat} {l : List Byte} {fs gs : List Field} {s n t u : State} (h : Written a l n u) (hs : Aside fs s n)
    (ht : Aside gs u t) : Written a l s t := by
  intro hbad
  have hbefore := State.byte_of_mem hs.mem
  have hafter := State.byte_of_mem ht.mem
  obtain ⟨hin, hout⟩ := h (fun i hi => by
    unfold State.badBits
    rw [hs.errs]
    exact hbad i hi)
  exact ⟨fun i hi => (hafter _).trans (hin i hi), fun y hy => (hafter y).trans ((hout y hy).trans (hbefore y))⟩

/-- A first copy for which the receive ring has room and a place (R304): it joins the end of the queue. -/
theorem frameReceived_stores {s : State} {p r : Nat} {k : Prick} {l : List Byte} (h : FirstCopy s p r k l) (hheld : s.rxHeld = [])
    (hfree : s.dmaHolds = false) (hroom : s.rxFull = false) (hfits : s.rxFits l.length = true) :
    let t := frameReceived p l s
    t.rxq = s.rxq ++ [(s.rxAddr, l.length)] ∧ t.fld CK_RXWI.WI = (s.fld CK_RXWI.WI + 1) % 2048
      ∧ t.fld CK_PCNT0.RXOK p = min 65535 (s.fld CK_PCNT0.RXOK p + 1) ∧ (s.fld CK_SSBASE.BASE = 0 → Written s.rxAddr l s t) := by
  obtain ⟨n, hn, hsame, hcount, hside⟩ := frameReceived_accepted h (by rw [State.violates_eq, hfits, Bool.not_true, Bool.and_false])
  rw [dmaTaken_of_free (hsame.holds.trans hfree) (hsame.held.trans hheld)] at hside
  have hstores := storeWhole_stores (hsame.full.trans hroom) ((hsame.fits _).trans hfits) p r n.nowLow
  refine ⟨?_, ?_, ?_, fun hbase => ?_⟩
  · rw [hside.rxq, hstores.rxq, hn.rxq, hsame.addr]
  · rw [hside.kept (by decide) 0, hstores.wi, hn.kept (by decide) 0]
  · rw [hside.kept (by decide) p, hstores.kept _ (by decide) p, hcount]
  · have hwritten := hstores.bytes ((hn.kept (by decide) 0).trans hbase)
    rw [hsame.addr] at hwritten
    exact hwritten.of_aside hn hside

/-! ### The checks together -/

theorem State.rxFits_iff (s : State) (n : Nat) :
    s.rxFits n = true ↔ 16 + n ≤ s.fld CK_RXGEOM.RXBLEN ∧ 0x20000000 ≤ s.rxAddr ∧ s.rxAddr + 16 + n ≤ 0x20200000 := by
  simp [State.rxFits, and_assoc]

theorem State.rxFull_iff (s : State) :
    s.rxFull = true ↔ s.fld CK_RXGEOM.NRXB ≤ ringUsed 2048 (s.fld CK_RXWI.WI) (s.fld CK_RXRI.RI) := decide_eq_true_iff

theorem State.rxFull_eq_false {s : State} (h : ringUsed 2048 (s.fld CK_RXWI.WI) (s.fld CK_RXRI.RI) < s.fld CK_RXGEOM.NRXB) :
    s.rxFull = false := decide_eq_false (Nat.not_le.2 h)

/-- Settles O24: each clause is one outcome of the chain of checks. -/
theorem framesAreCheckedAndStored : Obligations.FramesAreCheckedAndStored := by
  unfold Obligations.FramesAreCheckedAndStored
  intro s p l r k me hc a fits old mine own sc still
  refine ⟨fun hr => ?noRing, fun hr hidle => ?idle, fun hr hk hjoined hnode htype => ⟨fun hdisc => ?discarded, fun hdisc hfcs => ?badFcs,
    fun hdisc hfcs hsrc => ?other, fun hdisc hfcs hsrc => ?own⟩⟩
  case noRing =>
    refine congrArg Host.Outcome.next ?_
    unfold frameReceived
    rw [hr]
  case idle =>
    refine congrArg Host.Outcome.next ?_
    cases hk : s.prick r with
    | none =>
      unfold frameReceived
      simp -zeta only [hr, hk]
    | some k =>
      rw [frameReceived_of_ring hr hk]
      refine if_pos ?_
      rcases hidle with h | h | h | h
      · rw [hk] at h
        exact absurd h (by simp)
      · simp [h]
      · simp [h]
      · simp [h]
  case discarded =>
    refine congrArg Host.Outcome.next ((frameReceived_of_ring hr hk l).trans (if_pos ?_))
    simp [hdisc]
  case badFcs => exact ⟨_, rfl, frameReceived_badFcs ⟨hr, hk, hjoined, hnode, htype, hdisc⟩ hfcs⟩
  case own =>
    obtain ⟨hrxq, hheld, hmem, hlines, hnone, hsome⟩ := frameReceived_own ⟨hr, hk, hjoined, hnode, htype, hdisc⟩ hfcs hsrc
    refine ⟨fun ⟨x, hx, hown⟩ hdiffer => ?_, fun hquiet => ?_⟩
    · obtain ⟨y, hy, hne⟩ := State.returned_of_differ (State.mem_sentAs.2 ⟨hx, hown⟩)
        (fun y hy => hdiffer y (State.mem_sentAs.1 hy).1 (State.mem_sentAs.1 hy).2)
      exact ⟨_, ⟨rfl, hrxq, hheld, hmem⟩, hlines, (hsome y hy).trans (if_neg (Ne.symm hne))⟩
    · refine ⟨_, ⟨rfl, hrxq, hheld, hmem⟩, hlines, ?_⟩
      rcases hquiet with hnever | ⟨x, hx, hown, hcode⟩
      · exact hnone (State.returned_of_empty (fun x hx => hnever x (State.mem_sentAs.1 hx).1 (State.mem_sentAs.1 hx).2))
      · obtain ⟨y, hy, heq⟩ := State.returned_of_match (State.mem_sentAs.2 ⟨hx, hown⟩) hcode
        exact (hsome y hy).trans (if_pos heq.symm)
  case other =>
    have harrives : Arrives s p.val r k l := ⟨hr, hk, hjoined, hnode, htype, hdisc⟩
    have hfirst : hc = .ok → safeOk k l = true → old = false → FirstCopy s p.val r k l :=
      fun hhead hsafe hold => ⟨⟨harrives, hfcs, hsrc, hhead⟩, hsafe, hold⟩
    refine ⟨fun hhead => ⟨_, rfl, frameReceived_badHead harrives hfcs hsrc hhead⟩,
      fun hhead hsafe => ⟨_, rfl, frameReceived_unsafe ⟨harrives, hfcs, hsrc, hhead⟩ hsafe⟩,
      fun hhead hsafe hold => ⟨_, rfl, frameReceived_again ⟨harrives, hfcs, hsrc, hhead⟩ hsafe hold⟩,
      fun hhead hsafe hold hmasked => ?masked, fun hhead hsafe hold hmasked hholds => ?held,
      fun hhead hsafe hold hfree hheld hfull => ?full, fun hhead hsafe hold hfree hroom => ⟨fun hfits hheld => ?stored, fun hfits => ?outside⟩⟩
    case masked =>
      have hv : s.violates l.length = false := by rw [State.violates_eq, State.holds_of_masked hmasked]; rfl
      obtain ⟨n, hn, hsame, hcount, hside⟩ := frameReceived_accepted (hfirst hhead hsafe hold) hv
      rw [dmaTaken_of_masked (hsame.masked.trans hmasked)] at hside
      exact ⟨_, ⟨rfl, hside.rxq.trans hn.rxq, hside.rxHeld.trans hn.rxHeld, hside.mem.trans hn.mem⟩, (hside.kept (by decide) _).trans hcount⟩
    case held =>
      have hv : s.violates l.length = false := by rw [State.violates_eq, hholds]; rfl
      obtain ⟨n, hn, hsame, hcount, hside⟩ := frameReceived_accepted (hfirst hhead hsafe hold) hv
      rw [dmaTaken_of_holds (hsame.masked.trans hmasked) (hsame.holds.trans hholds), hsame.held, hsame.nowLow] at hside
      exact ⟨_, rfl, hside.rxq.trans hn.rxq, hside.mem.trans hn.mem, hside.rxHeld, (hside.kept (by decide) _).trans hcount⟩
    case full =>
      have hfull := s.rxFull_iff.2 hfull
      have hv : s.violates l.length = false := by rw [State.violates_eq, hfull, Bool.not_true, Bool.and_false, Bool.false_and]
      obtain ⟨n, hn, hsame, -, hside⟩ := frameReceived_accepted (hfirst hhead hsafe hold) hv
      rw [dmaTaken_of_free (hsame.holds.trans hfree) (hsame.held.trans hheld), storeWhole_of_full (hsame.full.trans hfull)] at hside
      have hflag := (Aside.refl [CK_STATUS.RXOVF] n).flag (f := CK_STATUS.RXOVF) (by decide) evCK
      exact ⟨_, ⟨rfl, hside.rxq.trans (hflag.rxq.trans hn.rxq), hside.rxHeld.trans (hflag.rxHeld.trans hn.rxHeld),
        hside.mem.trans (hflag.mem.trans hn.mem)⟩, (hside.kept (by decide) 0).trans (State.fld_flag_self _ _ _),
        (hside.kept (by decide) 0).trans ((hflag.kept (by decide) 0).trans (hn.kept (by decide) 0))⟩
    case stored =>
      exact ⟨_, rfl, frameReceived_stores (hfirst hhead hsafe hold) hheld hfree (State.rxFull_eq_false hroom) ((s.rxFits_iff _).2 hfits)⟩
    case outside =>
      have hv : s.violates l.length = true := by
        rw [State.violates_eq, hfree, State.rxFull_eq_false hroom, Bool.eq_false_iff.2 (fun h => hfits ((s.rxFits_iff _).1 h))]
        rfl
      obtain ⟨u, hu, heq⟩ := frameReceived_violating (hfirst hhead hsafe hold) hv
      have hflag := (Aside.refl [CK_STATUS.BUFVIOL] u).flag (f := CK_STATUS.BUFVIOL) (by decide) evCK
      exact ⟨_, ⟨congrArg Host.Outcome.next heq, hflag.rxq.trans hu.rxq, hflag.rxHeld.trans hu.rxHeld, hflag.mem.trans hu.mem⟩,
        State.fld_flag_self _ _ _, (hflag.kept (by decide) 0).trans (hu.kept (by decide) 0), (hflag.kept (by decide) _).trans (hu.kept (by decide) _)⟩

end Sys2Proof.Machine
end

section
/-! PROOFS. Stored frames dispatched, and the release of their buffers (07 R304, R305; 04 R178). -/

namespace Sys2Proof.Machine

/-! ### What a dispatch leaves of the queue (R282, R305) -/

theorem pushRing_rxq (b : Nat) (remote : Bool) (v : Nat) (s : State) : (pushRing b remote v s).rxq = s.rxq := by
  have hstored : ∀ k, ((s.wr k 16 v).setBad k 0).rxq = s.rxq := fun k => by
    change (stored k v s).rxq = s.rxq
    rw [stored_frame]
  unfold pushRing
  extract_lets wf rf wi k
  split
  · exact State.flag_rxq _ _ _
  · split
    · exact State.flag_rxq _ _ _
    · exact hstored k

theorem dispatchEvent_rxq (src v : Nat) (s : State) : (dispatchEvent src v s).rxq = s.rxq := by
  unfold dispatchEvent
  dsimp only
  split
  · rfl
  · split
    · rfl
    · refine forEach_frame (g := State.rxq) _ (fun b _ t => ?_) s
      split
      · rfl
      · exact pushRing_rxq b true v t

theorem noteMissed_rxq (p : Nat) (s : State) : (noteMissed p s).rxq = s.rxq := by
  refine forEach_frame (g := State.rxq) _ (fun _ _ _ => ?_) s
  rfl

theorem noteNull_rxq (n : Nat) (s : State) : (noteNull n s).rxq = s.rxq :=
  forEach_frame (g := State.rxq) _ (fun p _ t => noteMissed_rxq p t) s

theorem takeStatuses_rxq (l : List Byte) (s : State) : (takeStatuses l s).rxq = s.rxq := by
  refine forEach_frame (g := State.rxq) _ (fun e _ t => ?_) s
  split
  · rfl
  · refine forEach_frame (g := State.rxq) _ (fun i _ u => ?_) t
    extract_lets v x last missed noted facts
    split
    · rfl
    · have hmissed : missed.rxq = u.rxq := onlyIf_frame (g := State.rxq) _ (noteMissed_rxq (v % 2048)) u
      refine Eq.trans (forEach_frame (g := State.rxq) _ (fun _ _ _ => ?_) _) hmissed
      rfl

/-! ### One head event (R305, 03 R140) -/

theorem dispatchEvent_noPoint {src v : Nat} {s : State} (h : entryBobs (s.pointEntry (v % 2048)) = []) :
    dispatchEvent src v s = s.countFld CK_EVDROP.NOPOINT 0 1 := by
  unfold dispatchEvent
  dsimp only
  rw [h]

theorem dispatchEvent_point {src v : Nat} {s : State} (h : entryBobs (s.pointEntry (v % 2048)) ≠ []) :
    dispatchEvent src v s
      = if entryLocal (s.pointEntry (v % 2048)) || entryNode (s.pointEntry (v % 2048)) ≠ src then s.countFld CK_EVDROP.WRONGSRC 0 1
        else forEach (entryBobs (s.pointEntry (v % 2048))) (fun b t => if v.testBit 127 then t.reject .dma else pushRing b true v t) s := by
  unfold dispatchEvent
  dsimp only
  split
  · exact absurd ‹_› h
  · rfl

theorem dispatchEvent_wrongSource {src v : Nat} {s : State} (h : entryBobs (s.pointEntry (v % 2048)) ≠ [])
    (hsrc : entryLocal (s.pointEntry (v % 2048)) = true ∨ entryNode (s.pointEntry (v % 2048)) ≠ src) :
    dispatchEvent src v s = s.countFld CK_EVDROP.WRONGSRC 0 1 :=
  (dispatchEvent_point h).trans (if_pos (by simpa using hsrc))

theorem dispatchEvent_pushes {src v : Nat} {s : State} (h : entryBobs (s.pointEntry (v % 2048)) ≠ [])
    (hlocal : entryLocal (s.pointEntry (v % 2048)) = false) (hsrc : entryNode (s.pointEntry (v % 2048)) = src) :
    dispatchEvent src v s
      = forEach (entryBobs (s.pointEntry (v % 2048))) (fun b t => if v.testBit 127 then t.reject .dma else pushRing b true v t) s :=
  (dispatchEvent_point h).trans (if_neg (by simp [hlocal, hsrc]))

/-! ### The oldest stored frame (R305) -/

theorem State.rdL_of_mem {s t : State} (h : t.mem = s.mem) (n : Nat) : ∀ k, t.rdL k n = s.rdL k n := by
  induction n with
  | zero => exact fun _ => rfl
  | succ n ih => exact fun k => congrArg₂ List.cons (State.byte_of_mem h k) (ih (k + 1))

/-- The events of a frame that the DMA has read, its points' statuses, and what a null frame tells. -/
def dispatched (l : List Byte) (s : State) : State :=
  takeStatuses l (forEach (frameEvents l) (dispatchEvent (fSrc l)) (onlyIf (fType l == 1) (noteNull (fSrc l)) s))

theorem dispatched_rxq (l : List Byte) (s : State) : (dispatched l s).rxq = s.rxq :=
  (takeStatuses_rxq l _).trans ((forEach_frame (g := State.rxq) _ (fun v _ t => dispatchEvent_rxq (fSrc l) v t) _).trans
    (onlyIf_frame (g := State.rxq) _ (noteNull_rxq (fSrc l)) s))

theorem dispatched_one {l : List Byte} {v : Nat} (hty : fType l ≠ 1) (hv : frameEvents l = [v]) (s : State) :
    dispatched l s = takeStatuses l (dispatchEvent (fSrc l) v s) := by
  unfold dispatched
  rw [hv, beq_eq_false_iff_ne.2 hty]
  rfl

/-- A frame read with an uncorrectable block is not dispatched; its events are counted. -/
def frameTaken (l : List Byte) (d : Bool × State) : State :=
  if !d.1 then d.2.countFld CK_EVDROP.NOPOINT 0 (frameEvents l).length else dispatched l d.2

theorem exec_heventDispatch {s : State} {a n : Nat} {rest : List (Nat × Nat)} (hq : s.rxq = (a, n) :: rest) (hfree : s.dmaHolds = false)
    (hheld : s.rxHeld = []) :
    exec .heventDispatch s
      = .next (frameTaken (s.rdL (a + 16) n) (readSpan (s.input .dma) a (16 + n) { s with rxq := rest })) := by
  have hmasked := State.masked_of_not_holds hfree
  have hfirst : (if s.dmaHolds && !s.masked .dma then [] else s.rxq) = (a, n) :: rest := by rw [hfree, Bool.false_and, if_neg (by simp), hq]
  have hrdL : ({ s with rxq := rest } : State).rdL (a + 16) n = s.rdL (a + 16) n :=
    State.rdL_of_mem (s := s) (t := { s with rxq := rest }) rfl n (a + 16)
  change execHeventDispatch s = _
  unfold execHeventDispatch
  rw [flushHeld_of_none hheld]
  dsimp only
  rw [hfirst]
  dsimp only
  rw [hrdL, show ({ s with rxq := rest } : State).masked .dma = s.masked .dma from rfl, hmasked, if_neg (by simp)]
  exact (apply_ite Host.Outcome.next _ _ _).symm

theorem frameTaken_rxq {l : List Byte} {d : Bool × State} {s : State} (h : BlockWork s d.2) : (frameTaken l d).rxq = s.rxq := by
  unfold frameTaken
  split
  · exact (State.countFld_rxq ..).trans h.2
  · exact (dispatched_rxq l d.2).trans h.2

/-! ### A release of buffers (R304) -/

theorem exec_rxRelease {s : State} (h : s.canVote = true) (w : Word) :
    exec (.rxRelease .hw w) s
      = .next (if (w.toNat % 2048 + 2048 - s.fld CK_RXRI.RI) % 2048 ≤ (s.fld CK_RXWI.WI + 2048 - s.fld CK_RXRI.RI) % 2048
          then writeFields .hw CK_RXRI.fields 0 w.toNat s else s.flag CK_STATUS.CFGERR evCK) := by
  refine (asReq_hw h _).trans (congrArg Host.Outcome.next ?_)
  unfold ckRxri
  dsimp only
  rw [Field.of_low rfl, ackOk_eq]
  by_cases hle : (w.toNat % 2048 + 2048 - s.fld CK_RXRI.RI) % 2048 ≤ (s.fld CK_RXWI.WI + 2048 - s.fld CK_RXRI.RI) % 2048
  · rw [if_pos hle]
    exact if_neg (by simp only [Req.voted, Bool.true_and, Bool.not_eq_true', decide_eq_false_iff_not]; exact fun h => h hle)
  · rw [if_neg hle]
    exact if_pos (by simp only [Req.voted, Bool.true_and, Bool.not_eq_true', decide_eq_false_iff_not]; exact hle)

theorem rxRi_written (w : Word) (s : State) :
    let t := writeFields .hw CK_RXRI.fields 0 w.toNat s
    t.fld CK_RXRI.RI = w.toNat % 2048 ∧ Kept [CK_RXRI.RI.key 0] s t ∧ t = { s with regs := t.regs } :=
  ⟨(fld_writeFields_hw (by decide) (by decide) rfl 0 _ s).trans (Field.of_low rfl _), Kept.writeFields_hw CK_RXRI.fields 0 _ s,
    writeFields_frame _ _ _ _ _⟩

/-- Settles O25: the dispatch of the oldest frame, the release of buffers, and the first copy that joins the queue. -/
theorem storedFramesAreDispatchedInOrder : Obligations.StoredFramesAreDispatchedInOrder := by
  unfold Obligations.StoredFramesAreDispatchedInOrder
  intro s a n rest w p f r k l next valid first room u ri blocks
  refine ⟨fun hq hfree hheld => ?dispatch, fun hvote hle _ _ => ?release, fun hvote hlt _ _ => ?refused,
    fun hr hk hjoined hnode htype hsrc hvalid hfirst hroom hfree hheld => ?stored⟩
  case dispatch =>
    have hexec := exec_heventDispatch hq hfree hheld
    have hspan : readSpan (s.input .dma) a (16 + n) u = blocksRead (s.input .dma) a ((a % 16 + 16 + n + 15) / 16) u := by
      rw [readSpan_eq, ← Nat.add_assoc (a % 16) 16 n]
    have hwork := blocksRead_blockWork (s.input .dma) a ((a % 16 + 16 + n + 15) / 16) u
    rw [hspan] at hexec
    refine ⟨⟨_, hexec, frameTaken_rxq hwork⟩, fun hbad => ?uncorrectable, fun v hclean hty hv => ?clean⟩
    case uncorrectable =>
      have hbad : ∃ i, i < (a % 16 + 16 + n + 15) / 16 ∧ 3 ≤ u.badBits (a / 16 * 16 + 16 * i) := by
        by_contra hnone
        exact hbad (fun i hi => Nat.not_lt.1 (fun h => hnone ⟨i, hi, h⟩))
      obtain ⟨hfails, hue⟩ := blocksRead_of_bad (inp := s.input .dma) hbad
      have htaken : frameTaken l (blocksRead (s.input .dma) a ((a % 16 + 16 + n + 15) / 16) u)
          = (blocksRead (s.input .dma) a ((a % 16 + 16 + n + 15) / 16) u).2.countFld CK_EVDROP.NOPOINT 0 (frameEvents l).length :=
        if_pos (by rw [hfails]; rfl)
      refine ⟨_, hexec, frameTaken_rxq hwork, ?_, fun b => ?_⟩
      · rw [htaken, State.fld_countFld_apart (by decide)]
        exact hue
      · rw [htaken, State.fld_countFld_apart (by decide)]
        exact hwork.1 _ (by decide) b
    case clean =>
      have hrun : exec .heventDispatch s = .next (takeStatuses l (dispatchEvent (fSrc l) v u)) := by
        rw [hexec, blocksRead_clean (s := u) hclean]
        exact congrArg Host.Outcome.next (dispatched_one hty hv u)
      intro e
      refine ⟨fun hnone => ?_, fun hbobs hwrong => ?_, fun hbobs hlocal hnode hshadow => ?_, fun hbobs hlocal hnode hshadow => ?_⟩
      · rw [hrun, dispatchEvent_noPoint (s := u) hnone]
      · rw [hrun, dispatchEvent_wrongSource (s := u) hbobs hwrong]
      · rw [hrun, dispatchEvent_pushes (s := u) hbobs hlocal hnode, hshadow]
        rfl
      · rw [hrun, dispatchEvent_pushes (s := u) hbobs hlocal hnode, hshadow]
        rfl
  case release => exact ⟨_, (exec_rxRelease hvote w).trans (congrArg _ (if_pos hle)), rxRi_written w s⟩
  case refused => exact (exec_rxRelease hvote w).trans (congrArg _ (if_neg (Nat.not_le.2 hlt)))
  case stored =>
    obtain ⟨hdisc, hfcs, hhead, hsafe⟩ := hvalid
    obtain ⟨hspace, hfits⟩ := hroom
    have hunseen : s.hasSeen r f = false := by
      rw [State.hasSeen, List.any_eq_false]
      exact fun x hx h => hfirst x hx (by simpa [and_assoc] using h)
    obtain ⟨hrxq, -⟩ := frameReceived_stores ⟨⟨⟨hr, hk, hjoined, hnode, htype, hdisc⟩, hfcs, hsrc, hhead⟩, hsafe, hunseen⟩ hheld hfree
      (State.rxFull_eq_false hspace) ((s.rxFits_iff _).2 hfits)
    exact ⟨_, rfl, hrxq⟩

end Sys2Proof.Machine
end

section
/-! PROOFS. A hand-over order for a head whose shadow a block reset has taken off it places the shadow anew (03 R312, 08 R310). -/

namespace Sys2Proof.Machine

/-- A hand-over order that names the shadow in force sets PEND, and places the shadow anew where a block reset has taken it off the head. -/
theorem handOverOrder_of_shadow {s : State} {k : Fin 32} {v : Word} (hv : s.canVote = true) (hprim : s.fld GR_HPLACE.PRIM k.val ≠ 6)
    (hshad : v.toNat / 2 ^ 4 % 8 = s.fld GR_HPLACE.SHAD k.val) (h6 : v.toNat / 2 ^ 4 % 8 ≠ 6) (h7 : v.toNat / 2 ^ 4 % 8 ≠ 7)
    (hforce : v.toNat / 2 ^ 9 % 2 = 0)
    (hok : s.placeOk k.val (s.fld GR_HPLACE.PRIM k.val) (v.toNat / 2 ^ 4 % 8) = true) :
    exec (.handOverOrder .hw k v) s
      = .next ((s.modHead k.val (fun h => { h with gone := h.gone.filter (· != v.toNat / 2 ^ 4 % 8) })).setFld GR_HPLACE.PEND k.val 1) := by
  have hshad' : GR_HPLACE.SHAD.of (putBit v.toNat 8 true) = v.toNat / 2 ^ 4 % 8 := Field.of_putBit (by decide) v.toNat true
  have hforce' : GR_HPLACE.FORCE.of (putBit v.toNat 8 true) = 0 := (Field.of_putBit (by decide) v.toNat true).trans hforce
  have hhover : GR_HPLACE.HOVER.of (putBit v.toNat 8 true) = 1 := Field.of_putBit_self rfl v.toNat true
  have hstands : ¬ ((0 : Nat) == 1) = true := by decide
  refine (asReq_hw hv _).trans (congrArg Host.Outcome.next ?_)
  unfold grHplace placeHead
  dsimp only
  rw [hshad', hforce', hhover, if_neg hstands, if_neg (not_or.2 ⟨hprim, h6⟩), hok, if_neg (by simpa using h7), if_pos hshad.symm]
  rfl

/-- Head 31 on engine 1, shadowed on engine 2, which a block reset has taken off the head. -/
def shadowTakenOff : State :=
  { State.reset with regs := [(GR_HPLACE.PRIM.key 31, 1), (GR_HPLACE.SHAD.key 31, 2)],
                     heads := [(31, { HeadSt.reset with gone := [2] })] }

/-- Refutes O30: the hand-over order sets PEND and gives the head its shadow back, so that it changes more than PEND. -/
theorem not_headsArePlaced : ¬ Obligations.HeadsArePlaced := by
  unfold Obligations.HeadsArePlaced
  intro h
  have hv : shadowTakenOff.canVote = true := by decide +kernel
  have hprim : shadowTakenOff.fld GR_HPLACE.PRIM 31 ≠ 6 := by decide +kernel
  have hok : shadowTakenOff.placeOk 31 (shadowTakenOff.fld GR_HPLACE.PRIM 31) 2 = true := by decide +kernel
  have hshad : 2 = shadowTakenOff.fld GR_HPLACE.SHAD 31 := by decide +kernel
  obtain ⟨hwrite, -⟩ := h shadowTakenOff 31 0x20#32 0
  obtain ⟨-, -, -, horder⟩ := hwrite hv hprim (by decide) (by decide)
  have hexec := (handOverOrder_of_shadow (k := 31) (v := 0x20#32) hv hprim hshad (by decide) (by decide) (by decide) hok).symm.trans
    (horder hok hshad (by decide))
  have hgone : ((shadowTakenOff.setFld GR_HPLACE.PEND 31 1).head 31).gone = [] :=
    congrArg (fun t : State => (t.head 31).gone) (Host.Outcome.next.inj hexec).symm
  exact absurd hgone (by decide)

end Sys2Proof.Machine
end

section
/-! PROOFS. Orders to the Graft program and the start and end of a migration on its source (08 R320, R322, R328, R330). -/

namespace Sys2Proof.Machine

/-! ### Messages leave the registers and the migrations -/

theorem sendMsg_frame (ty : Nat) (dst : Option Nat) (seg sbob : Nat) (body : List Byte) (s : State) :
    sendMsg ty dst seg sbob body s = { s with gmsgs := (sendMsg ty dst seg sbob body s).gmsgs } := by
  unfold sendMsg
  dsimp only
  split
  · rfl
  · split <;> rfl

@[simp] theorem sendMsg_regs (ty : Nat) (dst : Option Nat) (seg sbob : Nat) (body : List Byte) (s : State) :
    (sendMsg ty dst seg sbob body s).regs = s.regs := by rw [sendMsg_frame]

@[simp] theorem sendMsg_migs (ty : Nat) (dst : Option Nat) (seg sbob : Nat) (body : List Byte) (s : State) :
    (sendMsg ty dst seg sbob body s).migs = s.migs := by rw [sendMsg_frame]

@[simp] theorem sendOffer_regs (x : Nat) (s : State) : (sendOffer x s).regs = s.regs := sendMsg_regs _ _ _ _ _ _

theorem State.fld_of_regs {s t : State} (h : t.regs = s.regs) (f : Field) (i : Nat) : t.fld f i = s.fld f i := by
  unfold State.fld
  rw [h]

theorem KeptBut.of_regs {fs : List Field} {s t u : State} (h : KeptBut fs s t) (hu : u.regs = t.regs) : KeptBut fs s u :=
  fun g hg j => (State.fld_of_regs hu g j).trans (h g hg j)

/-! ### The result of an order (R320) -/

/-- GR_CMDRES with a result. -/
def orderShown (bob code result reason tag : Nat) (s : State) : State :=
  ((((s.setFld GR_CMDRES.BOB 0 bob).setFld GR_CMDRES.CODE 0 code).setFld GR_CMDRES.RESULT 0 result).setFld GR_CMDRES.REASON 0 reason).setFld
    GR_CMDRES.TAG 0 tag

theorem orderResult_eq (bob code result reason tag : Nat) (s : State) :
    orderResult bob code result reason tag s
      = (hostCommand 1 bob result tag (orderShown bob code result reason tag s)).flag GR_STATUS.CMDDONE evGR := rfl

/-- The fields that a result writes. -/
def resultFields : List Field :=
  [GR_CMDRES.BOB, GR_CMDRES.CODE, GR_CMDRES.RESULT, GR_CMDRES.REASON, GR_CMDRES.TAG, GR_STATUS.CMDDONE] ++ commandFields

theorem orderResult_kept (bob code result reason tag : Nat) (s : State) :
    KeptBut resultFields s (orderResult bob code result reason tag s) := by
  have hshown : KeptBut resultFields s (orderShown bob code result reason tag s) :=
    (((((KeptBut.refl _ s).setFld (by decide) _ _).setFld (by decide) _ _).setFld (by decide) _ _).setFld (by decide) _ _).setFld
      (by decide) _ _
  rw [orderResult_eq]
  exact (hshown.trans ((hostCommand_kept 1 bob result tag _).mono (by decide))).flag (by decide) evGR

/-- A result changes registers and the queues of the host ports, and signals. -/
theorem hostCommand_migs (sub bob result tag : Nat) (s : State) :
    (hostCommand sub bob result tag s).migs = s.migs :=
  forEach_frame (g := State.migs) _ (fun _ _ _ => by unfold pushCommand; dsimp only; split <;> rfl) s

@[simp] theorem State.flag_migs (s : State) (f : Field) (e : Nat) : (s.flag f e).migs = s.migs := by rw [State.flag_frame]

@[simp] theorem orderResult_migs (bob code result reason tag : Nat) (s : State) :
    (orderResult bob code result reason tag s).migs = s.migs := by
  rw [orderResult_eq, State.flag_migs, hostCommand_migs]
  rfl

/-- A result that fits its field stands in GR_CMDRES, and shows at every port and in CMDDONE. -/
theorem orderResult_shows {bob code result reason tag : Nat} (hbob : bob < 2 ^ 8) (hcode : code < 2 ^ 3) (hresult : result < 2 ^ 4)
    (hreason : reason < 2 ^ 4) (htag : tag < 2 ^ 11) (s : State) :
    let t := orderResult bob code result reason tag s
    t.fld GR_CMDRES.RESULT = result ∧ t.fld GR_CMDRES.REASON = reason ∧ t.fld GR_CMDRES.BOB = bob ∧ t.fld GR_CMDRES.CODE = code
      ∧ t.fld GR_CMDRES.TAG = tag ∧ t.fld GR_STATUS.CMDDONE = 1 ∧ ∀ p : Fin 3, t.fld HP_PSTATUS.CMD p.val = 1 := by
  have hkept := hostCommand_kept 1 bob result tag (orderShown bob code result reason tag s)
  have hcmd := hostCommand_cmd 1 bob result tag (orderShown bob code result reason tag s)
  have hthrough : ∀ g : Field, GR_STATUS.CMDDONE.apart g = true → commandFields.all (fun f => f.apart g) = true →
      (orderResult bob code result reason tag s).fld g = (orderShown bob code result reason tag s).fld g := fun g hg hc =>
    (State.fld_flag_apart hg evGR 0 _).trans (hkept g hc 0)
  refine ⟨?_, ?_, ?_, ?_, ?_, State.fld_flag_self _ _ _, fun p => (State.fld_flag_apart (by decide) _ _ _).trans (hcmd p)⟩
  · rw [hthrough _ (by decide) (by decide), orderShown]
    simp (disch := decide) only [State.fld_setFld_apart]
    exact State.fld_setFld_lt hresult 0 _
  · rw [hthrough _ (by decide) (by decide), orderShown]
    simp (disch := decide) only [State.fld_setFld_apart]
    exact State.fld_setFld_lt hreason 0 _
  · rw [hthrough _ (by decide) (by decide), orderShown]
    simp (disch := decide) only [State.fld_setFld_apart]
    exact State.fld_setFld_lt hbob 0 _
  · rw [hthrough _ (by decide) (by decide), orderShown]
    simp (disch := decide) only [State.fld_setFld_apart]
    exact State.fld_setFld_lt hcode 0 _
  · rw [hthrough _ (by decide) (by decide)]
    exact State.fld_setFld_lt htag 0 _

/-- The answer to the agreed value `v` of GR_CMD. -/
def answered (v result reason : Nat) (s : State) : State :=
  orderResult (v % 256) (v / 2 ^ 18 % 8) result reason (v / 2 ^ 21 % 2 ^ 11) s

theorem answered_shows {result reason : Nat} (hresult : result < 2 ^ 4) (hreason : reason < 2 ^ 4) (v : Nat) (s : State) :
    let t := answered v result reason s
    t.fld GR_CMDRES.RESULT = result ∧ t.fld GR_CMDRES.REASON = reason ∧ t.fld GR_CMDRES.BOB = v % 256
      ∧ t.fld GR_CMDRES.CODE = v / 2 ^ 18 % 8 ∧ t.fld GR_CMDRES.TAG = v / 2 ^ 21 % 2 ^ 11 ∧ t.fld GR_STATUS.CMDDONE = 1
      ∧ ∀ p : Fin 3, t.fld HP_PSTATUS.CMD p.val = 1 :=
  orderResult_shows (by omega) (by omega) hresult hreason (by omega) s

end Sys2Proof.Machine
end

section
/-! PROOFS. The start and the end of a migration, and evacuation (08 R319, R322, R328, R330). -/

namespace Sys2Proof.Machine

/-! ### What Graft's steps on the source write -/

/-- The fields that the start and the end of a migration write. -/
def migFields : List Field :=
  [GR_MIG.BOB, GR_MIG.PBOB, GR_MIG.PEER, GR_MIG.STATE, GR_MIG.ROLE, GR_BMODE.MODE, GR_BMODE.SLOT, GR_STATUS.MIGSTART, GR_STATUS.MIGABORT,
    GR_STATUS.EMPTY, BB_CFG.ACTIVE, GR_BSID.VALID, GR_BSID.SID, HP_POV.DEV] ++ resultFields ++ coded

theorem checkEmpty_kept (s : State) : KeptBut [GR_STATUS.EMPTY, HP_POV.DEV] s (checkEmpty s) := by
  unfold checkEmpty
  split
  · exact ((KeptBut.refl _ s).flag (by decide) evGR).trans ((hostDevice_kept 7 0 _).mono (by decide))
  · exact KeptBut.refl _ s

theorem writePoint_kept (p v : Nat) (s : State) : KeptBut coded s (writePoint p v s) := by
  unfold writePoint
  split
  · exact KeptBut.refl _ s
  · exact (writeSpan_blockWork _ _ _ _).1.trans (writeSpan_blockWork _ _ _ _).1

theorem leaveMap_kept (b : Nat) (pts : List Nat) (s : State) : KeptBut coded s (leaveMap b pts s) :=
  forEach_keeps (P := KeptBut coded s) _ (fun _ _ _ ht => ht.trans (writePoint_kept _ _ _)) (KeptBut.refl _ s)

theorem KeptBut.modMig {fs : List Field} {s t : State} (h : KeptBut fs s t) (x : Nat) (f : MigSt → MigSt) : KeptBut fs s (t.modMig x f) := h

theorem KeptBut.modGraft {fs : List Field} {s t : State} (h : KeptBut fs s t) (f : GraftSt → GraftSt) : KeptBut fs s (t.modGraft f) := h

theorem KeptBut.setMode {s t : State} (h : KeptBut migFields s t) (b mode x : Nat) : KeptBut migFields s (Machine.setMode b mode x t) :=
  (h.setFld (by decide) b mode).setFld (by decide) b x

theorem KeptBut.clearSlot {s t : State} (h : KeptBut migFields s t) (x : Nat) : KeptBut migFields s (Machine.clearSlot x t) :=
  KeptBut.modMig (((((h.setFld (f := GR_MIG.BOB) (by decide) x 0).setFld (f := GR_MIG.PBOB) (by decide) x 0).setFld (f := GR_MIG.PEER)
    (by decide) x 0).setFld (f := GR_MIG.STATE) (by decide) x 0).setFld (f := GR_MIG.ROLE) (by decide) x 0) x _

/-! ### The end of a migration (R319, R328) -/

/-- What the peer is told of the end of the migration in slot `x`, about the source's bobbin `sb`. -/
def peerTold (x sb reason : Nat) (tell : Bool) (s : State) : State :=
  onlyIf tell (sendMsg 0x0C (some ((dropMsgs sb s).fld GR_MIG.PEER x)) 0 sb (leBytes 1 reason)) (dropMsgs sb s)

/-- What the orderer is told on the source, for bobbin `b`; an evacuation will try again. -/
def ordererTold (b : Nat) (y : MigSt) (result reason : Nat) (s : State) : State :=
  let s := onlyIf (y.code != 0) (orderResult b y.code result reason y.tag) s
  onlyIf (y.code == 3) (State.modGraft (fun g => { g with retry := g.retry ++ [(b, s.cycle + 16)] })) s

/-- The target's bobbin `b` leaves the section that it has begun to collect for. -/
def collectDropped (b : Nat) (y : MigSt) (s : State) : State :=
  let s := leaveMap b (y.entries.map (fun e => plPoint e.1)) (s.setFld BB_CFG.ACTIVE b 0)
  checkEmpty ((s.setFld GR_BSID.VALID b 0).setFld GR_BSID.SID b 0)

theorem endMig_eq (x result reason : Nat) (tell : Bool) (s : State) :
    let b := s.fld GR_MIG.BOB x
    let src := s.fld GR_MIG.ROLE x == 0
    let told := peerTold x (if src then b else s.fld GR_MIG.PBOB x) reason tell s
    endMig x result reason tell s
      = (clearSlot x (setMode b 0 0 (if src then ordererTold b (s.mig x) result reason told
          else if told.migState x = 1 then told else collectDropped b (s.mig x) told))).flag GR_STATUS.MIGABORT evGR := rfl

theorem peerTold_kept (x sb reason : Nat) (tell : Bool) (s : State) : KeptBut migFields s (peerTold x sb reason tell s) :=
  onlyIf_keeps (P := KeptBut migFields s) tell (fun _ ht => ht.of_regs (sendMsg_regs _ _ _ _ _ _))
    (KeptBut.of_regs (KeptBut.refl migFields s) (by rfl))

theorem ordererTold_kept (b : Nat) (y : MigSt) (result reason : Nat) (s : State) :
    KeptBut migFields s (ordererTold b y result reason s) := by
  have hresult := onlyIf_keeps (P := KeptBut migFields s) (f := orderResult b y.code result reason y.tag) (y.code != 0)
    (fun _ ht => ht.trans ((orderResult_kept _ _ _ _ _ _).mono (by decide))) (KeptBut.refl _ s)
  exact onlyIf_keeps (P := KeptBut migFields s) (y.code == 3) (fun _ ht => ht.modGraft _) hresult

theorem collectDropped_kept (b : Nat) (y : MigSt) (s : State) : KeptBut migFields s (collectDropped b y s) := by
  have hleft := ((KeptBut.refl migFields s).setFld (f := BB_CFG.ACTIVE) (by decide) b 0).trans
    ((leaveMap_kept b (y.entries.map (fun e => plPoint e.1)) _).mono (by decide))
  exact ((hleft.setFld (f := GR_BSID.VALID) (by decide) b 0).setFld (f := GR_BSID.SID) (by decide) b 0).trans ((checkEmpty_kept _).mono (by decide))

/-- A migration that ends frees its slot and returns its bobbin to normal mode. -/
theorem endMig_frees (x result reason : Nat) (tell : Bool) (s : State) :
    ∃ u, KeptBut migFields s u
      ∧ endMig x result reason tell s = (clearSlot x (setMode (s.fld GR_MIG.BOB x) 0 0 u)).flag GR_STATUS.MIGABORT evGR := by
  refine ⟨_, ?_, endMig_eq x result reason tell s⟩
  have htold := fun sb => peerTold_kept x sb reason tell s
  split
  · exact (htold _).trans (ordererTold_kept _ _ _ _ _)
  · split
    · exact htold _
    · exact (htold _).trans (collectDropped_kept _ _ _)

theorem endMig_kept (x result reason : Nat) (tell : Bool) (s : State) : KeptBut migFields s (endMig x result reason tell s) := by
  obtain ⟨u, hu, h⟩ := endMig_frees x result reason tell s
  rw [h]
  exact ((hu.setMode _ 0 0).clearSlot x).flag (by decide) evGR

theorem endMig_shows (x result reason : Nat) (tell : Bool) (s : State) :
    let t := endMig x result reason tell s
    t.fld GR_MIG.STATE x = 0 ∧ t.fld GR_BMODE.MODE (s.fld GR_MIG.BOB x) = 0 ∧ t.fld GR_STATUS.MIGABORT = 1 := by
  obtain ⟨u, -, h⟩ := endMig_frees x result reason tell s
  rw [h]
  refine ⟨?_, ?_, State.fld_flag_self _ _ _⟩
  · rw [State.fld_flag_apart (by decide), clearSlot, State.modMig_fld, State.fld_setFld_apart (by decide)]
    exact State.fld_setFld_self _ _ x 0
  · rw [State.fld_flag_apart (by decide), clearSlot, State.modMig_fld, setMode]
    simp (disch := decide) only [State.fld_setFld_apart]
    exact State.fld_setFld_self _ _ _ 0

/-! ### The start of a migration (R320, R322) -/

/-- The registers of slot `x`, in state OFFER for bobbin `b`. -/
def slotShown (x b : Nat) (s : State) : State := ((s.setFld GR_MIG.BOB x b).setFld GR_MIG.STATE x 1).setFld GR_MIG.ROLE x 0

/-- Slot `x` and bobbin `b`, whose migration starts there in state OFFER. -/
def slotOpened (x b code tag : Nat) (s : State) : State :=
  setMode b 2 x ((slotShown x b s).modMig x (fun _ => { MigSt.reset with code := code, tag := tag, last := (slotShown x b s).cycle }))

/-- The migration has started, its target still to be named. -/
def migOpened (x b code tag : Nat) (s : State) : State :=
  endSearch (slotOpened x b code tag s).me b ((slotOpened x b code tag s).flag GR_STATUS.MIGSTART evGR)

theorem startMig_eq (x b code tag : Nat) (target : Option Nat) (s : State) :
    startMig x b code tag target s = match target with
      | some n => sendOffer x ((migOpened x b code tag s).setFld GR_MIG.PEER x n)
      | none => askTarget x (migOpened x b code tag s) := by
  have hme : ∀ u : State, (setMode b 2 x u).me = u.me := fun u => by
    rw [State.me, setMode, State.fld_setFld_apart (by decide), State.fld_setFld_apart (by decide)]
    rfl
  unfold startMig migOpened slotOpened
  dsimp only
  rw [hme]
  cases target <;> rfl

theorem migOpened_kept (x b code tag : Nat) (s : State) : KeptBut migFields s (migOpened x b code tag s) := by
  have hfields : KeptBut migFields s (((s.setFld GR_MIG.BOB x b).setFld GR_MIG.STATE x 1).setFld GR_MIG.ROLE x 0) :=
    (((KeptBut.refl _ s).setFld (by decide) x b).setFld (by decide) x 1).setFld (by decide) x 0
  have hslot : KeptBut migFields s (slotOpened x b code tag s) := (hfields.modMig x _).setMode b 2 x
  exact (hslot.flag (f := GR_STATUS.MIGSTART) (by decide) evGR).modGraft _

/-- What the registers show of a migration that has started in slot `x`. -/
structure Opened (x b : Nat) (t : State) : Prop where
  state : t.fld GR_MIG.STATE x = 1
  role : t.fld GR_MIG.ROLE x = 0
  bob : t.fld GR_MIG.BOB x = b
  mode : t.fld GR_BMODE.MODE b = 2
  slot : t.fld GR_BMODE.SLOT b = x
  started : t.fld GR_STATUS.MIGSTART = 1

theorem Opened.of_regs {x b : Nat} {t u : State} (h : Opened x b t) (hu : u.regs = t.regs) : Opened x b u :=
  ⟨(State.fld_of_regs hu _ _).trans h.state, (State.fld_of_regs hu _ _).trans h.role, (State.fld_of_regs hu _ _).trans h.bob,
    (State.fld_of_regs hu _ _).trans h.mode, (State.fld_of_regs hu _ _).trans h.slot, (State.fld_of_regs hu _ _).trans h.started⟩

theorem Opened.setPeer {x b : Nat} {t : State} (h : Opened x b t) (n : Nat) : Opened x b (t.setFld GR_MIG.PEER x n) :=
  ⟨(State.fld_setFld_apart (by decide) _ _ _ _).trans h.state, (State.fld_setFld_apart (by decide) _ _ _ _).trans h.role,
    (State.fld_setFld_apart (by decide) _ _ _ _).trans h.bob, (State.fld_setFld_apart (by decide) _ _ _ _).trans h.mode,
    (State.fld_setFld_apart (by decide) _ _ _ _).trans h.slot, (State.fld_setFld_apart (by decide) _ _ _ _).trans h.started⟩

theorem migOpened_fld {g : Field} (hg : GR_STATUS.MIGSTART.apart g = true) (x b code tag j : Nat) (s : State) :
    (migOpened x b code tag s).fld g j = (slotOpened x b code tag s).fld g j := by
  rw [migOpened, endSearch, State.modGraft_fld]
  exact State.fld_flag_apart hg evGR j _

theorem setMode_fld {g : Field} (hmode : GR_BMODE.MODE.apart g = true) (hslot : GR_BMODE.SLOT.apart g = true) (b mode x j : Nat) (s : State) :
    (setMode b mode x s).fld g j = s.fld g j :=
  (State.fld_setFld_apart hslot _ _ _ _).trans (State.fld_setFld_apart hmode _ _ _ _)

theorem setMode_shows {mode x : Nat} (hmode : mode < 4) (hx : x < 8) (b : Nat) (s : State) :
    (setMode b mode x s).fld GR_BMODE.MODE b = mode ∧ (setMode b mode x s).fld GR_BMODE.SLOT b = x :=
  ⟨(State.fld_setFld_apart (by decide) _ _ _ _).trans (State.fld_setFld_lt hmode b s), State.fld_setFld_lt hx b _⟩

theorem slotShown_shows {b : Nat} (hb : b < 256) (x : Nat) (s : State) :
    (slotShown x b s).fld GR_MIG.STATE x = 1 ∧ (slotShown x b s).fld GR_MIG.ROLE x = 0 ∧ (slotShown x b s).fld GR_MIG.BOB x = b :=
  ⟨(State.fld_setFld_apart (by decide) _ _ _ _).trans (State.fld_setFld_lt (by decide) x _), State.fld_setFld_lt (by decide) x _,
    (State.fld_setFld_apart (by decide) _ _ _ _).trans ((State.fld_setFld_apart (by decide) _ _ _ _).trans (State.fld_setFld_lt hb x s))⟩

/-- The fields of the slot stand as they were shown. -/
theorem migOpened_slot {g : Field} (hflag : GR_STATUS.MIGSTART.apart g = true) (hmode : GR_BMODE.MODE.apart g = true)
    (hslot : GR_BMODE.SLOT.apart g = true) (x b code tag j : Nat) (s : State) :
    (migOpened x b code tag s).fld g j = (slotShown x b s).fld g j := by
  rw [migOpened_fld hflag, slotOpened, setMode_fld hmode hslot, State.modMig_fld]

theorem migOpened_opened {x b : Nat} (hx : x < 8) (hb : b < 256) (code tag : Nat) (s : State) : Opened x b (migOpened x b code tag s) := by
  obtain ⟨hstate, hrole, hbob⟩ := slotShown_shows hb x s
  have hmode : (slotOpened x b code tag s).fld GR_BMODE.MODE b = 2 ∧ (slotOpened x b code tag s).fld GR_BMODE.SLOT b = x :=
    setMode_shows (by decide) hx b _
  refine ⟨?_, ?_, ?_, ?_, ?_, ?_⟩
  · exact (migOpened_slot (by decide) (by decide) (by decide) _ _ _ _ _ _).trans hstate
  · exact (migOpened_slot (by decide) (by decide) (by decide) _ _ _ _ _ _).trans hrole
  · exact (migOpened_slot (by decide) (by decide) (by decide) _ _ _ _ _ _).trans hbob
  · exact (migOpened_fld (by decide) _ _ _ _ _ _).trans hmode.1
  · exact (migOpened_fld (by decide) _ _ _ _ _ _).trans hmode.2
  · rw [migOpened, endSearch, State.modGraft_fld]
    exact State.fld_flag_self _ _ _

theorem migOpened_result (x b code tag : Nat) (s : State) : (migOpened x b code tag s).fld GR_CMDRES.RESULT = s.fld GR_CMDRES.RESULT :=
  (migOpened_slot (by decide) (by decide) (by decide) _ _ _ _ _ _).trans ((State.fld_setFld_apart (by decide) _ _ _ _).trans
    ((State.fld_setFld_apart (by decide) _ _ _ _).trans (State.fld_setFld_apart (by decide) _ _ _ _)))

theorem migOpened_role (x b code tag : Nat) (s : State) : (migOpened x b code tag s).fld GR_MIG.ROLE x = 0 :=
  (migOpened_slot (by decide) (by decide) (by decide) _ _ _ _ _ _).trans (State.fld_setFld_lt (by decide) x _)

/-! ### The request for a target (R319) -/

theorem askTarget_kept (x : Nat) (s : State) : KeptBut migFields s (askTarget x s) := by
  unfold askTarget
  dsimp only
  split
  · exact endMig_kept _ _ _ _ _
  · split
    · split
      · exact endMig_kept _ _ _ _ _
      · rename_i n _
        exact (KeptBut.setFld (t := planTarget s.me (s.fld GR_MIG.BOB x) n s) (KeptBut.refl _ s) (by decide) x n).of_regs (sendOffer_regs _ _)
    · exact (KeptBut.refl _ s).of_regs (sendMsg_regs _ _ _ _ _ _)

/-- Another node is the coordinator: it is asked, and the migration waits for its plan. -/
theorem askTarget_waits {x : Nat} {s : State} (hvalid : s.fld GR_COORDST.VALID = 1) (hrole : s.fld GR_COORDST.ROLE ≠ 1) :
    let t := askTarget x s
    t.regs = s.regs ∧ (t.mig x).waits = true := by
  have hask : askTarget x s = sendMsg 0x03 (some (s.fld GR_COORDST.CUR)) 0 (s.fld GR_MIG.BOB x) []
      (s.modMig x (fun y => { y with waits := true, last := s.cycle })) := by
    unfold askTarget
    exact (if_neg (by simp [State.isSet, hvalid])).trans (if_neg hrole)
  refine ⟨?_, ?_⟩
  · rw [hask, sendMsg_regs]
    rfl
  · rw [hask, State.mig, sendMsg_migs]
    exact congrArg MigSt.waits (State.modMig_mig_self _ _ _)

theorem startMig_kept (x b code tag : Nat) (target : Option Nat) (s : State) : KeptBut migFields s (startMig x b code tag target s) := by
  have hopened := migOpened_kept x b code tag s
  rw [startMig_eq]
  cases target with
  | none => exact hopened.trans (askTarget_kept x _)
  | some n => exact (hopened.setFld (by decide) x n).of_regs (sendOffer_regs _ _)

theorem startMig_offers {x b n : Nat} (hx : x < 8) (hb : b < 256) (hn : n < 1024) (code tag : Nat) (s : State) :
    let t := startMig x b code tag (some n) s
    Opened x b t ∧ t.fld GR_MIG.PEER x = n ∧ t.fld GR_CMDRES.RESULT = s.fld GR_CMDRES.RESULT := by
  rw [startMig_eq]
  have hopened := (migOpened_opened hx hb code tag s).setPeer n
  have hpeer : ((migOpened x b code tag s).setFld GR_MIG.PEER x n).fld GR_MIG.PEER x = n := State.fld_setFld_lt hn x _
  have hresult : ((migOpened x b code tag s).setFld GR_MIG.PEER x n).fld GR_CMDRES.RESULT = s.fld GR_CMDRES.RESULT :=
    (State.fld_setFld_apart (by decide) _ _ _ _).trans (migOpened_result x b code tag s)
  exact ⟨hopened.of_regs (sendOffer_regs _ _), (State.fld_of_regs (sendOffer_regs _ _) _ _).trans hpeer,
    (State.fld_of_regs (sendOffer_regs _ _) _ _).trans hresult⟩

theorem startMig_waits {x b : Nat} (hx : x < 8) (hb : b < 256) (code tag : Nat) {s : State} (hvalid : s.fld GR_COORDST.VALID = 1)
    (hrole : s.fld GR_COORDST.ROLE ≠ 1) :
    let t := startMig x b code tag none s
    Opened x b t ∧ (t.mig x).waits = true ∧ t.fld GR_CMDRES.RESULT = s.fld GR_CMDRES.RESULT := by
  rw [startMig_eq]
  have hkept := migOpened_kept x b code tag s
  obtain ⟨hregs, hwaits⟩ := askTarget_waits (x := x) (s := migOpened x b code tag s) ((hkept _ (by decide) 0).trans hvalid)
    (fun h => hrole ((hkept _ (by decide) 0).symm.trans h))
  exact ⟨(migOpened_opened hx hb code tag s).of_regs hregs, hwaits,
    (State.fld_of_regs hregs _ _).trans (migOpened_result x b code tag s)⟩

/-! ### Agreed values outlast the start of a migration -/

theorem sendOffer_commands (x : Nat) (s : State) : (sendOffer x s).commands = s.commands := by
  simp [sendOffer]

theorem askTarget_commands {x : Nat} {s : State} (h : s.fld GR_MIG.ROLE x = 0) : (askTarget x s).commands = s.commands := by
  unfold askTarget
  dsimp only
  split
  · exact endMig_commands h _ _ _
  · split
    · split
      · exact endMig_commands h _ _ _
      · exact sendOffer_commands x _
    · simp

theorem migOpened_commands (x b code tag : Nat) (s : State) : (migOpened x b code tag s).commands = s.commands := by
  have hshown : (slotShown x b s).commands = s.commands := by simp [slotShown]
  have hmode : ∀ u : State, (setMode b 2 x u).commands = u.commands := fun u => by simp [setMode]
  rw [migOpened, endSearch, State.commands_modGraft, State.commands_flag, slotOpened, hmode, State.commands_modMig, hshown]

theorem startMig_commands (x b code tag : Nat) (target : Option Nat) (s : State) :
    (startMig x b code tag target s).commands = s.commands := by
  rw [startMig_eq]
  cases target with
  | none => exact (askTarget_commands (migOpened_role x b code tag s)).trans (migOpened_commands x b code tag s)
  | some n => exact (sendOffer_commands x _).trans (migOpened_commands x b code tag s)

/-! ### Evacuation (R330) -/

/-- The bobbins that evacuation may start to move now. -/
def State.evacuable (s : State) (b : Nat) : Bool :=
  s.active b && s.fld GR_BMODE.MODE b == 0 && !s.graft.retry.any (fun r => r.1 == b)

/-- Evacuation starts the migration of bobbin `b` where a slot is free. -/
def evacOne (b : Nat) (s : State) : State :=
  match s.freeSlot with
  | some x => startMig x b 3 s.graft.evacTag none s
  | none => s

theorem evacStep_off {s : State} (h : s.fld GR_STATUS.EVAC = 0) : evacStep s = s := if_pos (by simp [State.isSet, h])

theorem evacStep_on {s : State} (h : s.fld GR_STATUS.EVAC = 1) :
    evacStep s = forEach ((List.range 256).filter s.evacuable) evacOne s := if_neg (by simp [State.isSet, h])

theorem evacOne_kept (b : Nat) (s : State) : KeptBut migFields s (evacOne b s) := by
  unfold evacOne
  split
  · exact startMig_kept _ _ _ _ _ _
  · exact KeptBut.refl _ s

theorem evacOne_commands (b : Nat) (s : State) : (evacOne b s).commands = s.commands := by
  unfold evacOne
  split
  · exact startMig_commands _ _ _ _ _ _
  · rfl

theorem evacStep_kept {s : State} (h : s.fld GR_STATUS.EVAC = 1) : KeptBut migFields s (evacStep s) := by
  rw [evacStep_on h]
  exact forEach_keeps (P := KeptBut migFields s) _ (fun b _ t ht => ht.trans (evacOne_kept b t)) (KeptBut.refl _ s)

theorem evacStep_commands {s : State} (h : s.fld GR_STATUS.EVAC = 1) : (evacStep s).commands = s.commands := by
  rw [evacStep_on h]
  exact State.commands_forEach evacOne_commands s

/-- With no active bobbin there is nothing to move. -/
theorem evacStep_empty {s : State} (h : s.fld GR_STATUS.EVAC = 1) (hnone : ∀ d, d < 256 → s.fld BB_CFG.ACTIVE d ≠ 1) : evacStep s = s := by
  have hlist : (List.range 256).filter s.evacuable = [] := by
    refine List.filter_eq_nil_iff.2 (fun d hd => ?_)
    simp [State.evacuable, State.active, State.isSet, hnone d (List.mem_range.1 hd)]
  rw [evacStep_on h, hlist]
  rfl

/-- One bobbin alone may be moved, and a slot is free. -/
theorem evacStep_single {s : State} {d x : Nat} (h : s.fld GR_STATUS.EVAC = 1) (hd : d < 256) (hfree : s.freeSlot = some x)
    (hone : ∀ n, n < 256 → (s.evacuable n = true ↔ n = d)) : evacStep s = startMig x d 3 s.graft.evacTag none s := by
  have hlist : (List.range 256).filter s.evacuable = [d] := by
    rw [List.filter_congr (q := fun n => n == d) (fun n hn => Bool.eq_iff_iff.2 ((hone n (List.mem_range.1 hn)).trans beq_iff_eq.symm)),
      List.filter_beq, List.count_eq_one_of_mem List.nodup_range (List.mem_range.2 hd)]
    rfl
  rw [evacStep_on h, hlist, forEach_cons, forEach_nil, evacOne, hfree]

theorem hostDevice_commands (cause head : Nat) (s : State) : (hostDevice cause head s).commands = s.commands :=
  State.commands_forEach (fun _ _ => by unfold pushDevice; split <;> rfl) s

theorem checkEmpty_commands (s : State) : (checkEmpty s).commands = s.commands := by
  unfold checkEmpty
  split
  · exact (hostDevice_commands _ _ _).trans (State.commands_flag _ _ _)
  · rfl

theorem checkEmpty_empties {s : State} (h : s.fld GR_STATUS.EVAC = 1) (hnone : ∀ d, d < 256 → s.fld BB_CFG.ACTIVE d ≠ 1) :
    (checkEmpty s).fld GR_STATUS.EMPTY = 1 := by
  have hall : (List.range 256).all (fun b => !s.active b) = true :=
    List.all_eq_true.2 (fun d hd => by simp [State.active, State.isSet, hnone d (List.mem_range.1 hd)])
  have hevac : s.isSet GR_STATUS.EVAC = true := beq_iff_eq.2 h
  unfold checkEmpty
  rw [hall, hevac]
  split
  · exact (hostDevice_kept 7 0 _ _ (by decide) 0).trans (State.fld_flag_self s _ _)
  · rename_i hset
    simpa [State.isSet] using hset

end Sys2Proof.Machine
end

section
/-! PROOFS. The agreed orders to the Graft program, each with its result (08 R320, R322, R328, R330, Table GR-2). -/

namespace Sys2Proof.Machine

/-! ### An agreed order is taken once -/

/-- The order of the table that code `code` of GR_CMD calls for (Table GR-2). -/
def orderOf (code : Nat) : Instr :=
  if code = 1 then .migrate else if code = 2 then .migrateAny else if code = 3 then .evacuate
  else if code = 4 then .resume else if code = 5 then .cancel else .invalidOrder

theorem agreedOrder_taken {ok : Nat → Bool} {v : Nat} {s : State}
    (h : s.agreed.find? (fun p => p.1 == GR_CMD.addr) = some (GR_CMD.addr, v)) (hv : s.canVote = true)
    (hok : ok (v / 2 ^ 18 % 8) = true) : agreedOrder ok s = takeOrder v { s with agreed := s.agreed.erase (GR_CMD.addr, v) } := by
  unfold agreedOrder
  rw [if_pos hv, h]
  exact if_pos hok

theorem orderBob_of (v : Nat) : GR_CMD.BOB.of v = v % 256 := Field.of_low rfl v

theorem orderCode_of (v : Nat) : GR_CMD.CODE.of v = v / 2 ^ 18 % 8 := rfl

/-- EVAC is set, with no retry waiting. -/
def evacBegun (tag : Nat) (s : State) : State :=
  (s.setFld GR_STATUS.EVAC 0 1).modGraft (fun g => { g with evacTag := tag, retry := [] })

theorem takeOrder_evacuate {v : Nat} (h : v / 2 ^ 18 % 8 = 3) (s : State) :
    takeOrder v s = checkEmpty (evacStep (answered v 2 0 (evacBegun (v / 2 ^ 21 % 2 ^ 11) s))) := by
  unfold takeOrder answered
  dsimp only
  rw [orderBob_of, orderCode_of, h]
  rfl

theorem takeOrder_evacuate_resetReq {v : Nat} (h : v / 2 ^ 18 % 8 = 3) (s : State) :
    (takeOrder v s).keeper.resetReq = s.keeper.resetReq := by
  have hsteady : (takeOrder v s).steady = s.steady := by
    rw [takeOrder_evacuate h]
    simp [answered, evacBegun]
  exact congrArg (fun x => x.2.2.2.2.2) hsteady

theorem exec_orderOf {code : Nat} (h : code ≠ 3) :
    ∃ ok : Nat → Bool, (∀ s, exec (orderOf code) s = .next (agreedOrder ok s)) ∧ ok code = true := by
  unfold orderOf
  split_ifs with h1 h2 h4 h5
  · exact ⟨fun c => c == 1, fun _ => rfl, beq_iff_eq.2 h1⟩
  · exact ⟨fun c => c == 2, fun _ => rfl, beq_iff_eq.2 h2⟩
  · exact ⟨fun c => c == 4, fun _ => rfl, beq_iff_eq.2 h4⟩
  · exact ⟨fun c => c == 5, fun _ => rfl, beq_iff_eq.2 h5⟩
  · exact ⟨fun c => c == 0 || decide (6 ≤ c), fun _ => rfl, by simp; omega⟩

/-- An agreed value of GR_CMD is taken by the order of its code, where no reset waits for the end of an evacuation. -/
theorem exec_order {v : Nat} {s : State} (h : s.agreed.find? (fun p => p.1 == GR_CMD.addr) = some (GR_CMD.addr, v))
    (hv : s.canVote = true) (hreset : s.keeper.resetReq = none) :
    exec (orderOf (v / 2 ^ 18 % 8)) s = .next (takeOrder v { s with agreed := s.agreed.erase (GR_CMD.addr, v) }) := by
  by_cases h3 : v / 2 ^ 18 % 8 = 3
  · have htaken := agreedOrder_taken (ok := fun c => c == 3) h hv (beq_iff_eq.2 h3)
    have hnone : (agreedOrder (fun c => c == 3) s).keeper.resetReq = none :=
      (congrArg (fun t : State => t.keeper.resetReq) htaken).trans ((takeOrder_evacuate_resetReq h3 _).trans hreset)
    rw [h3]
    exact congrArg Host.Outcome.next ((resetWhenEmpty_of_none hnone).trans htaken)
  · obtain ⟨ok, hexec, hok⟩ := exec_orderOf h3
    exact (hexec s).trans (congrArg _ (agreedOrder_taken h hv hok))

/-! ### The order's effect, by its code and what it finds -/

/-- Bobbin `b` is active here, and not as a target's. -/
def State.hasSection (s : State) (b : Nat) : Bool := s.active b && s.fld GR_BMODE.MODE b != 1

theorem State.hasSection_iff {s : State} {b : Nat} : s.hasSection b = true ↔ s.fld BB_CFG.ACTIVE b = 1 ∧ s.fld GR_BMODE.MODE b ≠ 1 := by
  simp [State.hasSection, State.active, State.isSet]

theorem State.bob_of_slotOf {s : State} {role b x : Nat} (h : s.slotOf role b = some x) : s.fld GR_MIG.BOB x = b := by
  have hfound := List.find?_some (p := fun x => s.migState x != 0 && s.fld GR_MIG.ROLE x == role && s.fld GR_MIG.BOB x == b) h
  simp only [Bool.and_eq_true, beq_iff_eq] at hfound
  exact hfound.2

theorem State.freeSlot_lt {s : State} {x : Nat} (h : s.freeSlot = some x) : x < 8 :=
  List.mem_range.1 (List.mem_of_find?_eq_some h)

section
variable {v x : Nat} {s : State}

theorem takeOrder_invalid (h : v / 2 ^ 18 % 8 = 0 ∨ 6 ≤ v / 2 ^ 18 % 8) : takeOrder v s = answered v 7 0 s := by
  unfold takeOrder answered
  dsimp only
  rw [orderBob_of, orderCode_of]
  split
  case h_6 => rfl
  all_goals omega

theorem takeOrder_resume (h : v / 2 ^ 18 % 8 = 4) :
    takeOrder v s = answered v 2 0 ((s.setFld GR_STATUS.EVAC 0 0).modGraft (fun g => { g with retry := [] })) := by
  unfold takeOrder answered
  dsimp only
  rw [orderBob_of, orderCode_of, h]
  rfl

/-! #### The orders that need the bobbin here (R320, R322, R328) -/

/-- The answer to an order that starts a migration by `start` in a free slot. -/
def orderedStart (v : Nat) (start : Nat → State) (s : State) : State :=
  if !s.hasSection (v % 256) then answered v 6 0 s
  else if (s.slotOf 0 (v % 256)).any (fun x => (s.mig x).switched) then answered v 6 0 s
  else match s.slotOf 0 (v % 256), s.freeSlot with
    | none, some x => if s.isSet GR_STATUS.EVAC then answered v 5 0 s else start x
    | _, _ => answered v 5 0 s

/-- MIGRATE starts towards the node that it names. -/
def startNamed (v : Nat) (s : State) (x : Nat) : State :=
  startMig x (v % 256) 1 (v / 2 ^ 21 % 2 ^ 11) (some (v / 2 ^ 8 % 1024)) (answered v 1 0 s)

/-- MIGRATEANY starts where a coordinator is in sight. -/
def startAny (v : Nat) (s : State) (x : Nat) : State :=
  if !s.isSet GR_COORDST.VALID then (answered v 4 12 s).flag GR_STATUS.MIGABORT evGR
  else startMig x (v % 256) 2 (v / 2 ^ 21 % 2 ^ 11) none (answered v 1 0 s)

/-- The answer to CANCEL. -/
def cancelled (v : Nat) (s : State) : State :=
  if !s.hasSection (v % 256) then answered v 6 0 s
  else match s.slotOf 0 (v % 256) with
    | some x => if (s.mig x).switched then answered v 6 0 s else answered v 2 0 (endMig x 3 11 true s)
    | none => answered v 2 0 s

theorem takeOrder_migrate (h : v / 2 ^ 18 % 8 = 1) : takeOrder v s = orderedStart v (startNamed v s) s := by
  unfold takeOrder orderedStart startNamed answered
  dsimp only
  rw [orderBob_of, orderCode_of, h]
  rfl

theorem takeOrder_migrateAny (h : v / 2 ^ 18 % 8 = 2) : takeOrder v s = orderedStart v (startAny v s) s := by
  unfold takeOrder orderedStart startAny answered
  dsimp only
  rw [orderBob_of, orderCode_of, h]
  rfl

theorem takeOrder_cancel (h : v / 2 ^ 18 % 8 = 5) : takeOrder v s = cancelled v s := by
  unfold takeOrder cancelled answered
  dsimp only
  rw [orderBob_of, orderCode_of, h]
  rfl

/-- The bobbin is not here: result 6. -/
theorem takeOrder_elsewhere (h : v / 2 ^ 18 % 8 = 1 ∨ v / 2 ^ 18 % 8 = 2 ∨ v / 2 ^ 18 % 8 = 5) (hhere : ¬ s.hasSection (v % 256) = true) :
    takeOrder v s = answered v 6 0 s := by
  have hgone : (!s.hasSection (v % 256)) = true := by simpa using hhere
  obtain h | h | h := h
  · rw [takeOrder_migrate h, orderedStart, if_pos hgone]
  · rw [takeOrder_migrateAny h, orderedStart, if_pos hgone]
  · rw [takeOrder_cancel h, cancelled, if_pos hgone]

theorem cancelled_slot (hhere : s.hasSection (v % 256) = true) (hslot : s.slotOf 0 (v % 256) = some x)
    (hstays : (s.mig x).switched = false) : cancelled v s = answered v 2 0 (endMig x 3 11 true s) := by
  have hthere : ¬ (!s.hasSection (v % 256)) = true := by simp [hhere]
  rw [cancelled, if_neg hthere, hslot]
  exact if_neg (by simp [hstays])

section
variable (hhere : s.hasSection (v % 256) = true) (hslot : s.slotOf 0 (v % 256) = none)
include hhere hslot

theorem orderedStart_unslotted (start : Nat → State) :
    orderedStart v start s = match s.freeSlot with
      | some x => if s.isSet GR_STATUS.EVAC then answered v 5 0 s else start x
      | none => answered v 5 0 s := by
  have hthere : ¬ (!s.hasSection (v % 256)) = true := by simp [hhere]
  have hnone : ¬ (none : Option Nat).any (fun x => (s.mig x).switched) = true := Bool.false_ne_true
  rw [orderedStart, if_neg hthere, hslot, if_neg hnone]
  cases s.freeSlot with
  | none => rfl
  | some x => rfl

/-- No slot is free: result 5. -/
theorem orderedStart_noSlot (hfree : s.freeSlot = none) (start : Nat → State) : orderedStart v start s = answered v 5 0 s := by
  rw [orderedStart_unslotted hhere hslot, hfree]

theorem orderedStart_starts (hfree : s.freeSlot = some x) (hevac : s.fld GR_STATUS.EVAC = 0) (start : Nat → State) :
    orderedStart v start s = start x := by
  rw [orderedStart_unslotted hhere hslot, hfree]
  exact if_neg (by simp [State.isSet, hevac])

end

theorem startAny_uncoordinated (h : s.fld GR_COORDST.VALID = 0) : startAny v s x = (answered v 4 12 s).flag GR_STATUS.MIGABORT evGR :=
  if_pos (by simp [State.isSet, h])

theorem startAny_coordinated (h : s.fld GR_COORDST.VALID = 1) :
    startAny v s x = startMig x (v % 256) 2 (v / 2 ^ 21 % 2 ^ 11) none (answered v 1 0 s) :=
  if_neg (by simp [State.isSet, h])

end

/-! ### What each order shows -/

section
variable {v x : Nat} {s : State}

theorem answered_kept (v result reason : Nat) (s : State) : KeptBut resultFields s (answered v result reason s) :=
  orderResult_kept _ _ _ _ _ s

theorem answered_result {result reason : Nat} (hresult : result < 2 ^ 4) (hreason : reason < 2 ^ 4) (v : Nat) (s : State) :
    (answered v result reason s).fld GR_CMDRES.RESULT = result ∧ (answered v result reason s).migs = s.migs :=
  ⟨(answered_shows hresult hreason v s).1, orderResult_migs _ _ _ _ _ s⟩

theorem answered_agreed (v result reason : Nat) (s : State) : (answered v result reason s).agreed = s.agreed := by
  have hcommands : (answered v result reason s).commands = s.commands := orderResult_commands _ _ _ _ _ s
  generalize answered v result reason s = t at hcommands ⊢
  exact congrArg Prod.snd hcommands

/-- RESUME ends the evacuation. -/
theorem takeOrder_resume_shows (h : v / 2 ^ 18 % 8 = 4) :
    let t := takeOrder v s
    t.fld GR_CMDRES.RESULT = 2 ∧ t.fld GR_STATUS.EVAC = 0 ∧ t.migs = s.migs := by
  rw [takeOrder_resume h]
  generalize hu : (s.setFld GR_STATUS.EVAC 0 0).modGraft (fun g => { g with retry := [] }) = u
  have hevac : u.fld GR_STATUS.EVAC = 0 := by
    rw [← hu, State.modGraft_fld]
    exact State.fld_setFld_lt (by decide) 0 s
  have hmigs : u.migs = s.migs := by rw [← hu]; rfl
  obtain ⟨hresult, hleft⟩ := answered_result (result := 2) (reason := 0) (by decide) (by decide) v u
  exact ⟨hresult, (answered_kept v 2 0 u _ (by decide) 0).trans hevac, hleft.trans hmigs⟩

/-- EVACUATE with its result given, before any bobbin moves. -/
theorem evacBegun_answered (v tag : Nat) (s : State) :
    let u := answered v 2 0 (evacBegun tag s)
    u.fld GR_STATUS.EVAC = 1 ∧ u.fld GR_CMDRES.RESULT = 2 ∧ u.commands = s.commands
      ∧ ∀ d, u.fld BB_CFG.ACTIVE d = s.fld BB_CFG.ACTIVE d := by
  have hevac : (evacBegun tag s).fld GR_STATUS.EVAC = 1 := by
    rw [evacBegun, State.modGraft_fld]
    exact State.fld_setFld_lt (by decide) 0 s
  have hactive : ∀ d, (evacBegun tag s).fld BB_CFG.ACTIVE d = s.fld BB_CFG.ACTIVE d := fun d => by
    rw [evacBegun, State.modGraft_fld]
    exact State.fld_setFld_apart (by decide) _ _ _ _
  have hcommands : (evacBegun tag s).commands = s.commands := by simp [evacBegun]
  generalize evacBegun tag s = w at hevac hactive hcommands ⊢
  have hkept := answered_kept v 2 0 w
  exact ⟨(hkept _ (by decide) 0).trans hevac, (answered_result (by decide) (by decide) v w).1, (orderResult_commands _ _ _ _ _ w).trans hcommands,
    fun d => (hkept _ (by decide) d).trans (hactive d)⟩

/-- EVACUATE lasts until it is resumed; where nothing is active it is at its end. -/
theorem takeOrder_evacuate_shows (h : v / 2 ^ 18 % 8 = 3) :
    let t := takeOrder v s
    t.fld GR_STATUS.EVAC = 1 ∧ t.agreed = s.agreed
      ∧ ((∀ d, d < 256 → s.fld BB_CFG.ACTIVE d ≠ 1) → t.fld GR_CMDRES.RESULT = 2 ∧ t.fld GR_STATUS.EMPTY = 1) := by
  rw [takeOrder_evacuate h]
  obtain ⟨hevac, hresult, hcommands, hactive⟩ := evacBegun_answered v (v / 2 ^ 21 % 2 ^ 11) s
  dsimp only
  generalize answered v 2 0 (evacBegun (v / 2 ^ 21 % 2 ^ 11) s) = u at hevac hresult hcommands hactive ⊢
  have hempty := checkEmpty_kept (evacStep u)
  refine ⟨(hempty _ (by decide) 0).trans ((evacStep_kept hevac _ (by decide) 0).trans hevac),
    congrArg Prod.snd ((checkEmpty_commands _).trans ((evacStep_commands hevac).trans hcommands)), fun hnone => ?_⟩
  have hnone' : ∀ d, d < 256 → u.fld BB_CFG.ACTIVE d ≠ 1 := fun d hd => (hactive d).symm ▸ hnone d hd
  rw [evacStep_empty hevac hnone'] at hempty ⊢
  exact ⟨(hempty _ (by decide) 0).trans hresult, checkEmpty_empties hevac hnone'⟩

/-- CANCEL of a migration that has not switched ends it. -/
theorem cancelled_shows (hhere : s.hasSection (v % 256) = true) (hslot : s.slotOf 0 (v % 256) = some x)
    (hstays : (s.mig x).switched = false) :
    let t := cancelled v s
    t.fld GR_CMDRES.RESULT = 2 ∧ t.fld GR_MIG.STATE x = 0 ∧ t.fld GR_BMODE.MODE (v % 256) = 0 ∧ t.fld GR_STATUS.MIGABORT = 1 := by
  obtain ⟨hstate, hmode, habort⟩ := endMig_shows x 3 11 true s
  have hkept := answered_kept v 2 0 (endMig x 3 11 true s)
  rw [cancelled_slot hhere hslot hstays]
  rw [State.bob_of_slotOf hslot] at hmode
  exact ⟨(answered_result (by decide) (by decide) v _).1, (hkept _ (by decide) x).trans hstate, (hkept _ (by decide) _).trans hmode,
    (hkept _ (by decide) 0).trans habort⟩

/-- The start of the migration leaves the result that MIGRATE has got. -/
theorem startNamed_shows (hx : x < 8) :
    let t := startNamed v s x
    Opened x (v % 256) t ∧ t.fld GR_MIG.PEER x = v / 2 ^ 8 % 1024 ∧ t.fld GR_CMDRES.RESULT = 1 := by
  obtain ⟨hopened, hpeer, hresult⟩ := startMig_offers hx (Nat.mod_lt v (by decide : 0 < 256)) (Nat.mod_lt (v / 2 ^ 8) (by decide : 0 < 1024)) 1
    (v / 2 ^ 21 % 2 ^ 11) (answered v 1 0 s)
  exact ⟨hopened, hpeer, hresult.trans (answered_result (by decide) (by decide) v s).1⟩

theorem startAny_refused (hvalid : s.fld GR_COORDST.VALID = 0) :
    let t := startAny v s x
    t.fld GR_CMDRES.RESULT = 4 ∧ t.fld GR_CMDRES.REASON = 12 ∧ t.fld GR_STATUS.MIGABORT = 1 := by
  obtain ⟨hresult, hreason, -⟩ := answered_shows (result := 4) (reason := 12) (by decide) (by decide) v s
  rw [startAny_uncoordinated hvalid]
  exact ⟨(State.fld_flag_apart (by decide) _ _ _).trans hresult, (State.fld_flag_apart (by decide) _ _ _).trans hreason,
    State.fld_flag_self _ _ _⟩

theorem startAny_asks (hx : x < 8) (hvalid : s.fld GR_COORDST.VALID = 1) (hrole : s.fld GR_COORDST.ROLE ≠ 1) :
    let t := startAny v s x
    Opened x (v % 256) t ∧ (t.mig x).waits = true ∧ t.fld GR_CMDRES.RESULT = 1 := by
  have hkept := answered_kept v 1 0 s
  rw [startAny_coordinated hvalid]
  obtain ⟨hopened, hwaits, hresult⟩ := startMig_waits hx (Nat.mod_lt v (by decide : 0 < 256)) 2 (v / 2 ^ 21 % 2 ^ 11)
    ((hkept _ (by decide) 0).trans hvalid) (fun h => hrole ((hkept _ (by decide) 0).symm.trans h))
  exact ⟨hopened, hwaits, hresult.trans (answered_result (by decide) (by decide) v s).1⟩

end

/-! ### A retry of an evacuation (R330) -/

theorem State.evacuable_iff {s : State} {n : Nat} :
    s.evacuable n = true ↔ s.fld BB_CFG.ACTIVE n = 1 ∧ s.fld GR_BMODE.MODE n = 0 ∧ ∀ q ∈ s.graft.retry, q.1 ≠ n := by
  simp [State.evacuable, State.active, State.isSet, and_assoc]

/-- The state with the retry `r` taken. -/
def retryTaken (r : Nat × Nat) (s : State) : State := s.modGraft (fun g => { g with retry := g.retry.erase r })

theorem exec_evacuationRetry {d : BitVec 8} {r : Nat × Nat} {s : State} (hv : s.canVote = true)
    (h : s.graft.retry.find? (fun r => r.1 == d.toNat && decide (r.2 ≤ s.cycle)) = some r) :
    exec (.evacuationRetry d) s = .next (evacStep (retryTaken r s)) := by
  have hfind : s.graft.retry.find? (fun r => r.1 == d.toNat && s.canVote && decide (r.2 ≤ s.cycle)) = some r := by
    simpa [hv] using h
  change execEvacuationRetry d s = _
  unfold execEvacuationRetry
  rw [hfind]
  rfl

/-- Settles O31: each code of GR_CMD by what it finds, and a retry by whether the evacuation lasts. -/
theorem migrationOrders : Obligations.MigrationOrders := by
  unfold Obligations.MigrationOrders
  intro s v x b code c here
  refine ⟨fun hagreed hv hreset => ?orders, fun d r hv hretry => ⟨fun hevac => ?ended,
    fun hevac hactive hmode hdone hothers hfree hvalid hrole => ?again⟩⟩
  case orders =>
    let u : State := { s with agreed := s.agreed.erase (GR_CMD.addr, v) }
    have hexec : exec c s = .next (takeOrder v u) := exec_order hagreed hv hreset
    have hhere : here ↔ u.hasSection b = true := State.hasSection_iff.symm
    refine ⟨fun h => ?invalid, fun h => ⟨_, hexec, takeOrder_resume_shows (s := u) h⟩,
      fun h => ⟨_, hexec, takeOrder_evacuate_shows (s := u) h⟩, fun h hgone => ?elsewhere, fun h hthere hslot hfree => ?noSlot,
      fun h hthere hslot hfree hevac => ?migrate,
      fun h hthere hslot hfree hevac => ⟨fun hvalid => ?uncoordinated, fun hvalid hrole => ?migrateAny⟩,
      fun h hthere hslot hstays => ⟨_, hexec.trans (congrArg _ (takeOrder_cancel h)), cancelled_shows (s := u) (hhere.1 hthere) hslot hstays⟩⟩
    case invalid =>
      obtain ⟨hresult, -, hbob, hcode, htag, hdone, hcmd⟩ := answered_shows (result := 7) (reason := 0) (by decide) (by decide) v u
      exact ⟨_, hexec.trans (congrArg _ (takeOrder_invalid h)), hresult, hbob, hcode, htag, hdone, hcmd,
        answered_agreed v 7 0 u⟩
    case elsewhere =>
      exact ⟨_, hexec.trans (congrArg _ (takeOrder_elsewhere h (fun hu => hgone (hhere.2 hu)))),
        answered_result (by decide) (by decide) v u⟩
    case noSlot =>
      have hstart := orderedStart_noSlot (s := u) (hhere.1 hthere) hslot hfree
      have htaken : takeOrder v u = answered v 5 0 u :=
        h.elim (fun h => (takeOrder_migrate h).trans (hstart _)) (fun h => (takeOrder_migrateAny h).trans (hstart _))
      exact ⟨_, hexec.trans (congrArg _ htaken), answered_result (by decide) (by decide) v u⟩
    case migrate =>
      have hstart := orderedStart_starts (s := u) (hhere.1 hthere) hslot hfree hevac (startNamed v u)
      obtain ⟨hopened, hpeer, hresult⟩ := startNamed_shows (v := v) (s := u) (State.freeSlot_lt hfree)
      exact ⟨_, hexec.trans (congrArg _ ((takeOrder_migrate h).trans hstart)), hresult, hopened.state, hopened.role, hopened.bob, hpeer,
        hopened.mode, hopened.slot, hopened.started⟩
    case uncoordinated =>
      have hstart := orderedStart_starts (s := u) (hhere.1 hthere) hslot hfree hevac (startAny v u)
      exact ⟨_, hexec.trans (congrArg _ ((takeOrder_migrateAny h).trans hstart)), startAny_refused (s := u) hvalid⟩
    case migrateAny =>
      have hstart := orderedStart_starts (s := u) (hhere.1 hthere) hslot hfree hevac (startAny v u)
      obtain ⟨hopened, hwaits, hresult⟩ := startAny_asks (v := v) (s := u) (State.freeSlot_lt hfree) hvalid hrole
      exact ⟨_, hexec.trans (congrArg _ ((takeOrder_migrateAny h).trans hstart)), hresult, hopened.state, hopened.mode, hwaits⟩
  case ended => exact ⟨_, (exec_evacuationRetry hv hretry).trans (congrArg _ (evacStep_off (s := retryTaken r s) hevac)), rfl, rfl⟩
  case again =>
    have hone : ∀ n, n < 256 → ((retryTaken r s).evacuable n = true ↔ n = d.toNat) := fun n hn => by
      refine State.evacuable_iff.trans ⟨fun ⟨hon, hnormal, hfresh⟩ => ?_, fun hn => hn ▸ ⟨hactive, hmode, hdone⟩⟩
      by_contra hne
      obtain ⟨q, hq, hqn⟩ := hothers n hn hne hon hnormal
      exact hfresh q hq hqn
    have hstep := evacStep_single (s := retryTaken r s) hevac d.isLt hfree hone
    obtain ⟨hopened, hwaits, -⟩ := startMig_waits (s := retryTaken r s) (State.freeSlot_lt hfree) d.isLt 3 s.graft.evacTag hvalid hrole
    exact ⟨_, (exec_evacuationRetry hv hretry).trans (congrArg _ hstep), hopened.state, hopened.bob, hopened.role, hopened.mode, hwaits⟩

end Sys2Proof.Machine
end

section
/-! PROOFS. An OWN entry whose block of the canopy has a correctable error corrects that block, and the correction is counted (08 R336,
11 R434, R435). -/

namespace Sys2Proof.Machine

/-! ### A message for this node (R332) -/

/-- A clustered node whose Heartwood votes acts on another node's message for it, a bridge after it has copied the message on. -/
theorem takeMsg_taken {s : State} {m : GMsg} (hv : s.canVote = true) (hvc : s.fld GR_COORD.VC = 1) (horg : m.origin.toNat ≠ s.me)
    (hdst : m.bcast = true ∨ m.dst.toNat = s.me) {r : Nat} (hstays : s.crosses r m = false) (ty : Nat) (f : State → State) :
    takeMsg ty r m f s = .next (f s) := by
  have hclustered : s.clustered = true := beq_iff_eq.2 hvc
  unfold takeMsg
  rw [if_neg (by simp [hclustered, hv, horg]), hstays]
  exact if_pos (by simpa using hdst)

/-! ### A voted write into a block with one wrong bit (R434, R435) -/

theorem writeSpan_within {inp k : Nat} {l : List Byte} (hsome : 0 < l.length) (hin : k % 16 + l.length ≤ 16) (s : State) :
    (writeSpan inp k l s).2 = (writePart inp k l (k / 16 * 16) s).2 := by
  have hone : (k % 16 + l.length + 15) / 16 = 1 := by omega
  unfold writeSpan
  rw [hone]
  rfl

theorem partOf_length_le (k : Nat) (l : List Byte) (a : Nat) : (partOf k l a).length ≤ l.length := by
  simp only [partOf, List.length_take, List.length_drop]
  omega

theorem State.mergeBlock_of_one {inp k : Nat} {s : State} (h : s.badBits k = 1) : s.mergeBlock inp k = (true, s.correct k) := by
  simp only [State.mergeBlock, h]

/-- A word written into a block with one wrong bit has that block corrected first. -/
theorem votedWr_of_one {k : Nat} (hin : k % 16 + 4 ≤ 16) {s : State} (h : s.badBits (k / 16 * 16) = 1) (v : Nat) :
    (votedWr k 4 v s).regs = (s.correct (k / 16 * 16)).regs := by
  have hlen : (bytesOf 4 v).length = 4 := rfl
  have hpart : (partOf k (bytesOf 4 v) (k / 16 * 16)).length ≠ 16 := by
    have := partOf_length_le k (bytesOf 4 v) (k / 16 * 16)
    omega
  unfold votedWr
  rw [writeSpan_within (hlen.symm ▸ by decide) (hlen.symm ▸ hin), writePart_eq, if_neg hpart, State.mergeBlock_of_one h, if_pos rfl,
    State.wrL_frame]

/-- OWN with one entry, of a listed endpoint, at a node that learns and has no pricking of the ring. -/
theorem exec_own_single {r : Fin 2} {m : GMsg} {s : State} (hv : s.canVote = true) (hvc : s.fld GR_COORD.VC = 1)
    (horg : m.origin.toNat ≠ s.me) (hdst : m.bcast = true ∨ m.dst.toNat = s.me) (hstays : s.crosses r.val m = false)
    (hlearn : s.fld GR_STATUS.LEARN = 1) (hlen : m.body.length = 4) (hlisted : bitsOf (fle m.body 0 4) 8 17 < s.fld GR_CANOPY.NEND)
    (hring : s.prick r.val = none) :
    let e := bitsOf (fle m.body 0 4) 8 17
    exec (.own r m) s
      = .next (setOwner e m.origin.toNat ((s.homeRing m.origin.toNat).getD 0) (fle m.body 0 4 % 256) (epMig (s.endpoint e)) s) := by
  have hone : List.range (min 16 (m.body.length / 4)) = [0] := by rw [hlen]; rfl
  intro e
  change execOwn r m s = _
  unfold execOwn
  refine (takeMsg_taken hv hvc horg hdst hstays 0x0D _).trans (congrArg Host.Outcome.next ?_)
  rw [if_neg (by simp [State.isSet, hlearn]), hring, hone, forEach_cons, forEach_nil]
  exact if_pos hlisted

/-! ### The refuting state -/

/-- A clustered node that learns, whose endpoint table holds endpoint 0 alone, in a block with one wrong bit. -/
def ownerBlockWrong : State :=
  { State.reset with regs := [(GR_STATUS.LEARN.key 0, 1), (GR_COORD.VC.key 0, 1), (GR_CANOPY.NEND.key 0, 1)],
                     errs := [(canopyAddr 0 / 16, 1)] }

/-- OWN of node 10 for its endpoint 0, to every node. -/
def ownOfTen : GMsg := { seg := 0, dst := 0, bcast := true, term := 0, sbob := 0, origin := 10, body := List.replicate 4 0#8 }

/-- Refutes O32: the block of the endpoint that OWN rewrites has one wrong bit, and MI_CE counts its correction, so that a register changes. -/
theorem not_graftMessagesTakeEffect : ¬ Obligations.GraftMessagesTakeEffect := by
  unfold Obligations.GraftMessagesTakeEffect
  intro h
  have hv : ownerBlockWrong.canVote = true := by decide +kernel
  have hvc : ownerBlockWrong.fld GR_COORD.VC = 1 := by decide +kernel
  have horg : ownOfTen.origin.toNat ≠ ownerBlockWrong.me := by decide +kernel
  have hlearn : ownerBlockWrong.fld GR_STATUS.LEARN = 1 := by decide +kernel
  have hlisted : bitsOf (fle ownOfTen.body 0 4) 8 17 < ownerBlockWrong.fld GR_CANOPY.NEND := by decide +kernel
  obtain ⟨hmessages, -⟩ := h ownerBlockWrong 0 ownOfTen 0 0 0
  obtain ⟨-, -, -, -, -, -, -, -, -, -, -, -, -, -, hown⟩ := hmessages hv hvc horg (.inl rfl)
  obtain ⟨t, hexec, hregs, -⟩ := hown hlearn rfl hlisted (by decide +kernel)
  rw [exec_own_single hv hvc horg (.inl rfl) (by decide +kernel) hlearn rfl hlisted (by decide +kernel)] at hexec
  obtain rfl := Host.Outcome.next.inj hexec
  have hblock : ownerBlockWrong.badBits (canopyAddr 0 / 16 * 16) = 1 := by decide +kernel
  have hcorrected : (ownerBlockWrong.correct (canopyAddr 0 / 16 * 16)).regs = ownerBlockWrong.regs :=
    (votedWr_of_one (by decide) hblock _).symm.trans hregs
  have hcounted : (ownerBlockWrong.correct (canopyAddr 0 / 16 * 16)).fld MI_CE.CE1 (kindOfKey (canopyAddr 0 / 16 * 16)) = 1 := by
    decide +kernel
  rw [State.fld_of_regs hcorrected] at hcounted
  exact absurd hcounted (by decide +kernel)

end Sys2Proof.Machine
end

section
/-! PROOFS. The installation of a snapshot waits while another requester holds the lock of the target's bobbin (04 R207, 08 R325). -/

namespace Sys2Proof.Machine

theorem exec_install_of_locked {x : Fin 8} {s : State} (h : s.lockedFor .hw (s.fld GR_MIG.BOB x.val) = true) :
    exec (.install x) s = .next s :=
  if_neg (by simp [h])

/-- A target collecting in slot 0 whose snapshot is whole, while a host holds the lock of its bobbin 0. -/
def targetLocked : State :=
  { State.reset with regs := [(GR_MIG.STATE.key 0, 2), (GR_MIG.ROLE.key 0, 1)],
                     migs := [(0, { MigSt.reset with bytes := List.replicate 528 0#8 })],
                     locks := [(0, some { who := .host 0, since := 0 })] }

/-- Refutes O33: the snapshot of a target whose bobbin a host has locked is whole, and is not installed yet. -/
theorem not_migrationsRunThroughTheirSteps : ¬ Obligations.MigrationsRunThroughTheirSteps := by
  unfold Obligations.MigrationsRunThroughTheirSteps
  intro h
  have hlocked : targetLocked.lockedFor .hw (targetLocked.fld GR_MIG.BOB (0 : Fin 8).val) = true := by decide +kernel
  have hcollects : targetLocked.migState (0 : Fin 8).val = 2 := by decide +kernel
  obtain ⟨-, -, hinstall, -⟩ := h targetLocked 0 0 0 (by decide +kernel) (by decide +kernel)
  obtain ⟨t, hexec, hstate, -⟩ := hinstall hcollects (by decide +kernel) (by decide +kernel)
  rw [exec_install_of_locked hlocked] at hexec
  obtain rfl := Host.Outcome.next.inj hexec
  exact absurd (hcollects.symm.trans hstate) (by decide)

end Sys2Proof.Machine
end
